-- ==== Sys2Proof/Word.lean ====
section
/-!
DEFINITION. The word types of the register and ring interfaces.
-/
namespace Sys2Proof

/-- One 32-bit register (R689). -/
abbrev Word := BitVec 32

/-- One byte of a descriptor, a completion, the Deck or host memory. -/
abbrev Byte := BitVec 8

end Sys2Proof
end

