-- ==== Sys2Proof/Syntax.lean ====
section
/-!
DEFINITION. The commands of the block: one constructor per row of spec/opcode_table.json, with the row's operands.
`t` is the device time at which a command reaches the device; a command that falls at an instant the device itself fixes
(a span boundary, the sample instant, the compute deadline) carries none. What the device measures or receives from
outside (a sensor, a wire, a packet, host memory) is an operand.
-/
namespace Sys2Proof

/-- The content of one Soesk descriptor (Tables 04-2 and 04-3), with the submission ring it came from. `hdrRsvd` holds the
reserved header bytes and bits. `params` is the parameter area: 20 bytes in S1, 32 in S2. -/
structure Desc where
  tenant : Fin 256
  sq : Fin 16
  s2 : Bool
  op : Byte
  flags : Byte
  tag : BitVec 16
  cls : Byte
  hdrRsvd : BitVec 64
  deadline : BitVec 48
  applySpan : BitVec 48
  cookie : BitVec 64
  params : List Byte
  deriving DecidableEq, Repr

/-- What a descriptor fetch returned (R131, R134). -/
inductive Fetched where
  | data (bytes : List Byte)
  | error
  deriving DecidableEq, Repr

/-- Where a host write lands in a function's spaces (R686, R650): a BAR offset, the Command register, the MSI-X control
word, or the PTM control word of configuration space. -/
inductive Target where
  | bar0 (off : Nat)
  | bar2 (off : Nat)
  | bar4 (off : Nat)
  | command
  | msixControl
  | ptmControl
  deriving DecidableEq, Repr

/-- A negotiated PCIe rate (R665). -/
inductive LinkRate where
  | g2_5 | g5 | g8 | g16 | g32
  deriving DecidableEq, Repr

/-- A negotiated PCIe width (R665). -/
inductive LinkWidth where
  | x1 | x2 | x4 | x8
  deriving DecidableEq, Repr

/-- A PWM channel: a leg of a bridge group (phase legs 0 to 3), a leg of a PWMX set, or an AUX channel (Table 15-1). -/
inductive PwmChan where
  | bridge (g : Fin 16) (leg : Fin 4)
  | pwmx (n : Fin 32) (leg : Fin 3)
  | aux (a : Fin 16)
  deriving DecidableEq, Repr

/-- The logic rails of Table 17-6. -/
inductive Rail where
  | vcore | vdeck | vio18 | vio33 | pciePhy085 | pciePhy12 | mipiPhy12
  deriving DecidableEq, Repr

/-- The field supplies of R649. -/
inductive FieldRail where
  | vgdA | vgdB | vvA | vvB
  deriving DecidableEq, Repr

/-- What is wrong with the clock (R638). -/
inductive ClockCause where
  | refclk | pllLock
  deriving DecidableEq, Repr

/-- The header and check results of a firmware image as it stands in a flash slot (Table 18-4, R655). -/
structure Image where
  magicOk : Bool
  bodyLen : Nat
  svn : Nat
  version : Nat
  steppings : Nat
  sigOk : Bool
  deriving DecidableEq, Repr

/-- How the host reads and the flash programming of a STAGE went (R675, R676). -/
inductive StageOutcome where
  | copied (img : Image)
  | readFailed
  | flashFailed
  deriving DecidableEq, Repr

/-- What the scrubber finds in the word it reads (R253, R254). -/
inductive Ecc where
  | clean | corrected | uncorrectable
  deriving DecidableEq, Repr

/-- An error the Deck's error correction finds in a read: its page and 64-bit word, and whether it is beyond correction
(R253, R254). -/
structure DeckErr where
  page : Nat
  word : Nat
  ue : Bool
  deriving DecidableEq, Repr

/-- A data item a producer offers to a device queue (R208, Table 06-2): its source, time, payload bytes and, for a
particle, its lane. `done` is false while the producer is part-way through its cells (R228). -/
structure Offer where
  src : Nat
  time : Nat
  payload : List Byte
  lane : Nat
  done : Bool
  deriving DecidableEq, Repr

/-- What the engine that ran a slice received from outside: host data read by DMA, the errors the Deck found (R254), and in
`items` how many items a read that has not come to the end of its slice has copied whole so far (R229), 0 when the slice
ran to its end. -/
structure SliceResult where
  data : List Byte
  errs : List DeckErr
  items : Nat
  deriving DecidableEq, Repr

/-- What the sense converters return at a sample instant (R17), 0 where a list ends: the current of each footing leg by
half-bridge number 4 × group + leg and of each modulator by 2 × pier (U) and 2 × pier + 1 (V), in Q1.15 of full scale, and the
bus sense of each group in mV. -/
structure Measured where
  legs : List Int
  xsd : List Int
  buses : List Nat
  deriving DecidableEq, Repr

/-- A CSI-2 packet header as received (R237): good, corrected, or beyond correction. -/
inductive HdrCheck where
  | good | corrected | bad
  deriving DecidableEq, Repr

/-- What makes a valve channel fault (R338), in the order of `VALVE_LAT_NOW.CAUSE`. -/
inductive ValveCause where
  | short | openLoad | undervoltage | overtemp
  deriving DecidableEq, Repr

/-- What link-up learns of one Trestle node (R355): its version, and its delays from port A and port B in 1/16 tick. -/
structure NodeInfo where
  version2 : Bool
  delayE : Nat
  delayW : Nat
  deriving DecidableEq, Repr

/-- One shot report of a sweep reply (Table 10-1). -/
structure ShotReport where
  output : Fin 32
  dipFound : Bool
  fault : Bool
  value : Nat
  deriving DecidableEq, Repr

/-- One reply segment as it arrived (Table 10-1): the node, whether its CRC is good, the link flags, the management result
and value, the shot reports and the signature samples. -/
structure Reply where
  node : Fin 16
  crcOk : Bool
  flags : Nat
  mgmtResult : Nat
  mgmtValue : Nat
  reports : List ShotReport
  sigOutput : Nat
  sig : List Nat
  deriving DecidableEq, Repr

/-- The half of a sweep a frame belongs to (R363). -/
inductive SweepHalf where
  | east | west
  deriving DecidableEq, Repr

/-- What a serial feedback channel receives in one transaction (R394, R398, R401): an SSI word with its parity bit and
whether the data line was low before the clock, or the bytes of an ESS response, whether framing, gap or length failed, and
whether it began late. -/
inductive SerRx where
  | ssi (lineLow : Bool) (word : Nat) (parity : Bool)
  | ess (bytes : List Byte) (framing late : Bool)
  deriving DecidableEq, Repr

/-- The registers of a pier whose write sets or clears ALIGNED (R432). -/
inductive CommReg where
  | commOff | motor | cpr | fb
  deriving DecidableEq, Repr

/-- A bridge group or PWMX set as a leg set (chapter 15). -/
inductive StageId where
  | bridge (g : Fin 16)
  | pwmx (n : Fin 32)
  deriving DecidableEq, Repr

/-- A CAN frame (Table 16-3). Format: 0 classic, 1 FD, 2 XL. For a remote frame `len` is the DLC and `data` is empty. -/
structure CanFrame where
  fmt : Nat
  ide : Bool
  rtr : Bool
  brs : Bool
  esi : Bool
  sec : Bool
  id : Nat
  len : Nat
  data : List Byte
  sdt : Nat
  vcid : Nat
  af : Nat
  deriving DecidableEq, Repr

/-- The identifier of a CAN arbitration winner with its format bits (Table 16-2). -/
structure CanWinner where
  id : Nat
  ide : Bool
  rtr : Bool
  fdf : Bool
  xlf : Bool
  deriving DecidableEq, Repr

/-- The error kinds of R600, in the order of its codes 1 to 5. -/
inductive CanErr where
  | bit | stuff | crc | form | ack
  deriving DecidableEq, Repr

/-- The adaptive core voltage at one evaluation (R730, R732): the worst slack in percent, the VCORE sense in mV, and whether
the regulator acknowledged. -/
structure AvsIn where
  slack : Nat
  senseMv : Nat
  ack : Bool
  deriving DecidableEq, Repr

/-- The commands of the block, one per row of spec/opcode_table.json. -/
inductive Instr where
  -- Device time and the span; register access; timing references (chapters 01, 19, 02)
  | porstNAssert
  | porstNRelease
  | timebasePllLock
  | spanBoundary
  | spanCfgWrite (t : Nat) (value : Word)
  | sampleInstant (m : Measured)
  | computeDeadline (missed : List (Fin 32))
  | pwmPeriodStart (t : Nat) (ch : PwmChan)
  | loadAllDoorbell (t : Nat) (tn : Fin 256) (width align : Nat)
  | loRegisterRead (t : Nat) (fn : Fin 256) (off len : Nat)
  | w1cClear (t : Nat) (fn : Fin 256) (off : Nat) (value : Word) (hwSets : Word)
  | registerWrite (t : Nat) (fn : Fin 256) (target : Target) (data : List Byte) (busBusy : Bool)
  | holdoverExpiry
  | syncInEdge (t64 : Nat) (yCand : Int)
  | syncInLost
  | syncLenMismatch
  | syncOutPulseEnd (t : Nat)
  | ptmRequest
  | ptmExchangeDone (t : Nat) (hostNs : Nat) (residual64 : Nat) (yCand : Int)
  | ptmTimeout
  -- Tenants, grants, attach and detach (chapters 03, 18, 19)
  | grantCommitWrite (t : Nat) (value : Word)
  | grantCommitCheck
  | grantLoad (t : Nat) (tn : Fin 256)
  | grantLoadClear (t : Nat) (tn : Fin 256)
  | attach (t : Nat) (tn : Fin 256)
  | attachEvaluation (tn : Fin 256)
  | detach (t : Nat) (tn : Fin 256)
  | detachComplete (t : Nat) (tn : Fin 256)
  | release (t : Nat) (tn : Fin 256) (value : Word)
  | linkDown (t : Nat)
  | perstNAssert (t : Nat)
  | perstNRelease (t : Nat)
  | linkTrained (t : Nat) (w : LinkWidth) (r : LinkRate)
  | linkRetrain (t : Nat) (w : LinkWidth) (r : LinkRate)
  | flr (t : Nat) (fn : Fin 256)
  | busMasterEnableClear (t : Nat) (fn : Fin 256)
  | vfEnableClear (t : Nat)
  | heartbeatExpiry (tn : Fin 256)
  | orphanEntry (tn : Fin 256)
  | orphanLimitExpiry (tn : Fin 256)
  | tnHeartbeat (t : Nat) (tn : Fin 256)
  | nop (t : Nat) (d : Desc)
  | heartbeat (t : Nat) (d : Desc)
  | tenantHold (t : Nat) (d : Desc)
  | holdTakesEffect (tn : Fin 256)
  | tenantHoldDone (tn : Fin 256)
  | tenantRelease (t : Nat) (d : Desc)
  | publish (t : Nat) (d : Desc)
  | loadAll (t : Nat) (d : Desc)
  | holdOtherHold (t : Nat) (d : Desc)
  | holdOtherRelease (t : Nat) (d : Desc)
  -- Soesk rings (chapter 04)
  | sqTailDoorbell (t : Nat) (tn : Fin 256) (off width value : Nat)
  | cqHeadDoorbell (t : Nat) (tn : Fin 256) (off width value : Nat)
  | sqEnable (t : Nat) (tn : Fin 256) (n : Fin 16) (value : Word)
  | sqDisable (t : Nat) (tn : Fin 256) (n : Fin 16) (value : Word)
  | cqEnable (t : Nat) (tn : Fin 256) (n : Fin 16) (value : Word)
  | cqDisable (t : Nat) (tn : Fin 256) (n : Fin 16) (value : Word)
  | descriptorFetch (t : Nat) (tn : Fin 256) (n : Fin 16) (got : Fetched)
  | applySpanAdmission (job : Nat)
  | fenceAdmission (t : Nat) (job : Nat)
  | cqAgeExpiry (tn : Fin 256) (n : Fin 16)
  | msixVectorUnmask (t : Nat) (fn : Fin 256) (v : Fin 128)
  -- Keystone (chapter 05)
  | shed (job : Nat)
  | bShed (job : Nat)
  | sliceComplete (t : Nat) (job : Nat) (tus : List Nat) (r : SliceResult)
  -- Device queues (chapter 06)
  | queueOffer (t : Nat) (tn : Fin 256) (q : Fin 64) (it : Offer)
  | qEnable (t : Nat) (tn : Fin 256) (q : Fin 64) (value : Word)
  | qDisable (t : Nat) (tn : Fin 256) (q : Fin 64) (value : Word)
  | qCtrlFlush (t : Nat) (tn : Fin 256) (q : Fin 64)
  | queueRead (t : Nat) (d : Desc)
  | queueMark (t : Nat) (d : Desc)
  | queueRewind (t : Nat) (d : Desc)
  | queueRelease (t : Nat) (d : Desc)
  | queueFlush (t : Nat) (d : Desc)
  -- Cameras and the Deck (chapter 07)
  | camEnable (t : Nat) (c : Fin 8) (value : Word)
  | camVcRingEnable (t : Nat) (c : Fin 8) (v : Fin 4) (value : Word)
  | deskewReceived (t : Nat) (c : Fin 8)
  | frameStart (t : Nat) (c : Fin 8) (v : Fin 4) (h : HdrCheck)
  | longPacket (t : Nat) (c : Fin 8) (v : Fin 4) (h : HdrCheck) (dt : Nat) (pixels : List Nat) (crcOk : Bool)
  | frameEnd (t : Nat) (c : Fin 8) (v : Fin 4) (h : HdrCheck)
  | camTrigRise (t : Nat) (c : Fin 8)
  | camTrigPulseEnd (t : Nat) (c : Fin 8)
  | exposureEvent (t : Nat) (c : Fin 8)
  | portLost (c : Fin 8)
  | deckScrubRead (t : Nat) (ecc : Ecc)
  | camTrigger (t : Nat) (d : Desc)
  | frameRead (t : Nat) (d : Desc)
  | frameReadCopyDone (t : Nat) (job : Nat)
  -- Vision engines (chapter 08)
  | pyramidDone (t : Nat) (p : Fin 32) (errs : List DeckErr)
  | motionEstimationDone (t : Nat) (p : Fin 32)
  | blobClassifyDone (t : Nat) (p : Fin 32)
  | trackerRun (t : Nat) (p : Fin 32)
  | visStart (t : Nat) (d : Desc)
  | visStop (t : Nat) (d : Desc)
  | visStopDone (t : Nat) (p : Fin 32)
  | visClassLoad (t : Nat) (d : Desc)
  | visBgCapture (t : Nat) (d : Desc)
  | visParam (t : Nat) (d : Desc)
  -- Arc unit, event wheel and valves (chapter 09)
  | nrEnable (t : Nat) (r : Fin 16) (value : Word)
  | nrDisable (t : Nat) (r : Fin 16) (value : Word)
  | ejectStart (t : Nat) (d : Desc)
  | ejectStop (t : Nat) (d : Desc)
  | ejectTrim (t : Nat) (d : Desc)
  | valveTest (t : Nat) (d : Desc)
  | ejectAt (t : Nat) (d : Desc)
  | valveLatSet (t : Nat) (d : Desc)
  | valveSig (t : Nat) (d : Desc)
  | valveClear (t : Nat) (d : Desc) (pathRestored : Bool)
  | arcFit (t : Nat) (r : Fin 16)
  | eventInsert (t : Nat)
  | valveOpen (t : Nat) (v : Fin 64)
  | valvePeakEnd (t : Nat) (v : Fin 64)
  | valveClose (t : Nat) (v : Fin 64) (samples : List Nat)
  | valveFault (t : Nat) (v : Fin 64) (cause : ValveCause)
  | valveEnable (t : Nat) (v : Fin 576) (value : Word)
  | valveDisable (t : Nat) (v : Fin 576) (value : Word)
  -- The Trestle ring (chapter 10)
  | trestleEnable (t : Nat) (value : Word)
  | linkUpDone (t : Nat) (nodes : List NodeInfo) (hops : List Nat) (closed : Bool)
  | linkUpTimeout
  | edgeFreeze (t : Nat)
  | sweepSend (t : Nat)
  | sweepReturn (t : Nat) (half : SweepHalf) (wrappedAt : Option (Fin 16)) (frameCrcOk : Bool) (replies : List Reply)
  | westHalfSend (t : Nat)
  | hopBreak (t : Nat) (hop : Fin 17)
  | hopRejoin (t : Nat) (hop : Fin 17) (nodes : List NodeInfo)
  | trSweepReport (t : Nat) (d : Desc)
  | trNodeRead (t : Nat) (d : Desc)
  | trNodeWrite (t : Nat) (d : Desc)
  | trRelink (t : Nat) (d : Desc)
  -- Feedback channels and EMU outputs (chapter 11)
  | fbEnable (t : Nat) (n : Fin 40) (value : Word)
  | quadratureEdge (t : Nat) (n : Fin 40) (a b : Bool)
  | emuPulseEnd (t : Nat) (e : Fin 8)
  | indexEdge (t : Nat) (n : Fin 40)
  | hallCodeChange (t : Nat) (n : Fin 40) (code : Fin 8)
  | hallFault (t : Nat) (n : Fin 40)
  | hallFaultClear (t : Nat) (n : Fin 40)
  | serialTransactionStart (t : Nat) (n : Fin 40)
  | serialTransactionDone (t : Nat) (n : Fin 40) (rx : SerRx)
  | startTimeout (t : Nat) (n : Fin 40) (lineLow : Bool)
  | still (t : Nat) (n : Fin 40)
  | fbSetPos (t : Nat) (d : Desc)
  | fbStream (t : Nat) (d : Desc)
  | fbEssRead (t : Nat) (d : Desc)
  | fbEssWrite (t : Nat) (d : Desc)
  | emuEnable (t : Nat) (e : Fin 8) (value : Word)
  | emuStart (t : Nat) (d : Desc)
  | emuStop (t : Nat) (d : Desc)
  -- Piers (chapter 12)
  | pierEnable (t : Nat) (d : Desc)
  | pierDisable (t : Nat) (d : Desc)
  | pierAlign (t : Nat) (d : Desc)
  | pierAlignDone (t : Nat) (p : Fin 32)
  | pierMove (t : Nat) (d : Desc)
  | pierJog (t : Nat) (d : Desc)
  | pierTorque (t : Nat) (d : Desc)
  | pierStop (t : Nat) (d : Desc)
  | pierCoef (t : Nat) (d : Desc)
  | pierFilter (t : Nat) (d : Desc)
  | pierVolt (t : Nat) (d : Desc)
  | pierClear (t : Nat) (d : Desc)
  | pierCommOffWrite (t : Nat) (p : Fin 32) (reg : CommReg) (value : Word)
  -- Paths, stays, cams and latches (chapter 13)
  | profileMove (t : Nat) (d : Desc)
  | axisStopCfg (t : Nat) (d : Desc)
  | groupOpen (t : Nat) (d : Desc)
  | groupClose (t : Nat) (d : Desc)
  | segAppend (t : Nat) (d : Desc)
  | groupCtrlStop (t : Nat) (d : Desc)
  | groupCtrlHold (t : Nat) (d : Desc)
  | groupCtrlResume (t : Nat) (d : Desc)
  | groupCtrlOverride (t : Nat) (d : Desc)
  | stayOpen (t : Nat) (d : Desc)
  | stayEngage (t : Nat) (d : Desc)
  | stayRelease (t : Nat) (d : Desc)
  | stayClose (t : Nat) (d : Desc)
  | stayCoastExpiry (y : Fin 64)
  | camLoad (t : Nat) (d : Desc)
  | latchArm (t : Nat) (d : Desc)
  | latchDisarm (t : Nat) (d : Desc)
  | linkInfo (t : Nat) (d : Desc)
  | probeEdge (t : Nat) (i : Fin 16) (rising : Bool)
  -- Step generators and limits (chapter 14)
  | sgEnable (t : Nat) (d : Desc)
  | sgDisable (t : Nat) (d : Desc)
  | sgMove (t : Nat) (d : Desc)
  | sgJog (t : Nat) (d : Desc)
  | sgStop (t : Nat) (d : Desc)
  | sgSetPos (t : Nat) (d : Desc)
  | sgRate (t : Nat) (d : Desc)
  | sgCoil (t : Nat) (d : Desc)
  | sgClear (t : Nat) (d : Desc)
  | stepEmit (t : Nat) (n : Fin 16)
  | stepPulseEnd (t : Nat) (n : Fin 16)
  | sgStandstill (n : Fin 16)
  | limitInput (t : Nat) (i : Fin 48) (high : Bool)
  -- PWM and gate drive (chapter 15)
  | pwmCompareEdge (t64 : Nat) (ch : PwmChan) (bootMv : Nat) (sense : Int)
  | desat (t : Nat) (g : Fin 16) (leg : Fin 4) (high : Bool) (mv : Nat)
  | overcurrent (t : Nat) (g : Fin 16) (leg : Fin 4) (current : Int)
  | busOv (t : Nat) (g : Fin 16) (mv : Nat)
  | gateUv (t : Nat) (f : Fin 2) (mv : Nat)
  | footingOvertemp (t : Nat) (f : Fin 2) (tempC : Int)
  | xflt (t : Nat) (n : Fin 32) (low : Bool)
  | gdEnLow (t : Nat) (f : Fin 2)
  | gdEnHigh (t : Nat) (f : Fin 2)
  | ginChange (t : Nat) (g : Fin 16) (code : Fin 8)
  | pwmxDriveWrite (t : Nat) (n : Fin 32) (value : Word)
  | pwmRaw (t : Nat) (d : Desc)
  | gateMask (t : Nat) (d : Desc)
  | pwmHalt (t : Nat) (d : Desc)
  | pwmResume (t : Nat) (d : Desc)
  | pwmRestart
  | auxDuty (t : Nat) (d : Desc)
  | blockDuty (t : Nat) (d : Desc)
  | groupInfo (t : Nat) (d : Desc)
  | frozenOnExpiry (t : Nat) (x : StageId)
  -- CAN (chapter 16)
  | canTx (t : Nat) (d : Desc) (hostData : List Byte)
  | canTxXl (t : Nat) (d : Desc)
  | canTxXlDataArrival (t : Nat) (job : Nat) (data : List Byte)
  | canFilter (t : Nat) (d : Desc)
  | canTap (t : Nat) (d : Desc)
  | canStart (t : Nat) (d : Desc)
  | canStop (t : Nat) (d : Desc) (busy : Bool)
  | canSleep (t : Nat) (d : Desc) (busy : Bool)
  | canRecover (t : Nat) (d : Desc)
  | canConfig (t : Nat) (d : Desc)
  | canInfo (t : Nat) (d : Desc)
  | canFrameReceived (t : Nat) (c : Fin 8) (sof : Nat) (f : CanFrame)
  | canFrameTransmitted (t : Nat) (c : Fin 8) (sof : Nat)
  | oneShotArbLost (t : Nat) (c : Fin 8) (sof : Nat) (winner : Option CanWinner) (index : Nat)
  | canBusError (t : Nat) (c : Fin 8) (sof : Nat) (kind : CanErr)
  | canRxError (t : Nat) (c : Fin 8) (afterFlag : Bool)
  | busOff (t : Nat) (c : Fin 8)
  | busOffRecovered (t : Nat) (c : Fin 8)
  | busStuck (t : Nat) (c : Fin 8)
  | rxdRecessive (t : Nat) (c : Fin 8)
  | canWake (t : Nat) (c : Fin 8) (start : Nat) (frame : Option CanFrame)
  -- Parapet and the modes (chapter 17)
  | modeRequest (t : Nat) (value : Word)
  | modeRequestEval
  | softwareSafeHold (t : Nat)
  | safeNLow (t : Nat)
  | safeNGone (t : Nat)
  | heartbeatMiss (t : Nat)
  | clockFault (t : Nat) (cause : ClockCause)
  | clockRestored (t : Nat)
  | supplyFault (t : Nat) (rail : Rail)
  | supplyRestored (t : Nat)
  | lockstep (t : Nat)
  | parapetSensorRead (t : Nat) (spanDie deck footA footB : Int)
  | ppUnsafeAck (t : Nat) (value : Word)
  -- Power, boot and firmware (chapter 18)
  | fieldSupplyChange (t : Nat) (rail : FieldRail) (mv : Nat)
  | logicSupplyChange (t : Nat) (rail : Rail) (inWindow : Bool)
  | bootImageSelect (t : Nat)
  | imageVerified (t : Nat)
  | firmwareReady (t : Nat)
  | recovery (t : Nat)
  | stage (t : Nat)
  | stageDone (t : Nat) (r : StageOutcome)
  | activate (t : Nat)
  | cancel (t : Nat)
  | confirm (t : Nat)
  | svnCommit (t : Nat)
  | firmwareActivation (t : Nat)
  | trialReadyTimeout (t : Nat)
  -- Published records, core voltage and aging, receivers and rings (chapters 19, 20, 07, 10)
  | tnPubSelWrite (t : Nat) (tn : Fin 256) (value : Word)
  | tnPubDataRead (t : Nat) (tn : Fin 256)
  | avsEvaluation (t : Nat) (m : AvsIn)
  | avsRetryRead (t : Nat) (m : AvsIn)
  | avsDisable (t : Nat)
  | ageMeasurement (t : Nat) (slowdowns : List Nat)
  | camReceiverLock (t : Nat) (c : Fin 8) (locked : Bool)
  | hopRestored (t : Nat) (hop : Fin 17)
  | satelliteWatchdog (t : Nat) (node : Fin 16)
  | vfEnableSet (t : Nat) (numVfs : Fin 256)
  deriving DecidableEq, Repr

end Sys2Proof
end

