-- ==== Sys2Proof/Decode.lean ====
section
/-!
DEFINITION. Reading a command from the bits of an opcode-table row. The table gives no row any bits, so no word spells a
command.
-/
namespace Sys2Proof

/-- The command a word of `nbits` bits spells: none, since spec/opcode_table.json gives no row an encoding. -/
def decodeTableWord (_nbits _w : Nat) : Option Instr := none

end Sys2Proof
end

