-- ==== Sys2Proof/Config.lean ====
section
/-!
DEFINITION. What the spec leaves open: constants with no body. Nothing can evaluate one or prove a value of it.
Each is named in a row of the assumption log.
-/
namespace Sys2Proof

/-- A free 64-bit value. A step that needs a fresh one applies this to the counter `State.freeCtr` and advances the
counter (leases of R96 and R97). -/
opaque Config.free64 : Nat → BitVec 64

/-- The raw value behind `ID_UID` (R703): the spec says only that it is unique to each die and never 0. -/
opaque Config.dieUid : BitVec 64

/-- What a computation whose result the spec does not state for its operands gives: a free integer, by a tag that names
the place and the operands as numbers. -/
opaque Config.openValue : Nat → List Int → Int

/-- A lease (R96): non-zero, otherwise open. -/
def Config.lease (n : Nat) : Nat := 1 + (Config.free64 n).toNat % (2 ^ 64 - 1)

/-- `ID_UID` (R703): non-zero, otherwise open. -/
def Config.uid : Nat := 1 + Config.dieUid.toNat % (2 ^ 64 - 1)

end Sys2Proof
end

