-- ==== Sys2Proof/Machine/Arith.lean ====
section
/-!
DEFINITION. Bit fields, byte order, sign extension, saturation and rounding (R1, R2, R5, R6, Table 00-4).
-/
namespace Sys2Proof.Machine

/-- Bits [lo + n − 1 : lo] of a number. -/
def bits (w lo n : Nat) : Nat := w / 2 ^ lo % 2 ^ n

/-- Bit i of a number. -/
def bit (w i : Nat) : Bool := w / 2 ^ i % 2 == 1

/-- A truth value as a bit. -/
def b2n (b : Bool) : Nat := if b then 1 else 0

/-- A number with bits [lo + n − 1 : lo] replaced. -/
def setBits (w lo n v : Nat) : Nat := w - bits w lo n * 2 ^ lo + v % 2 ^ n * 2 ^ lo

/-- The two's-complement reading of the low n bits (R2). -/
def signed (n w : Nat) : Int := if 2 ^ (n - 1) ≤ w % 2 ^ n then (w % 2 ^ n : Nat) - (2 ^ n : Nat) else (w % 2 ^ n : Nat)

/-- An integer as n bits, modulo 2^n. -/
def unsigned (n : Nat) (x : Int) : Nat := (x % (2 ^ n : Nat)).toNat

/-- An integer clamped to a range. -/
def clampI (x lo hi : Int) : Int := if x < lo then lo else if hi < x then hi else x

/-- An integer saturated at the limits of n-bit two's complement (Table 00-4). -/
def satS (n : Nat) (x : Int) : Int := clampI x (-(2 ^ (n - 1) : Nat)) ((2 ^ (n - 1) : Nat) - 1)

/-- The signed difference of two positions modulo 2^64 (R6). -/
def posDiff (a b : Int) : Int := signed 64 (unsigned 64 (a - b))

/-- A position wrapped to signed 64 bits (Table 00-4). -/
def wrap64 (x : Int) : Int := signed 64 (unsigned 64 x)

/-- Quotient rounded to the nearest integer, halves away from zero (R5). -/
def divRound (a : Int) (b : Nat) : Int :=
  if b = 0 then 0 else if 0 ≤ a then (2 * a + b) / (2 * b : Nat) else -((-2 * a + b) / (2 * b : Nat))

/-- A rational rounded to the nearest integer, halves away from zero. -/
def ratRound (q : Rat) : Int := divRound q.num q.den

/-- Quotient rounded up. -/
def ceilDiv (a b : Nat) : Nat := if b = 0 then 0 else (a + b - 1) / b

/-- One added to a counter that saturates at 0xFFFF_FFFF (R694). -/
def satInc (n k : Nat) : Nat := min (n + k) 0xFFFFFFFF

/-- The number n bytes hold, first byte lowest (R1). -/
def leNat : List Byte → Nat
  | [] => 0
  | b :: bs => b.toNat + 256 * leNat bs

/-- n bytes of a number, lowest first (R1). -/
def leBytes : Nat → Nat → List Byte
  | 0, _ => []
  | n + 1, w => BitVec.ofNat 8 w :: leBytes n (w / 256)

/-- How many of the low n bits of a number are 1. -/
def popcount : Nat → Nat → Nat
  | 0, _ => 0
  | n + 1, w => w % 2 + popcount n (w / 2)

/-- The numbers below n whose bit in a mask is 1, rising. -/
def bitsOf (n w : Nat) : List Nat := (List.range n).filter (bit w)

/-- Integer square root, rounded down, by bisection on the bits from bit k down. -/
def isqrtFrom : Nat → Nat → Nat → Nat
  | 0, r, n => if (r + 1) * (r + 1) ≤ n then r + 1 else r
  | k + 1, r, n => let c := r + 2 ^ (k + 1); isqrtFrom k (if c * c ≤ n then c else r) n

/-- Integer square root, rounded down. -/
def isqrt (n : Nat) : Nat := isqrtFrom (n.log2 / 2 + 1) 0 n

/-- Item i of a list of numbers, 0 beyond its end. -/
def nth (l : List Nat) (i : Nat) : Nat := l.getD i 0

/-- Two lists added item by item. -/
def addL : List Nat → List Nat → List Nat
  | a :: l, b :: m => (a + b) :: addL l m
  | l, [] => l
  | [], m => m

/-- One list taken from another item by item, stopping at 0. -/
def subL : List Nat → List Nat → List Nat
  | a :: l, b :: m => (a - b) :: subL l m
  | l, [] => l
  | [], _ => []

/-- Whether every item of a list is at most the item of another at its place. -/
def leL : List Nat → List Nat → Bool
  | a :: l, b :: m => decide (a ≤ b) && leL l m
  | [], _ => true
  | l, [] => l.all (· == 0)

/-- The sum of a list. -/
def sumL (l : List Nat) : Nat := l.foldl (· + ·) 0

/-- An update of every item that meets a test. -/
def mapIf {α : Type} (p : α → Bool) (f : α → α) (l : List α) : List α := l.map fun x => if p x then f x else x

end Sys2Proof.Machine
end

