-- ==== Sys2Proof/Machine/Operands.lean ====
section
/-!
DEFINITION. Numbers beyond integers: exact rationals, IEEE 754 binary64 rounding (R310, R476), and square roots, sines,
arctangents and exponentials worked to 2^−80 in fixed point. The spec does not say how the device computes the last of
these; the log says what is chosen.
-/
namespace Sys2Proof.Machine

/-- m × 2^e as a rational. -/
def scale2 (m : Int) (e : Int) : Rat :=
  if 0 ≤ e then ((m * (2 ^ e.toNat : Nat) : Int) : Rat) else mkRat m (2 ^ (-e).toNat)

/-- Quotient of naturals rounded to nearest, halves to even. -/
def divEven (a b : Nat) : Nat :=
  let m := a / b
  let r := a % b
  if b < 2 * r ∨ (2 * r = b ∧ m % 2 = 1) then m + 1 else m

/-- A rational rounded to 53 significant bits, ties to even: binary64 with an unlimited exponent. -/
def b64 (q : Rat) : Rat :=
  if q.num = 0 then 0
  else
    let n := q.num.natAbs
    let e : Int := (n.log2 : Int) - (q.den.log2 : Int) - 53
    let part (e : Int) : Nat × Nat :=
      if 0 ≤ e then (n, q.den * 2 ^ e.toNat) else (n * 2 ^ (-e).toNat, q.den)
    let ab := part e
    let e := if 2 ^ 53 ≤ ab.1 / ab.2 then e + 1 else e
    let ab := part e
    let m : Int := divEven ab.1 ab.2
    scale2 (if q.num < 0 then -m else m) e

/-- Absolute value of a rational. -/
def ratAbs (q : Rat) : Rat := if q < 0 then -q else q
/-- The smaller and the larger of two rationals. -/
def ratMin (a b : Rat) : Rat := if a ≤ b then a else b
def ratMax (a b : Rat) : Rat := if a ≤ b then b else a
/-- A rational clamped to a range. -/
def ratClamp (x lo hi : Rat) : Rat := if x < lo then lo else if hi < x then hi else x
/-- A rational with the sign of another. -/
def ratSign (q : Rat) : Int := if q < 0 then -1 else if 0 < q then 1 else 0

/-- Square root of a non-negative rational, within a relative 2^−80; 0 for a negative one. -/
def ratSqrt (q : Rat) : Rat :=
  if q.num ≤ 0 then 0
  else
    let k : Nat := 90 + (q.den.log2 - q.num.toNat.log2) / 2
    mkRat (isqrt (q.num.toNat * 2 ^ (2 * k) / q.den)) (2 ^ k)

/-! Fixed point with 80 fraction bits. -/

/-- A rational in fixed point. -/
def toFx (q : Rat) : Int := q.num * (2 ^ 80 : Nat) / (q.den : Int)
/-- A fixed-point number as a rational. -/
def ofFx (x : Int) : Rat := mkRat x (2 ^ 80)
/-- A product in fixed point. -/
def mulFx (a b : Int) : Int := a * b / (2 ^ 80 : Nat)
/-- π in fixed point. -/
def piFx : Int := 3797952473636338580787993

/-- 1 − x²/((2n−1)·2n) × (1 − …) for the series of sine and cosine, `k` steps with divisors from a·(a+1) up. -/
def sinSeries (x2 : Int) : Nat → Nat → Int
  | 0, _ => 2 ^ 80
  | k + 1, a => 2 ^ 80 - mulFx x2 (sinSeries x2 k (a + 2)) / (a * (a + 1) : Nat)

/-- Sine and cosine in fixed point of an angle in radians between −π/2 and π/2. -/
def sinFx (x : Int) : Int := mulFx x (sinSeries (mulFx x x) 16 2)
def cosFx (x : Int) : Int := sinSeries (mulFx x x) 16 1

/-- Cosine and sine of an angle in turns. -/
def cosSin (turns : Rat) : Rat × Rat :=
  let u : Rat := turns - turns.floor
  let q := (4 * u).floor.toNat
  let x := mulFx (toFx (u - mkRat q 4)) (2 * piFx)
  let c := ofFx (cosFx x)
  let s := ofFx (sinFx x)
  match q with
  | 0 => (c, s)
  | 1 => (-s, c)
  | 2 => (-c, -s)
  | _ => (s, -c)

/-- Σ (−1)^i z^(2i) / (2i+1), for the series of the arctangent. -/
def atanSeries (z2 : Int) : Nat → Nat → Int
  | 0, a => 2 ^ 80 / (a : Int)
  | k + 1, a => 2 ^ 80 / (a : Int) - mulFx z2 (atanSeries z2 k (a + 2))

/-- Halve the argument of an arctangent: tan(x/2) from tan x. -/
def tanHalf (z : Int) : Int :=
  let r : Int := isqrt (((2 ^ 160 : Nat) + z * z).toNat)
  z * (2 ^ 80 : Nat) / ((2 ^ 80 : Nat) + r)

/-- Arctangent in turns of a number between 0 and 1. -/
def atanTurns (z : Rat) : Rat :=
  let t := tanHalf (tanHalf (tanHalf (toFx z)))
  ofFx (8 * mulFx t (atanSeries (mulFx t t) 20 1)) / ofFx (2 * piFx)

/-- The angle of a vector in turns, from 0 up to 1; 0 for the null vector. -/
def angleTurns (x y : Rat) : Rat :=
  let ax := ratAbs x
  let ay := ratAbs y
  let base : Rat := if ax = 0 ∧ ay = 0 then 0 else if ay ≤ ax then atanTurns (ay / ax) else mkRat 1 4 - atanTurns (ax / ay)
  if 0 ≤ x ∧ 0 ≤ y then base
  else if x < 0 ∧ 0 ≤ y then mkRat 1 2 - base
  else if x < 0 then mkRat 1 2 + base
  else if base = 0 then 0 else 1 - base

/-- The series of the exponential, `k` steps with divisors from a up. -/
def expSeries (x : Int) : Nat → Nat → Int
  | 0, _ => 2 ^ 80
  | k + 1, a => 2 ^ 80 + mulFx x (expSeries x k (a + 1)) / (a : Int)
/-- Square a fixed-point number n times. -/
def sqFx : Nat → Int → Int
  | 0, x => x
  | n + 1, x => sqFx n (mulFx x x)
/-- The exponential of a rational of modest size. -/
def ratExp (q : Rat) : Rat := ofFx (sqFx 8 (expSeries (toFx q / 256) 16 1))

/-- π as a rational. -/
def ratPi : Rat := ofFx piFx

/-- A rational as an integer with f fraction bits, rounded to nearest with halves away from zero (R5). -/
def toQ (f : Nat) (q : Rat) : Int := ratRound (q * ((2 ^ f : Nat) : Rat))
/-- An integer with f fraction bits as a rational. -/
def ofQ (f : Nat) (x : Int) : Rat := mkRat x (2 ^ f)
/-- A position in Q48.16 from exact counts. -/
def toPos (q : Rat) : Int := wrap64 (toQ 16 q)
/-- A velocity in Q40.24, saturated (Table 00-4). -/
def toVel (q : Rat) : Int := satS 64 (toQ 24 q)
/-- A Q1.15 current. -/
def toQ15 (q : Rat) : Int := satS 16 (toQ 15 q)

end Sys2Proof.Machine
end

