-- ==== Sys2Proof/Machine/RegMap.lean ====
section
/-!
DEFINITION. The register map: every register the spec places in PF0 BAR0 and in a tenant page, with its fields, access
codes, reset values and stated ranges (R686 to R700, R703, R704, R709, R718, R720 and the register table of each chapter).
A register is named by its KEY: its PF0 BAR0 offset, or 0x10_0000 + 0x1000 × n + its page offset for the page of tenant n.
-/
namespace Sys2Proof.Machine

/-- Access codes (Table 00-5). -/
inductive Acc where
  | rw | rwl | ro | wo | w1c
  deriving DecidableEq, Repr

/-- One field: lowest bit, width, access code, reset value and the range a write must keep to. -/
structure Fld where
  lo : Nat
  w : Nat
  acc : Acc
  rst : Nat
  mn : Nat
  mx : Nat
  deriving DecidableEq, Repr

/-- One register: its offset within its unit and its fields. -/
structure Reg where
  off : Nat
  flds : List Fld
  deriving DecidableEq, Repr

/-- One block of registers. -/
structure Blk where
  base : Nat
  stride : Nat
  count : Nat
  sub : Nat
  subStride : Nat
  subCount : Nat
  cfgErr : Option (Nat × Nat)
  regs : List Reg
  deriving DecidableEq, Repr

/-- A field with no stated range. -/
def fPlain (a : Acc) (lo w rst : Nat) : Fld := ⟨lo, w, a, rst, 0, 2 ^ w - 1⟩
/-- A read-write field. -/
def fRW (lo w rst : Nat) : Fld := fPlain .rw lo w rst
/-- A field that is read-only in RUN. -/
def fRWL (lo w rst : Nat) : Fld := fPlain .rwl lo w rst
/-- A read-only field. -/
def fRO (lo w rst : Nat) : Fld := fPlain .ro lo w rst
/-- A write-only field. -/
def fWO (lo w rst : Nat) : Fld := fPlain .wo lo w rst
/-- A write-1-to-clear field. -/
def fW1C (lo w rst : Nat) : Fld := fPlain .w1c lo w rst
/-- A field with a stated range. -/
def fRng (a : Acc) (lo w rst mn mx : Nat) : Fld := ⟨lo, w, a, rst, mn, mx⟩
/-- `n` consecutive registers with the same fields. -/
def regRow (off n : Nat) (fs : List Fld) : List Reg := (List.range n).map fun i => ⟨off + 4 * i, fs⟩

/-- Registers of the block (R11, R15, R20, R39). -/
def spanRegs : List Reg :=
  [
    ⟨0x0, [fRO 0 32 0]⟩ /- TIME_NOW_LO -/,
    ⟨0x4, [fRO 0 32 0]⟩ /- TIME_NOW_HI -/,
    ⟨0x8, [fRO 0 32 0]⟩ /- SPAN_COUNT_LO -/,
    ⟨0xC, [fRO 0 16 0]⟩ /- SPAN_COUNT_HI -/,
    ⟨0x10, [fRWL 0 14 0xc35, fRWL 16 7 0x46]⟩ /- SPAN_CFG -/,
    ⟨0x14, [fRWL 0 12 0xc8]⟩ /- SPAN_SAMPLE -/,
    ⟨0x18, [fW1C 0 1 0, fW1C 1 1 0, fW1C 2 1 0, fW1C 3 1 0]⟩ /- SPAN_STATUS -/,
    ⟨0x1C, [fRO 0 16 0]⟩ /- SPAN_STATUS_SEQ -/,
    ⟨0x20, [fRO 0 32 0]⟩ /- SPAN_OVERRUN_CNT -/,
    ⟨0x24, [fRO 0 32 0]⟩ /- PIER_MISS_CNT -/,
    ⟨0x28, [fRO 0 16 0x30d4]⟩ /- SPAN_LEN_NOW -/]

/-- Registers of the block (R66, R68). -/
def refsRegs : List Reg :=
  [
    ⟨0x40, [fRWL 0 1 0, fRWL 1 1 0, fRWL 2 1 0, fRng .rwl 8 8 0x32 1 200]⟩ /- REF_CFG -/,
    ⟨0x44, [fRng .rwl 0 13 0x40 16 4096]⟩ /- REF_QUALIFY -/,
    ⟨0x48, [fRWL 0 20 0x8000]⟩ /- HOLDOVER_CFG -/,
    ⟨0x4C, [fRWL 0 16 0]⟩ /- SYNC_IN_DELAY -/,
    ⟨0x50, [fRng .rwl 0 8 0x20 8 255, fRng .rwl 8 16 0x100 16 65535]⟩ /- PTM_CFG -/,
    ⟨0x54, [fRO 0 2 0, fRO 4 1 0, fRO 5 1 0, fRO 6 1 0]⟩ /- GLIDE_STATUS -/,
    ⟨0x58, [fRO 0 32 0]⟩ /- PHASE_ERR -/,
    ⟨0x5C, [fRO 0 32 0]⟩ /- FREQ_NOW -/,
    ⟨0x60, [fRO 0 32 0]⟩ /- FREQ_TARGET -/,
    ⟨0x64, [fRO 0 32 0]⟩ /- PTM_EPOCH_LO -/,
    ⟨0x68, [fRO 0 32 0]⟩ /- PTM_EPOCH_HI -/,
    ⟨0x6C, [fW1C 0 1 0, fW1C 1 1 0, fW1C 2 1 0, fW1C 3 1 0, fW1C 4 1 0, fW1C 5 1 0, fW1C 6 1 0]⟩ /- REF_STATUS -/,
    ⟨0x70, [fRO 0 16 0]⟩ /- REF_STATUS_SEQ -/,
    ⟨0x74, [fRO 0 32 0]⟩ /- RETARGET_CNT -/]

/-- Registers of the block (R167). -/
def sqRegs : List Reg :=
  [
    ⟨0x0, [fRW 12 20 0]⟩ /- SQ_BASE_LO -/,
    ⟨0x4, [fRW 0 32 0]⟩ /- SQ_BASE_HI -/,
    ⟨0x8, [fRW 0 1 0, fRW 1 1 0, fRW 2 1 0, fRW 4 5 6, fRW 16 4 0]⟩ /- SQ_CFG -/,
    ⟨0xC, [fRO 0 16 0]⟩ /- SQ_HEAD -/,
    ⟨0x10, [fW1C 0 1 0, fW1C 1 1 0, fRO 8 4 0]⟩ /- SQ_STATUS -/,
    ⟨0x14, [fRO 0 16 0]⟩ /- SQ_STATUS_SEQ -/]

/-- Registers of the block (R167). -/
def cqRegs : List Reg :=
  [
    ⟨0x0, [fRW 12 20 0]⟩ /- CQ_BASE_LO -/,
    ⟨0x4, [fRW 0 32 0]⟩ /- CQ_BASE_HI -/,
    ⟨0x8, [fRW 0 1 0, fRW 1 1 0, fRW 2 1 0, fRW 4 5 6, fRW 16 7 0]⟩ /- CQ_CFG -/,
    ⟨0xC, [fRW 0 8 1, fRW 8 8 0]⟩ /- CQ_MOD -/,
    ⟨0x10, [fRO 0 16 0, fRO 16 1 1]⟩ /- CQ_TAIL -/,
    ⟨0x14, [fW1C 0 1 0, fW1C 1 1 0, fW1C 2 1 0, fRO 8 4 0]⟩ /- CQ_STATUS -/,
    ⟨0x18, [fRO 0 16 0]⟩ /- CQ_STATUS_SEQ -/]

/-- Registers of the block (R201). -/
def keystoneRegs : List Reg :=
  [
    ⟨0x0, [fRng .rwl 0 8 0x10 1 255, fRng .rwl 8 16 0x10 1 65535]⟩ /- KS_CFG -/,
    ⟨0x4, [fRng .rwl 0 16 0x100 1 65535, fRWL 16 16 0]⟩ /- KS_CFG2 -/,
    ⟨0x8, [fRO 0 1 0, fRO 1 1 0, fRO 2 1 0]⟩ /- KS_STATE -/,
    ⟨0xC, [fW1C 0 1 0, fW1C 1 1 0, fW1C 2 1 0, fW1C 3 1 0, fW1C 4 1 0]⟩ /- KS_STATUS -/,
    ⟨0x10, [fRO 0 16 0]⟩ /- KS_STATUS_SEQ -/,
    ⟨0x14, [fRW 0 8 0]⟩ /- KS_TN_SEL -/] ++
  (regRow 0x20 7 [fRO 0 16 0x3d0]) /- KS_POOL_CAP -/ ++
  (regRow 0x40 7 [fRO 0 10 0]) /- KS_POOL_G -/ ++
  (regRow 0x60 7 [fRO 0 16 0]) /- KS_POOL_USED -/ ++
  [
    ⟨0x80, [fRO 0 32 0]⟩ /- KS_TN_DEFER_CNT -/,
    ⟨0x84, [fRO 0 32 0]⟩ /- KS_TN_SHED_CNT -/,
    ⟨0x88, [fRO 0 32 0]⟩ /- KS_TN_REFUSED_CNT -/,
    ⟨0x8C, [fRO 0 32 0]⟩ /- KS_TN_LATE_CNT -/] ++
  (regRow 0xA0 7 [fRO 0 32 0]) /- KS_TN_TU -/

/-- Registers of the block (R233). -/
def queueRegs : List Reg :=
  [
    ⟨0x0, [fRW 0 1 0, fRW 1 3 0, fRW 4 1 0, fRW 8 12 0, fRW 20 9 1]⟩ /- Q_CFG -/,
    ⟨0x4, [fWO 0 1 0]⟩ /- Q_CTRL -/,
    ⟨0x8, [fRO 0 21 0, fRO 31 1 0]⟩ /- Q_FILL -/,
    ⟨0xC, [fW1C 0 1 0, fW1C 1 1 0, fW1C 2 1 0]⟩ /- Q_STATUS -/,
    ⟨0x10, [fRO 0 16 0]⟩ /- Q_STATUS_SEQ -/,
    ⟨0x14, [fRO 0 32 0]⟩ /- Q_DROP_CNT -/,
    ⟨0x18, [fRO 0 32 0]⟩ /- Q_FLUSH_CNT -/]

/-- Registers of the block (R263). -/
def cameraRegs : List Reg :=
  [
    ⟨0x0, [fRWL 0 1 0, fRWL 1 1 0, fRng .rwl 2 2 0 0 2, fRng .rwl 4 13 0x5dc 80 4500]⟩ /- CAM_CFG -/,
    ⟨0x4, [fRWL 0 2 0, fRWL 2 3 0, fRng .rwl 8 16 1 1 65535]⟩ /- CAM_TRIG_CFG -/,
    ⟨0x8, [fRWL 0 16 0, fRWL 16 16 0x190]⟩ /- CAM_TRIG_TIME -/,
    ⟨0xC, [fRWL 0 24 0xfa0]⟩ /- CAM_TRIG_GAP -/,
    ⟨0x10, [fRWL 0 20 0]⟩ /- CAM_EXP_DELAY -/,
    ⟨0x14, [fRWL 0 24 0x61a80]⟩ /- CAM_MATCH -/,
    ⟨0x18, [fRWL 0 16 0x200]⟩ /- CAM_TIMEOUT -/,
    ⟨0x1C, [fRO 0 1 0, fRO 1 1 0, fRO 2 1 0]⟩ /- CAM_STATE -/,
    ⟨0x20, [fW1C 0 1 0, fW1C 1 1 0, fW1C 2 1 0, fW1C 3 1 0, fW1C 4 1 0]⟩ /- CAM_STATUS -/,
    ⟨0x24, [fRO 0 16 0]⟩ /- CAM_STATUS_SEQ -/,
    ⟨0x28, [fRO 0 32 0]⟩ /- CAM_FRAME_DROP_CNT -/,
    ⟨0x2C, [fRO 0 32 0]⟩ /- CAM_PKT_DROP_CNT -/,
    ⟨0x30, [fRO 0 32 0]⟩ /- CAM_TRIG_SUPPRESS_CNT -/,
    ⟨0x34, [fRO 0 32 0]⟩ /- CAM_TRIG_UNMATCHED_CNT -/,
    ⟨0x38, [fRO 0 32 0]⟩ /- CAM_PHDR_CORR_CNT -/]

/-- Registers of the block (R263). -/
def cameraVcRegs : List Reg :=
  [
    ⟨0x0, [fRWL 0 13 0x800, fRWL 13 13 0x100, fRWL 26 3 0]⟩ /- CAM_VC_FMT -/,
    ⟨0x4, [fRWL 0 1 0, fRng .rwl 1 7 2 2 64, fRWL 8 12 0, fRng .rwl 20 8 1 1 255]⟩ /- CAM_VC_RING -/,
    ⟨0x8, [fRO 0 32 0]⟩ /- CAM_VC_LAST_SEQ -/]

/-- Registers of the block (R263). -/
def deckRegs : List Reg :=
  [
    ⟨0x0, [fRWL 0 10 0x258]⟩ /- DECK_SCRUB_CFG -/,
    ⟨0x4, [fW1C 0 1 0, fW1C 1 1 0, fW1C 2 1 0, fW1C 3 1 0]⟩ /- DECK_STATUS -/,
    ⟨0x8, [fRO 0 16 0]⟩ /- DECK_STATUS_SEQ -/,
    ⟨0xC, [fRO 0 32 0]⟩ /- DECK_CE_CNT -/,
    ⟨0x10, [fRO 0 32 0]⟩ /- DECK_UE_CNT -/,
    ⟨0x14, [fRO 0 12 0, fRO 12 13 0]⟩ /- DECK_UE_LOC -/,
    ⟨0x18, [fRO 0 32 0]⟩ /- DECK_SCRUB_PASS_CNT -/]

/-- Registers of the block (R304). -/
def visionRegs : List Reg :=
  [
    ⟨0x0, [fRWL 0 1 1, fRng .rwl 1 2 0 0 2, fRWL 4 4 0, fRWL 8 8 0x18, fRWL 16 8 4]⟩ /- VIS_CFG -/,
    ⟨0x4, [fRWL 0 16 0x800]⟩ /- VIS_ME -/,
    ⟨0x8, [fRng .rwl 0 23 4 1 4194304]⟩ /- VIS_AREA_MIN -/,
    ⟨0xC, [fRng .rwl 0 23 0x400000 1 4194304]⟩ /- VIS_AREA_MAX -/,
    ⟨0x10, [fRng .rwl 0 15 0 0 16384, fRng .rwl 16 8 0xc 1 255, fRWL 24 3 1, fRng .rwl 27 4 3 1 8]⟩ /- VIS_TRACK -/,
    ⟨0x14, [fRWL 0 16 0]⟩ /- VIS_ACC -/,
    ⟨0x18, [fRWL 0 6 0]⟩ /- VIS_QUEUE -/,
    ⟨0x1C, [fRWL 0 12 0, fRWL 16 8 0]⟩ /- VIS_WORK -/,
    ⟨0x20, [fRO 0 1 0, fRO 1 1 0, fRO 2 1 0]⟩ /- VIS_STATE -/,
    ⟨0x24, [fW1C 0 1 0, fW1C 1 1 0, fW1C 2 1 0, fW1C 3 1 0, fW1C 4 1 0]⟩ /- VIS_STATUS -/,
    ⟨0x28, [fRO 0 16 0]⟩ /- VIS_STATUS_SEQ -/,
    ⟨0x2C, [fRO 0 32 0]⟩ /- VIS_FRAMES_CNT -/,
    ⟨0x30, [fRO 0 32 0]⟩ /- VIS_FRAME_SHED_CNT -/,
    ⟨0x34, [fRO 0 32 0]⟩ /- VIS_FRAME_SKIP_CNT -/,
    ⟨0x38, [fRO 0 32 0]⟩ /- VIS_BLOB_OVF_CNT -/,
    ⟨0x3C, [fRO 0 32 0]⟩ /- VIS_TRACK_FULL_CNT -/,
    ⟨0x40, [fRO 0 32 0]⟩ /- VIS_RECORD_CNT -/,
    ⟨0x44, [fRO 0 15 0]⟩ /- VIS_OPEN_TRACKS -/] ++
  (regRow 0x80 32 [fRWL 0 13 0, fRng .rwl 16 13 0 0 4095, fRWL 31 1 0]) /- VIS_LANE -/ ++
  (regRow 0x100 16 [fRO 0 32 0]) /- VIS_HIST -/

/-- Registers of the block (R351). -/
def valveRegs : List Reg :=
  [
    ⟨0x0, [fRWL 0 1 0, fRWL 1 1 1, fRWL 2 4 0]⟩ /- VALVE_CFG -/,
    ⟨0x4, [fRWL 0 16 0x1d4c, fRWL 16 16 0x1388]⟩ /- VALVE_MIN -/,
    ⟨0x8, [fRWL 0 16 0x9c4, fRWL 16 16 0x2710]⟩ /- VALVE_LAT_WIN -/,
    ⟨0xC, [fRWL 0 24 0x186a0]⟩ /- VALVE_LAT_INIT -/,
    ⟨0x10, [fRO 0 24 0, fRO 24 1 0, fRO 25 1 0, fRO 26 1 0, fRO 27 3 0]⟩ /- VALVE_LAT_NOW -/,
    ⟨0x14, [fRO 0 32 0]⟩ /- VALVE_SHOT_CNT -/,
    ⟨0x18, [fRO 0 32 0]⟩ /- VALVE_DIP_MISS_CNT -/,
    ⟨0x1C, [fRO 0 24 0]⟩ /- VALVE_DIP_LAST -/]

/-- Registers of the block (R351). -/
def peakHoldRegs : List Reg :=
  [
    ⟨0x0, [fRng .rwl 0 12 0x5dc 100 2500, fRng .rwl 16 12 0x190 50 1000]⟩ /- PH_CURRENT -/,
    ⟨0x4, [fRWL 0 16 0x1f40, fRng .rwl 16 8 0x28 20 100]⟩ /- PH_TIME -/,
    ⟨0x8, [fRng .rwl 0 12 0x32 10 1000, fRWL 16 16 0x2710]⟩ /- PH_DIP -/,
    ⟨0xC, [fRWL 0 24 0x4e20]⟩ /- PH_AIR -/]

/-- Registers of the block (R351). -/
def nozzleRowRegs : List Reg :=
  [
    ⟨0x0, [fRWL 0 1 0, fRWL 1 10 0, fRWL 11 10 0, fRng .rwl 21 3 4 1 7, fRWL 24 5 0]⟩ /- NR_CFG -/,
    ⟨0x4, [fRWL 0 32 0]⟩ /- NR_YN -/,
    ⟨0x8, [fRWL 0 32 0]⟩ /- NR_X0 -/,
    ⟨0xC, [fRWL 0 32 0]⟩ /- NR_PITCH -/,
    ⟨0x10, [fRWL 0 32 0]⟩ /- NR_ACC -/,
    ⟨0x14, [fRWL 0 24 0]⟩ /- NR_PRE -/,
    ⟨0x18, [fRWL 0 24 0]⟩ /- NR_POST -/,
    ⟨0x1C, [fRWL 0 32 0]⟩ /- NR_TRIM -/,
    ⟨0x20, [fRWL 0 24 0]⟩ /- NR_FRAME -/,
    ⟨0x24, [fRWL 0 2 0, fRWL 2 6 0]⟩ /- NR_BELT -/,
    ⟨0x28, [fRWL 0 32 0]⟩ /- NR_KBELT -/,
    ⟨0x2C, [fRWL 0 8 0xa, fRWL 8 8 0x64, fRWL 16 16 0]⟩ /- NR_MISC -/,
    ⟨0x30, [fRWL 0 24 0]⟩ /- NR_BLANKET -/,
    ⟨0x34, [fRWL 0 24 0]⟩ /- NR_BLMARGIN -/,
    ⟨0x38, [fRWL 0 16 0, fRWL 16 6 0, fRWL 22 1 0]⟩ /- NR_REPORT -/,
    ⟨0x3C, [fRO 0 1 0, fRO 8 6 0]⟩ /- NR_STATE -/]

/-- Registers of the block (R351). -/
def ejectionRegs : List Reg :=
  [
    ⟨0x0, [fRng .rwl 0 26 0x1312d00 400000 40000000]⟩ /- EJ_HORIZON -/,
    ⟨0x4, [fW1C 0 1 0, fW1C 1 1 0, fW1C 2 1 0]⟩ /- EJ_STATUS -/,
    ⟨0x8, [fRO 0 16 0]⟩ /- EJ_STATUS_SEQ -/,
    ⟨0xC, [fRO 0 10 0]⟩ /- EJ_WEAR_VALVE -/,
    ⟨0x10, [fRO 0 17 0]⟩ /- EJ_WHEEL_FILL -/,
    ⟨0x14, [fRW 0 4 0]⟩ /- EJ_ROW_SEL -/] ++
  (regRow 0x40 16 [fRng .rwl 0 8 0x18 1 255]) /- EJ_MAN_MAX -/ ++
  (regRow 0x80 16 [fRO 0 32 0]) /- EJ_ROW_CNT -/

/-- Registers of the block (R373). -/
def trestleRegs : List Reg :=
  [
    ⟨0x0, [fRWL 0 1 0, fRWL 1 1 1, fRng .rwl 4 12 0x100 64 4095, fRWL 16 8 0x78]⟩ /- TR_CFG -/,
    ⟨0x4, [fRO 0 5 0, fRO 5 1 0, fRO 6 1 0, fRO 7 1 0, fRO 8 8 0xff, fRO 16 8 0xff]⟩ /- TR_STATE -/,
    ⟨0x8, [fW1C 0 1 0, fW1C 1 1 0, fW1C 2 1 0, fW1C 3 1 0, fW1C 4 1 0, fW1C 5 1 0, fW1C 6 1 0]⟩ /- TR_STATUS -/,
    ⟨0xC, [fRO 0 16 0]⟩ /- TR_STATUS_SEQ -/,
    ⟨0x10, [fRO 0 20 0]⟩ /- TR_RD_MAX -/,
    ⟨0x14, [fRO 0 16 0]⟩ /- TR_SWEEP_TIME -/,
    ⟨0x18, [fRO 0 32 0]⟩ /- TR_BREAK_CNT -/,
    ⟨0x1C, [fRO 0 32 0]⟩ /- TR_SPLIT_CNT -/,
    ⟨0x20, [fRO 0 32 0]⟩ /- TR_PARTIAL_CNT -/,
    ⟨0x24, [fRO 0 32 0]⟩ /- TR_CRC_ERR_CNT -/,
    ⟨0x28, [fRO 0 32 0]⟩ /- TR_UNREACHED_CNT -/]

/-- Registers of the block (R373). -/
def trestleNodeRegs : List Reg :=
  [
    ⟨0x0, [fRO 0 5 0]⟩ /- TR_NODE_STATE -/,
    ⟨0x4, [fRO 0 20 0]⟩ /- TR_NODE_DELAY_E -/,
    ⟨0x8, [fRO 0 20 0]⟩ /- TR_NODE_DELAY_W -/,
    ⟨0xC, [fRO 0 32 0]⟩ /- TR_NODE_MISS -/]

/-- Registers of the block (R420). -/
def feedbackRegs : List Reg :=
  [
    ⟨0x0, [fRWL 0 1 0, fRWL 1 2 0, fRWL 3 1 0, fRng .rwl 4 2 0 0 2, fRWL 6 2 0]⟩ /- FB_CFG -/,
    ⟨0x4, [fRng .rwl 0 12 4 1 4000]⟩ /- FB_QEI -/,
    ⟨0x8, [fRng .rwl 0 32 0x2710 4 2147483648]⟩ /- FB_QEI_CPR -/,
    ⟨0xC, [fRWL 0 32 0]⟩ /- FB_QEI_IDX -/,
    ⟨0x10, [fRWL 0 16 4]⟩ /- FB_QEI_IDX2 -/,
    ⟨0x14, [fRng .rwl 0 12 0x190 16 4095]⟩ /- FB_HALL -/,
    ⟨0x18, [fRng .rwl 0 6 0x19 13 40, fRWL 6 1 0, fRWL 7 1 0, fRng .rwl 8 5 0 0 16, fRng .rwl 16 4 3 1 15]⟩ /- FB_SER -/,
    ⟨0x1C, [fRng .rwl 0 11 0x28 20 2000, fRWL 16 16 0x1f40]⟩ /- FB_SER_CLK -/,
    ⟨0x20, [fRng .rwl 0 12 0x180 96 4095]⟩ /- FB_ESS -/,
    ⟨0x24, [fRWL 0 12 0]⟩ /- FB_SER_LATCH -/,
    ⟨0x28, [fRWL 0 32 0]⟩ /- FB_JUMP -/,
    ⟨0x2C, [fRWL 0 24 0x3d0900]⟩ /- FB_SPEED -/,
    ⟨0x30, [fRO 0 32 0]⟩ /- FB_POS_LO -/,
    ⟨0x34, [fRO 0 32 0]⟩ /- FB_POS_HI -/,
    ⟨0x38, [fRO 0 32 0]⟩ /- FB_VEL_LO -/,
    ⟨0x3C, [fRO 0 32 0]⟩ /- FB_VEL_HI -/,
    ⟨0x40, [fRO 0 1 0, fRO 1 1 0, fRO 2 1 1, fRO 3 1 0, fRO 4 1 0, fRO 5 3 0, fRO 8 1 0, fRO 9 1 0]⟩ /- FB_STATE -/,
    ⟨0x44, [fW1C 0 1 0, fW1C 1 1 0, fW1C 2 1 0, fW1C 3 1 0, fW1C 4 1 0, fW1C 5 1 0, fW1C 6 1 0, fW1C 7 1 0, fW1C 8 1 0]⟩ /- FB_STATUS -/,
    ⟨0x48, [fRO 0 16 0]⟩ /- FB_STATUS_SEQ -/,
    ⟨0x4C, [fRO 0 32 0]⟩ /- FB_FAST_EDGE_CNT -/,
    ⟨0x50, [fRO 0 32 0]⟩ /- FB_IDX_ERR -/,
    ⟨0x54, [fRO 0 32 0]⟩ /- FB_INDEX_ERR_CNT -/,
    ⟨0x58, [fRO 0 32 0]⟩ /- FB_SER_ERR_CNT -/,
    ⟨0x5C, [fRO 0 32 0]⟩ /- FB_HALL_IMP_CNT -/,
    ⟨0x60, [fRO 0 32 0]⟩ /- FB_ESS_ERRWORD -/]

/-- Registers of the block (R420). -/
def emuRegs : List Reg :=
  [
    ⟨0x0, [fRWL 0 1 0, fRng .rwl 1 6 0 0 39, fRWL 7 1 0, fRWL 8 1 0]⟩ /- EMU_CFG -/,
    ⟨0x4, [fRWL 0 32 0x10000]⟩ /- EMU_DIV -/,
    ⟨0x8, [fRng .rwl 0 16 0x190 4 65535]⟩ /- EMU_WIDTH -/,
    ⟨0xC, [fW1C 0 3 0]⟩ /- EMU_STATUS -/,
    ⟨0x10, [fRO 0 16 0]⟩ /- EMU_STATUS_SEQ -/,
    ⟨0x14, [fRO 0 32 0]⟩ /- EMU_PULSE_CNT -/,
    ⟨0x18, [fRO 0 32 0]⟩ /- EMU_DROP_CNT -/]

/-- Registers of the block (R470). -/
def pierRegs : List Reg :=
  [
    ⟨0x0, [fRWL 0 1 1, fRWL 1 4 0, fRng .rwl 5 3 0 0 5, fRWL 8 1 0]⟩ /- PIER_OUT -/,
    ⟨0x4, [fRng .rwl 0 6 0 0 39, fRng .rwl 8 6 0 0 39, fRWL 14 1 0, fRng .rwl 16 6 0 0 39]⟩ /- PIER_FB -/,
    ⟨0x8, [fRWL 0 1 0, fRWL 1 1 0, fRWL 8 8 0xc]⟩ /- PIER_SENSE -/,
    ⟨0xC, [fRng .rwl 0 20 0x4e20 100 1000000]⟩ /- PIER_IFS -/,
    ⟨0x10, [fRWL 0 17 0xbb80, fRWL 31 1 0]⟩ /- PIER_VBUS -/,
    ⟨0x14, [fRng .rwl 0 6 1 1 63]⟩ /- PIER_MOTOR -/,
    ⟨0x18, [fRng .rwl 0 32 0x2710 4 2147483648]⟩ /- PIER_CPR -/,
    ⟨0x1C, [fRWL 0 32 0]⟩ /- PIER_COMM_OFF -/,
    ⟨0x20, [fRWL 0 16 0]⟩ /- PIER_COMM_ADV -/,
    ⟨0x24, [fRWL 0 24 0]⟩ /- PIER_R -/,
    ⟨0x28, [fRWL 0 24 0]⟩ /- PIER_LD -/,
    ⟨0x2C, [fRWL 0 24 0]⟩ /- PIER_LQ -/,
    ⟨0x30, [fRWL 0 24 0]⟩ /- PIER_PSI -/,
    ⟨0x34, [fRWL 0 32 0]⟩ /- PIER_JACC -/,
    ⟨0x38, [fRWL 0 1 1, fRWL 1 1 1, fRWL 2 14 0x3e8, fRWL 16 11 0x64]⟩ /- PIER_TUNE -/,
    ⟨0x3C, [fRWL 0 10 0xa]⟩ /- PIER_BW_P -/,
    ⟨0x40, [fRng .rwl 0 5 1 1 16, fRng .rwl 8 7 1 1 64]⟩ /- PIER_DIV -/,
    ⟨0x44, [fRWL 0 32 0]⟩ /- PIER_KP_ID -/,
    ⟨0x48, [fRWL 0 32 0]⟩ /- PIER_KP_IQ -/,
    ⟨0x4C, [fRWL 0 32 0]⟩ /- PIER_KI_I -/,
    ⟨0x50, [fRWL 0 32 0]⟩ /- PIER_KP_V -/,
    ⟨0x54, [fRWL 0 32 0]⟩ /- PIER_KI_V -/,
    ⟨0x58, [fRWL 0 32 0]⟩ /- PIER_KP_P -/,
    ⟨0x5C, [fRng .rwl 0 32 0x1000000 0 33554432]⟩ /- PIER_KVFF -/,
    ⟨0x60, [fRWL 0 32 0]⟩ /- PIER_KAFF -/,
    ⟨0x64, [fRWL 0 16 0xffff]⟩ /- PIER_BRAKE -/,
    ⟨0x68, [fRWL 0 32 0]⟩ /- PIER_I_MAX -/,
    ⟨0x6C, [fRng .rwl 0 7 0x5f 50 100]⟩ /- PIER_VLIM -/,
    ⟨0x70, [fRWL 0 32 0]⟩ /- PIER_V_MAX -/,
    ⟨0x74, [fRWL 0 32 0x3e8]⟩ /- PIER_FE -/,
    ⟨0x78, [fRWL 0 1 0, fRWL 1 1 0, fRng .rwl 4 8 2 1 255]⟩ /- PIER_FE_CFG -/,
    ⟨0x7C, [fRWL 0 16 4, fRng .rwl 16 8 0x10 1 255]⟩ /- PIER_INPOS -/] ++
  (regRow 0xC0 5 [fRO 0 32 0]) /- PIER_BQ_COEF_0 -/ ++
  (regRow 0xD4 5 [fRO 0 32 0]) /- PIER_BQ_COEF_1 -/ ++
  (regRow 0xE8 5 [fRO 0 32 0]) /- PIER_BQ_COEF_2 -/ ++
  (regRow 0xFC 5 [fRO 0 32 0]) /- PIER_BQ_COEF_3 -/ ++
  [
    ⟨0x140, [fRO 0 3 0, fRO 3 1 0, fRO 4 3 0, fRO 7 1 0, fRO 8 1 0, fRO 9 1 0]⟩ /- PIER_STATE -/,
    ⟨0x144, [fW1C 0 1 0, fW1C 1 1 0, fW1C 2 1 0, fW1C 3 1 0, fW1C 4 1 0]⟩ /- PIER_STATUS -/,
    ⟨0x148, [fRO 0 16 0]⟩ /- PIER_STATUS_SEQ -/,
    ⟨0x14C, [fRO 0 32 0]⟩ /- PIER_FE_CNT -/,
    ⟨0x150, [fRO 0 32 0]⟩ /- PIER_SAT_CNT -/,
    ⟨0x160, [fRO 0 32 0]⟩ /- PIER_PREF_LO -/,
    ⟨0x164, [fRO 0 32 0]⟩ /- PIER_PREF_HI -/,
    ⟨0x168, [fRO 0 32 0]⟩ /- PIER_FERR -/,
    ⟨0x16C, [fRO 0 32 0]⟩ /- PIER_IDQ -/,
    ⟨0x170, [fRO 0 32 0]⟩ /- PIER_ANGLE -/]

/-- Registers of the block (R470). -/
def pierBqRegs : List Reg :=
  [
    ⟨0x0, [fRWL 0 2 0, fRWL 16 15 0]⟩ /- PIER_BQ_CFG -/,
    ⟨0x4, [fRng .rwl 0 16 0xb5 64 16384]⟩ /- PIER_BQ_Q -/]

/-- Registers of the block (R546). -/
def stepGenRegs : List Reg :=
  [
    ⟨0x0, [fRWL 0 1 1, fRWL 1 4 0, fRng .rwl 5 4 4 0 8, fRng .rwl 9 3 0 0 5, fRWL 12 1 0]⟩ /- SG_OUT -/,
    ⟨0x4, [fRng .rwl 0 12 0x28 8 4095, fRng .rwl 16 12 0x50 8 4095]⟩ /- SG_PULSE -/,
    ⟨0x8, [fRng .rwl 0 14 0x3e8 50 10000, fRng .rwl 16 7 0x28 10 100]⟩ /- SG_I -/,
    ⟨0xC, [fRng .rwl 0 20 0x2710 100 1000000]⟩ /- SG_IFS -/,
    ⟨0x10, [fRng .rwl 0 16 0xc80 1 65535]⟩ /- SG_HOLD -/,
    ⟨0x14, [fRWL 0 16 0x12c, fRWL 16 2 0]⟩ /- SG_QS -/,
    ⟨0x18, [fRWL 0 12 0x640, fRWL 16 12 0xc8]⟩ /- SG_CHOP -/,
    ⟨0x1C, [fRWL 0 32 0]⟩ /- SG_V_MAX -/,
    ⟨0x20, [fRWL 0 32 0x1000000]⟩ /- SG_STOP_DEC -/,
    ⟨0x24, [fRWL 0 16 0, fRWL 16 16 0]⟩ /- SG_COIL -/,
    ⟨0x28, [fRWL 0 6 0, fRWL 6 1 0, fRWL 16 16 0]⟩ /- SG_CHECK -/,
    ⟨0x2C, [fRWL 0 32 0]⟩ /- SG_CHECK_RATIO -/,
    ⟨0x40, [fRO 0 8 0]⟩ /- SG_STATE -/,
    ⟨0x44, [fW1C 0 4 0]⟩ /- SG_STATUS -/,
    ⟨0x48, [fRO 0 16 0]⟩ /- SG_STATUS_SEQ -/,
    ⟨0x50, [fRO 0 32 0]⟩ /- SG_POS_LO -/,
    ⟨0x54, [fRO 0 32 0]⟩ /- SG_POS_HI -/,
    ⟨0x58, [fRO 0 32 0]⟩ /- SG_QS_CNT -/]

/-- Registers of the block (R546). -/
def limitsRegs : List Reg :=
  (regRow 0x0 48 [fRng .rwl 0 6 0 0 47, fRng .rwl 8 6 0 0 47, fRWL 14 1 0, fRWL 15 1 0, fRWL 16 1 0, fRWL 17 1 0]) /- LIM_AXIS -/ ++
  [
    ⟨0xC0, [fRng .rwl 0 12 0x190 1 4095]⟩ /- LIM_FILTER -/,
    ⟨0xC4, [fRO 0 32 0]⟩ /- LIM_STATE -/,
    ⟨0xC8, [fRO 0 32 0]⟩ /- LIM_STATE_1 -/,
    ⟨0xD0, [fRO 0 32 0]⟩ /- LIM_HIT_CNT -/]

/-- Registers of the block (R585). -/
def bridgeRegs : List Reg :=
  [
    ⟨0x0, [fRWL 0 1 0, fRng .rwl 1 3 0 0 5, fRWL 4 1 0]⟩ /- BG_CFG -/,
    ⟨0x4, [fRWL 0 12 0x50]⟩ /- BG_DEAD -/,
    ⟨0x8, [fRng .rwl 0 14 0xbb8 500 9000, fRng .rwl 16 12 0x190 40 1600]⟩ /- BG_DESAT -/,
    ⟨0xC, [fRWL 0 16 0x7000, fRng .rwl 16 12 0x50 8 1000]⟩ /- BG_OC -/,
    ⟨0x10, [fRng .rwl 0 16 0xe290 10000 60000]⟩ /- BG_OV -/,
    ⟨0x14, [fRng .rwl 0 4 3 1 15, fRng .rwl 8 24 0x61a80 4000 16000000]⟩ /- BG_ST -/,
    ⟨0x18, [fRO 0 16 0, fRng .rwl 16 12 0x28 1 4095]⟩ /- BG_BLOCK -/,
    ⟨0x20, [fRO 0 13 0]⟩ /- BG_STATE -/,
    ⟨0x24, [fW1C 0 6 0]⟩ /- BG_STATUS -/,
    ⟨0x28, [fRO 0 16 0]⟩ /- BG_STATUS_SEQ -/,
    ⟨0x2C, [fRO 0 32 0]⟩ /- BG_TRIP_CNT -/,
    ⟨0x30, [fRO 0 32 0]⟩ /- BG_ST_CNT -/,
    ⟨0x34, [fRO 0 32 0]⟩ /- BG_BOOT_UV_CNT -/,
    ⟨0x38, [fRO 0 32 0]⟩ /- BG_GIN_IMP_CNT -/,
    ⟨0x3C, [fRO 0 32 0]⟩ /- BG_CLEAR_DENIED_CNT -/,
    ⟨0x40, [fRO 0 16 0]⟩ /- BG_VBUS -/]

/-- Registers of the block (R585). -/
def pwmxRegs : List Reg :=
  [
    ⟨0x0, [fRWL 0 1 0, fRWL 1 1 0, fRWL 4 12 0x50]⟩ /- PWMX_CFG -/,
    ⟨0x4, [fRng .rwl 0 4 3 1 15, fRng .rwl 8 24 0x61a80 4000 16000000]⟩ /- PWMX_ST -/,
    ⟨0x8, [fRO 0 5 0, fRO 7 2 0]⟩ /- PWMX_STATE -/,
    ⟨0xC, [fW1C 0 2 0, fW1C 3 1 0, fW1C 5 1 0]⟩ /- PWMX_STATUS -/,
    ⟨0x10, [fRO 0 16 0]⟩ /- PWMX_STATUS_SEQ -/,
    ⟨0x14, [fRO 0 32 0]⟩ /- PWMX_TRIP_CNT -/,
    ⟨0x18, [fRO 0 32 0]⟩ /- PWMX_ST_CNT -/,
    ⟨0x1C, [fRO 0 32 0]⟩ /- PWMX_CLEAR_DENIED_CNT -/]

/-- Registers of the block (R585). -/
def auxRegs : List Reg :=
  [
    ⟨0x0, [fRWL 0 1 0, fRWL 1 1 0, fRWL 2 8 0]⟩ /- AUX_CFG -/,
    ⟨0x4, [fRO 0 1 0]⟩ /- AUX_STATE -/]

/-- Registers of the block (R585). -/
def footingRegs : List Reg :=
  [
    ⟨0x0, [fRO 0 3 0, fRO 8 8 0]⟩ /- FT_STATE -/,
    ⟨0x4, [fRO 0 16 0]⟩ /- FT_VGD -/,
    ⟨0x8, [fW1C 0 4 0]⟩ /- FT_STATUS -/,
    ⟨0xC, [fRO 0 16 0]⟩ /- FT_STATUS_SEQ -/,
    ⟨0x10, [fRO 0 32 0]⟩ /- FT_TOGGLE_CNT -/]

/-- Registers of the block (R585). -/
def pwmGlobalRegs : List Reg :=
  [
    ⟨0x0, [fRO 0 1 0]⟩ /- PWM_GSTATE -/,
    ⟨0x4, [fW1C 0 1 0]⟩ /- PWM_GSTATUS -/,
    ⟨0x8, [fRO 0 16 0]⟩ /- PWM_GSTATUS_SEQ -/]

/-- Registers of the block (R619). -/
def canRegs : List Reg :=
  [
    ⟨0x0, [fRWL 0 1 0, fRWL 1 1 0, fRWL 2 1 0, fRWL 3 1 0, fRWL 4 1 0, fRWL 5 1 1]⟩ /- CAN_CFG -/,
    ⟨0x4, [fRWL 0 5 0, fRWL 8 8 0x7e, fRWL 16 7 0x1f, fRWL 24 7 0x1f]⟩ /- CAN_NBT -/,
    ⟨0x8, [fRWL 0 5 0, fRWL 8 5 0x1c, fRWL 16 4 9, fRWL 24 4 9]⟩ /- CAN_DBT -/,
    ⟨0xC, [fRWL 0 5 0, fRWL 8 5 4, fRWL 16 4 1, fRWL 24 4 1]⟩ /- CAN_XBT -/,
    ⟨0x10, [fRWL 0 7 0]⟩ /- CAN_TDC -/,
    ⟨0x14, [fRng .rwl 0 16 0x400 11 65535]⟩ /- CAN_STUCK -/,
    ⟨0x18, [fRWL 0 1 0, fRWL 1 1 0, fRng .rwl 4 12 0xc8 8 4095]⟩ /- CAN_SLEEP -/,
    ⟨0x1C, [fRWL 0 29 0, fRWL 29 1 0, fRWL 30 1 0]⟩ /- CAN_WAKE_ID -/,
    ⟨0x20, [fRWL 0 29 0]⟩ /- CAN_WAKE_IDMASK -/,
    ⟨0x24, [fRWL 0 32 0]⟩ /- CAN_WAKE_DATA_LO -/,
    ⟨0x28, [fRWL 0 32 0]⟩ /- CAN_WAKE_DATA_HI -/,
    ⟨0x2C, [fRWL 0 32 0]⟩ /- CAN_WAKE_DMASK_LO -/,
    ⟨0x30, [fRWL 0 32 0]⟩ /- CAN_WAKE_DMASK_HI -/,
    ⟨0x38, [fWO 0 2 0]⟩ /- CAN_CMD -/,
    ⟨0x40, [fRO 0 5 0, fRO 8 16 0]⟩ /- CAN_STATE -/,
    ⟨0x44, [fW1C 0 5 0]⟩ /- CAN_STATUS -/,
    ⟨0x48, [fRO 0 16 0]⟩ /- CAN_STATUS_SEQ -/,
    ⟨0x4C, [fRO 0 32 0]⟩ /- CAN_RX_CNT -/,
    ⟨0x50, [fRO 0 32 0]⟩ /- CAN_TX_CNT -/,
    ⟨0x54, [fRO 0 32 0]⟩ /- CAN_ERR_FRAME_CNT -/,
    ⟨0x58, [fRO 0 32 0]⟩ /- CAN_ARB_LOST_CNT -/,
    ⟨0x5C, [fRO 0 32 0]⟩ /- CAN_STUCK_CNT -/,
    ⟨0x60, [fRO 0 32 0]⟩ /- CAN_BUSOFF_CNT -/,
    ⟨0x64, [fRO 0 32 0]⟩ /- CAN_WAKE_CNT -/,
    ⟨0x68, [fRO 0 32 0]⟩ /- CAN_NOMATCH_CNT -/]

/-- Registers of the block (R645). -/
def parapetRegs : List Reg :=
  [
    ⟨0x0, [fRO 0 2 0, fRO 4 1 0, fRO 5 1 0]⟩ /- PP_MODE -/,
    ⟨0x4, [fWO 0 2 0]⟩ /- PP_MODE_REQ -/,
    ⟨0x8, [fRO 0 1 0, fRO 1 3 0, fRO 8 4 0]⟩ /- PP_MODE_RESULT -/,
    ⟨0xC, [fRO 0 8 0]⟩ /- PP_CAUSE -/,
    ⟨0x10, [fRO 0 4 0]⟩ /- PP_FIRST_CAUSE -/,
    ⟨0x14, [fRO 0 32 0]⟩ /- PP_ENTRY_TIME_LO -/,
    ⟨0x18, [fRO 0 32 0]⟩ /- PP_ENTRY_TIME_HI -/,
    ⟨0x1C, [fRng .rwl 0 14 0xc8 10 10000]⟩ /- PP_FROZEN_CFG -/,
    ⟨0x20, [fWO 0 32 0]⟩ /- PP_UNSAFE_ACK -/,
    ⟨0x24, [fRng .rwl 0 4 2 1 8]⟩ /- PP_HB_CFG -/,
    ⟨0x28, [fRO 0 8 0, fRO 8 8 0, fRO 16 8 0, fRO 24 8 0]⟩ /- PP_TEMP -/,
    ⟨0x2C, [fW1C 0 1 0, fW1C 1 1 0, fW1C 2 1 0, fW1C 3 1 0, fW1C 4 1 0, fW1C 5 1 0, fW1C 6 1 0]⟩ /- PP_STATUS -/,
    ⟨0x30, [fRO 0 16 0]⟩ /- PP_STATUS_SEQ -/,
    ⟨0x34, [fRO 0 32 0]⟩ /- PP_SAFE_CNT -/,
    ⟨0x38, [fRO 0 32 0]⟩ /- PP_REFUSED_CNT -/,
    ⟨0x3C, [fRO 0 32 0]⟩ /- PP_FROZEN_ON_CNT -/,
    ⟨0x40, [fRO 0 32 0]⟩ /- PP_MODE_CNT -/]

/-- Registers of the block (R685). -/
def firmwareRegs : List Reg :=
  [
    ⟨0x0, [fRO 0 1 0, fRO 1 1 0, fRO 2 1 0, fRO 3 1 0, fRO 4 1 0]⟩ /- FW_STATE -/,
    ⟨0x4, [fRO 0 32 0]⟩ /- FW_VERSION -/,
    ⟨0x8, [fRO 0 32 0]⟩ /- FW_SVN -/,
    ⟨0xC, [fRW 12 20 0]⟩ /- FWU_HOST_LO -/,
    ⟨0x10, [fRW 0 32 0]⟩ /- FWU_HOST_HI -/,
    ⟨0x14, [fRW 0 22 0]⟩ /- FWU_LEN -/,
    ⟨0x18, [fWO 0 3 0]⟩ /- FWU_CMD -/,
    ⟨0x1C, [fRO 0 1 0, fRO 4 4 0, fRO 8 3 0, fRO 11 5 0]⟩ /- FWU_RESULT -/,
    ⟨0x20, [fW1C 0 1 0, fW1C 1 1 0, fW1C 2 1 0, fW1C 3 1 0]⟩ /- FWU_STATUS -/,
    ⟨0x24, [fRO 0 16 0]⟩ /- FWU_STATUS_SEQ -/,
    ⟨0x28, [fRO 0 32 0]⟩ /- FW_RESTART_CNT -/]

/-- Registers of the block (R703). -/
def identityRegs : List Reg :=
  [
    ⟨0x0, [fRO 0 32 0x52561eb7]⟩ /- ID_VENDOR -/,
    ⟨0x4, [fRO 0 32 0x595256]⟩ /- ID_PART -/,
    ⟨0x8, [fRO 0 32 0xb0]⟩ /- ID_STEPPING -/,
    ⟨0xC, [fRO 0 32 0x8281020]⟩ /- ID_CAPS0 -/,
    ⟨0x10, [fRO 0 32 0xc00ff08]⟩ /- ID_CAPS1 -/,
    ⟨0x14, [fRO 0 32 0]⟩ /- ID_UID_LO -/,
    ⟨0x18, [fRO 0 32 0]⟩ /- ID_UID_HI -/,
    ⟨0x1C, [fRW 0 32 0]⟩ /- GLOBAL_SCRATCH -/,
    ⟨0x20, [fW1C 0 4 0]⟩ /- GLOBAL_STATUS -/,
    ⟨0x24, [fRO 0 16 0]⟩ /- GLOBAL_STATUS_SEQ -/,
    ⟨0x28, [fRO 0 20 0]⟩ /- GLOBAL_BAD_ADDR -/,
    ⟨0x2C, [fRO 0 16 0]⟩ /- GLOBAL_EVT -/,
    ⟨0x30, [fRW 0 7 0, fRW 31 1 0]⟩ /- GLOBAL_IRQ -/,
    ⟨0x34, [fRW 0 16 0]⟩ /- GLOBAL_IRQ_MASK -/]

/-- Registers of the block (R704). -/
def tenantTableRegs : List Reg :=
  [
    ⟨0x0, [fRWL 0 2 0, fRWL 4 1 0, fWO 8 1 0]⟩ /- TENANT_CFG -/,
    ⟨0x4, [fRWL 0 32 0x1d4c00]⟩ /- TENANT_ORPHAN_LIMIT -/,
    ⟨0x8, [fRWL 0 20 0]⟩ /- TENANT_HB -/,
    ⟨0xC, [fRO 0 2 0, fRO 4 3 0]⟩ /- TENANT_STATE -/,
    ⟨0x10, [fRO 0 32 0]⟩ /- TENANT_ORPHAN_SPAN_LO -/,
    ⟨0x14, [fRO 0 16 0]⟩ /- TENANT_ORPHAN_SPAN_HI -/,
    ⟨0x18, [fRO 0 32 0]⟩ /- TENANT_ORPHAN_LEFT -/]

/-- Registers of the block (R709). -/
def grantCtlRegs : List Reg :=
  [
    ⟨0x400, [fRW 0 8 0, fRO 16 3 0, fRO 24 1 0, fRO 25 1 0]⟩ /- GRANT_COMMIT -/,
    ⟨0x404, [fRO 0 12 0xfff, fRO 16 11 0]⟩ /- GRANT_COMMIT_INFO -/,
    ⟨0x408, [fWO 0 9 0]⟩ /- GRANT_LOAD -/,
    ⟨0x40C, [fRW 0 8 0]⟩ /- GRANT_VIEW -/,
    ⟨0x410, [fRO 0 32 0]⟩ /- GRANT_GEN -/]

/-- Registers of the block (R718). -/
def tenantPageRegs : List Reg :=
  [
    ⟨0x0, [fRO 0 2 0, fRO 4 1 0]⟩ /- TN_STATE -/,
    ⟨0x4, [fWO 0 2 0]⟩ /- TN_CTRL -/,
    ⟨0x8, [fW1C 0 4 0]⟩ /- TN_STATUS -/,
    ⟨0xC, [fRO 0 16 0]⟩ /- TN_STATUS_SEQ -/,
    ⟨0x10, [fRO 0 32 0]⟩ /- TN_LEASE_LO -/,
    ⟨0x14, [fRO 0 32 0]⟩ /- TN_LEASE_HI -/,
    ⟨0x18, [fRW 0 32 0]⟩ /- TN_LEASE_IN_LO -/,
    ⟨0x1C, [fRW 0 32 0]⟩ /- TN_LEASE_IN_HI -/,
    ⟨0x20, [fWO 0 32 0]⟩ /- TN_HEARTBEAT -/,
    ⟨0x24, [fRO 0 2 0]⟩ /- TN_MODE -/,
    ⟨0x28, [fRO 0 32 0]⟩ /- TN_TIME_LO -/,
    ⟨0x2C, [fRO 0 32 0]⟩ /- TN_TIME_HI -/,
    ⟨0x30, [fRO 0 32 0]⟩ /- TN_SPAN_LO -/,
    ⟨0x34, [fRO 0 32 0]⟩ /- TN_SPAN_HI -/,
    ⟨0x38, [fRO 0 32 0]⟩ /- TN_ORPHAN_CNT -/,
    ⟨0x3C, [fRO 0 32 0]⟩ /- TN_DISCARD_CNT -/,
    ⟨0x40, [fRO 0 32 0]⟩ /- TN_DB_IGNORED_CNT -/,
    ⟨0x44, [fRO 0 32 0]⟩ /- TN_LEASE_BAD_CNT -/,
    ⟨0x48, [fRO 0 32 0]⟩ /- KS_TN_DEFER_CNT -/,
    ⟨0x4C, [fRO 0 32 0]⟩ /- KS_TN_SHED_CNT -/,
    ⟨0x50, [fRO 0 32 0]⟩ /- KS_TN_REFUSED_CNT -/,
    ⟨0x54, [fRO 0 32 0]⟩ /- KS_TN_LATE_CNT -/] ++
  (regRow 0x58 7 [fRO 0 32 0]) /- KS_TN_TU -/ ++
  [
    ⟨0x74, [fRW 0 2 0, fRW 2 6 0, fRO 16 1 0]⟩ /- TN_PUB_SEL -/,
    ⟨0x78, [fRO 0 32 0]⟩ /- TN_PUB_DATA -/,
    ⟨0x7C, [fRO 0 32 0]⟩ /- TN_GRANT_GEN -/]

/-- Registers of the block (R720). -/
def traceRegs : List Reg :=
  (regRow 0x0 16 [fRW 0 1 0, fRW 8 8 0, fRW 16 6 0]) /- TRACE_SRC -/ ++
  [
    ⟨0x40, [fRWL 0 1 0]⟩ /- DBG_CFG -/]

/-- Registers of the block (R748). -/
def monitorsRegs : List Reg :=
  [
    ⟨0x100, [fRWL 0 1 1, fRng .rwl 8 8 8 4 20]⟩ /- AVS_CFG -/,
    ⟨0x104, [fRO 0 10 0x2ee, fRO 16 10 0, fRO 28 1 0, fRO 29 1 0]⟩ /- AVS_STATE -/,
    ⟨0x108, [fRO 0 8 0]⟩ /- AVS_SLACK -/,
    ⟨0x10C, [fRng .rwl 0 16 0x12c 100 1000]⟩ /- AGE_EOL -/,
    ⟨0x110, [fRO 0 16 0, fRO 16 1 0]⟩ /- AGE_STATE -/,
    ⟨0x114, [fW1C 0 4 0]⟩ /- AGE_STATUS -/,
    ⟨0x118, [fRO 0 16 0]⟩ /- AGE_STATUS_SEQ -/,
    ⟨0x11C, [fRO 0 32 0]⟩ /- AGE_EQ_HOURS -/,
    ⟨0x120, [fRO 0 32 0]⟩ /- AVS_STEP_CNT -/,
    ⟨0x124, [fRO 0 8 0]⟩ /- AGE_TJ_MAX -/]

/-- Registers of the block (R304). -/
def visionTotalRegs : List Reg :=
  [
    ⟨0x0, [fRO 0 15 0]⟩ /- VIS_TRACK_TOTAL -/]

/-- Registers of the block (R709). -/
def stagingRegs : List Reg :=
  (regRow 0x0 224 [fRW 0 32 0]) /- GR -/

/-- Registers of the block (R709). -/
def viewRegs : List Reg :=
  (regRow 0x0 224 [fRO 0 32 0]) /- GV -/

/-- Registers of the block (R709). -/
def mirrorRegs : List Reg :=
  (regRow 0x0 224 [fRO 0 32 0]) /- GM -/

/-- The register blocks of PF0 BAR0 (R688, Table 19-2) and of the tenant pages (R718), each with its base, the
stride and number of its units, an inner array where it has one, and where the unit's CFG_ERR flag stands. -/
def blocks : List Blk := [
  ⟨0x2000, 0x2000, 1, 0x0, 0x0, 0, some (0x18, 2), spanRegs⟩,
  ⟨0x2000, 0x2000, 1, 0x0, 0x0, 0, some (0x6C, 6), refsRegs⟩,
  ⟨0x100000, 0x1000, 256, 0x400, 0x20, 16, none, sqRegs⟩,
  ⟨0x100000, 0x1000, 256, 0x600, 0x20, 16, none, cqRegs⟩,
  ⟨0x1000, 0x1000, 1, 0x0, 0x0, 0, some (0xC, 4), keystoneRegs⟩,
  ⟨0x100000, 0x1000, 256, 0x800, 0x20, 64, some (0xC, 2), queueRegs⟩,
  ⟨0x34000, 0x200, 8, 0x0, 0x0, 0, some (0x20, 0), cameraRegs⟩,
  ⟨0x34000, 0x200, 8, 0x80, 0x20, 4, some (0x20, 0), cameraVcRegs⟩,
  ⟨0x4C000, 0x1000, 1, 0x0, 0x0, 0, some (0x4, 3), deckRegs⟩,
  ⟨0x38000, 0x200, 32, 0x0, 0x0, 0, some (0x24, 0), visionRegs⟩,
  ⟨0x28000, 0x20, 576, 0x0, 0x0, 0, none, valveRegs⟩,
  ⟨0x2C800, 0x10, 576, 0x0, 0x0, 0, none, peakHoldRegs⟩,
  ⟨0x2F000, 0x40, 16, 0x0, 0x0, 0, none, nozzleRowRegs⟩,
  ⟨0x2F400, 0x400, 1, 0x0, 0x0, 0, some (0x4, 2), ejectionRegs⟩,
  ⟨0x40000, 0x1000, 1, 0x0, 0x0, 0, some (0x8, 5), trestleRegs⟩,
  ⟨0x40000, 0x1000, 1, 0x100, 0x10, 16, some (0x8, 5), trestleNodeRegs⟩,
  ⟨0x30000, 0x100, 40, 0x0, 0x0, 0, some (0x44, 8), feedbackRegs⟩,
  ⟨0x32800, 0x40, 8, 0x0, 0x0, 0, some (0xC, 2), emuRegs⟩,
  ⟨0x10000, 0x400, 32, 0x0, 0x0, 0, some (0x144, 2), pierRegs⟩,
  ⟨0x10000, 0x400, 32, 0x80, 0x10, 4, some (0x144, 2), pierBqRegs⟩,
  ⟨0x18000, 0x100, 16, 0x0, 0x0, 0, some (0x44, 1), stepGenRegs⟩,
  ⟨0x19000, 0x1000, 1, 0x0, 0x0, 0, none, limitsRegs⟩,
  ⟨0x20000, 0x100, 16, 0x0, 0x0, 0, some (0x24, 5), bridgeRegs⟩,
  ⟨0x21000, 0x40, 32, 0x0, 0x0, 0, some (0xC, 5), pwmxRegs⟩,
  ⟨0x21800, 0x20, 16, 0x0, 0x0, 0, none, auxRegs⟩,
  ⟨0x22000, 0x100, 2, 0x0, 0x0, 0, none, footingRegs⟩,
  ⟨0x22200, 0x100, 1, 0x0, 0x0, 0, none, pwmGlobalRegs⟩,
  ⟨0x44000, 0x100, 8, 0x0, 0x0, 0, some (0x44, 4), canRegs⟩,
  ⟨0x48000, 0x1000, 1, 0x0, 0x0, 0, some (0x2C, 5), parapetRegs⟩,
  ⟨0x80000, 0x1000, 1, 0x0, 0x0, 0, none, firmwareRegs⟩,
  ⟨0x0, 0x1000, 1, 0x0, 0x0, 0, some (0x20, 0), identityRegs⟩,
  ⟨0x4000, 0x40, 256, 0x0, 0x0, 0, none, tenantTableRegs⟩,
  ⟨0x8000, 0x8000, 1, 0x0, 0x0, 0, none, grantCtlRegs⟩,
  ⟨0x100000, 0x1000, 256, 0x0, 0x0, 0, none, tenantPageRegs⟩,
  ⟨0x50000, 0x1000, 1, 0x0, 0x0, 0, none, traceRegs⟩,
  ⟨0x0, 0x1000, 1, 0x0, 0x0, 0, some (0x114, 3), monitorsRegs⟩,
  ⟨0x3C000, 0x4, 1, 0x0, 0x0, 0, none, visionTotalRegs⟩,
  ⟨0x8000, 0x400, 1, 0x0, 0x0, 0, none, stagingRegs⟩,
  ⟨0xC000, 0x400, 1, 0x0, 0x0, 0, none, viewRegs⟩,
  ⟨0x100080, 0x1000, 256, 0x0, 0x0, 0, none, mirrorRegs⟩]

/-- Where a key falls in a block: the key of its unit's first register, and the offset its registers are numbered by. -/
def Blk.locate (b : Blk) (key : Nat) : Option (Nat × Nat) :=
  if key < b.base ∨ b.base + b.stride * b.count ≤ key then none
  else
    let r := (key - b.base) % b.stride
    let unit := key - r
    if b.subCount = 0 then some (unit, r)
    else if r < b.sub ∨ b.sub + b.subStride * b.subCount ≤ r then none
    else some (unit, (r - b.sub) % b.subStride)

/-- The register a block holds at a key, with the unit's base and the block's CFG_ERR place. -/
def Blk.regAt (b : Blk) (key : Nat) : Option (Nat × Option (Nat × Nat) × Reg) :=
  (b.locate key).bind fun p => (b.regs.find? fun r => r.off == p.2).map fun r => (p.1, b.cfgErr, r)

/-- The register at a key, none at an unimplemented offset (R692). -/
def regAt (key : Nat) : Option (Nat × Option (Nat × Nat) × Reg) := blocks.findSome? (·.regAt key)

/-- The reset value of a register from the reset values of its fields. -/
def Reg.reset (r : Reg) : Nat := r.flds.foldl (fun a f => a + f.rst * 2 ^ f.lo) 0

/-- The reset value of the word at a key. -/
def resetWord (key : Nat) : BitVec 32 :=
  match regAt key with
  | some (_, _, r) => BitVec.ofNat 32 r.reset
  | none => 0

end Sys2Proof.Machine
end

