-- ==== Sys2Proof/Machine/Store.lean ====
section
/-!
DEFINITION. Sparse tables in one canonical form: a list of (key, value) pairs, keys strictly rising, no pair whose value
is what an unlisted key reads as. The register file, the Deck, and the tables of units of one kind are such tables, so
equal tables are equal data.
-/
namespace Sys2Proof.Machine

/-- A sparse table. -/
abbrev Store (α : Type) := List (Nat × α)

/-- The value at a key; an unlisted key reads as `dflt k`. -/
def storeGet {α : Type} (dflt : Nat → α) : Store α → Nat → α
  | [], k => dflt k
  | (k', v) :: m, k => if k = k' then v else storeGet dflt m k

/-- Put a pair into its place, dropping the old pair of that key. -/
def storeIns {α : Type} : Store α → Nat → α → Store α
  | [], k, v => [(k, v)]
  | (k', v') :: m, k, v =>
    if k < k' then (k, v) :: (k', v') :: m
    else if k = k' then (k, v) :: m
    else (k', v') :: storeIns m k v

/-- Drop the pair of a key. -/
def storeDel {α : Type} : Store α → Nat → Store α
  | [], _ => []
  | (k', v') :: m, k => if k = k' then m else (k', v') :: storeDel m k

/-- Write a value at a key, keeping the canonical form. -/
def storePut {α : Type} [DecidableEq α] (dflt : Nat → α) (m : Store α) (k : Nat) (v : α) : Store α :=
  if v = dflt k then storeDel m k else storeIns m k v

/-- The canonical form: keys strictly rising from `lo`, no value equal to its key's default. -/
def storeWfFrom {α : Type} [DecidableEq α] (dflt : Nat → α) : Nat → Store α → Bool
  | _, [] => true
  | lo, (k, v) :: m => decide (lo ≤ k) && decide (v ≠ dflt k) && storeWfFrom dflt (k + 1) m

/-- The canonical form of a table. -/
def storeWf {α : Type} [DecidableEq α] (dflt : Nat → α) (m : Store α) : Bool := storeWfFrom dflt 0 m

end Sys2Proof.Machine
end

