-- ==== Sys2Proof/Machine/Types.lean ====
section
/-!
DEFINITION. The records of the machine's state for power, time, references, the PCIe link, tenants, rings, Keystone, device
queues, Parapet, firmware and the life monitors (chapters 01 to 06 and 17 to 20). Each record's `reset` beside it is its
value right after PORST_N.
-/
namespace Sys2Proof.Machine

/-- The supplies, the reset pin and what Parapet holds from them (R9, R631, R646 to R652). -/
structure Power where
  porstHigh : Bool
  pll : Bool
  railOk : List Bool
  vgdMv : List Nat
  vvMv : List Nat
  gateHold : Bool
  deriving DecidableEq, Repr

def Power.reset : Power :=
  { porstHigh := true, pll := false, railOk := List.replicate 7 true, vgdMv := [0, 0], vvMv := [0, 0],
    gateHold := true }

/-- Device time and the span (R8 to R20). `spanIx` counts boundaries without wrapping; the span counter is it modulo 2^48
(R13). `lenWrite` are the writes of LENGTH_Q that wait for their boundary, with their ticks (R14); `sampled` and `judged` say
that the sample instant and the compute deadline of the span have passed; `hi` are the _HI latches, `lastRead` what the last
read returned; `cycSet` holds the W1C bits that hardware has set at tick `cycAt`, by register (R698, R699, R721), and, at keys beyond the
registers', the Deck words corrected at that tick (R256). -/
structure TimeBase where
  now : Nat
  spanIx : Nat
  boundary : Nat
  len : Nat
  offset : Nat
  pct : Nat
  lenWrite : List (Nat × Nat)
  sampled : Bool
  judged : Bool
  hi : Store Word
  lastRead : List Byte
  cycAt : Nat
  cycSet : Store Word
  deriving DecidableEq, Repr

def TimeBase.reset : TimeBase :=
  { now := 0, spanIx := 0, boundary := 0, len := 12500, offset := 200, pct := 70, lenWrite := [], sampled := false,
    judged := false, hi := [], lastRead := [], cycAt := 0, cycSet := [] }

/-- The targets of R43, in the order of `GLIDE_STATUS.TARGET`. -/
inductive RefTarget where
  | freeRun | holdover | ptm | syncIn
  deriving DecidableEq, Repr

/-- Timing references and the glide (chapter 02). Phases are in 1/64 tick, frequencies in 1/1,024 ppm, `p` and `ptmDrift` in
2^−16 tick. `cfg`, `qualify`, `holdSpans` and `ptmCfg` are the settings in force (R67). `syncEdge` is the phase of the edge
seen since the last boundary, `ptmDrift` what device time has gained on host time since the last exchange. -/
structure Refs where
  target : RefTarget
  p : Int
  y : Int
  yT : Int
  phi : Int
  lockRun : Nat
  locked : Bool
  cfg : Word
  qualify : Word
  holdSpans : Word
  ptmCfg : Word
  syncEdge : Option Int
  syncY : Int
  syncLast64 : Option Int
  syncIntervalOk : Bool
  syncSeen : Bool
  syncPhi : Option Int
  syncRun : Nat
  syncMiss : Nat
  syncQual : Bool
  syncMismatch : Nat
  ptmSeen : Bool
  ptmAge : Nat
  ptmHost : Int
  ptmAt : Nat
  ptmDrift : Int
  ptmResid : Nat
  ptmY : Int
  ptmRun : Nat
  ptmQual : Bool
  ptmBad : Bool
  ptmCount : Nat
  epoch : Int
  holdLeft : Nat
  syncOut : Bool
  syncOutAt : Nat
  ptmCapable : Bool
  deriving DecidableEq, Repr

def Refs.reset : Refs :=
  { target := .freeRun, p := 0, y := 0, yT := 0, phi := 0, lockRun := 0, locked := false, cfg := 0x3200#32,
    qualify := 0x40#32, holdSpans := 0x8000#32, ptmCfg := 0x10020#32, syncEdge := none, syncY := 0, syncLast64 := none,
    syncIntervalOk := false, syncSeen := false, syncPhi := none, syncRun := 0, syncMiss := 0, syncQual := false,
    syncMismatch := 0, ptmSeen := false, ptmAge := 0, ptmHost := 0, ptmAt := 0, ptmDrift := 0, ptmResid := 0, ptmY := 0,
    ptmRun := 0, ptmQual := false, ptmBad := false, ptmCount := 0, epoch := 0, holdLeft := 0, syncOut := false,
    syncOutAt := 0, ptmCapable := false }

/-- The PCIe link and the functions that exist (R650, R665, R666). -/
structure Link where
  up : Bool
  perstHigh : Bool
  width : LinkWidth
  rate : LinkRate
  vfEnable : Bool
  numVfs : Nat
  aerErrors : Nat
  deriving DecidableEq, Repr

def Link.reset : Link :=
  { up := false, perstHigh := true, width := .x8, rate := .g32, vfEnable := false, numVfs := 0, aerErrors := 0 }

/-- One entry of an MSI-X table with its pending bit (R165, R686). -/
structure Vec where
  addr : Nat
  data : Nat
  masked : Bool
  pend : Bool
  deriving DecidableEq, Repr

def Vec.reset : Vec := { addr := 0, data := 0, masked := true, pend := false }

/-- The configuration state of one PCIe function (R650, R667, R668, R754). -/
structure Fn where
  memEn : Bool
  bme : Bool
  msixEn : Bool
  msixMask : Bool
  vecs : Store Vec
  deriving DecidableEq, Repr

def Fn.reset : Fn := { memEn := false, bme := false, msixEn := false, msixMask := false, vecs := [] }

/-- The states of a tenant (R94). -/
inductive TnState where
  | detached | attached | orphan
  deriving DecidableEq, Repr

/-- One tenant (chapter 03, R667, R704 to R708, R719). -/
structure Tenant where
  st : TnState
  detaching : Bool
  held : Bool
  heldByT0 : Bool
  holdPend : Option (Bool × Nat)
  lease : Nat
  attachAt : Option Nat
  attachOk : Bool
  pathLost : Bool
  lostDue : Option Nat
  hbLimit : Nat
  hbPend : Option Nat
  hbGap : Nat
  hbSeen : Bool
  policy : Nat
  orphLimit : Nat
  orphSpan : Nat
  orphLeft : Nat
  orphEnd : Bool
  pubExpert : Bool
  pubPend : Option Bool
  ringGen : Nat
  pubBuf : List Nat
  pubPtr : Nat
  pubDenied : Bool
  deriving DecidableEq, Repr

def Tenant.reset : Tenant :=
  { st := .detached, detaching := false, held := false, heldByT0 := false, holdPend := none, lease := 0, attachAt := none,
    attachOk := false, pathLost := false, lostDue := none, hbLimit := 0, hbPend := none, hbGap := 0, hbSeen := false,
    policy := 0, orphLimit := 0x1D4C00, orphSpan := 0, orphLeft := 0, orphEnd := false, pubExpert := false, pubPend := none,
    ringGen := 0, pubBuf := [], pubPtr := 0, pubDenied := false }

/-- A submission ring beyond its registers (R123, R130, R133). -/
structure Sq where
  head : Nat
  tail : Nat
  stopped : Bool
  stall : Bool
  deriving DecidableEq, Repr

def Sq.reset : Sq := { head := 0, tail := 0, stopped := false, stall := false }

/-- A completion ring beyond its registers (R133, R158, R162, R163). -/
structure Cq where
  tail : Nat
  phase : Bool
  head : Nat
  reserved : Nat
  unsig : Nat
  oldest : Option Nat
  stall : Bool
  deriving DecidableEq, Repr

def Cq.reset : Cq :=
  { tail := 0, phase := true, head := 0, reserved := 0, unsig := 0, oldest := none, stall := false }

/-- Where a job stands: held for its apply span, waiting for its turn in its ring, admitted and waiting for its engine, waiting
for a CAN slot (R596), or in work. -/
inductive Phase where
  | held (span : Int)
  | fenced
  | admitted
  | waitSlot
  | active
  deriving DecidableEq, Repr

/-- What a job is: a descriptor, a frame job of a pipeline (R269), or the host reads of STAGE (R676). -/
inductive JobKind where
  | desc
  | frame (p : Nat)
  | stage
  deriving DecidableEq, Repr

/-- One piece of work from its fetch to its final completion. `slices` are the costs still to run, per pool; `planned` how
many of them this span's plan holds. `shedAt` is the shed time of B work (R187). `cq` is the CQ that owes the completion (R133);
`lost` says that it was disabled since (R124). -/
structure Job where
  id : Nat
  kind : JobKind
  d : Desc
  phase : Phase
  cq : Nat
  lost : Bool
  adm : Int
  deadline : Int
  shedAt : Int
  gen : Nat
  slices : List (List Nat)
  planned : Nat
  ran : Bool
  tu : Nat
  deferred : Bool
  lowE : Bool
  ready : Bool
  aux : List Nat
  deriving DecidableEq, Repr

/-- Keystone (chapter 05). Per-pool lists have seven items in the order of Table 05-1. `gUsed` is what each tenant's G
reservation has planned in this span. -/
structure Keystone where
  cfg : Word
  cfg2 : Word
  deficit : Store (List Nat)
  carryG : Store (List Nat)
  carryEB : List Nat
  rrStart : Nat
  cap : List Nat
  used : List Nat
  usedLast : List Nat
  gUsed : Store (List Nat)
  eHalved : Bool
  bStopped : Bool
  degraded : Bool
  deriving DecidableEq, Repr

def Keystone.reset : Keystone :=
  { cfg := 0x1010#32, cfg2 := 0x100#32, deficit := [], carryG := [], carryEB := [0, 0, 0, 0, 0, 0, 0], rrStart := 0,
    cap := [0, 976, 976, 976, 976, 976, 976], used := [0, 0, 0, 0, 0, 0, 0], usedLast := [0, 0, 0, 0, 0, 0, 0], gUsed := [],
    eHalved := false, bStopped := false, degraded := false }

/-- What a queue item holds beyond its header (Tables 06-1, 06-3, 06-4). -/
inductive ItemBody where
  | data (payload : List Byte)
  | gap (last drops lanes : Nat)
  | flush (items cells gapDrops : Nat)
  deriving DecidableEq, Repr

/-- One item of a device queue. -/
structure Item where
  src : Nat
  seq : Nat
  time : Nat
  body : ItemBody
  deriving DecidableEq, Repr

/-- A device queue (chapter 06): the items from the release point on, how many of them lie before the read point and before
the mark, the next sequence number, whether the last item is an open marker, and whether the producer is part-way through an
item (its cells so far) or its cells are dropped until its next header (R228). -/
structure Queue where
  items : List Item
  readIx : Nat
  markIx : Nat
  seq : Nat
  markerOpen : Bool
  part : Nat
  skip : Bool
  deriving DecidableEq, Repr

def Queue.reset : Queue :=
  { items := [], readIx := 0, markIx := 0, seq := 0, markerOpen := false, part := 0, skip := false }

/-- The four modes (R620). -/
inductive Mode where
  | standby | commission | run | safeHold
  deriving DecidableEq, Repr

/-- The code of a mode in `PP_MODE.MODE`. -/
def Mode.code : Mode → Nat
  | .standby => 0
  | .commission => 1
  | .run => 2
  | .safeHold => 3

/-- Parapet and the modes (chapter 17). `req` is the pending request with its tick, `hbRun` the heartbeats in a row since one
was missed. -/
structure Parapet where
  mode : Mode
  unsafeAck : Bool
  hbArmed : Bool
  causes : Nat
  firstCause : Nat
  entryTime : Nat
  req : Option (Nat × Nat)
  reqStale : Bool
  resDone : Bool
  result : Nat
  checks : Nat
  tSpan : Int
  tDeck : Int
  tFootA : Int
  tFootB : Int
  hbRun : Nat
  deriving DecidableEq, Repr

def Parapet.reset : Parapet :=
  { mode := .standby, unsafeAck := false, hbArmed := false, causes := 0, firstCause := 0, entryTime := 0, req := none,
    reqStale := false, resDone := false, result := 0, checks := 0, tSpan := 0, tDeck := 0, tFootA := 0, tFootB := 0,
    hbRun := 0 }

/-- States of a flash slot (Table 18-3). -/
inductive SlotState where
  | empty | new | trial | good | bad
  deriving DecidableEq, Repr

/-- One copy of the boot control record (Table 18-3): whether MAGIC and CRC are valid, and its fields. -/
structure BootCtl where
  valid : Bool
  seq : Nat
  active : Nat
  stA : SlotState
  stB : SlotState
  deriving DecidableEq, Repr

/-- Where the boot ROM and the cores stand. -/
inductive FwPhase where
  | reading | verifying (slot : Nat) (tried : Nat) | starting (slot : Nat) | noSlot | running | recovery
  deriving DecidableEq, Repr

/-- The management firmware, its flash and its mailbox (chapter 18). `actPending` is the tick of ACTIVATE, `actDue` says that
STANDBY was entered since, `busy` is the mailbox command in work. -/
structure Firmware where
  ctl0 : BootCtl
  ctl1 : BootCtl
  imgA : Option Image
  imgB : Option Image
  svnMin : Nat
  phase : FwPhase
  slot : Nat
  ready : Bool
  everReady : Bool
  trial : Bool
  version : Nat
  svn : Nat
  actPending : Option Nat
  actDue : Bool
  inRecovery : Bool
  restartAt : Option Nat
  busy : Option Nat
  resDone : Bool
  result : Nat
  resCmd : Nat
  check : Nat
  stageTarget : Nat
  deriving DecidableEq, Repr

def Firmware.reset : Firmware :=
  { ctl0 := { valid := true, seq := 1, active := 0, stA := .good, stB := .empty },
    ctl1 := { valid := false, seq := 0, active := 0, stA := .empty, stB := .empty },
    imgA := some { magicOk := true, bodyLen := 4, svn := 0, version := 0x1000000, steppings := 1, sigOk := true },
    imgB := none, svnMin := 0, phase := .reading, slot := 0, ready := false, everReady := false, trial := false, version := 0,
    svn := 0, actPending := none, actDue := false, inRecovery := false, restartAt := none, busy := none, resDone := false, result := 0, resCmd := 0, check := 0,
    stageTarget := 1 }

/-- The core-voltage controller and the aging monitors (chapter 20). `ageAcc` is the stress below one 1/256 h, in
2^−64 units of 1/256 h, `tjMax` the hottest span-die reading. -/
structure Life where
  targetMv : Nat
  senseMv : Nat
  avsLink : Bool
  marginLow : Bool
  slack : Nat
  okRun : Nat
  lowRun : Nat
  nackRun : Nat
  degr : Nat
  eol : Bool
  ageHours : Nat
  ageAcc : Nat
  tjMax : Option Int
  deriving DecidableEq, Repr

def Life.reset : Life :=
  { targetMv := 750, senseMv := 0, avsLink := false, marginLow := false, slack := 0, okRun := 0, lowRun := 0, nackRun := 0,
    degr := 0, eol := false, ageHours := 0, ageAcc := 0, tjMax := none }

/-- A grant commit in progress or its last result (R76 to R82, R713). -/
structure Commit where
  tenant : Nat
  due : Option Nat
  done : Bool
  result : Nat
  info : Nat
  deriving DecidableEq, Repr

def Commit.reset : Commit := { tenant := 0, due := none, done := false, result := 0, info := 0xFFF }

/-- A PCIe packet the device sends, oldest first. -/
inductive Tlp where
  | memWrite (fn addr : Nat) (data : List Byte) (poisoned : Bool)
  | msix (fn vector : Nat)
  | ptmRequest
  deriving DecidableEq, Repr

end Sys2Proof.Machine
end

