-- ==== Sys2Proof/Machine/TypesEject.lean ====
section
/-!
DEFINITION. The records of the machine's state for nozzle rows, the event wheel, valves and the Trestle ring (chapters 09
and 10).
-/
namespace Sys2Proof.Machine

/-- Where a valve event comes from: a record fitted for a row (its TRACK_ID), a gap marker of a row, or a descriptor. -/
inductive EvKind where
  | arc (row track : Nat)
  | blanket (row : Nat)
  | desc (job : Nat)
  deriving DecidableEq, Repr

/-- One source of a pending event: its outcome mask (R325, R326) and the opening time it asked for. -/
structure EvSrc where
  kind : EvKind
  mask : Nat
  asked : Int
  deriving DecidableEq, Repr

/-- An event of the wheel (R321 to R330). `arr` orders arrivals; `srcs` are the event's own source and those merged in.
`sentOpen` and `sentClose` say which of its edges a sweep has taken (R358). -/
structure Event where
  valve : Nat
  opn : Int
  cls : Int
  score : Nat
  arr : Nat
  srcs : List EvSrc
  opened : Bool
  sentOpen : Bool
  sentClose : Bool
  deriving DecidableEq, Repr

/-- An event the Arc unit has computed and not yet inserted (R318, R320). The times are those before the latency and the trim. -/
structure FitEv where
  kind : EvKind
  valve : Nat
  opn : Int
  cls : Int
  score : Nat
  deriving DecidableEq, Repr

/-- A tenant's signature request of a valve (R345), its count of shots, and the capture a satellite node still drains: its
open time, the first payload cell and the samples so far. -/
structure SigCfg where
  tenant : Nat
  queue : Nat
  every : Nat
  samples : Nat
  interval : Nat
  count : Nat
  busy : Bool
  openTime : Nat
  cell : List Byte
  held : List Nat
  deriving DecidableEq, Repr

/-- How a local valve is driven (R337). -/
inductive Drive where
  | off | peak | hold
  deriving DecidableEq, Repr

/-- One valve (chapter 09). `est` is A in 1/16 tick (R341); `reported` are the closed events of a satellite valve whose shot
reports are still out. -/
structure Valve where
  drive : Drive
  openAt : Nat
  est : Nat
  lat : Nat
  wear : Bool
  noDip : Bool
  fault : Bool
  cause : Nat
  dipLast : Nat
  sigs : List SigCfg
  reported : List Event
  deriving DecidableEq, Repr

def Valve.reset : Valve :=
  { drive := .off, openAt := 0, est := 0, lat := 0, wear := false, noDip := false, fault := false, cause := 0, dipLast := 0,
    sigs := [], reported := [] }

/-- One nozzle row (chapter 09). -/
structure NozzleRow where
  running : Bool
  starting : Bool
  stopping : Bool
  tenant : Nat
  queue : Nat
  policy : Nat
  taken : List Item
  cnts : List Nat
  deriving DecidableEq, Repr

def NozzleRow.reset : NozzleRow :=
  { running := false, starting := false, stopping := false, tenant := 0, queue := 0, policy := 0, taken := [],
    cnts := List.replicate 16 0 }

/-- The event wheel, and what the Arc unit has computed for it and not yet inserted, one list per record. -/
structure Wheel where
  events : List Event
  fitted : List (List FitEv)
  nextArr : Nat
  deriving DecidableEq, Repr

def Wheel.reset : Wheel := { events := [], fitted := [], nextArr := 0 }

/-- One Trestle node as the ring controller sees it (chapter 10), and whether its watchdog holds its valves closed
(R367). -/
structure Node where
  version2 : Bool
  delayE : Nat
  delayW : Nat
  reach : Bool
  wrapE : Bool
  wrapW : Bool
  miss : Nat
  missRun : Nat
  acked : Bool
  closedHeld : Bool
  served : Bool
  deriving DecidableEq, Repr

/-- A pending management operation (R357, R372): a tenant's (with its job and the sweeps it may still wait) or a push of a
valve's settings. -/
structure Mgmt where
  job : Option Nat
  node : Nat
  write : Bool
  addr : Nat
  value : Nat
  left : Nat
  sent : Bool
  deriving DecidableEq, Repr

/-- A satellite edge frozen for a sweep (R358, R365): valve, open or close, its device time, LATE. -/
structure SatEdge where
  valve : Nat
  opening : Bool
  time : Nat
  late : Bool
  arr : Nat
  deriving DecidableEq, Repr

/-- The ring controller (chapter 10). `rdMax` is RD_MAX in 1/80 tick (R370). `frozen` are the edges of the next span,
`inFlight` those of the sweep that is out. `lateCloses` wait for the next freeze (R365). `closeAllAt` is the tick of the last
close-all frame (R640). -/
structure Ring where
  linking : Bool
  linkStart : Nat
  relinkJobs : List Nat
  up : Bool
  sweeping : Bool
  rate2 : Bool
  nodes : List Node
  closed : Bool
  broken : List Nat
  restored : Store Nat
  split : Bool
  splitNext : Bool
  breakW : Nat
  breakE : Nat
  rdMax : Nat
  sweepTime : Nat
  frozen : List SatEdge
  inFlight : List SatEdge
  eastOut : Bool
  westOut : Bool
  westDue : Option Nat
  lateCloses : List SatEdge
  mgmt : List Mgmt
  reportJobs : List Nat
  reportNow : List Nat
  closeAllAt : Option Nat
  deriving DecidableEq, Repr

def Ring.reset : Ring :=
  { linking := false, linkStart := 0, relinkJobs := [], up := false, sweeping := false, rate2 := false, nodes := [],
    closed := false, broken := [], restored := [], split := false, splitNext := false, breakW := 0xFF, breakE := 0xFF,
    rdMax := 0, sweepTime := 0, frozen := [], inFlight := [], eastOut := false, westOut := false, westDue := none,
    lateCloses := [], mgmt := [], reportJobs := [], reportNow := [], closeAllAt := none }

end Sys2Proof.Machine
end

