-- ==== Sys2Proof/Machine/TypesMotion.lean ====
section
/-!
DEFINITION. The records of the machine's state for published records, feedback, piers, paths, step generators, PWM and CAN
(chapters 03 and 11 to 16). Positions are Q48.16 counts, velocities Q40.24 counts per span, accelerations Q0.32 counts per
span² (Table 00-4, R469).
-/
namespace Sys2Proof.Machine

/-- A published record (R85 to R87). -/
structure PubRec where
  pos : Int
  vel : Int
  span : Nat
  valid : Bool
  suspect : Bool
  deriving DecidableEq, Repr

def PubRec.reset : PubRec := { pos := 0, vel := 0, span := 0, valid := false, suspect := false }

/-- A serial transaction in progress (R390, R392, R403): its start, its latch time, what it asks (0 an SSI word, otherwise
the code of Table 11-3), and the descriptor it serves. -/
structure SerRun where
  start : Nat
  latch : Nat
  code : Nat
  job : Option Nat
  deriving DecidableEq, Repr

/-- A stream of FB_STREAM (R418). -/
structure FbStream where
  tenant : Nat
  queue : Nat
  every : Nat
  first : Nat
  deriving DecidableEq, Repr

/-- A feedback channel (chapter 11). `pts` are the positions that became true, newest first, with their times; `edges` the
counted edges, newest first, with their direction; `hist` the history entries handed over so far, newest first. -/
structure Fb where
  a : Bool
  b : Bool
  pos : Int
  pts : List (Nat × Int)
  edges : List (Nat × Bool)
  lastAB : Option Nat
  lastZ : Option Nat
  indexSeen : Bool
  suspect : Bool
  fault : Bool
  still : Bool
  stillDir : Option Bool
  countMethod : Bool
  homed : Bool
  sector : Option Nat
  impRun : Nat
  okRun : Nat
  invalid : Bool
  warn : Bool
  raw : Option Nat
  run : Option SerRun
  prevValid : Bool
  errRun : Nat
  validRun : Nat
  sers : List (Nat × Int)
  lastMove : Nat
  essStatus : Bool
  mems : List (Nat × Nat)
  setPos : List (Bool × Int)
  streams : List FbStream
  snapPos : Int
  snapVel : Int
  snapTime : Nat
  snapped : Bool
  hist : List (Nat × Int)
  deriving DecidableEq, Repr

def Fb.reset : Fb :=
  { a := false, b := false, pos := 0, pts := [], edges := [], lastAB := none, lastZ := none, indexSeen := false,
    suspect := false, fault := false, still := true, stillDir := none, countMethod := false, homed := false, sector := none,
    impRun := 0, okRun := 0, invalid := false, warn := false, raw := none, run := none, prevValid := false, errRun := 0,
    validRun := 0, sers := [], lastMove := 0, essStatus := false, mems := [], setPos := [], streams := [], snapPos := 0,
    snapVel := 0, snapTime := 0, snapped := false, hist := [] }

/-- An EMU output (R411 to R415). `e` is Q48.16 counts; `rise` the last rising edge. -/
structure Emu where
  e : Int
  suspended : Bool
  high : Bool
  rise : Option Nat
  deriving DecidableEq, Repr

def Emu.reset : Emu := { e := 0, suspended := false, high := false, rise := none }

/-- One phase of a planned profile: its duration in spans, the acceleration it starts with and its jerk. -/
structure Leg where
  dur : Rat
  acc : Rat
  jerk : Rat
  deriving DecidableEq, Repr

/-- A planned profile (R476 to R479): the boundary it is planned at, its start position and velocity, its phases, and where
it ends (none for a jog, which runs on at its speed). -/
structure Profile where
  from0 : Nat
  p0 : Rat
  v0 : Rat
  legs : List Leg
  target : Option Int
  deriving DecidableEq, Repr

/-- The command generator of an axis. A ramp-stop holds its exact position and velocity (R480). -/
inductive Gen where
  | hold
  | plan (pr : Profile)
  | ramp (p v : Rat)
  deriving DecidableEq, Repr

/-- The source of an axis reference (R422). -/
inductive RefSrc where
  | own
  | group (g : Nat)
  | stay (y : Nat)
  deriving DecidableEq, Repr

/-- A motion command that waits for the boundary. Speeds and limits are in the formats of the opcode. -/
inductive Motion where
  | enable (mode : Nat)
  | disable (ramp : Bool)
  | move (target : Int) (v a d j : Nat) (modified : Bool)
  | jog (v : Int) (a : Nat)
  | torque (iq id : Int)
  | stop
  | volt (vd vq : Int) (angle : Nat)
  | rate (inc : Nat) (neg : Bool)
  | coil (ia ib : Int)
  | hold
  | setPos (p : Int)
  deriving DecidableEq, Repr

/-- The reference side of an axis: axes 0 to 31 are the piers, 32 to 47 the step generators (R533). `job` is the active
motion descriptor with the mark of a modified one; `lastP` the reference of the previous span; `done` that a profile has ended. -/
structure Axis where
  p : Int
  v : Int
  a : Int
  lastP : Int
  gen : Gen
  src : RefSrc
  job : Option Nat
  modified : Bool
  next : List (Motion × Option Nat)
  disableAfter : List Nat
  stopDec : Nat
  stopNext : Option Nat
  limStop : Bool
  deriving DecidableEq, Repr

def Axis.reset : Axis :=
  { p := 0, v := 0, a := 0, lastP := 0, gen := .hold, src := .own, job := none, modified := false, next := [],
    disableAfter := [], stopDec := 0x1000000, stopNext := none, limStop := false }

/-- Pier states (Table 12-2). -/
inductive PierMode where
  | disabled | aligning | torque | velocity | position | fault
  deriving DecidableEq, Repr

def PierMode.code : PierMode → Nat
  | .disabled => 0
  | .aligning => 1
  | .torque => 2
  | .velocity => 3
  | .position => 4
  | .fault => 7

/-- A pier (chapter 12). Currents and voltages are Q16.16. `coef` are parameters 1 to 12 in force; `ovr` the overrides of
PIER_COEF, kept one higher so that 0 means none; `bq` the biquad coefficients in use, an empty list for TYPE 0; `bqRaw` those
of PIER_FILTER; `bqState` the two delays of each biquad in Q46. Commanded currents are Q1.15. -/
structure Pier where
  mode : PierMode
  cause : Nat
  aligned : Bool
  isat : Bool
  vsat : Bool
  inpos : Bool
  e : Nat
  coef : List Nat
  ovr : Store Nat
  overPend : Store Nat
  bq : List (List Int)
  bqRaw : List (List Int)
  bqPend : List (Nat × List Int)
  bqState : List (Int × Int)
  intD : Int
  intQ : Int
  intV : Int
  vCmd : Int
  uHeld : Int
  iqCmd : Int
  idCmd : Int
  volt : Option (Int × Int × Nat)
  alignLeft : Nat
  alignJob : Option Nat
  feRun : Nat
  inRun : Nat
  senseRun : Nat
  senseOk : Nat
  missRun : Nat
  posOff : Bool
  theta : Nat
  iqMeas : Int
  idMeas : Int
  ferr : Int
  deriving DecidableEq, Repr

def Pier.reset : Pier :=
  { mode := .disabled, cause := 0, aligned := false, isat := false, vsat := false, inpos := false, e := 0, coef := [],
    ovr := [], overPend := [], bq := [], bqRaw := [[], [], [], []], bqPend := [], bqState := [], intD := 0, intQ := 0, intV := 0, vCmd := 0,
    uHeld := 0, iqCmd := 0, idCmd := 0, volt := none, alignLeft := 0, alignJob := none, feRun := 0, inRun := 0,
    senseRun := 0, senseOk := 2, missRun := 0, posOff := false, theta := 0, iqMeas := 0, idMeas := 0, ferr := 0 }

/-- A segment of an interpolation group (Table 13-1) with the SEG_APPEND it came with. `ends` are Q24.8. -/
structure Seg where
  typ : Nat
  exact : Bool
  plane : Nat
  feed : Nat
  tag : Nat
  ca : Int
  cb : Int
  ends : List Int
  job : Nat
  deriving DecidableEq, Repr

/-- The states of a group, in the order of LINK_INFO (R518). -/
inductive GroupState where
  | closed | idle | running | held | stopping
  deriving DecidableEq, Repr

def GroupState.code : GroupState → Nat
  | .closed => 0
  | .idle => 1
  | .running => 2
  | .held => 3
  | .stopping => 4

/-- An interpolation group (R483 to R497). `ctrl` are GROUP_CTRL actions that wait for the boundary, `start` the exact start
point of the segment in execution, `along` how far along it the group is, in counts (spans for a dwell, spline parameter for
a B-spline), `speed` the path speed, `vend` the planned junction speeds, `after` the segments that enter the queue after a
flush, `run` the points P0 to Pn of the B-spline run in execution and `runIx` how many of its segments have ended. -/
structure Group where
  owner : Option Nat
  axes : List Nat
  aPath : Nat
  blend : Nat
  state : GroupState
  starved : Bool
  ovr : Nat
  ctrl : List (Nat × Nat)
  queue : List Seg
  start : List Int
  along : Rat
  speed : Rat
  vend : List Rat
  dirty : Bool
  opening : Bool
  after : List Seg
  run : List (List Int)
  runIx : Nat
  deriving DecidableEq, Repr

def Group.reset : Group :=
  { owner := none, axes := [], aPath := 0, blend := 0, state := .closed, starved := false, ovr := 100, ctrl := [],
    queue := [], start := [], along := 0, speed := 0, vend := [], dirty := false, opening := false, after := [], run := [],
    runIx := 0 }

/-- The states of a stay, in the order of LINK_INFO (R518). -/
inductive StayState where
  | closed | released | waiting | clutching | engaged | releasing | coasting
  deriving DecidableEq, Repr

def StayState.code : StayState → Nat
  | .closed => 0
  | .released => 1
  | .waiting => 2
  | .clutching => 3
  | .engaged => 4
  | .releasing => 5
  | .coasting => 6

/-- A stay (R498 to R509). -/
structure Stay where
  owner : Option Nat
  follower : Nat
  kind : Nat
  index : Nat
  cam : Bool
  coast : Bool
  table : Nat
  coastSpans : Nat
  num : Int
  den : Nat
  state : StayState
  mode : Nat
  falling : Bool
  m : Int
  dm : Int
  pm0 : Option Int
  pf0 : Int
  lastM : Option Int
  lastV : Int
  lastVref : Int
  wasState : StayState
  coastLeft : Nat
  coastP : Rat
  invalid : Nat
  engJob : Option Nat
  relJobs : List Nat
  relM : Int
  relDm : Int
  relFalling : Bool
  relWait : Bool
  pOff : Option Int
  isInvalid : Bool
  deriving DecidableEq, Repr

def Stay.reset : Stay :=
  { owner := none, follower := 0, kind := 0, index := 0, cam := false, coast := false, table := 0, coastSpans := 0, num := 0,
    den := 1, state := .closed, mode := 0, falling := false, m := 0, dm := 0, pm0 := none, pf0 := 0, lastM := none,
    lastV := 0, lastVref := 0, wasState := .released, coastLeft := 0, coastP := 0, invalid := 0, engJob := none,
    relJobs := [], relM := 0, relDm := 0, relFalling := false, relWait := false, pOff := none, isInvalid := false }

/-- A cam table (R506 to R509). Points and RISE are Q24.8, MASTER_LEN Q48.16. -/
structure CamTab where
  owner : Option Nat
  cubic : Bool
  cyclic : Bool
  mlen : Nat
  rise : Int
  pts : List Int
  deriving DecidableEq, Repr

def CamTab.reset : CamTab := { owner := none, cubic := false, cyclic := false, mlen := 0, rise := 0, pts := [] }

/-- A latch slot (R510 to R514). `events` wait for their capture: time, event number and how many snapshots have passed. -/
structure Latch where
  armed : Bool
  job : Option Nat
  tenant : Nat
  cont : Bool
  kind : Nat
  index : Nat
  queue : Option Nat
  chan : Nat
  since : Nat
  events : List (Nat × Nat × Nat)
  inSpan : Nat
  spanOf : Nat
  lost : Nat
  captures : Nat
  deriving DecidableEq, Repr

def Latch.reset : Latch :=
  { armed := false, job := none, tenant := 0, cont := false, kind := 0, index := 0, queue := none, chan := 0, since := 0,
    events := [], inSpan := 0, spanOf := 0, lost := 0, captures := 0 }

/-- A step generator (chapter 14). `phi` is the total phase Φ at tick `phiAt`; `steps` the whole steps emitted. Currents are
in mA, `iRef` in 1/16 mA. -/
structure Sg where
  enabled : Bool
  fault : Bool
  cause : Nat
  strong : Bool
  strongNext : Option Bool
  standstill : Bool
  rateSat : Bool
  phi : Int
  phiAt : Nat
  steps : Int
  inc : Nat
  neg : Bool
  stepHigh : Bool
  riseAt : Option Nat
  fallAt : Option Nat
  dirHigh : Bool
  dirAt : Option Nat
  lastStep : Nat
  ramp : Nat
  holdNow : Bool
  holdAfter : Bool
  halted : Bool
  raw : Option (Nat × Bool)
  coil : Option (Int × Int)
  intA : Int
  intB : Int
  chopA : Option Nat
  chopB : Option Nat
  driveA : Nat
  driveB : Nat
  stopAt : Option Nat
  chkBad : Nat
  chkRef : Option (Int × Int)
  deriving DecidableEq, Repr

def Sg.reset : Sg :=
  { enabled := false, fault := false, cause := 0, strong := false, strongNext := none, standstill := false, rateSat := false,
    phi := 0, phiAt := 0, steps := 0, inc := 0, neg := false, stepHigh := false, riseAt := none, fallAt := none,
    dirHigh := false, dirAt := none, lastStep := 0, ramp := 0, holdNow := false, holdAfter := false,
    halted := false, raw := none, coil := none, intA := 0,
    intB := 0, chopA := none, chopB := none, driveA := 0, driveB := 0, stopAt := none, chkBad := 0, chkRef := none }

/-- What a compare register set holds for one channel: the off state, a duty (R553), the low switch on throughout, compare
values in 1/64 tick (R550), or an on-interval from the period start of a Q0.16 share of it (R565, R582). -/
inductive Cmp where
  | off
  | duty (d : Rat)
  | low
  | pair (hOn hOff : Nat)
  | two (hOn hOff lOn lOff : Nat)
  | fill (d : Nat)
  deriving DecidableEq, Repr

/-- One PWM channel: its three register sets (the pending one with the tick of its load-all and whether Keystone took it),
the ratio and period in force, the
commands and switches, since when each command has been off (in 1/64 tick), when each switch turned on and the last edge of
either (in ticks), and whether the period holds its switches off
(R557, R561). -/
structure Pwm where
  shadow : Cmp
  pending : Option (Cmp × Nat × Bool)
  active : Cmp
  k : Nat
  j : Nat
  start : Nat
  len : Nat
  h : Bool
  l : Bool
  hOff : Nat
  lOff : Nat
  hSw : Bool
  lSw : Bool
  hOnAt : Nat
  lOnAt : Nat
  edgeAt : Nat
  block : Bool
  bootBlock : Bool
  deriving DecidableEq, Repr

def Pwm.reset : Pwm :=
  { shadow := .off, pending := none, active := .off, k := 1, j := 0, start := 0, len := 0, h := false, l := false,
    hOff := 0, lOff := 0, hSw := false, lSw := false, hOnAt := 0, lOnAt := 0, edgeAt := 0, block := false, bootBlock := false }

/-- A bridge group (0 to 15) or PWMX set (16 to 47): trips, freeze, masks, and block commutation (chapter 15). -/
structure Stage where
  fault : Bool
  cause : Nat
  faultAt : Nat
  latched : List Nat
  frozenAt : Option Nat
  frozenTmo : Nat
  restart : Option Nat
  masks : Nat
  shoots : List Nat
  gin : Nat
  ginValid : Bool
  ginNone : Bool
  sector : Nat
  duty : Nat
  dutyNext : Option (Nat × Bool)
  busMv : Nat
  vbus : Nat
  xfltLow : Bool
  pinsDriven : Bool
  deriving DecidableEq, Repr

def Stage.reset : Stage :=
  { fault := false, cause := 0, faultAt := 0, latched := [], frozenAt := none, frozenTmo := 0, restart := none, masks := 0, shoots := [], gin := 0,
    ginValid := false, ginNone := true, sector := 0, duty := 0, dutyNext := none, busMv := 0, vbus := 0, xfltLow := false,
    pinsDriven := false }

/-- An AUX channel beyond its registers: the settings in force (R581) and its freeze. -/
structure Aux where
  enabled : Bool
  pol : Bool
  k : Nat
  frozen : Bool
  restart : Option Nat
  deriving DecidableEq, Repr

def Aux.reset : Aux := { enabled := false, pol := false, k := 1, frozen := false, restart := none }

/-- A footing's gate-driver enable pin: filtered level, and since when it has been low (R572, R573). -/
structure Footing where
  gdHigh : Bool
  lowAt : Nat
  deriving DecidableEq, Repr

def Footing.reset : Footing := { gdHigh := false, lowAt := 0 }

/-- A frame in a CAN transmit set, or a CAN frame on the wire (R595, Table 16-3). Format: 0 classic, 1 FD, 2 XL. -/
structure CanSlot where
  job : Nat
  tenant : Nat
  frame : CanFrame
  oneShot : Bool
  adm : Nat
  since : Nat
  deriving DecidableEq, Repr

/-- One receive filter (R609). -/
structure CanFilt where
  enabled : Bool
  range : Bool
  reject : Bool
  formats : Nat
  queue : Nat
  id1 : Nat
  id2 : Nat
  since : Nat
  deriving DecidableEq, Repr

def CanFilt.reset : CanFilt :=
  { enabled := false, range := false, reject := false, formats := 0, queue := 0, id1 := 0, id2 := 0, since := 0 }

/-- CAN channel states, in the order of `CAN_STATE.STATE`. -/
inductive CanState where
  | stopped | active | passive | busOff | stuck | sleep
  deriving DecidableEq, Repr

def CanState.code : CanState → Nat
  | .stopped => 0
  | .active => 1
  | .passive => 2
  | .busOff => 3
  | .stuck => 4
  | .sleep => 5

/-- A CAN channel (chapter 16). Filters are kept by 128 × tenant + slot, newest setting first, older ones for a frame that has
begun (R612); `stop` are the STOP and SLEEP (true) that wait for the end of the frame in progress, with their descriptors. -/
structure Can where
  state : CanState
  masked : Bool
  rxdStuck : Bool
  txErr : Nat
  rxErr : Nat
  set : List CanSlot
  filters : Store (List CanFilt)
  taps : List (Nat × Nat)
  stop : List (Bool × Option Nat)
  sleepJob : Option Nat
  recovering : Bool
  deriving DecidableEq, Repr

def Can.reset : Can :=
  { state := .stopped, masked := false, rxdStuck := false, txErr := 0, rxErr := 0, set := [], filters := [], taps := [],
    stop := [], sleepJob := none, recovering := false }

end Sys2Proof.Machine
end

