-- ==== Sys2Proof/Machine/TypesVis.lean ====
section
/-!
DEFINITION. The records of the machine's state for cameras, frame rings and vision pipelines (chapters 07 and 08).
-/
namespace Sys2Proof.Machine

/-- A trigger of a camera port (R250, R251): its count, rising edge, exposure start and the channels it has matched. -/
structure Trig where
  seq : Nat
  edge : Nat
  exp : Nat
  matched : Nat
  deriving DecidableEq, Repr

/-- A camera port (chapter 07). The `cfg` words are the trigger fields in force (R264). -/
structure Cam where
  linkUp : Bool
  deskewWait : Bool
  portLost : Bool
  pin : Bool
  lastEdge : Option Nat
  trigCount : Nat
  trigs : List Trig
  expDue : List (Nat × Nat)
  sched : List Nat
  since : Nat
  cfgTrig : Word
  cfgTime : Word
  cfgGap : Word
  cfgDelay : Word
  cfgMatch : Word
  cfgTimeout : Word
  quietSpans : Option Nat
  inBytes : Nat
  deriving DecidableEq, Repr

def Cam.reset : Cam :=
  { linkUp := false, deskewWait := false, portLost := false, pin := false, lastEdge := none, trigCount := 0, trigs := [],
    expDue := [], sched := [], since := 0, cfgTrig := 0x100#32, cfgTime := 0x1900000#32, cfgGap := 0xFA0#32,
    cfgDelay := 0#32, cfgMatch := 0x61A80#32, cfgTimeout := 0x200#32, quietSpans := none, inBytes := 0 }

/-- The frame a virtual channel is receiving. -/
structure OpenFrame where
  slot : Nat
  drop : Bool
  untimed : Bool
  exp : Nat
  fs : Nat
  trigSeq : Nat
  got : Nat
  lines : Nat
  bad : Nat
  long : Bool
  crc : Bool
  ue : Bool
  deriving DecidableEq, Repr

/-- A virtual channel of a port: FRAME_SEQ, the open frame, and how many users lock each slot (R242, R243, R268). -/
structure Vc where
  frameSeq : Nat
  opened : Option OpenFrame
  locks : Store Nat
  deriving DecidableEq, Repr

def Vc.reset : Vc := { frameSeq := 0, opened := none, locks := [] }

/-- One image of a pyramid, rows joined. -/
structure Plane where
  w : Nat
  h : Nat
  px : List Nat
  deriving DecidableEq, Repr

/-- A motion vector in quarter pixels and whether it is reliable (R278). -/
structure MotionVec where
  x : Int
  y : Int
  ok : Bool
  deriving DecidableEq, Repr

/-- One observation: a labelled blob (R282 to R287). Positions are Q16.16 pixels. -/
structure Obs where
  x : Nat
  y : Nat
  area : Nat
  score : Nat
  top : Nat
  elong : Nat
  lane : Nat
  edge : Bool
  cluster : Bool
  reject : Bool
  hard : Bool
  suspect : Bool
  mv : MotionVec
  t : Nat
  seq : Nat
  deriving DecidableEq, Repr

/-- An open track: its slot and reuse count, observations (newest first), misses and whether it has emitted (R290 to R294). -/
structure Track where
  slot : Nat
  reuse : Nat
  obs : List Obs
  count : Nat
  misses : Nat
  emitted : Bool
  lastSeq : Nat
  deriving DecidableEq, Repr

/-- How far a frame job has come (R267), with the settings and the class bank it runs with (R288, R303). `missed`: it was shed or
skipped; `dead`: its pipeline has stopped since. -/
structure FrameJob where
  job : Nat
  seq : Nat
  slot : Nat
  bank : List Byte
  fmt : Word
  flags : Nat
  lines : Nat
  exp : Nat
  params : List Nat
  lanes : List Nat
  pyr : Option (List Plane)
  ref : Option (List Plane)
  mvs : Option (List MotionVec)
  obs : Option (List Obs)
  missed : Bool
  dead : Bool
  deriving DecidableEq, Repr

/-- A vision pipeline (chapter 08). -/
structure Pipe where
  running : Bool
  cls : Nat
  deadline : Nat
  clsNext : Nat
  deadlineNext : Nat
  ovr : Store Nat
  bank : Nat
  banks : List (List Byte)
  loaded : Option Nat
  superseded : List Nat
  bgValid : Bool
  bg : List Nat
  bgJobs : List Nat
  prev : Option (Nat × List Plane)
  frames : List FrameJob
  lastBlobs : Nat
  hist : List Nat
  tracks : List Track
  stopJobs : List Nat
  deriving DecidableEq, Repr

def Pipe.reset : Pipe :=
  { running := false, cls := 0, deadline := 0, clsNext := 0, deadlineNext := 0, ovr := [], bank := 0,
    banks := [[], []], loaded := none, superseded := [], bgValid := false, bg := [], bgJobs := [], prev := none, frames := [],
    lastBlobs := 64, hist := [], tracks := [], stopJobs := [] }

end Sys2Proof.Machine
end

