-- ==== Sys2Proof/Machine/State.lean ====
section
/-!
DEFINITION. The machine's state as plain data, its value right after PORST_N, and the reasons a step can stop.
-/
namespace Sys2Proof.Machine

/-- The state of the block. A table lists the units that differ from their reset value. -/
structure State where
  /-- Supplies and the reset pin. -/
  power : Power
  /-- Device time and the span. -/
  tb : TimeBase
  /-- Timing references and the glide. -/
  refs : Refs
  /-- The PCIe link. -/
  link : Link
  /-- PCIe functions by number. -/
  fns : Store Fn
  /-- The register file by key (RegMap.lean): set-up fields, W1C flags, event sequence counts and counters. -/
  regs : Store Word
  /-- Committed grant images, by 0x400 × tenant + image offset. -/
  grants : Store Word
  /-- The grant commit. -/
  commit : Commit
  /-- A summary message is due at the next boundary (R702). -/
  irqPend : Bool
  /-- Tenants by number. -/
  tns : Store Tenant
  /-- Submission rings by 16 × tenant + n. -/
  sqs : Store Sq
  /-- Completion rings by 16 × tenant + n. -/
  cqs : Store Cq
  /-- Work from fetch to final completion, in order of admission. -/
  jobs : List Job
  /-- The number of the next job (the model's own). -/
  nextId : Nat
  /-- Keystone. -/
  ks : Keystone
  /-- Device queues by 64 × tenant + q. -/
  queues : Store Queue
  /-- Deck bytes by address, page × 65,536 + byte; an unlisted byte reads 0. -/
  deck : List Host.Cell
  /-- The next 64-bit word the scrubber reads (R255). -/
  scrub : Nat
  /-- Camera ports. -/
  cams : Store Cam
  /-- Virtual channels by 4 × camera + VC. -/
  vcs : Store Vc
  /-- Vision pipelines. -/
  pipes : Store Pipe
  /-- Reuse count of each track slot (Table 08-3). -/
  trackReuse : Store Nat
  /-- Valves. -/
  valves : Store Valve
  /-- Nozzle rows. -/
  rows : Store NozzleRow
  /-- The event wheel. -/
  wheel : Wheel
  /-- The Trestle ring. -/
  ring : Ring
  /-- Sources whose publication is enabled, by 64 × kind + index. -/
  pubOn : Store Bool
  /-- Published records, by 64 × kind + index. -/
  pubRec : Store PubRec
  /-- Feedback channels. -/
  fbs : Store Fb
  /-- EMU outputs. -/
  emus : Store Emu
  /-- Axis references: 0 to 31 the piers, 32 to 47 the step generators. -/
  axes : Store Axis
  /-- Piers. -/
  piers : Store Pier
  /-- Interpolation groups. -/
  groups : Store Group
  /-- Stays. -/
  stays : Store Stay
  /-- Cam tables. -/
  camTabs : Store CamTab
  /-- Latch slots by 8 × pier + slot. -/
  latches : Store Latch
  /-- Edges seen on each PROBE input (EVENT_SEQ of Table 13-4). -/
  probeCnts : Store Nat
  /-- Step generators. -/
  sgs : Store Sg
  /-- Filtered levels of LIM0 to LIM47, one bit each. -/
  limLevels : Nat
  /-- PWM channels: footing legs 0 to 63, PWMX pairs 64 + 3 × set + leg, AUX 160 + a. -/
  pwms : Store Pwm
  /-- Bridge groups 0 to 15 and PWMX sets 16 to 47. -/
  stages : Store Stage
  /-- AUX channels. -/
  auxs : Store Aux
  /-- The two footings. -/
  footings : Store Footing
  /-- CAN channels. -/
  cans : Store Can
  /-- Parapet and the mode. -/
  pp : Parapet
  /-- Firmware, flash and mailbox. -/
  fw : Firmware
  /-- Core voltage and aging monitors. -/
  life : Life
  /-- PCIe packets sent, oldest first (the model's own). -/
  out : List Tlp
  /-- Counter behind fresh free values (the model's own). -/
  freeCtr : Nat
  /-- The commands that wait, first in first out. -/
  pending : List Instr
  deriving DecidableEq, Repr

/-- Reasons to stop with a fault. No command of the block stops so; the name stands for a command that reaches a unit the
device does not have, which the operand types rule out (safe). -/
inductive Fault where
  | noSuchUnit
  deriving DecidableEq, Repr

/-- Reasons to refuse a command. -/
inductive Refusal where
  /-- A command with no meaning in this model yet, by its mnemonic; raised by `exec` alone (safe). -/
  | notModelled (mnemonic : String)
  deriving DecidableEq, Repr

/-- The machine right after PORST_N is released: the timebase PLL has not locked, device time is held at 0 (R9), the mode is
STANDBY (R620), every tenant is DETACHED (R94), every set-up register holds its reset value (R664). -/
def State.reset : State :=
  { power := Power.reset,
    tb := TimeBase.reset,
    refs := Refs.reset,
    link := Link.reset,
    fns := [],
    regs := [],
    grants := [],
    commit := Commit.reset,
    irqPend := false,
    tns := [],
    sqs := [],
    cqs := [],
    jobs := [],
    nextId := 0,
    ks := Keystone.reset,
    queues := [],
    deck := [],
    scrub := 0,
    cams := [],
    vcs := [],
    pipes := [],
    trackReuse := [],
    valves := [],
    rows := [],
    wheel := Wheel.reset,
    ring := Ring.reset,
    pubOn := [],
    pubRec := [],
    fbs := [],
    emus := [],
    axes := [],
    piers := [],
    groups := [],
    stays := [],
    camTabs := [],
    latches := [],
    probeCnts := [],
    sgs := [],
    limLevels := 0,
    pwms := [],
    stages := [],
    auxs := [],
    footings := [],
    cans := [],
    pp := Parapet.reset,
    fw := Firmware.reset,
    life := Life.reset,
    out := [],
    freeCtr := 0,
    pending := [] }

end Sys2Proof.Machine
end

