-- ==== Sys2Proof/Machine/Access.lean ====
section
/-!
DEFINITION. Reading and writing the tables of the state: the register file, and the records of units of each kind.
-/
namespace Sys2Proof.Machine

/-- What an unlisted byte of the Deck reads as. -/
def Memory.blank (_ : Nat) : Byte := 0
/-- The canonical form of the Deck: addresses strictly rising, no byte listed that reads as an unlisted one. -/
def Memory.wf (m : List Host.Cell) : Bool := storeWf Memory.blank m

/-- The register word at a key, as a number. -/
def State.rd (s : State) (k : Nat) : Nat := (storeGet resetWord s.regs k).toNat
/-- Write the register word at a key. -/
def State.wr (s : State) (k v : Nat) : State := { s with regs := storePut resetWord s.regs k (BitVec.ofNat 32 v) }
/-- Bits [lo + n − 1 : lo] of a register. -/
def State.fld (s : State) (k lo n : Nat) : Nat := bits (s.rd k) lo n
/-- One bit of a register. -/
def State.bitAt (s : State) (k i : Nat) : Bool := bit (s.rd k) i
/-- Write bits [lo + n − 1 : lo] of a register. -/
def State.setFld (s : State) (k lo n v : Nat) : State := s.wr k (setBits (s.rd k) lo n v)

/-- The `Fn` record of a unit. -/
def State.fn (s : State) (k : Nat) : Fn := storeGet (fun _ => Fn.reset) s.fns k
/-- Write the `Fn` record of a unit. -/
def State.setFn (s : State) (k : Nat) (x : Fn) : State := { s with fns := storePut (fun _ => Fn.reset) s.fns k x }
/-- Change the `Fn` record of a unit. -/
def State.updFn (s : State) (k : Nat) (f : Fn → Fn) : State := s.setFn k (f (s.fn k))

/-- The `Tenant` record of a unit. -/
def State.tn (s : State) (k : Nat) : Tenant := storeGet (fun _ => Tenant.reset) s.tns k
/-- Write the `Tenant` record of a unit. -/
def State.setTn (s : State) (k : Nat) (x : Tenant) : State := { s with tns := storePut (fun _ => Tenant.reset) s.tns k x }
/-- Change the `Tenant` record of a unit. -/
def State.updTn (s : State) (k : Nat) (f : Tenant → Tenant) : State := s.setTn k (f (s.tn k))

/-- The `Sq` record of a unit. -/
def State.sq (s : State) (k : Nat) : Sq := storeGet (fun _ => Sq.reset) s.sqs k
/-- Write the `Sq` record of a unit. -/
def State.setSq (s : State) (k : Nat) (x : Sq) : State := { s with sqs := storePut (fun _ => Sq.reset) s.sqs k x }
/-- Change the `Sq` record of a unit. -/
def State.updSq (s : State) (k : Nat) (f : Sq → Sq) : State := s.setSq k (f (s.sq k))

/-- The `Cq` record of a unit. -/
def State.cq (s : State) (k : Nat) : Cq := storeGet (fun _ => Cq.reset) s.cqs k
/-- Write the `Cq` record of a unit. -/
def State.setCq (s : State) (k : Nat) (x : Cq) : State := { s with cqs := storePut (fun _ => Cq.reset) s.cqs k x }
/-- Change the `Cq` record of a unit. -/
def State.updCq (s : State) (k : Nat) (f : Cq → Cq) : State := s.setCq k (f (s.cq k))

/-- The `Queue` record of a unit. -/
def State.queue (s : State) (k : Nat) : Queue := storeGet (fun _ => Queue.reset) s.queues k
/-- Write the `Queue` record of a unit. -/
def State.setQueue (s : State) (k : Nat) (x : Queue) : State := { s with queues := storePut (fun _ => Queue.reset) s.queues k x }
/-- Change the `Queue` record of a unit. -/
def State.updQueue (s : State) (k : Nat) (f : Queue → Queue) : State := s.setQueue k (f (s.queue k))

/-- The `Cam` record of a unit. -/
def State.cam (s : State) (k : Nat) : Cam := storeGet (fun _ => Cam.reset) s.cams k
/-- Write the `Cam` record of a unit. -/
def State.setCam (s : State) (k : Nat) (x : Cam) : State := { s with cams := storePut (fun _ => Cam.reset) s.cams k x }
/-- Change the `Cam` record of a unit. -/
def State.updCam (s : State) (k : Nat) (f : Cam → Cam) : State := s.setCam k (f (s.cam k))

/-- The `Vc` record of a unit. -/
def State.vc (s : State) (k : Nat) : Vc := storeGet (fun _ => Vc.reset) s.vcs k
/-- Write the `Vc` record of a unit. -/
def State.setVc (s : State) (k : Nat) (x : Vc) : State := { s with vcs := storePut (fun _ => Vc.reset) s.vcs k x }
/-- Change the `Vc` record of a unit. -/
def State.updVc (s : State) (k : Nat) (f : Vc → Vc) : State := s.setVc k (f (s.vc k))

/-- The `Pipe` record of a unit. -/
def State.pipe (s : State) (k : Nat) : Pipe := storeGet (fun _ => Pipe.reset) s.pipes k
/-- Write the `Pipe` record of a unit. -/
def State.setPipe (s : State) (k : Nat) (x : Pipe) : State := { s with pipes := storePut (fun _ => Pipe.reset) s.pipes k x }
/-- Change the `Pipe` record of a unit. -/
def State.updPipe (s : State) (k : Nat) (f : Pipe → Pipe) : State := s.setPipe k (f (s.pipe k))

/-- The `Valve` record of a unit. -/
def State.valve (s : State) (k : Nat) : Valve := storeGet (fun _ => Valve.reset) s.valves k
/-- Write the `Valve` record of a unit. -/
def State.setValve (s : State) (k : Nat) (x : Valve) : State := { s with valves := storePut (fun _ => Valve.reset) s.valves k x }
/-- Change the `Valve` record of a unit. -/
def State.updValve (s : State) (k : Nat) (f : Valve → Valve) : State := s.setValve k (f (s.valve k))

/-- The `NozzleRow` record of a unit. -/
def State.row (s : State) (k : Nat) : NozzleRow := storeGet (fun _ => NozzleRow.reset) s.rows k
/-- Write the `NozzleRow` record of a unit. -/
def State.setRow (s : State) (k : Nat) (x : NozzleRow) : State := { s with rows := storePut (fun _ => NozzleRow.reset) s.rows k x }
/-- Change the `NozzleRow` record of a unit. -/
def State.updRow (s : State) (k : Nat) (f : NozzleRow → NozzleRow) : State := s.setRow k (f (s.row k))

/-- The `Fb` record of a unit. -/
def State.fb (s : State) (k : Nat) : Fb := storeGet (fun _ => Fb.reset) s.fbs k
/-- Write the `Fb` record of a unit. -/
def State.setFb (s : State) (k : Nat) (x : Fb) : State := { s with fbs := storePut (fun _ => Fb.reset) s.fbs k x }
/-- Change the `Fb` record of a unit. -/
def State.updFb (s : State) (k : Nat) (f : Fb → Fb) : State := s.setFb k (f (s.fb k))

/-- The `Emu` record of a unit. -/
def State.emu (s : State) (k : Nat) : Emu := storeGet (fun _ => Emu.reset) s.emus k
/-- Write the `Emu` record of a unit. -/
def State.setEmu (s : State) (k : Nat) (x : Emu) : State := { s with emus := storePut (fun _ => Emu.reset) s.emus k x }
/-- Change the `Emu` record of a unit. -/
def State.updEmu (s : State) (k : Nat) (f : Emu → Emu) : State := s.setEmu k (f (s.emu k))

/-- The `Axis` record of a unit. -/
def State.axis (s : State) (k : Nat) : Axis := storeGet (fun _ => Axis.reset) s.axes k
/-- Write the `Axis` record of a unit. -/
def State.setAxis (s : State) (k : Nat) (x : Axis) : State := { s with axes := storePut (fun _ => Axis.reset) s.axes k x }
/-- Change the `Axis` record of a unit. -/
def State.updAxis (s : State) (k : Nat) (f : Axis → Axis) : State := s.setAxis k (f (s.axis k))

/-- The `Pier` record of a unit. -/
def State.pier (s : State) (k : Nat) : Pier := storeGet (fun _ => Pier.reset) s.piers k
/-- Write the `Pier` record of a unit. -/
def State.setPier (s : State) (k : Nat) (x : Pier) : State := { s with piers := storePut (fun _ => Pier.reset) s.piers k x }
/-- Change the `Pier` record of a unit. -/
def State.updPier (s : State) (k : Nat) (f : Pier → Pier) : State := s.setPier k (f (s.pier k))

/-- The `Group` record of a unit. -/
def State.group (s : State) (k : Nat) : Group := storeGet (fun _ => Group.reset) s.groups k
/-- Write the `Group` record of a unit. -/
def State.setGroup (s : State) (k : Nat) (x : Group) : State := { s with groups := storePut (fun _ => Group.reset) s.groups k x }
/-- Change the `Group` record of a unit. -/
def State.updGroup (s : State) (k : Nat) (f : Group → Group) : State := s.setGroup k (f (s.group k))

/-- The `Stay` record of a unit. -/
def State.stay (s : State) (k : Nat) : Stay := storeGet (fun _ => Stay.reset) s.stays k
/-- Write the `Stay` record of a unit. -/
def State.setStay (s : State) (k : Nat) (x : Stay) : State := { s with stays := storePut (fun _ => Stay.reset) s.stays k x }
/-- Change the `Stay` record of a unit. -/
def State.updStay (s : State) (k : Nat) (f : Stay → Stay) : State := s.setStay k (f (s.stay k))

/-- The `CamTab` record of a unit. -/
def State.camTab (s : State) (k : Nat) : CamTab := storeGet (fun _ => CamTab.reset) s.camTabs k
/-- Write the `CamTab` record of a unit. -/
def State.setCamTab (s : State) (k : Nat) (x : CamTab) : State := { s with camTabs := storePut (fun _ => CamTab.reset) s.camTabs k x }
/-- Change the `CamTab` record of a unit. -/
def State.updCamTab (s : State) (k : Nat) (f : CamTab → CamTab) : State := s.setCamTab k (f (s.camTab k))

/-- The `Latch` record of a unit. -/
def State.latch (s : State) (k : Nat) : Latch := storeGet (fun _ => Latch.reset) s.latches k
/-- Write the `Latch` record of a unit. -/
def State.setLatch (s : State) (k : Nat) (x : Latch) : State := { s with latches := storePut (fun _ => Latch.reset) s.latches k x }
/-- Change the `Latch` record of a unit. -/
def State.updLatch (s : State) (k : Nat) (f : Latch → Latch) : State := s.setLatch k (f (s.latch k))

/-- The `Sg` record of a unit. -/
def State.sg (s : State) (k : Nat) : Sg := storeGet (fun _ => Sg.reset) s.sgs k
/-- Write the `Sg` record of a unit. -/
def State.setSg (s : State) (k : Nat) (x : Sg) : State := { s with sgs := storePut (fun _ => Sg.reset) s.sgs k x }
/-- Change the `Sg` record of a unit. -/
def State.updSg (s : State) (k : Nat) (f : Sg → Sg) : State := s.setSg k (f (s.sg k))

/-- The `Pwm` record of a unit. -/
def State.pwm (s : State) (k : Nat) : Pwm := storeGet (fun _ => Pwm.reset) s.pwms k
/-- Write the `Pwm` record of a unit. -/
def State.setPwm (s : State) (k : Nat) (x : Pwm) : State := { s with pwms := storePut (fun _ => Pwm.reset) s.pwms k x }
/-- Change the `Pwm` record of a unit. -/
def State.updPwm (s : State) (k : Nat) (f : Pwm → Pwm) : State := s.setPwm k (f (s.pwm k))

/-- The `Stage` record of a unit. -/
def State.stage (s : State) (k : Nat) : Stage := storeGet (fun _ => Stage.reset) s.stages k
/-- Write the `Stage` record of a unit. -/
def State.setStage (s : State) (k : Nat) (x : Stage) : State := { s with stages := storePut (fun _ => Stage.reset) s.stages k x }
/-- Change the `Stage` record of a unit. -/
def State.updStage (s : State) (k : Nat) (f : Stage → Stage) : State := s.setStage k (f (s.stage k))

/-- The `Aux` record of a unit. -/
def State.aux (s : State) (k : Nat) : Aux := storeGet (fun _ => Aux.reset) s.auxs k
/-- Write the `Aux` record of a unit. -/
def State.setAux (s : State) (k : Nat) (x : Aux) : State := { s with auxs := storePut (fun _ => Aux.reset) s.auxs k x }
/-- Change the `Aux` record of a unit. -/
def State.updAux (s : State) (k : Nat) (f : Aux → Aux) : State := s.setAux k (f (s.aux k))

/-- The `Footing` record of a unit. -/
def State.footing (s : State) (k : Nat) : Footing := storeGet (fun _ => Footing.reset) s.footings k
/-- Write the `Footing` record of a unit. -/
def State.setFooting (s : State) (k : Nat) (x : Footing) : State := { s with footings := storePut (fun _ => Footing.reset) s.footings k x }
/-- Change the `Footing` record of a unit. -/
def State.updFooting (s : State) (k : Nat) (f : Footing → Footing) : State := s.setFooting k (f (s.footing k))

/-- The `Can` record of a unit. -/
def State.can (s : State) (k : Nat) : Can := storeGet (fun _ => Can.reset) s.cans k
/-- Write the `Can` record of a unit. -/
def State.setCan (s : State) (k : Nat) (x : Can) : State := { s with cans := storePut (fun _ => Can.reset) s.cans k x }
/-- Change the `Can` record of a unit. -/
def State.updCan (s : State) (k : Nat) (f : Can → Can) : State := s.setCan k (f (s.can k))

end Sys2Proof.Machine
end

