-- ==== Sys2Proof/Machine/Ops.lean ====
section
/-!
DEFINITION. The named operations every command is built from: the gate of PORST_N, device time, register keys, W1C flags
and counters, MSI-X, grants, items offered to device queues, and trace items.
-/
namespace Sys2Proof.Machine

/-- A command's effect. While PORST_N is low the device is held in reset and
nothing acts (R9, R648). -/
def act (s : State) (f : State → State) : Host.Outcome State Fault Refusal :=
  .next (if s.power.porstHigh then f s else s)

/-- Device time reaches a command's tick. It never decreases (R8) and stands at 0 until the PLL has locked (R9). -/
def advance (s : State) (t : Nat) : State :=
  if s.power.pll then { s with tb := { s.tb with now := max s.tb.now t } } else s

/-- Device time. -/
def State.now (s : State) : Nat := s.tb.now

/-- The 48-bit span counter (R13). -/
def State.spanCount (s : State) : Nat := s.tb.spanIx % 2 ^ 48

/-- The mode in force (R620). -/
def State.mode (s : State) : Mode := s.pp.mode

/-- Whether the mode is COMMISSION or RUN. -/
def State.motionMode (s : State) : Bool := s.pp.mode == .commission || s.pp.mode == .run

/-! Register keys. -/

/-- A register of a tenant's page (R718). -/
def tkey (tn off : Nat) : Nat := 0x100000 + 0x1000 * tn + off
/-- A register of a submission ring (R167). -/
def sqKey (tn n off : Nat) : Nat := tkey tn (0x400 + 0x20 * n + off)
/-- A register of a completion ring (R167). -/
def cqKey (tn n off : Nat) : Nat := tkey tn (0x600 + 0x20 * n + off)
/-- A register of a device queue (R233). -/
def qKey (tn q off : Nat) : Nat := tkey tn (0x800 + 0x20 * q + off)
/-- A register of a camera port (R263). -/
def camKey (c off : Nat) : Nat := 0x34000 + 0x200 * c + off
/-- A register of a virtual channel (R263). -/
def vcKey (c v off : Nat) : Nat := 0x34000 + 0x200 * c + 0x80 + 0x20 * v + off
/-- A register of a vision pipeline (R304). -/
def visKey (p off : Nat) : Nat := 0x38000 + 0x200 * p + off
/-- A register of a valve (R351). -/
def valveKey (v off : Nat) : Nat := 0x28000 + 0x20 * v + off
/-- A peak-and-hold register of a valve (R351). -/
def phKey (v off : Nat) : Nat := 0x2C800 + 0x10 * v + off
/-- A register of a nozzle row (R351). -/
def rowKey (r off : Nat) : Nat := 0x2F000 + 0x40 * r + off
/-- A register of a feedback channel (R420). -/
def fbKey (n off : Nat) : Nat := 0x30000 + 0x100 * n + off
/-- A register of an EMU output (R420). -/
def emuKey (e off : Nat) : Nat := 0x32800 + 0x40 * e + off
/-- A register of a pier (R470). -/
def pierKey (p off : Nat) : Nat := 0x10000 + 0x400 * p + off
/-- A register of a step generator (R546). -/
def sgKey (n off : Nat) : Nat := 0x18000 + 0x100 * n + off
/-- A register of a bridge group (R585). -/
def bgKey (g off : Nat) : Nat := 0x20000 + 0x100 * g + off
/-- A register of a PWMX set (R585). -/
def pxKey (n off : Nat) : Nat := 0x21000 + 0x40 * n + off
/-- A register of an AUX channel (R585). -/
def auxKey (a off : Nat) : Nat := 0x21800 + 0x20 * a + off
/-- A register of a footing (R585). -/
def ftKey (f off : Nat) : Nat := 0x22000 + 0x100 * f + off
/-- A register of a CAN channel (R619). -/
def canKey (c off : Nat) : Nat := 0x44000 + 0x100 * c + off
/-- A register of a tenant table entry (R704). -/
def ttKey (t off : Nat) : Nat := 0x4000 + 0x40 * t + off
/-- `GLOBAL_STATUS`, `SPAN_STATUS`, `REF_STATUS`, `KS_STATUS`, `EJ_STATUS`, `TR_STATUS`, `PP_STATUS`, `FWU_STATUS`,
`DECK_STATUS` and `AGE_STATUS`. -/
def kGlobal : Nat := 0x20
def kSpan : Nat := 0x2018
def kRef : Nat := 0x206C
def kKs : Nat := 0x100C
def kEj : Nat := 0x2F404
def kTr : Nat := 0x40008
def kPp : Nat := 0x4802C
def kFwu : Nat := 0x80020
def kDeck : Nat := 0x4C004
def kAge : Nat := 0x114

/-- The event block of a register (Tables 19-2 and 19-3). -/
def evtBlock (k : Nat) : Nat :=
  if k < 0x1000 then 0 else if k < 0x2000 then 1 else if k < 0x4000 then 2 else if k < 0x10000 then 0
  else if k < 0x18000 then 3 else if k < 0x20000 then 4 else if k < 0x28000 then 5 else if k < 0x30000 then 6
  else if k < 0x34000 then 7 else if k < 0x38000 then 8 else if k < 0x40000 then 9 else if k < 0x44000 then 10
  else if k < 0x48000 then 11 else if k < 0x4C000 then 12 else if k < 0x50000 then 13 else if k < 0x60000 then 14
  else 15

/-! Flags and counters. -/

/-- The bits of a W1C register that hardware has set in the present cycle. -/
def State.setNow (s : State) (k : Nat) : Nat :=
  if s.tb.cycAt = s.now then (storeGet (fun _ => (0 : Word)) s.tb.cycSet k).toNat else 0
/-- Bits of a W1C register are set in the present cycle. -/
def noteSet (s : State) (k mask : Nat) : State :=
  let old := if s.tb.cycAt = s.now then s.tb.cycSet else []
  { s with
    tb := { s.tb with cycAt := s.now, cycSet := storePut (fun _ => (0 : Word)) old k (BitVec.ofNat 32 (s.setNow k ||| mask)) } }
/-- Hardware sets bits of a W1C register: the bits become 1 and the event sequence count beside it advances by the number of
bits not yet set in this cycle (R698, R699). -/
def flagRaw (s : State) (k mask : Nat) : State :=
  let more := mask - (mask &&& s.setNow k)
  let s := noteSet s k mask
  let s := s.wr k (s.rd k ||| mask)
  s.wr (k + 4) ((s.rd (k + 4) + popcount 32 more) % 2 ^ 16)

/-- A counter advances, saturating (R694). -/
def countN (s : State) (k n : Nat) : State := s.wr k (satInc (s.rd k) n)
/-- A counter advances by one. -/
def count (s : State) (k : Nat) : State := countN s k 1

/-! Grants. -/

/-- A word of a committed grant image (Table 19-6). -/
def State.gw (s : State) (tn off : Nat) : Nat := (storeGet (fun _ => (0 : Word)) s.grants (0x400 * tn + off)).toNat
def State.hasPier (s : State) (tn p : Nat) : Bool := bit (s.gw tn 0) p
def State.hasSg (s : State) (tn n : Nat) : Bool := n < 16 && bit (s.gw tn 4) n
def State.hasBg (s : State) (tn g : Nat) : Bool := g < 16 && bit (s.gw tn 4) (16 + g)
def State.hasCam (s : State) (tn c : Nat) : Bool := c < 8 && bit (s.gw tn 8) c
def State.hasEmu (s : State) (tn e : Nat) : Bool := e < 8 && bit (s.gw tn 8) (8 + e)
def State.hasAux (s : State) (tn a : Nat) : Bool := a < 16 && bit (s.gw tn 8) (16 + a)
def State.hasProbe (s : State) (tn i : Nat) : Bool := i < 16 && bit (s.gw tn 0xC) i
def State.expert (s : State) (tn : Nat) : Bool := bit (s.gw tn 0xC) 16
def State.hasFb (s : State) (tn n : Nat) : Bool := n < 40 && bit (s.gw tn (0x10 + 4 * (n / 32))) (n % 32)
def State.hasLim (s : State) (tn i : Nat) : Bool := i < 48 && bit (s.gw tn (0x18 + 4 * (i / 32))) (i % 32)
def State.hasValve (s : State) (tn v : Nat) : Bool := v < 576 && bit (s.gw tn (0x20 + 4 * (v / 32))) (v % 32)
def State.hasSig (s : State) (tn v : Nat) : Bool := v < 576 && bit (s.gw tn (0x68 + 4 * (v / 32))) (v % 32)
/-- The published-position right for a source (kind 0 pier, 1 step generator, 2 feedback channel). -/
def State.hasPub (s : State) (tn kind i : Nat) : Bool :=
  if kind = 0 then i < 32 && bit (s.gw tn 0xB0) i
  else if kind = 1 then i < 16 && bit (s.gw tn 0xB4) i
  else i < 40 && bit (s.gw tn (0xB8 + 4 * (i / 32))) (i % 32)
def State.hasFbs (s : State) (tn n : Nat) : Bool := n < 40 && bit (s.gw tn (0xC0 + 4 * (n / 32))) (n % 32)
def State.hasFrameRead (s : State) (tn c : Nat) : Bool := c < 8 && bit (s.gw tn 0xC8) c
def State.hasListen (s : State) (tn c : Nat) : Bool := c < 8 && bit (s.gw tn 0xC8) (8 + c)
def State.gPermille (s : State) (tn p : Nat) : Nat := bits (s.gw tn (0x110 + 4 * p)) 0 10
def State.eWeight (s : State) (tn p : Nat) : Nat := bits (s.gw tn (0x110 + 4 * p)) 16 8
def State.bEn (s : State) (tn p : Nat) : Bool := bit (s.gw tn (0x110 + 4 * p)) 24
/-- The use of a CAN channel in a grant: 0 none, 1 whole, 2 shared. -/
def State.canUse (s : State) (tn c : Nat) : Nat := bits (s.gw tn (0x140 + 0x48 * c)) 0 2

/-- The lowest-numbered tenant that meets a test. -/
def tenantFind (f : Nat → Bool) : Option Nat := (List.range 256).find? f
/-- The owner of an exclusive resource; 256 when nobody holds it. -/
def ownerBy (f : Nat → Bool) : Nat := (tenantFind f).getD 256
def State.pierOwner (s : State) (p : Nat) : Nat := ownerBy (s.hasPier · p)
def State.sgOwner (s : State) (n : Nat) : Nat := ownerBy (s.hasSg · n)
def State.bgOwner (s : State) (g : Nat) : Nat := ownerBy (s.hasBg · g)
def State.camOwner (s : State) (c : Nat) : Nat := ownerBy (s.hasCam · c)
def State.fbOwner (s : State) (n : Nat) : Nat := ownerBy (s.hasFb · n)
def State.valveOwner (s : State) (v : Nat) : Nat := ownerBy (s.hasValve · v)

/-- Put a page range into a list sorted by its first page. -/
def insRange (r : Nat × Nat) : List (Nat × Nat) → List (Nat × Nat)
  | [] => [r]
  | x :: l => if r.1 ≤ x.1 then r :: x :: l else x :: insRange r l
/-- The Deck page ranges of a grant image read by `w`, in the order of page number. -/
def deckRanges (w : Nat → Nat) : List (Nat × Nat) :=
  (List.range 16).foldl (fun l k =>
    let x := w (0xD0 + 4 * k)
    if bits x 16 12 = 0 then l else insRange (bits x 0 12, bits x 16 12) l) []
/-- The page at an index of a list of page ranges. -/
def pageAt : List (Nat × Nat) → Nat → Option Nat
  | [], _ => none
  | (f, n) :: l, i => if i < n then some (f + i) else pageAt l (i - n)
/-- The Deck page behind a tenant's grant page index. -/
def State.pageOf (s : State) (tn i : Nat) : Option Nat := pageAt (deckRanges (s.gw tn)) i
/-- How many Deck pages a tenant holds. -/
def State.pageCount (s : State) (tn : Nat) : Nat := sumL ((deckRanges (s.gw tn)).map (·.2))

/-! MSI-X. -/

/-- The MSI-X table size of a function (R686). -/
def msixSize (fn : Nat) : Nat := if fn = 0 then 128 else 32
/-- Whether a function exists (R666). -/
def State.fnExists (s : State) (n : Nat) : Bool := n == 0 || (s.link.vfEnable && decide (n ≤ s.link.numVfs))
/-- One vector of a function. -/
def Fn.vec (f : Fn) (v : Nat) : Vec := storeGet (fun _ => Vec.reset) f.vecs v
def Fn.setVec (f : Fn) (v : Nat) (x : Vec) : Fn := { f with vecs := storePut (fun _ => Vec.reset) f.vecs v x }
/-- A packet leaves the device. -/
def send (s : State) (p : Tlp) : State := { s with out := s.out ++ [p] }
/-- A write to a tenant's host memory: none leaves while its host path is lost (R106). -/
def sendHost (s : State) (tn : Nat) (p : Tlp) : State :=
  if (s.tn tn).pathLost || (s.tn tn).st == .orphan then s else send s p
/-- Signal a vector: dropped under R754, held pending while masked (R165), sent otherwise. -/
def signal (s : State) (fn v : Nat) : State :=
  let f := s.fn fn
  let t := s.tn fn
  if t.pathLost || t.st == .orphan || !s.link.up || !f.msixEn || !f.bme || msixSize fn ≤ v then s
  else if f.msixMask || (f.vec v).masked then s.setFn fn (f.setVec v { f.vec v with pend := true })
  else send s (.msix fn v)

/-! Device queues: what a producer does (R204 to R213). -/

/-- The cells of an item, its header included. -/
def Item.cells (i : Item) : Nat :=
  match i.body with
  | .data p => 1 + ceilDiv p.length 16
  | _ => 2
/-- Occupied cells of a queue. -/
def Queue.fill (q : Queue) : Nat := sumL (q.items.map Item.cells) + q.part
/-- The capacity of a queue in cells (R204). -/
def State.qCap (s : State) (tn q : Nat) : Nat := 4096 * s.fld (qKey tn q 0) 20 9
def State.qEnabled (s : State) (tn q : Nat) : Bool := s.bitAt (qKey tn q 0) 0
def State.qKind (s : State) (tn q : Nat) : Nat := s.fld (qKey tn q 0) 1 3

/-- The last item of a list changed. -/
def mapLast {α : Type} (f : α → α) : List α → List α
  | [] => []
  | [x] => [f x]
  | x :: y :: l => x :: mapLast f (y :: l)

/-- A drop updates the open marker (R211). -/
def Item.addDrop (i : Item) (time lanes : Nat) : Item :=
  match i.body with
  | .gap _ d l => { i with body := .gap time (satInc d 1) (l ||| lanes) }
  | _ => i

/-- An item is dropped: counted, and recorded in the open marker or in a new one (R209 to R211). -/
def dropItem (s : State) (tn q : Nat) (src seq time lanes : Nat) : State :=
  let s := count s (qKey tn q 0x14)
  let x := s.queue (64 * tn + q)
  if x.markerOpen then s.setQueue (64 * tn + q) { x with items := mapLast (·.addDrop time lanes) x.items }
  else
    let m : Item := { src := src, seq := seq, time := time, body := .gap time 1 lanes }
    flagRaw (s.setQueue (64 * tn + q) { x with items := x.items ++ [m], markerOpen := true }) (qKey tn q 0xC) 1

/-- A producer offers an item to a queue that must be of `kind` (R207 to R212, R228). -/
def offer (s : State) (tn q kind : Nat) (it : Offer) : State :=
  let k := 64 * tn + q
  let x := s.queue k
  let seq := x.seq % 2 ^ 32
  let lanes := if kind = 0 then 2 ^ (it.lane % 32) else 0
  let item : Item := { src := it.src, seq := seq, time := it.time, body := .data it.payload }
  if 256 ≤ tn then s
  else if !s.qEnabled tn q || s.qKind tn q != kind then
    count (s.setQueue k { x with seq := seq + 1 }) (qKey tn q 0x14)
  else if x.skip && it.done then s.setQueue k { x with skip := false }
  else if 0 < x.part then
    if it.done then
      s.setQueue k { x with items := x.items ++ [{ item with seq := (seq + 2 ^ 32 - 1) % 2 ^ 32 }], part := 0, markerOpen := false }
    else s
  else if item.cells + 2 ≤ s.qCap tn q - x.fill then
    if it.done then s.setQueue k { x with items := x.items ++ [item], seq := seq + 1, markerOpen := false }
    else s.setQueue k { x with seq := seq + 1, part := item.cells, markerOpen := false }
  else
    let s := s.setQueue k { x with seq := seq + 1, skip := !it.done }
    dropItem s tn q it.src seq it.time lanes

/-- An item offered whole by an engine of the device at the present tick. -/
def offerNow (s : State) (tn q kind src : Nat) (payload : List Byte) : State :=
  offer s tn q kind { src := src, time := s.now, payload := payload, lane := 0, done := true }

/-- A trace item's payload (R721). -/
def tracePayload (s : State) (k : Nat) : List Byte :=
  leBytes 4 k ++ leBytes 4 (s.setNow k) ++ leBytes 2 (s.rd (k + 4)) ++ leBytes 6 0
/-- Whether an item traces a register's sets of the present cycle. -/
def Item.traces (i : Item) (now b k : Nat) : Bool :=
  match i.body with
  | .data p => i.src == b && i.time == now && p.take 4 == leBytes 4 k
  | _ => false
/-- The trace item of this cycle takes in further bits of its register. -/
def retrace (s : State) (tn q b k : Nat) : State :=
  s.updQueue (64 * tn + q) fun x =>
    { x with items := mapIf (fun i => i.traces s.now b k) (fun i => { i with body := .data (tracePayload s k) }) x.items }
/-- Hardware sets bits of a block's W1C register: R698 and R699, the summary interrupt of R702, and when the block is traced one
trace item for all bits of the register set in one cycle (R721). -/
def flag (s : State) (k mask : Nat) : State :=
  let first := s.setNow k == 0
  let s := flagRaw s k mask
  let b := evtBlock k
  let s := if s.bitAt 0x30 31 && s.bitAt 0x34 b then { s with irqPend := true } else s
  let src := s.rd (0x50000 + 4 * b)
  if !bit src 0 then s
  else if first then offerNow s (bits src 8 8) (bits src 16 6) 1 b (tracePayload s k)
  else retrace s (bits src 8 8) (bits src 16 6) b k

/-- A flag set only when a condition holds. -/
def flagIf (s : State) (c : Bool) (k mask : Nat) : State := if c then flag s k mask else s

end Sys2Proof.Machine
end

