-- ==== Sys2Proof/Machine/Params.lean ====
section
/-!
DEFINITION. Reading the content of a descriptor (Tables 04-2 to 04-4).
-/
namespace Sys2Proof
open Machine

/-- The class of a descriptor: 0 G, 1 E, 2 B. -/
def Desc.clsNo (d : Desc) : Nat := d.cls.toNat % 4
/-- The parameter area as a number, byte 0 lowest. -/
def Desc.par (d : Desc) : Nat := leNat d.params
/-- Parameter bytes a to a + n − 1 as a number (R1). -/
def Desc.p (d : Desc) (a n : Nat) : Nat := bits d.par (8 * a) (8 * n)
/-- The same, read as two's complement (R2). -/
def Desc.pS (d : Desc) (a n : Nat) : Int := signed (8 * n) (d.p a n)
/-- A descriptor with one parameter byte replaced. -/
def Desc.setP (d : Desc) (i : Nat) (v : Nat) : Desc := { d with params := d.params.set i (BitVec.ofNat 8 v) }

end Sys2Proof
end

