-- ==== Sys2Proof/Machine/Complete.lean ====
section
/-!
DEFINITION. Jobs and their completions (chapter 04): completion entries, discards, interim entries, vector signalling, ring
resets, and the checks that every descriptor passes (R91, R137, R148, R181, R183).
-/
namespace Sys2Proof.Machine

/-- The CQ an SQ is bound to. -/
def State.boundCq (s : State) (tn n : Nat) : Nat := s.fld (sqKey tn n 8) 16 4
def State.cqSize (s : State) (tn n : Nat) : Nat := 2 ^ s.fld (cqKey tn n 8) 4 5
def State.sqSize (s : State) (tn n : Nat) : Nat := 2 ^ s.fld (sqKey tn n 8) 4 5
def State.cqOn (s : State) (tn n : Nat) : Bool := s.bitAt (cqKey tn n 8) 0
def State.sqOn (s : State) (tn n : Nat) : Bool := s.bitAt (sqKey tn n 8) 0
/-- The host address in a _LO/_HI pair of BASE registers. -/
def State.base (s : State) (k : Nat) : Nat := s.rd k / 4096 * 4096 + 2 ^ 32 * s.rd (k + 4)

/-- Entries of a CQ written and not released by the host. -/
def State.cqHeld (s : State) (tn n : Nat) : Nat :=
  let c := s.cq (16 * tn + n)
  (c.tail + s.cqSize tn n - c.head) % s.cqSize tn n
/-- Whether a CQ has an entry that is neither written nor reserved (R133). -/
def State.cqRoom (s : State) (tn n : Nat) : Bool :=
  decide (s.cqHeld tn n + (s.cq (16 * tn + n)).reserved < s.cqSize tn n - 1)

/-- Signal a CQ's vector and start its unsignalled count again (R163). -/
def signalCq (s : State) (tn n : Nat) : State :=
  let s := s.updCq (16 * tn + n) fun c => { c with unsig := 0, oldest := none }
  signal s tn (s.fld (cqKey tn n 8) 16 7)

/-- A ring's ERR flag is set with its cause, and the vector of the CQ concerned is signalled once, without touching the
unsignalled count (R166). -/
def ringErr (s : State) (tn cq k cause : Nat) : State :=
  let s := s.setFld k 8 4 cause
  let s := flagRaw s k 1
  if s.cqOn tn cq && s.bitAt (cqKey tn cq 8) 2 then signal s tn (s.fld (cqKey tn cq 8) 16 7) else s
/-- An SQ error (Table 04-7). -/
def sqErr (s : State) (tn n cause : Nat) : State := ringErr s tn (s.boundCq tn n) (sqKey tn n 0x10) cause
/-- A CQ error (Table 04-7). -/
def cqErr (s : State) (tn n cause : Nat) : State := ringErr s tn n (cqKey tn n 0x14) cause

/-- The bytes of a completion entry (Table 04-5). -/
def entryBytes (s2 : Bool) (phase interim : Bool) (d : Desc) (status head res tu late : Nat) : List Byte :=
  leBytes 2 d.tag.toNat ++ leBytes 1 status ++ leBytes 1 (b2n phase + 2 * b2n interim) ++ leBytes 1 d.sq.val ++
    leBytes 1 d.op.toNat ++ leBytes 2 head ++ leBytes 8 res ++
    (if s2 then leBytes 4 tu ++ leBytes 2 (min late 0xFFFF) ++ leBytes 2 0 ++
        leBytes 8 (if d.s2 then d.cookie.toNat else 0) else [])

/-- Write one entry into a CQ: the entry in one TLP (R157), PHASE (R158), and the vector when R163 asks for it. -/
def writeEntry (s : State) (j : Job) (interim : Bool) (status res tu late : Nat) : State :=
  let d := j.d
  let tn := d.tenant.val
  let n := j.cq
  let c := s.cq (16 * tn + n)
  let s2 := s.bitAt (cqKey tn n 8) 1
  let len := if s2 then 32 else 16
  let head := (s.sq (16 * tn + d.sq)).head
  let s := send s (.memWrite tn (s.base (cqKey tn n 0) + c.tail * len)
    (entryBytes s2 c.phase interim d status head res tu late) false)
  let wrap := decide (s.cqSize tn n ≤ c.tail + 1)
  let c := { c with tail := if wrap then 0 else c.tail + 1, phase := c.phase != wrap }
  if s.bitAt (cqKey tn n 8) 2 then
    let c := { c with unsig := c.unsig + 1, oldest := some (c.oldest.getD s.tb.spanIx) }
    let s := s.setCq (16 * tn + n) c
    if max 1 (s.fld (cqKey tn n 0xC) 0 8) ≤ c.unsig || (!interim && bit d.flags.toNat 2) then signalCq s tn n else s
  else s.setCq (16 * tn + n) c

/-- Whether completion entries of a job are discarded: the tenant is not ATTACHED or has lost its host path (R106), its
rings were reset since the fetch (R126), or the CQ has been disabled since (R124). -/
def State.discards (s : State) (j : Job) : Bool :=
  let t := s.tn j.d.tenant
  t.st != .attached || t.pathLost || !s.link.up || t.ringGen != j.gen || j.lost || !s.cqOn j.d.tenant j.cq

/-- A job's reserved CQ entry is given back. -/
def unreserve (s : State) (j : Job) : State :=
  if (s.tn j.d.tenant).ringGen = j.gen then
    s.updCq (16 * j.d.tenant + j.cq) fun c => { c with reserved := c.reserved - 1 }
  else s

/-- The final status: DONE turns to DONE_LATE after the deadline span (R147), but for EJECT_AT and VALVE_TEST (R325). -/
def finalStatus (s : State) (j : Job) (status : Nat) : Nat :=
  if status = 0 ∧ j.deadline < s.tb.spanIx ∧ j.d.op ≠ 0x63#8 ∧ j.d.op ≠ 0x64#8 then 1 else status

/-- Keystone's counters and flags of a final status (R200, Table 05-3). -/
def countStatus (s : State) (tn status : Nat) : State :=
  if status = 0x10 then flag (count s (tkey tn 0x4C)) kKs 1
  else if 0x11 ≤ status ∧ status ≤ 0x15 then flag (count s (tkey tn 0x50)) kKs 2
  else if status = 1 then count s (tkey tn 0x54)
  else s

/-- A job leaves the machine. -/
def dropJob (s : State) (id : Nat) : State := { s with jobs := s.jobs.filter (·.id != id) }

/-- The final completion of a job (R159): counted, then written, suppressed by QUIET, or discarded and counted. `res` is
RESULT as a number, byte 8 of the entry its lowest byte. Frame jobs and STAGE write none (R269, R675). -/
def complete (s : State) (j : Job) (status res : Nat) : State :=
  let s := dropJob s j.id
  if j.kind != .desc then s
  else
    let fin := finalStatus s j status
    let tn := j.d.tenant.val
    let s := countStatus s tn fin
    let refusal := decide (0x11 ≤ fin ∧ fin ≤ 0x15)
    let late := if refusal then 0 else (s.tb.spanIx - j.deadline).toNat
    let quiet := fin == 0 && bit j.d.flags.toNat 3
    let s' := unreserve s j
    if quiet then s'
    else if s.discards j then count s' (tkey tn 0x3C)
    else writeEntry s' j false fin res (if refusal then 0 else j.tu) late

/-- The interim entry of a first deferral (R160). -/
def interim (s : State) (j : Job) : State :=
  let tn := j.d.tenant.val
  let n := j.cq
  if j.kind != .desc || !s.bitAt (sqKey tn j.d.sq 8) 2 then s
  else if s.discards j then count s (tkey tn 0x3C)
  else if !s.cqRoom tn n then flagRaw s (cqKey tn n 0x14) 4
  else writeEntry s j true 2 0 j.tu 0

/-! Jobs. -/

/-- The class default deadline (R186). -/
def State.clsDefault (s : State) (c : Nat) : Nat :=
  if c = 0 then bits s.ks.cfg2.toNat 16 16 else if c = 1 then bits s.ks.cfg.toNat 8 16 else bits s.ks.cfg2.toNat 0 16
/-- The span a 48-bit span value names, around `now` (R140). -/
def nameSpan48 (now v : Nat) : Int :=
  let d : Nat := (v + 2 ^ 48 - now % 2 ^ 48) % 2 ^ 48
  if d ≤ 2 ^ 47 then now + d else (now : Int) - (2 ^ 48 - d : Nat)
/-- The span a 32-bit span value names, around `now` (R140). -/
def nameSpan32 (now v : Nat) : Int :=
  let d : Nat := (v + 2 ^ 32 - now % 2 ^ 32) % 2 ^ 32
  if d ≤ 2 ^ 31 then now + d else (now : Int) - (2 ^ 32 - d : Nat)
/-- The deadline span of a descriptor admitted in span `adm` (R145). -/
def deadlineOf (s : State) (d : Desc) (adm : Int) : Int :=
  if d.deadline = 0 then adm + s.clsDefault d.clsNo
  else if d.s2 then nameSpan48 s.tb.spanIx d.deadline.toNat
  else adm + d.deadline.toNat

/-- The descriptor of a job that has none of its own. -/
def noDesc (tn : Nat) (c : Nat) : Desc :=
  { tenant := Fin.ofNat 256 tn, sq := 0, s2 := false, op := 0, flags := 0, tag := 0, cls := BitVec.ofNat 8 c, hdrRsvd := 0,
    deadline := 0, applySpan := 0, cookie := 0, params := [] }

/-- A job for a descriptor, with the next number. -/
def newJob (s : State) (d : Desc) (ph : Phase) (adm : Int) : Job :=
  { id := s.nextId, kind := .desc, d := d, phase := ph, cq := s.boundCq d.tenant d.sq, lost := false, adm := adm, deadline := deadlineOf s d adm,
    shedAt := adm + bits s.ks.cfg2.toNat 0 16, gen := (s.tn d.tenant).ringGen, slices := [], planned := 0, ran := false, tu := 0, deferred := false, lowE := false,
    ready := true, aux := [] }

/-- Put a job among the device's work: in its place when it is there already, else at the end. -/
def keep (s : State) (j : Job) : State :=
  if s.jobs.any (·.id == j.id) then { s with jobs := mapIf (·.id == j.id) (fun _ => j) s.jobs }
  else { s with jobs := s.jobs ++ [j] }
/-- A job is admitted now, behind every job admitted before. -/
def keepLast (s : State) (j : Job) : State := keep (dropJob s j.id) j
/-- A job by number. -/
def State.job? (s : State) (id : Nat) : Option Job := s.jobs.find? (·.id == id)
/-- Change a job in place. -/
def updJob (s : State) (id : Nat) (f : Job → Job) : State := { s with jobs := mapIf (·.id == id) f s.jobs }

/-- The job an opcode command executes: the oldest admitted one with the same content, or, when no fetch preceded the
command, the descriptor taken as fetched and admitted now. -/
def takeJob (s : State) (d : Desc) : State × Job :=
  match s.jobs.find? fun j => j.phase == .admitted && j.kind == .desc && j.d == d with
  | some j => (s, j)
  | none =>
    let j := newJob s d .admitted s.tb.spanIx
    let s := { s with nextId := s.nextId + 1 }
    (s.updCq (16 * d.tenant + j.cq) fun c => { c with reserved := c.reserved + 1 }, j)

/-! The checks of R148. -/

/-- A mask of named parameter bytes. -/
def pm (a n : Nat) : Nat := (2 ^ (8 * n) - 1) * 2 ^ (8 * a)
/-- A mask of named bits of one parameter byte. -/
def pb (a m : Nat) : Nat := m * 2 ^ (8 * a)

/-- The first failing condition of a list, with its status and RESULT. -/
def firstFail : List (Bool × Nat × Nat) → Option (Nat × Nat)
  | [] => none
  | (c, st, res) :: l => if c then some (st, res) else firstFail l

/-- The format checks every descriptor passes (R137, R138): reserved bits of the header and of the parameter area, the
class, and S2-only opcodes. `named` is the mask of the parameter bits the opcode names. -/
def badFormat (d : Desc) (named : Nat) (s2Only : Bool) : Bool :=
  d.hdrRsvd != 0 || d.flags.toNat / 16 != 0 || 3 ≤ d.cls.toNat || (d.par &&& named) != d.par || (s2Only && !d.s2)

/-- Capacity of a pool less the part that cannot be planned (R175). -/
def State.planCap (s : State) (p : Nat) : Nat := nth s.ks.cap p - 10
/-- A G reservation in TU (R179). -/
def State.gTu (s : State) (tn p : Nat) : Nat := nth s.ks.cap p * s.gPermille tn p / 1000

/-- Whether a class has a budget in a pool (R181). -/
def State.hasBudget (s : State) (tn cls p : Nat) : Bool :=
  if cls = 0 then s.gPermille tn p != 0 else if cls = 1 then s.eWeight tn p != 0 else s.bEn tn p
/-- The class lacks a budget in a pool its work needs (R181). -/
def State.noBudget (s : State) (tn cls : Nat) (need : List Nat) : Bool :=
  (List.range 7).any fun p => nth need p != 0 && !s.hasBudget tn cls p
/-- An indivisible piece cannot fit (R183). -/
def State.tooLarge (s : State) (tn cls : Nat) (piece : List Nat) : Bool :=
  (List.range 7).any fun p => nth piece p != 0 &&
    decide ((if cls = 0 then s.gTu tn p else s.planCap p) < nth piece p)

/-- The verdict of a family's checks on a descriptor: none to go on, or the status and RESULT it completes with. -/
abbrev Verdict := Option (Nat × Nat)

/-- A ring reset (R125): every ring of the tenant disabled, heads, tails and phases set; work fetched before it produces no
entry any more (R126). -/
def ringReset (s : State) (tn : Nat) : State :=
  let s := (List.range 16).foldl (fun s n =>
    let s := s.setFld (sqKey tn n 8) 0 1 0
    let s := s.setFld (cqKey tn n 8) 0 1 0
    (s.setSq (16 * tn + n) Sq.reset).setCq (16 * tn + n) Cq.reset) s
  s.updTn tn fun t => { t with ringGen := t.ringGen + 1 }

end Sys2Proof.Machine
end

