-- ==== Sys2Proof/Machine/Plan.lean ====
section
/-!
DEFINITION. Keystone's plan of a span (chapter 05, R34 to R36, R172 to R191): capacities, carried charges, the guaranteed,
elastic and background passes, and G work served within a span.
-/
namespace Sys2Proof.Machine

/-- DMA capacity at a link width and rate (R173). -/
def dmaCap (len : Nat) (w : LinkWidth) (r : LinkRate) : Nat :=
  let lanes := match w with
    | .x1 => 1
    | .x2 => 2
    | .x4 => 4
    | .x8 => 8
  let g := match r with
    | .g2_5 => 2
    | .g5 => 4
    | .g8 => 8
    | .g16 => 16
    | .g32 => 32
  len * 5 / 64 * lanes * g / 256
/-- The DMA capacity of the link as it stands. -/
def State.dmaCapNow (s : State) : Nat := if s.link.up then dmaCap s.tb.len s.link.width s.link.rate else 0
/-- The DMA capacity at x8 and 32 GT/s. -/
def State.dmaCapFull (s : State) : Nat := dmaCap s.tb.len .x8 .g32
/-- DMA_DEGRADED follows the DMA capacity (R199). -/
def dmaDegrade (s : State) : State :=
  if s.dmaCapNow < s.dmaCapFull then
    if s.ks.degraded then s else flag { s with ks := { s.ks with degraded := true } } kKs 4
  else { s with ks := { s.ks with degraded := false } }

/-- The capacities of the pools at a span length (R172, R173); the firmware pool has none while the cores restart (R680). -/
def State.capsNow (s : State) : List Nat :=
  s.dmaCapNow :: List.replicate 5 (s.tb.len * 5 / 64) ++ [if s.fw.ready then s.tb.len * 5 / 64 else 0]

/-! Backlogs. -/

/-- What a pass may still plan: limits every slice must keep to, and a balance it is only taken from. -/
abbrev Budget := List (List Nat) × List Nat
def fitsIn (b : Budget) (c : List Nat) : Bool := b.1.all (leL c)
def spend (b : Budget) (c : List Nat) : Budget := (b.1.map (subL · c), subL b.2 c)

/-- The vision engine that limits a slice: motion estimation, blob/classify, the pyramid builder, or none. -/
def engineOf (c : List Nat) : Nat := if nth c 2 ≠ 0 then 2 else if nth c 3 ≠ 0 then 3 else if nth c 1 ≠ 0 then 1 else 0
def isFrame (k : JobKind) : Bool :=
  match k with
  | .frame _ => true
  | _ => false
/-- The slices of a job that no plan holds yet. -/
def Job.left (j : Job) : List (List Nat) := j.slices.drop j.planned
/-- Work that waits for Keystone. -/
def Job.waits (j : Job) : Bool := j.phase == .active && !j.left.isEmpty
/-- Which of the slices left may be next: the first, and in a frame job the first of the other engine of a parallel stage
(R267). -/
def Job.heads (j : Job) : List Nat :=
  if isFrame j.kind then
    match j.left with
    | [] => []
    | c :: l =>
      match l.findIdx? fun x => engineOf x != engineOf c with
      | some i => [0, i + 1]
      | none => [0]
  else [0]
/-- A slice left is planned. -/
def Job.planIx (j : Job) (i : Nat) : Job :=
  let rest := j.left
  { j with slices := j.slices.take j.planned ++ (rest.getD i []) :: rest.eraseIdx i, planned := j.planned + 1 }
/-- Plan up to n slices of a job within a budget, no engine of `blocked`. -/
def planJob : Nat → Budget → List Nat → Job → Job × Budget
  | 0, b, _, j => (j, b)
  | n + 1, b, blocked, j =>
    if j.left.isEmpty then (j, b)
    else
      match j.heads.find? fun i => let c := j.left.getD i []; !blocked.contains (engineOf c) && fitsIn b c with
      | none => (j, b)
      | some i => planJob n (spend b (j.left.getD i [])) blocked (j.planIx i)
/-- Plan the slices of the jobs a test selects, in order, while the head slice fits. A frame job whose engine is taken lets
later frame jobs use the other engines; nothing else passes a head slice that does not fit. -/
def planPass (sel : Job → Bool) : Budget → List Nat → List Job → List Job × Budget
  | b, _, [] => ([], b)
  | b, blocked, j :: l =>
    if !sel j || !j.waits then
      let r := planPass sel b blocked l
      (j :: r.1, r.2)
    else if !isFrame j.kind && !blocked.isEmpty then (j :: l, b)
    else
      let r := planJob j.left.length b blocked j
      if r.1.left.isEmpty then
        let q := planPass sel r.2 blocked l
        (r.1 :: q.1, q.2)
      else if isFrame j.kind then
        let q := planPass sel r.2 (blocked ++ r.1.heads.map fun i => engineOf (r.1.left.getD i [])) l
        (r.1 :: q.1, q.2)
      else (r.1 :: l, r.2)
/-- Plan one slice of the first job a test selects; none when its head does not fit. -/
def planHead (sel : Job → Bool) (b : Budget) : List Job → Option (List Job × Budget)
  | [] => none
  | j :: l =>
    if !sel j || !j.waits then (planHead sel b l).map fun r => (j :: r.1, r.2)
    else
      let r := planJob 1 b [] j
      if r.1.planned = j.planned then none else some (r.1 :: l, r.2)

/-- Class and expiry tests of the three backlogs. Expired E work and B work past its shed time is not planned (R192, R194). -/
def selG (t : Nat) (j : Job) : Bool := j.d.tenant.val == t && j.d.clsNo == 0 && !j.lowE
def selE (now : Nat) (t : Nat) (j : Job) : Bool :=
  j.d.tenant.val == t && j.d.clsNo == 1 && !j.lowE && (j.ran || decide ((now : Int) ≤ j.deadline))
def selLow (t : Nat) (j : Job) : Bool := j.d.tenant.val == t && j.lowE
def selB (now : Nat) (t : Nat) (j : Job) : Bool :=
  j.d.tenant.val == t && j.d.clsNo == 2 && !j.lowE && decide ((now : Int) ≤ j.shedAt)

/-- A number put once into a rising list. -/
def insOnce (x : Nat) : List Nat → List Nat
  | [] => [x]
  | y :: l => if x < y then x :: y :: l else if x = y then y :: l else y :: insOnce x l
/-- The tenants with work a test selects, rising. -/
def tenantsWith (sel : Job → Bool) (jobs : List Job) : List Nat :=
  jobs.foldl (fun l j => if sel j && j.waits then insOnce j.d.tenant l else l) []
/-- A rising list read from a start number on, cyclically. -/
def rotateFrom (n : Nat) (l : List Nat) : List Nat := l.filter (n ≤ ·) ++ l.filter (· < n)

/-! The guaranteed pass. -/

def State.carryOf (s : State) (t : Nat) : List Nat := storeGet (fun _ => []) s.ks.carryG t
def State.gUsedOf (s : State) (t : Nat) : List Nat := storeGet (fun _ => []) s.ks.gUsed t
/-- A tenant's reservation in every pool (R179). -/
def State.reservation (s : State) (t : Nat) : List Nat := (List.range 7).map (s.gTu t)
/-- What is left of a tenant's reservation in this span. -/
def State.gRoom (s : State) (t : Nat) : List Nat := subL (subL (s.reservation t) (s.carryOf t)) (s.gUsedOf t)
/-- Plan a tenant's G work within a limit besides its reservation. -/
def planG (s : State) (t : Nat) (more : List (List Nat)) (spare : List Nat) : State × List Nat :=
  let room := s.gRoom t
  let r := planPass (selG t) (room :: more, spare) [] s.jobs
  let used := addL (s.gUsedOf t) (subL room (r.2.1.headD []))
  ({ s with jobs := r.1, ks := { s.ks with gUsed := storePut (fun _ => []) s.ks.gUsed t used } }, r.2.2)
/-- What a slice started now could still cost so that it ends 128 ticks before the boundary (R34). -/
def State.timeLeft (s : State) : List Nat :=
  let l := (s.tb.boundary + s.tb.len - 128 - s.now) * 5 / 64
  (if s.tb.len * 5 / 64 = 0 then 0 else l * s.dmaCapNow / (s.tb.len * 5 / 64)) :: List.replicate 6 l
/-- G work that has come up within the span is served at once where the reservation has room. -/
def planNow (s : State) (j : Job) : State :=
  if j.d.clsNo = 0 ∧ j.lowE = false then (planG s j.d.tenant [s.timeLeft] []).1 else s

/-- An opcode command: the descriptor it executes is checked again by its family and then completes refused or has its
effect; what G work it leaves for Keystone is planned at once where there is room. -/
def runOp (s : State) (t op : Nat) (d : Desc) (check : State → Desc → Verdict) (eff : State → Job → State) : State :=
  let s := advance s t
  let d := { d with op := BitVec.ofNat 8 op }
  let (s, j) := takeJob s d
  match check s d with
  | some (st, res) => complete s j st res
  | none => planNow (eff s j) j

/-- The effect of a descriptor whose work is done at admission: a change of state, then its completion DONE. -/
def andDone (f : State → Desc → State) (s : State) (j : Job) : State := complete (f s j.d) j 0 0

/-! The elastic pass. -/

def State.defOf (s : State) (t : Nat) : List Nat := (List.range 7).map (nth (storeGet (fun _ => []) s.ks.deficit t))
def setDef (s : State) (t : Nat) (d : List Nat) : State :=
  { s with ks := { s.ks with deficit := storePut (fun _ => []) s.ks.deficit t (if d.all (· == 0) then [] else d) } }
/-- A tenant's E backlog is empty. -/
def State.eEmpty (s : State) (t : Nat) : Bool := !s.jobs.any fun j => (selE s.tb.spanIx t j || selLow t j) && j.waits
/-- A tenant's turn in a round: its deficit grows by its weights and serves its head slices; work of weight 1 goes first
(R182). -/
def eTurn (s : State) (espare spare : List Nat) (t : Nat) : State × List Nat × List Nat :=
  if s.eEmpty t then (setDef s t [], espare, spare)
  else
    let low := s.jobs.any fun j => selLow t j && j.waits
    let q := bits s.ks.cfg.toNat 0 8
    let d := (List.range 7).map fun p =>
      let w := max (s.eWeight t p) (b2n low)
      if w = 0 then nth (s.defOf t) p else min (nth (s.defOf t) p + q * w) (s.planCap p)
    let r := planPass (selLow t) ([d, espare], spare) [] s.jobs
    let r := if r.1.any fun j => selLow t j && j.waits then r else planPass (selE s.tb.spanIx t) r.2 [] r.1
    (setDef { s with jobs := r.1 } t (r.2.1.headD []), r.2.1.getD 1 [], r.2.2)
/-- One round over the tenants. -/
def eRound (ts : List Nat) (x : State × List Nat × List Nat) : State × List Nat × List Nat :=
  ts.foldl (fun x t => eTurn x.1 x.2.1 x.2.2 t) x
/-- Whether some tenant's head E slice fits what is left for E work. -/
def State.eFits (s : State) (ts : List Nat) (espare : List Nat) : Bool :=
  ts.any fun t =>
    match s.jobs.find? fun j => selLow t j && j.waits with
    | some j => leL (j.left.headD []) espare
    | none => (s.jobs.find? fun j => selE s.tb.spanIx t j && j.waits).any fun j =>
        j.heads.any fun i => leL (j.left.getD i []) espare
/-- Up to n rounds. -/
def eRounds (ts : List Nat) : Nat → State × List Nat × List Nat → State × List Nat × List Nat
  | 0, x => x
  | n + 1, x => let y := eRound ts x; if y.1.eFits ts y.2.1 then eRounds ts n y else y

/-! The background pass. -/

/-- Up to n full passes over the tenants, each planning one head slice of each where it fits. -/
def bPasses (ts : List Nat) : Nat → State → List Nat → State
  | 0, s, _ => s
  | n + 1, s, spare =>
    let r := ts.foldl (fun (x : State × List Nat × Bool) t =>
      match planHead (selB s.tb.spanIx t) ([x.2.1], []) x.1.jobs with
      | some (js, b) => ({ x.1 with jobs := js }, b.1.headD [], true)
      | none => x) (s, spare, false)
    if r.2.2 then bPasses ts n r.1 r.2.1 else r.1

/-! The boundary. -/

/-- Slices still running are suspended (R35): counted, flagged, and their cost carried into the new span (R36, R189). The model
does not see how far a slice has come: it carries the whole estimate. -/
def carryOver (s : State) : State :=
  let running := s.jobs.filter fun j => j.planned != 0
  let n := sumL (running.map (·.planned))
  let ovr := s.ks.carryG.filterMap fun e =>
    let x := subL e.2 (s.reservation e.1)
    if x.all (· == 0) then none else some (e.1, x)
  let cost (j : Job) := (j.slices.take j.planned).foldl addL (List.replicate 7 0)
  let cg := running.foldl (fun m j =>
    if j.d.clsNo = 0 ∧ j.lowE = false then storePut (fun _ => []) m j.d.tenant (addL (storeGet (fun _ => []) m j.d.tenant) (cost j))
    else m) ovr
  let ceb := running.foldl (fun m j => if j.d.clsNo = 0 ∧ j.lowE = false then m else addL m (cost j)) (List.replicate 7 0)
  let s := { s with ks := { s.ks with carryG := cg, carryEB := ceb } }
  if n = 0 then s else flag (countN s 0x2020 n) kSpan 1

/-- A first deferral (R191): counted, and its interim entry written. -/
def deferOne (s : State) (j : Job) : State :=
  let s := updJob s j.id fun j => { j with deferred := true }
  if j.kind = .desc then interim (count s (tkey j.d.tenant 0x48)) j else s
/-- The plan of a span (R188 to R191). -/
def planSpan (s : State) : State :=
  let s := { s with ks := { s.ks with gUsed := [] } }
  let spare := subL ((List.range 7).map s.planCap) s.ks.carryEB
  let g := (tenantsWith (fun j => j.d.clsNo == 0 && !j.lowE) s.jobs).foldl
    (fun (x : State × List Nat) t => planG x.1 t [] x.2) (s, spare)
  let s := g.1
  let spare := g.2
  let espare := if s.ks.eHalved then spare.map (· / 2) else spare
  let ts := rotateFrom s.ks.rrStart
    ((s.ks.deficit.map (·.1)).foldl (fun l t => insOnce t l) (tenantsWith (fun j => j.d.clsNo == 1 || j.lowE) s.jobs))
  let e := eRounds ts 64 (s, espare, spare)
  let s := { e.1 with ks := { e.1.ks with rrStart := (e.1.ks.rrStart + 1) % 256 } }
  let tb := rotateFrom s.ks.rrStart (tenantsWith (fun j => j.d.clsNo == 2 && !j.lowE) s.jobs)
  let s := if s.ks.bStopped then s else bPasses tb (1 + sumL (s.jobs.map fun j => j.left.length)) s e.2.2
  (s.jobs.filter fun j => j.waits && j.planned == 0 && !j.ran && !j.deferred &&
    selE s.tb.spanIx j.d.tenant j).foldl deferOne s

end Sys2Proof.Machine
end

