-- ==== Sys2Proof/Machine/Queues.lean ====
section
/-!
DEFINITION. Device queues (chapter 06): enabling, flushing, and the host's reads, marks, rewinds and releases.
-/
namespace Sys2Proof.Machine

/-- The key, beyond those of the registers, under which the corrections of one Deck word in this cycle are noted. -/
def deckWordKey (page word : Nat) : Nat := 0x10000000 + 8192 * page + word
/-- A corrected or uncorrectable Deck error met by the scrubber or by another reader, at a page and 64-bit word: a word
corrected by both in one cycle counts once (R253, R254, R256). -/
def deckEcc (s : State) (scrubber : Bool) (e : Ecc) (page word : Nat) : State :=
  match e with
  | .clean => s
  | .corrected =>
    if s.setNow (deckWordKey page word) &&& (if scrubber then 2 else 1) ≠ 0 then s
    else flag (count (noteSet s (deckWordKey page word) (if scrubber then 1 else 2)) 0x4C00C) kDeck 1
  | .uncorrectable =>
    let s := (count s 0x4C010).wr 0x4C014 (page % 2 ^ 12 + 2 ^ 12 * (word % 2 ^ 13))
    flag s kDeck 2

/-- The errors a read found, each counted and located by itself (R253, R254). -/
def deckErrs (s : State) (errs : List DeckErr) : State :=
  errs.foldl (fun s e => deckEcc s false (if e.ue then .uncorrectable else .corrected) e.page e.word) s

/-- The grant page index range of a queue. -/
def State.qPages (s : State) (tn q : Nat) : Nat × Nat := (s.fld (qKey tn q 0) 8 12, s.fld (qKey tn q 0) 20 9)
/-- The grant page index range of a frame ring. -/
def State.ringPages (s : State) (c v : Nat) : Nat × Nat :=
  (s.fld (vcKey c v 4) 8 12, s.fld (vcKey c v 4) 1 7 * s.fld (vcKey c v 4) 20 8)
/-- Whether two ranges share a page. -/
def overlaps (a b : Nat × Nat) : Bool := decide (a.1 < b.1 + b.2) && decide (b.1 < a.1 + a.2)
/-- Whether a range of a tenant's pages is used by one of its enabled queues, other than queue `notQ`. -/
def State.usedByQueue (s : State) (tn notQ : Nat) (r : Nat × Nat) : Bool :=
  (List.range 64).any fun q => q != notQ && s.qEnabled tn q && overlaps r (s.qPages tn q)
/-- Whether a range of a tenant's pages is used by an enabled frame ring of one of its cameras, other than ring `notR`. -/
def State.usedByRing (s : State) (tn notR : Nat) (r : Nat × Nat) : Bool :=
  (List.range 32).any fun i => i != notR && s.hasCam tn (i / 4) && s.bitAt (vcKey (i / 4) (i % 4) 4) 0 &&
    overlaps r (s.ringPages (i / 4) (i % 4))

/-- An item as the host reads it: the header cell of Table 06-2 and the payload cells. -/
def Item.bytes (i : Item) : List Byte :=
  let typ := match i.body with
    | .data _ => 1
    | .gap _ _ _ => 2
    | .flush _ _ _ => 3
  leBytes 2 i.cells ++ leBytes 1 typ ++ leBytes 1 i.src ++ leBytes 4 i.seq ++ leBytes 8 i.time ++
    match i.body with
    | .data p => p ++ List.replicate (16 * (i.cells - 1) - p.length) 0
    | .gap l d n => leBytes 8 l ++ leBytes 4 d ++ leBytes 4 n
    | .flush n c g => leBytes 4 n ++ leBytes 4 c ++ leBytes 4 g ++ leBytes 4 0

/-- Whether an item is a gap marker, and the drops it records. -/
def Item.isGap (i : Item) : Bool :=
  match i.body with
  | .gap _ _ _ => true
  | _ => false
def Item.drops (i : Item) : Nat :=
  match i.body with
  | .gap _ d _ => d
  | _ => 0

/-- RESULT of a read: bytes 8 to 11 the cells delivered, bytes 12 to 15 the items. -/
def readResult (aux : List Nat) : Nat := nth aux 0 + 2 ^ 32 * nth aux 1

/-- A QUEUE_READ of a queue with a slice in the plan: it counts as mid-item (R229). -/
def Job.midItem (j : Job) (tn q : Nat) : Bool :=
  j.kind == .desc && j.d.op == 0x90#8 && j.d.tenant.val == tn && j.d.p 0 1 == q && j.planned != 0
/-- The flush of R227 to R230. A read that is mid-item completes FLUSHED (R229). With `mark`, a flush marker is written,
FLUSH_DONE set and the flush counted (R230); without, none is (R231). -/
def flushQueue (s : State) (tn q : Nat) (mark : Bool) : State :=
  let k := 64 * tn + q
  let x := s.queue k
  let rest := x.items.drop x.readIx
  let nItems := rest.length + (if 0 < x.part then 1 else 0)
  let nCells := sumL (rest.map Item.cells) + x.part
  let gaps := sumL (x.items.map Item.drops)
  let m : Item := { src := 0, seq := x.seq % 2 ^ 32, time := s.now, body := .flush nItems nCells gaps }
  let s := s.setQueue k
    { x with
      items := if mark then [m] else []
      readIx := 0
      markIx := 0
      markerOpen := false
      skip := x.skip || decide (0 < x.part)
      part := 0 }
  let s := (s.jobs.filter fun j => j.midItem tn q).foldl (fun s j => complete s j 0x61 (readResult j.aux)) s
  if mark then flagRaw (count s (qKey tn q 0x18)) (qKey tn q 0xC) 2 else s

/-- The fields of Q_CFG other than ENABLE (R206). -/
def qCfgFields (w : Nat) : Nat := w / 2 % 16 + 16 * bits w 8 21
/-- A Q_CFG value no state of ENABLE allows (R206). -/
def qCfgBad (w : Nat) : Bool := decide (4 ≤ bits w 1 3) || bits w 20 9 == 0 || decide (256 < bits w 20 9)
/-- The bits of Q_CFG that hold something. -/
def qCfgMask (w : Nat) : Nat := w % 32 + 256 * bits w 8 21

/-- A write of `Q_CFG` (R205, R206, R231). -/
def writeQCfg (s : State) (tn q w : Nat) : State :=
  let k := qKey tn q 0
  let old := s.rd k
  if qCfgBad w || (bit old 0 && qCfgFields w != qCfgFields old) then flagRaw s (qKey tn q 0xC) 4
  else if bit old 0 then
    if bit w 0 then s else (flushQueue s tn q false).wr k (qCfgMask w)
  else if bit w 0 then
    let r := (bits w 8 12, bits w 20 9)
    if s.pageCount tn < r.1 + r.2 || s.usedByQueue tn q r || s.usedByRing tn 32 r then
      flagRaw s (qKey tn q 0xC) 4
    else s.wr k (qCfgMask w)
  else s.wr k (qCfgMask w)

/-- The largest item of a kind in cells (Table 06-1). -/
def kindMax (kind : Nat) : Nat := if kind = 0 then 5 else if kind = 1 then 16 else if kind = 2 then 130 else 64

/-- How many items, of at most `room` bytes together, the next slice of a read copies: whole items of at most `most`
bytes, and at least one item. -/
def groupItems (most : Nat) : List Item → Nat → Nat → Nat → Nat × Nat
  | [], _, n, b => (n, b)
  | i :: l, room, n, b =>
    let c := 16 * i.cells
    if room < b + c || (n != 0 && decide (most < b + c)) then (n, b) else groupItems most l room (n + 1) (b + c)

/-- The cost of copying bytes to or from the Deck and the host (Table 05-1). -/
def copyCost (bytes : Nat) : List Nat := [ceilDiv bytes 1024, 0, 0, 0, 0, ceilDiv bytes 64000, 0]

/-- The next slice of a QUEUE_READ: how many items and bytes it copies. A slice moves at most one Deck toll unit, and no more
than its class can ever be given in one span. -/
def State.nextRead (s : State) (j : Job) : Nat × Nat :=
  let x := s.queue (64 * j.d.tenant + j.d.p 0 1 % 64)
  let most := 1024 * (if j.d.clsNo = 0 then s.gTu j.d.tenant 0 else s.planCap 0)
  groupItems (min 64000 most) (x.items.drop x.readIx) (j.d.p 4 4 - 16 * nth j.aux 0) 0 0

/-- The checks of QUEUE_READ (R218, R232, R181, R183). -/
def queueReadCheck (s : State) (d : Desc) : Verdict :=
  let tn := d.tenant.val
  let q := d.p 0 1
  let mx := d.p 4 4
  let kind := s.qKind tn q
  let need := copyCost (16 * kindMax kind)
  firstFail [(badFormat d (pm 0 1 ||| pm 4 12) false || decide (64 ≤ q), 0x14, 0),
    (kind == 0 || mx % 16 != 0 || decide (mx < 16 * kindMax kind) || decide (1048576 < mx) || d.p 8 8 % 16 != 0, 0x14, 0),
    (s.noBudget tn d.clsNo need, 0x11, 0),
    (s.tooLarge tn d.clsNo need, 0x12, 0)]

/-- QUEUE_READ waits for Keystone with its next slice, or completes when nothing is left (R217, R221). -/
def queueReadNext (s : State) (j : Job) : State :=
  let g := s.nextRead j
  if g.1 = 0 then complete s j (if nth j.aux 2 = 0 then 0 else 0x60) (readResult j.aux)
  else keep s { j with phase := .active, slices := [copyCost g.2] }

/-- The effect of QUEUE_READ at admission. -/
def queueReadStart (s : State) (j : Job) : State := queueReadNext s { j with aux := [0, 0, 0] }

/-- What a report of a slice delivers: all of the slice, or the items copied whole so far. -/
def State.readUpTo (s : State) (j : Job) (items : Nat) : Nat × Nat :=
  let g := s.nextRead j
  if items = 0 ∨ g.1 ≤ items then g
  else
    let x := s.queue (64 * j.d.tenant + j.d.p 0 1 % 64)
    (items, 16 * sumL (((x.items.drop x.readIx).take items).map Item.cells))
/-- A slice of a QUEUE_READ has been copied: its items go to host memory, kinds other than 1 give their cells back (R220),
a gap marker taken is closed (R212), and a poisoned TLP carries what the Deck could not correct (R254). A slice that has not
come to its end goes on with the rest. -/
def queueReadSlice (s : State) (j : Job) (r : SliceResult) : State :=
  let tn := j.d.tenant.val
  let q := j.d.p 0 1 % 64
  let k := 64 * tn + q
  let whole := s.nextRead j
  let g := s.readUpTo j r.items
  let x := s.queue k
  let its := (x.items.drop x.readIx).take g.1
  let s := sendHost s tn (.memWrite tn (j.d.p 8 8 + 16 * nth j.aux 0) (its.flatMap Item.bytes) (r.errs.any (·.ue)))
  let left := x.items.length - x.readIx - g.1
  let s := s.setQueue k
    { x with
      items := if s.qKind tn q = 1 then x.items else x.items.take x.readIx ++ x.items.drop (x.readIx + g.1)
      readIx := if s.qKind tn q = 1 then x.readIx + g.1 else x.readIx
      markerOpen := x.markerOpen && left != 0 }
  let j := { j with aux := [nth j.aux 0 + g.2 / 16, nth j.aux 1 + g.1, if its.any Item.isGap then 1 else nth j.aux 2] }
  if g.1 < whole.1 then keep s { j with slices := [copyCost (whole.2 - g.2)], planned := 1 } else queueReadNext s j

/-- The checks of the queue opcodes that cost nothing (R226, R232). -/
def queueOpCheck (kind1 : Bool) (s : State) (d : Desc) : Verdict :=
  firstFail [(badFormat d (pm 0 1) false || decide (64 ≤ d.p 0 1) || (kind1 && s.qKind d.tenant (d.p 0 1) != 1), 0x14, 0)]

def updQ (s : State) (d : Desc) (f : Queue → Queue) : State := s.updQueue (64 * d.tenant + d.p 0 1 % 64) f

/-- R222. -/
def doQueueMark (s : State) (d : Desc) : State := updQ s d fun x => { x with markIx := x.readIx }
/-- R223. -/
def doQueueRewind (s : State) (d : Desc) : State := updQ s d fun x => { x with readIx := x.markIx }
/-- R224. -/
def doQueueRelease (s : State) (d : Desc) : State :=
  updQ s d fun x => { x with items := x.items.drop x.readIx, readIx := 0, markIx := 0 }
/-- R227. -/
def doQueueFlush (s : State) (d : Desc) : State := flushQueue s d.tenant (d.p 0 1 % 64) true

/-! The commands. -/

/-- QUEUE_OFFER (R207 to R212). -/
def execQueueOffer (t : Nat) (tn : Fin 256) (q : Fin 64) (it : Offer) (s : State) : Host.Outcome State Fault Refusal :=
  act s fun s => offer (advance s t) tn q (s.qKind tn q) it
/-- Q_ENABLE (R205, R206). -/
def execQEnable (t : Nat) (tn : Fin 256) (q : Fin 64) (value : Word) (s : State) : Host.Outcome State Fault Refusal :=
  act s fun s => writeQCfg (advance s t) tn q (value.toNat ||| 1)
/-- Q_DISABLE (R206, R231). -/
def execQDisable (t : Nat) (tn : Fin 256) (q : Fin 64) (value : Word) (s : State) : Host.Outcome State Fault Refusal :=
  act s fun s => writeQCfg (advance s t) tn q (value.toNat / 2 * 2)
/-- Q_CTRL_FLUSH (R227 to R230). -/
def execQCtrlFlush (t : Nat) (tn : Fin 256) (q : Fin 64) (s : State) : Host.Outcome State Fault Refusal :=
  act s fun s => let s := advance s t; if s.qEnabled tn q then flushQueue s tn q true else s
/-- QUEUE_READ (R217 to R221). -/
def execQueueRead (t : Nat) (d : Desc) (s : State) : Host.Outcome State Fault Refusal :=
  act s fun s => runOp s t 0x90 d queueReadCheck queueReadStart
/-- QUEUE_MARK (R222). -/
def execQueueMark (t : Nat) (d : Desc) (s : State) : Host.Outcome State Fault Refusal :=
  act s fun s => runOp s t 0x91 d (queueOpCheck true) (andDone doQueueMark)
/-- QUEUE_REWIND (R223). -/
def execQueueRewind (t : Nat) (d : Desc) (s : State) : Host.Outcome State Fault Refusal :=
  act s fun s => runOp s t 0x92 d (queueOpCheck true) (andDone doQueueRewind)
/-- QUEUE_RELEASE (R224). -/
def execQueueRelease (t : Nat) (d : Desc) (s : State) : Host.Outcome State Fault Refusal :=
  act s fun s => runOp s t 0x93 d (queueOpCheck true) (andDone doQueueRelease)
/-- QUEUE_FLUSH (R227). -/
def execQueueFlush (t : Nat) (d : Desc) (s : State) : Host.Outcome State Fault Refusal :=
  act s fun s => runOp s t 0x94 d (queueOpCheck false) (andDone doQueueFlush)

end Sys2Proof.Machine
end

