-- ==== Sys2Proof/Machine/Latches.lean ====
section
/-!
DEFINITION. Position latches (chapter 13, R510 to R514): arming, events, and captures from the history of a feedback channel.
-/
namespace Sys2Proof.Machine

/-- The channel a latch slot captures: the one named, or the pier's POS_CH (Table 13-5). -/
def State.latchChan (s : State) (p ch : Nat) : Nat := if ch = 0xFF then s.fld (pierKey p 4) 0 6 else ch

/-- An armed slot takes an event whose time is at or after its admission; a continuous slot takes at most 8 in one span and
loses the rest (R510). -/
def Latch.take (l : Latch) (spanIx time seq : Nat) : Latch :=
  if !l.armed || decide (time < l.since) then l
  else
    let l := if l.spanOf = spanIx then l else { l with spanOf := spanIx, inSpan := 0 }
    if l.cont && decide (8 ≤ l.inSpan) then { l with lost := min (l.lost + 1) 0xFFFF }
    else { l with events := l.events ++ [(time, seq, 0)], inSpan := l.inSpan + 1, armed := l.cont }

/-- An event of a latch source (Table 13-3) reaches every slot armed on it. -/
def latchEvent (s : State) (kinds : List Nat) (index time seq : Nat) : State :=
  { s with latches := s.latches.map fun x =>
      if kinds.contains x.2.kind && x.2.index == index then (x.1, x.2.take s.tb.spanIx time seq) else x }

/-- Among history entries, newest first: the first with a time after `t`, and the last with a time at or before it. -/
def bracket (t : Nat) : List (Nat × Int) → Option (Nat × Int) → Option (Nat × Int) × Option (Nat × Int)
  | [], after => (after, none)
  | e :: l, after => if t < e.1 then bracket t l (some e) else (after, some e)

/-- Interpolation rounded to nearest Q48.16 with halves up (R511). -/
def latchAt (t : Nat) (a b : Nat × Int) : Int :=
  let n : Int := (b.2 - a.2) * ((t : Int) - (a.1 : Int))
  let d : Int := (b.1 : Int) - (a.1 : Int)
  wrap64 (a.2 + (2 * n + d) / (2 * d))

/-- The last two entries with distinct times (R512). -/
def lastTwo : List (Nat × Int) → Option ((Nat × Int) × (Nat × Int))
  | [] => none
  | e :: l => match l.find? fun x => x.1 != e.1 with
    | some p => some (p, e)
    | none => none

/-- The position captured for an event, and whether it is extrapolated; none while the slot must wait (R511, R512). -/
def capture (h : List (Nat × Int)) (t seen : Nat) : Option (Int × Bool) :=
  match bracket t h none with
  | (some b, some a) => some (if a.1 = t then a.2 else latchAt t a b, false)
  | (some b, none) => some (b.2, true)
  | (none, _) =>
    if seen < 4 then none
    else match lastTwo h with
      | some (a, b) => some (latchAt t a b, true)
      | none => (h.head?).map fun e => (e.2, true)

/-- One capture is made (R513, R514, Table 13-4). -/
def latchCapture (s : State) (k : Nat) (time seq : Nat) (pos : Int) (extrap : Bool) : State :=
  let l := s.latch k
  let f := s.fb l.chan
  let flags := b2n f.suspect + 2 * b2n extrap + 4 * b2n f.fault
  let s := match l.queue with
    | none => s
    | some q => offer s l.tenant q 3
        { src := k
          time := time
          payload := leBytes 8 (unsigned 64 pos) ++ leBytes 1 flags ++ leBytes 1 l.kind ++ leBytes 2 l.lost ++ leBytes 4 seq
          lane := 0
          done := true }
  let s := s.setLatch k { l with captures := l.captures + 1, lost := if l.queue.isSome then 0 else l.lost }
  if l.cont then s
  else match l.job.bind s.job? with
    | some j => complete (s.updLatch k fun l => { l with job := none }) j 0 (unsigned 64 pos)
    | none => s

/-- The waiting events of a slot at a snapshot taken at `snap` (R511 to R513). -/
def latchSlot (s : State) (k snap : Nat) : State :=
  let l := s.latch k
  let h := (s.fb l.chan).hist
  l.events.foldl (fun s e =>
    let seen := if e.1 < snap then e.2.2 + 1 else e.2.2
    match capture h e.1 seen with
    | some (pos, ex) => latchCapture s k e.1 e.2.1 pos ex
    | none => s.updLatch k fun l => { l with events := l.events ++ [(e.1, e.2.1, seen)] })
    (s.setLatch k { l with events := [] })

/-- Every slot of a channel at its snapshot. -/
def latchesOf (s : State) (n snap : Nat) : State :=
  (s.latches.filter fun x => x.2.chan == n && x.2.events != []).foldl (fun s x => latchSlot s x.1 snap) s

/-- A slot is disarmed; the descriptor that armed it completes with its capture count (R513). -/
def disarm (s : State) (k : Nat) : State :=
  let l := s.latch k
  let s := s.setLatch k { l with armed := false, events := [], job := none }
  match l.job.bind s.job? with
  | some j => complete s j 0 (l.captures % 2 ^ 32)
  | none => s

/-- The need of a latch source (Table 13-3). -/
def State.latchNeed (s : State) (tn kind i : Nat) : Bool :=
  if kind < 3 then s.hasProbe tn i
  else if kind = 3 then s.hasCam tn i || s.hasFrameRead tn i
  else if kind = 4 then s.hasEmu tn i
  else true

/-- The checks of LATCH_ARM (R510, R518). -/
def latchArmCheck (s : State) (d : Desc) : Verdict :=
  let tn := d.tenant.val
  let ch := d.p 6 1
  let idx := d.p 3 1
  let lim := if d.p 2 1 < 3 then 16 else if d.p 2 1 < 5 then 8 else 256
  firstFail [(badFormat d (pm 0 4 ||| pb 4 1 ||| pm 5 2 ||| pm 8 8) false || decide (32 ≤ d.p 0 1) || decide (8 ≤ d.p 1 1) ||
      decide (6 ≤ d.p 2 1) || decide (lim ≤ idx) || (ch != 0xFF && decide (40 ≤ ch)) ||
      (d.p 5 1 != 0xFF && decide (64 ≤ d.p 5 1)), 0x14, 0),
    (!s.hasPier tn (d.p 0 1) || !s.latchNeed tn (d.p 2 1) idx || (ch != 0xFF && !s.hasFb tn ch && !s.hasFbs tn ch), 0x11, 0)]
/-- LATCH_ARM. A slot already armed is disarmed first. -/
def latchArm (s : State) (j : Job) : State :=
  let d := j.d
  let k := 8 * d.p 0 1 + d.p 1 1
  let s := keep (disarm s k) { j with phase := .active }
  let l : Latch :=
    { armed := true
      job := some j.id
      tenant := d.tenant
      cont := bit (d.p 4 1) 0
      kind := d.p 2 1
      index := d.p 3 1
      queue := if d.p 5 1 = 0xFF then none else some (d.p 5 1)
      chan := s.latchChan (d.p 0 1) (d.p 6 1)
      since := s.now
      events := []
      inSpan := 0
      spanOf := s.tb.spanIx
      lost := 0
      captures := 0 }
  s.setLatch k (if d.p 2 1 = 5 then l.take s.tb.spanIx (d.p 8 8) 0 else l)
/-- The checks of LATCH_DISARM. -/
def latchDisarmCheck (s : State) (d : Desc) : Verdict :=
  firstFail [(badFormat d (pm 0 2) false || decide (32 ≤ d.p 0 1) || decide (8 ≤ d.p 1 1), 0x14, 0),
    (!s.hasPier d.tenant (d.p 0 1), 0x11, 0)]

/-- An edge on a PROBE pin (Table 13-3). -/
def probeEdge (s : State) (i : Nat) (rising : Bool) : State :=
  let n := storeGet (fun _ => 0) s.probeCnts i + 1
  let s := { s with probeCnts := storePut (fun _ => 0) s.probeCnts i n }
  latchEvent s [if rising then 0 else 1, 2] i s.now (n % 2 ^ 32)

/-- LATCH_ARM (R510). -/
def execLatchArm (t : Nat) (d : Desc) (s : State) : Host.Outcome State Fault Refusal :=
  act s fun s => runOp s t 0x2B d latchArmCheck latchArm
/-- LATCH_DISARM (R510, R513). -/
def execLatchDisarm (t : Nat) (d : Desc) (s : State) : Host.Outcome State Fault Refusal :=
  act s fun s => runOp s t 0x2C d latchDisarmCheck (andDone fun s d => disarm s (8 * d.p 0 1 + d.p 1 1))
/-- PROBE_EDGE (R510). -/
def execProbeEdge (t : Nat) (i : Fin 16) (rising : Bool) (s : State) : Host.Outcome State Fault Refusal :=
  act s fun s => probeEdge (advance s t) i rising

end Sys2Proof.Machine
end

