-- ==== Sys2Proof/Machine/Cameras.lean ====
section
/-!
DEFINITION. Cameras, Cutwater and the Deck frame store (chapter 07), but for the hand-off to the vision pipelines.
-/
namespace Sys2Proof.Machine

/-! Bytes of the Deck. -/

/-- A byte of the Deck. -/
def State.deckB (s : State) (a : Nat) : Byte := storeGet Memory.blank s.deck a
/-- Write a byte of the Deck. -/
def deckPut (s : State) (a : Nat) (b : Byte) : State := { s with deck := storePut Memory.blank s.deck a b }

/-- The Deck address of byte k of a tenant's pages from grant page index `i` on. -/
def State.pageAddr (s : State) (tn i k : Nat) : Option Nat := (s.pageOf tn (i + k / 65536)).map fun p => p * 65536 + k % 65536
/-- Write bytes from byte k of a tenant's pages on; bytes beyond the grant are not written. -/
def pagesWrite (s : State) (tn i k : Nat) : List Byte → State
  | [] => s
  | b :: l =>
    let s := match s.pageAddr tn i k with
      | some a => deckPut s a b
      | none => s
    pagesWrite s tn i (k + 1) l
/-- n bytes from byte k of a tenant's pages on. -/
def State.pagesRead (s : State) (tn i k : Nat) : Nat → List Byte
  | 0 => []
  | n + 1 => ((s.pageAddr tn i k).map s.deckB).getD 0 :: s.pagesRead tn i (k + 1) n

/-! Ports and rings. -/

/-- CFG_ERR of a camera port. -/
def camErr (s : State) (c : Nat) : State := flag s (camKey c 0x20) 1
def State.vcOn (s : State) (c v : Nat) : Bool := s.bitAt (vcKey c v 4) 0
def State.vcSlots (s : State) (c v : Nat) : Nat := s.fld (vcKey c v 4) 1 7
def State.vcBase (s : State) (c v : Nat) : Nat := s.fld (vcKey c v 4) 8 12
def State.vcSlotPages (s : State) (c v : Nat) : Nat := s.fld (vcKey c v 4) 20 8
def State.vcW (s : State) (c v : Nat) : Nat := s.fld (vcKey c v 0) 0 13
def State.vcH (s : State) (c v : Nat) : Nat := s.fld (vcKey c v 0) 13 13
def State.vcDt (s : State) (c v : Nat) : Nat := s.fld (vcKey c v 0) 26 3
/-- Stored bytes per pixel (Table 07-1). -/
def dtBytes (dt : Nat) : Nat := if dt = 0 then 1 else if dt = 3 then 3 else 2
/-- The line pitch (R240). -/
def pitchOf (w dt : Nat) : Nat := ceilDiv (w * dtBytes dt) 64 * 64
def State.vcPitch (s : State) (c v : Nat) : Nat := pitchOf (s.vcW c v) (s.vcDt c v)
/-- The grant page index of a slot. -/
def State.slotPage (s : State) (c v slot : Nat) : Nat := s.vcBase c v + slot * s.vcSlotPages c v
/-- Write bytes of a slot. -/
def slotWrite (s : State) (c v slot k : Nat) (bs : List Byte) : State := pagesWrite s (s.camOwner c) (s.slotPage c v slot) k bs
/-- n bytes of a slot. -/
def State.slotRead (s : State) (c v slot k n : Nat) : List Byte := s.pagesRead (s.camOwner c) (s.slotPage c v slot) k n
/-- A header field of a slot (Table 07-2). -/
def State.hdr (s : State) (c v slot k n : Nat) : Nat := leNat (s.slotRead c v slot k n)
/-- Lock a slot once more, or once less. -/
def slotLock (s : State) (c v slot : Nat) (f : Nat → Nat) : State :=
  s.updVc (4 * c + v) fun x => { x with locks := storePut (fun _ => 0) x.locks slot (f (storeGet (fun _ => 0) x.locks slot)) }
def State.slotLocks (s : State) (c v slot : Nat) : Nat := storeGet (fun _ => 0) (s.vc (4 * c + v)).locks slot

/-- Whether PHY settings are in range (R234). -/
def phyOk (w : Nat) : Bool := bits w 2 2 != 3 && decide (80 ≤ bits w 4 13) && decide (bits w 4 13 ≤ 4500)
/-- Data lanes or trios of a CAM_CFG value. -/
def phyLanes (w : Nat) : Nat := if bit w 1 then bits w 2 2 + 1 else 2 ^ bits w 2 2
/-- A D-PHY port above 1,500 Mb/s waits for deskew (R235). -/
def needsDeskew (w : Nat) : Bool := !bit w 1 && decide (1500 < bits w 4 13)
/-- The largest expansion among a port's enabled data types, in fifteenths (Table 07-1). -/
def State.expansion15 (s : State) (c : Nat) : Nat :=
  (List.range 4).foldl (fun m v =>
    if s.vcOn c v then max m (if s.vcDt c v = 1 then 24 else if s.vcDt c v = 2 then 20 else 15) else m) 15
/-- The peak ingest P of a port in TU per span, for a CAM_CFG value. -/
def State.peakIngest (s : State) (c w : Nat) : Nat :=
  let b7 := phyLanes w * bits w 4 13 * 1000000 * (if bit w 1 then 16 else 7)
  ceilDiv (b7 * s.tb.len * s.expansion15 c) (7 * 15 * 3200000000 * 64000)

/-- Whether a write may enable a port (R234, R258). -/
def State.camOk (s : State) (c w : Nat) : Bool :=
  let own := s.camOwner c
  phyOk w && decide (own < 256) &&
    decide (sumL ((List.range 8).map fun i =>
      if i = c then s.peakIngest c w
      else if s.camOwner i = own ∧ s.bitAt (camKey i 0) 0 then s.peakIngest i (s.rd (camKey i 0)) else 0) ≤ s.gTu own 5)
/-- The fields of CAM_CFG. -/
def camCfgMask (w : Nat) : Nat := w % 2 ^ 17

/-- A port stops receiving: its open frames are left as they stand. -/
def camOff (s : State) (c : Nat) : State :=
  let s := s.updCam c fun x => { x with linkUp := false, deskewWait := false }
  (List.range 4).foldl (fun s v => s.updVc (4 * c + v) fun x => { x with opened := none }) s
/-- A write of `CAM_CFG` (R234, R258, R264). -/
def writeCamCfg (s : State) (c w : Nat) : State :=
  let k := camKey c 0
  let w := camCfgMask w
  if s.mode = .run then s
  else if s.bitAt k 0 then
    if w / 2 != s.rd k / 2 then camErr s c
    else if bit w 0 then s else (camOff s c).wr k w
  else if bit w 0 then
    if s.camOk c w then (s.wr k w).updCam c fun x => { x with linkUp := false, deskewWait := needsDeskew w } else camErr s c
  else s.wr k w
/-- A write of `CAM_VC_FMT` (R264). -/
def writeVcFmt (s : State) (c v w : Nat) : State :=
  if s.mode = .run then s
  else if s.vcOn c v && w % 2 ^ 29 != s.rd (vcKey c v 0) then camErr s c
  else s.wr (vcKey c v 0) (w % 2 ^ 29)
/-- Whether a ring value may be enabled (R239, R241). -/
def State.vcOk (s : State) (c v w : Nat) : Bool :=
  let wd := s.vcW c v
  let h := s.vcH c v
  let dt := s.vcDt c v
  let slots := bits w 1 7
  let pages := bits w 20 8
  let own := s.camOwner c
  let r := (bits w 8 12, slots * pages)
  decide (16 ≤ wd) && decide (wd ≤ 4096) && decide (1 ≤ h) && decide (h ≤ 4096) && decide (wd * h ≤ 4194304) &&
    decide (dt < 4) && decide (2 ≤ slots) && decide (slots ≤ 64) && decide (1 ≤ pages) &&
    decide (ceilDiv (64 + pitchOf wd dt * h) 65536 ≤ pages) && decide (own < 256) &&
    decide (r.1 + r.2 ≤ s.pageCount own) && !s.usedByRing own (4 * c + v) r && !s.usedByQueue own 64 r
/-- A write of `CAM_VC_RING` (R239, R241, R264). -/
def writeVcRing (s : State) (c v w : Nat) : State :=
  let k := vcKey c v 4
  let w := w % 2 ^ 28
  if s.mode = .run then s
  else if s.vcOn c v then
    if w / 2 != s.rd k / 2 then camErr s c
    else if bit w 0 then s else (s.updVc (4 * c + v) fun x => { x with opened := none }).wr k w
  else if bit w 0 && !s.vcOk c v w then camErr s c
  else s.wr k w

/-! Triggers and exposure (R247 to R252). -/

def Cam.mode (x : Cam) : Nat := x.cfgTrig.toNat % 4
/-- A pulse of an EMU output asks for an edge of every port in EMU mode on it. -/
def camsOfEmu (s : State) (e t : Nat) : State :=
  (List.range 8).foldl (fun s c =>
    let x := s.cam c
    if x.mode = 2 ∧ bits x.cfgTrig.toNat 2 3 = e then s.setCam c { x with sched := x.sched ++ [t] } else s) s
/-- Whether a port's mode asks for an edge now (R247). -/
def State.trigDue (s : State) (c : Nat) : Bool :=
  let x := s.cam c
  if x.mode = 1 then
    s.now == s.tb.boundary + bits x.cfgTime.toNat 0 16 &&
      decide ((s.tb.spanIx - x.since) % max 1 (bits x.cfgTrig.toNat 8 16) = 0) && decide (x.since ≤ s.tb.spanIx)
  else x.mode != 0 && x.sched.contains s.now
/-- CAM_TRIG rises, or MIN_GAP suppresses it (R248, R250). -/
def camRise (s : State) (c : Nat) : State :=
  if !s.trigDue c then s
  else
    let x := s.cam c
    let t := s.now
    let x := { x with sched := x.sched.erase t }
    if (x.lastEdge.map fun e => decide (t - e < x.cfgGap.toNat % 2 ^ 24)).getD false then
      flag (count (s.setCam c x) (camKey c 0x30)) (camKey c 0x20) 0x10
    else
      let exp := t + x.cfgDelay.toNat % 2 ^ 20
      let n := x.trigCount + 1
      s.setCam c
        { x with
          lastEdge := some t
          pin := true
          trigCount := n
          trigs := x.trigs ++ [{ seq := n % 2 ^ 32, edge := t, exp := exp, matched := 0 }]
          expDue := x.expDue ++ [(exp, n % 2 ^ 32)]
          quietSpans := some (x.quietSpans.getD 0) }
/-- The pulse ends WIDTH ticks after its edge. -/
def camFall (s : State) (c : Nat) : State :=
  let x := s.cam c
  if (x.lastEdge.map fun e => decide (e + x.cfgTime.toNat / 2 ^ 16 ≤ s.now)).getD false then s.setCam c { x with pin := false }
  else s
/-- The exposure event of the triggers due at this tick (R250). -/
def camExpose (s : State) (c : Nat) : State :=
  let x := s.cam c
  (x.expDue.filter (·.1 == s.now)).foldl (fun s e => latchEvent s [3] c e.1 e.2)
    (s.setCam c { x with expDue := x.expDue.filter (·.1 != s.now) })
/-- No frame start for the time-out after an edge (R252). -/
def camLost (s : State) (c : Nat) : State :=
  let x := s.cam c
  if x.mode != 0 && !x.portLost && (x.quietSpans.map fun n => decide (x.cfgTimeout.toNat % 2 ^ 16 ≤ n)).getD false then
    flag (s.setCam c { x with portLost := true, quietSpans := none }) (camKey c 0x20) 2
  else s
/-- What a port does at a boundary: trigger fields take effect (R264), an OFFSET that no longer fits is cleared (R265), and
the time-out counts. -/
def camBoundary (s : State) (c : Nat) : State :=
  let s := if s.tb.len ≤ s.fld (camKey c 8) 0 16 then camErr (s.setFld (camKey c 8) 0 16 0) c else s
  let x := s.cam c
  let w (o : Nat) : Word := BitVec.ofNat 32 (s.rd (camKey c o))
  let change := (w 4).toNat % 4 != x.mode
  s.setCam c
    { x with
      since := if change then s.tb.spanIx else x.since
      sched := if change then [] else x.sched
      cfgTrig := w 4
      cfgTime := w 8
      cfgGap := w 0xC
      cfgDelay := w 0x10
      cfgMatch := w 0x14
      cfgTimeout := w 0x18
      quietSpans := x.quietSpans.map (· + 1) }

/-! Packets (R235 to R246). -/

/-- Whether a port accepts packets. -/
def State.camListens (s : State) (c : Nat) : Bool := s.bitAt (camKey c 0) 0 && (s.cam c).linkUp
/-- A packet header as received (R237): whether the packet goes on. -/
def headerCheck (s : State) (c : Nat) (h : HdrCheck) : State × Bool :=
  match h with
  | .good => (s, true)
  | .corrected => (count s (camKey c 0x38), true)
  | .bad => (flag (count s (camKey c 0x2C)) (camKey c 0x20) 8, false)

/-- The header bytes of an open frame (Table 07-2). -/
def headerBytes (s : State) (c v seq : Nat) (f : OpenFrame) (fe flags : Nat) : List Byte :=
  leBytes 8 seq ++ leBytes 8 (if f.untimed then 0 else f.exp) ++ leBytes 8 f.fs ++ leBytes 8 fe ++
    leBytes 2 (s.vcW c v) ++ leBytes 2 f.lines ++ leBytes 1 (s.vcDt c v) ++ leBytes 1 v ++ leBytes 2 flags ++
    leBytes 4 f.bad ++ leBytes 4 f.trigSeq ++ leBytes 16 0
/-- The FLAGS of an open frame that is not yet complete. -/
def openFlags (f : OpenFrame) : Nat := 2 * b2n f.untimed + 8 * b2n f.long + 16 * b2n f.crc + 32 * b2n f.ue

/-- The trigger a frame start on a channel matches, and the port after discarding those too old (R251). -/
def matchTrig (s : State) (c v : Nat) : State × Option Trig :=
  let x := s.cam c
  let old (g : Trig) : Bool := decide (g.edge + x.cfgMatch.toNat % 2 ^ 24 < s.now)
  let s := countN s (camKey c 0x34) ((x.trigs.filter fun g => old g && g.matched == 0).length)
  let live := x.trigs.filter fun g => !old g
  match live.find? fun g => !bit g.matched v with
  | none => (s.setCam c { x with trigs := live }, none)
  | some g =>
    (s.setCam c { x with trigs := mapIf (·.seq == g.seq) (fun y => { y with matched := y.matched ||| 2 ^ v }) live }, some g)

/-- A frame start advances FRAME_SEQ, matches its trigger and opens the frame in its slot (R242, R243, R251, R252). -/
def openFrame (s : State) (c v : Nat) : State :=
  let r := matchTrig s c v
  let s := r.1.updCam c fun x => { x with portLost := false, quietSpans := none }
  let x := s.vc (4 * c + v)
  let seq := x.frameSeq + 1
  let s := s.wr (vcKey c v 8) (seq % 2 ^ 32)
  let slot := seq % max 1 (s.vcSlots c v)
  let locked := s.slotLocks c v slot != 0
  let f : OpenFrame :=
    { slot := slot
      drop := locked
      untimed := r.2.isNone
      exp := (r.2.map (·.exp)).getD 0
      fs := s.now
      trigSeq := (r.2.map (·.seq)).getD 0
      got := 0
      lines := 0
      bad := 0
      long := false
      crc := false
      ue := false }
  let s := s.setVc (4 * c + v) { x with frameSeq := seq, opened := some f }
  if locked then flag (count s (camKey c 0x28)) (camKey c 0x20) 4
  else
    let s := slotWrite s c v slot 0 (headerBytes s c v seq f 0 (openFlags f))
    s.updCam c fun y => { y with inBytes := y.inBytes + 64 }

/-- A frame is closed: FE_TIME, COMPLETE and the counts are written (R244, R246). The slot it lies in, when it was stored. -/
def closeFrame (s : State) (c v : Nat) : State × Option Nat :=
  let x := s.vc (4 * c + v)
  match x.opened with
  | none => (s, none)
  | some f =>
    let s := s.setVc (4 * c + v) { x with opened := none }
    if f.drop then (s, none)
    else
      let flags := openFlags f + 1 + 4 * b2n (decide (f.lines < s.vcH c v))
      (slotWrite s c v f.slot 0 (headerBytes s c v x.frameSeq f s.now flags), some f.slot)

/-- The stored bytes of a line (Table 07-1). -/
def lineBytes (dt : Nat) (px : List Nat) : List Byte :=
  px.flatMap fun p =>
    if dt = 1 then leBytes 2 (p % 1024) else if dt = 2 then leBytes 2 (p % 4096) else leBytes 1 p
/-- A long packet on an open frame (R236, R238, R244). -/
def storeLine (s : State) (c v dt : Nat) (px : List Nat) (crcOk : Bool) : State :=
  if 4 ≤ dt || !s.vcOn c v then count s (camKey c 0x2C)
  else
    let x := s.vc (4 * c + v)
    match x.opened with
    | none => s
    | some f =>
      if f.drop then s
      else if s.vcH c v ≤ f.got then s.setVc (4 * c + v) { x with opened := some { f with long := true } }
      else
        let sdt := s.vcDt c v
        let perPx := if sdt = 3 then 3 else 1
        let room := s.vcW c v * perPx
        let bytes := lineBytes sdt (px.take room)
        let bad := !crcOk || decide (room < px.length)
        let f' :=
          { f with
            got := f.got + 1
            lines := f.lines + 1
            bad := f.bad + b2n bad
            crc := f.crc || !crcOk }
        let s := s.setVc (4 * c + v) { x with opened := some f' }
        let s := slotWrite s c v f.slot (64 + f.got * s.vcPitch c v) bytes
        s.updCam c fun y => { y with inBytes := y.inBytes + bytes.length }
/-- LONG_PACKET. -/
def longPacket (s : State) (c v : Nat) (h : HdrCheck) (dt : Nat) (px : List Nat) (crcOk : Bool) : State :=
  if !s.camListens c then s
  else
    let r := headerCheck s c h
    if r.2 then storeLine r.1 c v dt px crcOk else r.1

/-- The receiver locks onto or loses the lane stream (R235). -/
def camLock (s : State) (c : Nat) (locked : Bool) : State :=
  s.updCam c fun x => { x with linkUp := locked && s.bitAt (camKey c 0) 0 && !x.deskewWait }
/-- The deskew sequence is received (R235). -/
def camDeskew (s : State) (c : Nat) : State :=
  if (s.cam c).deskewWait then s.updCam c fun x => { x with deskewWait := false, linkUp := true } else s

/-! The camera opcodes (Table 07-3). -/

def camTriggerCheck (s : State) (d : Desc) : Verdict :=
  firstFail [(badFormat d (pm 0 1 ||| pm 4 8) false || decide (8 ≤ d.p 0 1), 0x14, 0),
    (!s.hasCam d.tenant (d.p 0 1), 0x11, 0), (!s.expert d.tenant, 0x15, 0), ((s.cam (d.p 0 1)).mode != 3, 0x13, 0)]
/-- CAM_TRIGGER (R260). -/
def camTrigger (s : State) (j : Job) : State :=
  let c := j.d.p 0 1
  let t := max (j.d.p 4 8) (s.now + 64)
  let s := s.updCam c fun x => { x with sched := x.sched ++ [t] }
  complete s j (if j.d.p 4 8 < s.now + 64 then 3 else 0) t

/-- The bytes the next slice of a FRAME_READ copies: at most one Deck toll unit, and no more than its class can ever be given in
one span. 1 KiB is the indivisible piece. -/
def State.nextCopy (s : State) (d : Desc) (left : Nat) : Nat :=
  min left (min 64000 (1024 * max 1 (if d.clsNo = 0 then s.gTu d.tenant 0 else s.planCap 0)))
def frameReadCheck (s : State) (d : Desc) : Verdict :=
  let tn := d.tenant.val
  let c := d.p 0 1
  let piece := copyCost 1024
  firstFail [(badFormat d (pm 0 2 ||| pm 4 16) false || decide (8 ≤ c) || decide (4 ≤ d.p 1 1) || d.p 12 8 % 64 != 0, 0x14, 0),
    (!s.hasCam tn c && !s.hasFrameRead tn c, 0x11, 0),
    (s.noBudget tn d.clsNo piece, 0x11, 0),
    (s.tooLarge tn d.clsNo piece, 0x12, 0)]
/-- FRAME_READ at admission (R261): lock the slot, or answer that it does not hold the frame. -/
def frameReadStart (s : State) (j : Job) : State :=
  let c := j.d.p 0 1
  let v := j.d.p 1 1
  let seq := j.d.p 4 8
  let slot := seq % max 1 (s.vcSlots c v)
  if s.vcOn c v && s.hdr c v slot 0 8 == seq && bit (s.hdr c v slot 38 2) 0 then
    let n := 64 + s.vcPitch c v * s.hdr c v slot 34 2
    keep (slotLock s c v slot (· + 1)) { j with phase := .active, slices := [copyCost (s.nextCopy j.d n)], aux := [0, n, slot, s.nextCopy j.d n] }
  else complete s j 0 0
/-- A slot read back with an uncorrectable error has ECC_UE set in its header (R254). -/
def slotUe (s : State) (c v slot : Nat) : State := slotWrite s c v slot 38 (leBytes 1 (s.hdr c v slot 38 1 ||| 32))
/-- The same, for those of a list of errors that lie in the slot's pages. -/
def slotErrs (s : State) (c v slot : Nat) (errs : List DeckErr) : State :=
  let inSlot (e : DeckErr) : Bool :=
    (List.range (s.vcSlotPages c v)).any fun i => s.pageOf (s.camOwner c) (s.slotPage c v slot + i) == some e.page
  if errs.any fun e => e.ue && inSlot e then slotUe s c v slot else s
/-- A slice of a FRAME_READ is copied to the host (R254, R261). -/
def frameReadSlice (s : State) (j : Job) (r : SliceResult) : State :=
  let c := j.d.p 0 1
  let v := j.d.p 1 1
  let slot := nth j.aux 2
  let at0 := nth j.aux 0
  let n := nth j.aux 3
  let s := sendHost s j.d.tenant
    (.memWrite j.d.tenant (j.d.p 12 8 + at0) (s.slotRead c v slot at0 n) (r.errs.any (·.ue)))
  let s := if r.errs.any (·.ue) then slotUe s c v slot else s
  let left := nth j.aux 1 - (at0 + n)
  let next := s.nextCopy j.d left
  keep s { j with slices := if left = 0 then [] else [copyCost next], aux := [at0 + n, nth j.aux 1, slot, next] }
/-- The last byte of the copy has been issued: the lock is released, then the completion is written (R262). -/
def frameReadDone (s : State) (id : Nat) : State :=
  match s.job? id with
  | some j =>
    if j.d.op = 0x51#8 ∧ j.phase = .active ∧ j.slices = [] then
      let s := slotLock s (j.d.p 0 1) (j.d.p 1 1) (nth j.aux 2) (· - 1)
      complete s j 0 (1 + 2 ^ 32 * nth j.aux 0)
    else s
  | none => s
/-- A FRAME_READ is abandoned: its lock is released at once (R262). -/
def frameReadUnlock (s : State) (j : Job) : State :=
  if j.d.op = 0x51#8 ∧ j.phase = .active then slotLock s (j.d.p 0 1) (j.d.p 1 1) (nth j.aux 2) (· - 1) else s

/-! The commands. -/

/-- CAM_ENABLE (R234, R258). -/
def execCamEnable (t : Nat) (c : Fin 8) (value : Word) (s : State) : Host.Outcome State Fault Refusal :=
  act s fun s => writeCamCfg (advance s t) c (value.toNat ||| 1)
/-- CAM_VC_RING_ENABLE (R239, R241). -/
def execCamVcRingEnable (t : Nat) (c : Fin 8) (v : Fin 4) (value : Word) (s : State) : Host.Outcome State Fault Refusal :=
  act s fun s => writeVcRing (advance s t) c v (value.toNat ||| 1)
/-- DESKEW_RECEIVED (R235). -/
def execDeskewReceived (t : Nat) (c : Fin 8) (s : State) : Host.Outcome State Fault Refusal :=
  act s fun s => camDeskew (advance s t) c
/-- CAM_RECEIVER_LOCK (R235). -/
def execCamReceiverLock (t : Nat) (c : Fin 8) (locked : Bool) (s : State) : Host.Outcome State Fault Refusal :=
  act s fun s => camLock (advance s t) c locked
/-- LONG_PACKET (R236 to R238, R244). -/
def execLongPacket (t : Nat) (c : Fin 8) (v : Fin 4) (h : HdrCheck) (dt : Nat) (pixels : List Nat) (crcOk : Bool)
    (s : State) : Host.Outcome State Fault Refusal :=
  act s fun s => longPacket (advance s t) c v h dt pixels crcOk
/-- CAM_TRIG_RISE (R247, R248, R250). -/
def execCamTrigRise (t : Nat) (c : Fin 8) (s : State) : Host.Outcome State Fault Refusal :=
  act s fun s => camRise (advance s t) c
/-- CAM_TRIG_PULSE_END (R247). -/
def execCamTrigPulseEnd (t : Nat) (c : Fin 8) (s : State) : Host.Outcome State Fault Refusal :=
  act s fun s => camFall (advance s t) c
/-- EXPOSURE_EVENT (R250). -/
def execExposureEvent (t : Nat) (c : Fin 8) (s : State) : Host.Outcome State Fault Refusal :=
  act s fun s => camExpose (advance s t) c
/-- CAM_TRIGGER (R260). -/
def execCamTrigger (t : Nat) (d : Desc) (s : State) : Host.Outcome State Fault Refusal :=
  act s fun s => runOp s t 0x50 d camTriggerCheck camTrigger
/-- FRAME_READ (R261). -/
def execFrameRead (t : Nat) (d : Desc) (s : State) : Host.Outcome State Fault Refusal :=
  act s fun s => runOp s t 0x51 d frameReadCheck frameReadStart
/-- FRAME_READ_COPY_DONE (R262). -/
def execFrameReadCopyDone (t : Nat) (job : Nat) (s : State) : Host.Outcome State Fault Refusal :=
  act s fun s => frameReadDone (advance s t) job

end Sys2Proof.Machine
end

