-- ==== Sys2Proof/Machine/Feedback.lean ====
section
/-!
DEFINITION. Feedback channels and EMU outputs (chapter 11).
-/
namespace Sys2Proof.Machine

def State.fbOn (s : State) (n : Nat) : Bool := s.bitAt (fbKey n 0) 0
def State.fbMode (s : State) (n : Nat) : Nat := s.fld (fbKey n 0) 1 2
def fbFlag (s : State) (n mask : Nat) : State := flag s (fbKey n 0x44) mask
/-- One count in Q48.16. -/
def oneCount : Int := 65536
/-- The channel becomes POSITION_SUSPECT. -/
def fbSuspect (s : State) (n : Nat) : State := s.updFb n fun f => { f with suspect := true }

/-! Configuration (R375, R391, R420). -/

/-- The longest transaction of a serial channel (Table 11-2), for an FB_CFG value. -/
def State.serTmax (s : State) (n w : Nat) : Nat :=
  if bits w 1 2 = 2 then
    (s.fld (fbKey n 0x18) 0 6 + s.fld (fbKey n 0x18) 7 1 + 1) * 2 * s.fld (fbKey n 0x1C) 0 11 + s.fld (fbKey n 0x1C) 16 16
  else 100 * 32 + s.fld (fbKey n 0x20) 0 12
/-- The serial timing check (R391). -/
def State.serOk (s : State) (n w : Nat) : Bool := bits w 1 2 < 2 || decide (s.serTmax n w ≤ s.tb.len / 2 ^ bits w 6 2)
/-- Whether every field of a channel is in its range (Table 11-7). -/
def State.fbRanges (s : State) (n w : Nat) : Bool :=
  let edge := s.fld (fbKey n 4) 0 12
  let cpr := s.rd (fbKey n 8)
  let ser := s.rd (fbKey n 0x18)
  let half := s.fld (fbKey n 0x1C) 0 11
  bits w 4 2 != 3 && decide (1 ≤ edge) && decide (edge ≤ 4000) && decide (4 ≤ cpr) && decide (cpr ≤ 2 ^ 31) &&
    decide (s.rd (fbKey n 0xC) < cpr) && decide (16 ≤ s.fld (fbKey n 0x14) 0 12) && decide (13 ≤ bits ser 0 6) &&
    decide (bits ser 0 6 ≤ 40) && decide (bits ser 8 5 ≤ 16) && decide (bits ser 8 5 < bits ser 0 6) &&
    decide (1 ≤ bits ser 16 4) && decide (20 ≤ half) && decide (half ≤ 2000) && decide (96 ≤ s.fld (fbKey n 0x20) 0 12)
/-- What enabling a channel starts from: its position, its POSITION_SUSPECT and fault states and its streams stay. -/
def Fb.start (f : Fb) (now : Nat) : Fb :=
  { Fb.reset with
    a := f.a
    b := f.b
    pos := f.pos
    pts := [(now, f.pos)]
    suspect := f.suspect
    fault := f.fault
    homed := f.homed
    lastMove := now
    streams := f.streams
    snapPos := f.pos
    setPos := f.setPos
    mems := f.mems
    hist := f.hist }
/-- A write of `FB_CFG` (R375, R420). -/
def writeFbCfg (s : State) (n w : Nat) : State :=
  let k := fbKey n 0
  let w := w % 256
  if s.mode = .run then s
  else if s.bitAt k 0 then
    if w / 2 != s.rd k / 2 then fbFlag s n 0x100 else s.wr k w
  else if bit w 0 then
    if s.fbOwner n < 256 ∧ s.fbRanges n w ∧ s.serOk n w then (s.wr k w).updFb n (·.start s.now) else fbFlag s n 0x100
  else s.wr k w

/-! EMU outputs (R410 to R416). -/

def emuFlag (s : State) (e mask : Nat) : State := flag s (emuKey e 0xC) mask
/-- SRC_SUSPECT while the source is suspect or in fault (R416). -/
def emuSuspect (s : State) (e n : Nat) : State :=
  let f := s.fb n
  if (f.suspect || f.fault) && !s.bitAt (emuKey e 0xC) 1 then emuFlag s e 2 else s
/-- SRC_SUSPECT of every enabled EMU output of a source (R416). -/
def emuSuspects (s : State) (n : Nat) : State :=
  (List.range 8).foldl (fun s e =>
    if s.bitAt (emuKey e 0) 0 && s.fld (emuKey e 0) 1 6 == n then emuSuspect s e n else s) s
/-- A pulse is due 8 ticks after its edge: emitted, or dropped when it comes too soon (R412, R413). -/
def emuPulse (s : State) (e : Nat) : State :=
  let x := s.emu e
  let t := s.now + 8
  let w := s.fld (emuKey e 8) 0 16
  if (x.rise.map fun r => decide (t < r + 2 * w)).getD false then emuFlag (count s (emuKey e 0x18)) e 1
  else
    let s := count (s.setEmu e { x with high := true, rise := some t }) (emuKey e 0x14)
    camsOfEmu (latchEvent s [4] e t (s.rd (emuKey e 0x14))) e t
/-- A counted edge of a source reaches an EMU output (R411, R412). -/
def emuEdge (s : State) (e n : Nat) (up : Bool) : State :=
  if !s.bitAt (emuKey e 0) 0 || s.fld (emuKey e 0) 1 6 != n then s
  else
    let s := emuSuspect s e n
    let x := s.emu e
    if x.suspended then s
    else
      let acc := if up == !s.bitAt (emuKey e 0) 7 then x.e + oneCount else x.e - oneCount
      let d : Int := s.rd (emuKey e 4)
      if d ≤ acc then emuPulse (s.setEmu e { x with e := acc - d }) e else s.setEmu e { x with e := acc }
/-- Every EMU output at a counted edge. -/
def emusOf (s : State) (n : Nat) (up : Bool) : State := (List.range 8).foldl (fun s e => emuEdge s e n up) s
/-- A write of `EMU_CFG` (R410, R420). -/
def writeEmuCfg (s : State) (e w : Nat) : State :=
  let k := emuKey e 0
  let w := w % 512
  let src := bits w 1 6
  let own := ownerBy (s.hasEmu · e)
  if s.mode = .run then s
  else if s.bitAt k 0 then
    if w / 2 != s.rd k / 2 then emuFlag s e 4
    else if bit w 0 then s else (s.updEmu e fun x => { x with high := false }).wr k w
  else if bit w 0 then
    if src < 40 ∧ s.fbMode src < 2 ∧ 65536 ≤ s.rd (emuKey e 4) ∧ own < 256 ∧ (s.hasFb own src ∨ s.hasFbs own src) then
      emuSuspect ((s.wr k w).setEmu e Emu.reset) e src
    else emuFlag s e 4
  else s.wr k w
/-- A pulse ends WIDTH ticks after it rose. -/
def emuFall (s : State) (e : Nat) : State :=
  let x := s.emu e
  if (x.rise.map fun r => decide (r + s.fld (emuKey e 8) 0 16 ≤ s.now)).getD false then s.setEmu e { x with high := false }
  else s

/-! Counted edges. -/

/-- Positions older than the longest span are not needed any more, but for the newest of them. -/
def prune (limit : Nat) : List (Nat × Int) → List (Nat × Int)
  | [] => []
  | e :: l => if e.1 < limit then [e] else e :: prune limit l
/-- An edge is counted (R379, R386): position, history, standstill (R407), and the EMU outputs. -/
def fbCount (s : State) (n : Nat) (up : Bool) : State :=
  let f := s.fb n
  let pos := wrap64 (if up then f.pos + oneCount else f.pos - oneCount)
  let s := s.setFb n
    { f with
      pos := pos
      pts := (s.now, pos) :: f.pts
      edges := ((s.now, up) :: f.edges).take 8
      still := f.still && f.stillDir != some up
      stillDir := some up
      lastMove := s.now }
  emusOf s n up

/-! Quadrature (R379 to R385). -/

/-- The place of (A, B) in the order 00, 10, 11, 01. -/
def quadIx (a b : Bool) : Nat := if a then (if b then 2 else 1) else (if b then 3 else 0)
/-- An edge of A or B (R379, R380). -/
def quadEdge (s : State) (n : Nat) (a b : Bool) : State :=
  let f := s.fb n
  let changed := b2n (f.a != a) + b2n (f.b != b)
  if changed = 0 then s
  else if !s.fbOn n || s.fbMode n != 0 then s.setFb n { f with a := a, b := b }
  else
    let fast := changed == 2 || (f.lastAB.map fun p => decide (s.now - p < s.fld (fbKey n 4) 0 12)).getD false
    let s := s.setFb n { f with a := a, b := b, lastAB := some s.now }
    if fast then
      emuSuspects (fbSuspect (fbFlag (count s (fbKey n 0x4C)) n 1) n) n
    else
      let up := (quadIx a b + 4 - quadIx f.a f.b) % 4 == 1
      fbCount s n (up != s.bitAt (fbKey n 0) 3)
/-- The index error e of R383. -/
def idxErr (offset cpr : Nat) (pz : Int) : Int :=
  let m : Int := ((offset : Int) - pz) % (cpr : Int)
  if (cpr : Int) < 2 * m then m - cpr else m
/-- A re-reference (R383, R384). -/
def reReference (s : State) (n : Nat) : State :=
  let f := s.fb n
  let cpr := s.rd (fbKey n 8)
  let e := idxErr (s.rd (fbKey n 0xC)) cpr (f.pos / oneCount)
  let pos := wrap64 (f.pos + e * oneCount)
  let bad := s.fld (fbKey n 0) 4 2 == 2 && !f.suspect && decide ((s.fld (fbKey n 0x10) 0 16 : Int) < e.natAbs)
  let s := (s.setFb n { f with pos := pos, pts := (s.now, pos) :: f.pts, suspect := false, homed := true }).wr (fbKey n 0x50)
    (unsigned 32 e)
  if bad then fbFlag (count s (fbKey n 0x54)) n 2 else s
/-- A rising edge of Z (R381, R382). -/
def indexEdge (s : State) (n : Nat) : State :=
  if !s.fbOn n || s.fbMode n != 0 then s
  else
    let f := s.fb n
    let early := (f.lastZ.map fun p => decide (s.now - p < s.fld (fbKey n 4) 0 12)).getD false
    let s := s.setFb n { f with lastZ := some s.now, indexSeen := f.indexSeen || !early }
    if early then count s (fbKey n 0x4C)
    else
      let zm := s.fld (fbKey n 0) 4 2
      if zm = 2 ∨ (zm = 1 ∧ (f.indexSeen = false ∨ f.suspect)) then reReference s n else s

/-! Hall (R386 to R389). -/

/-- The sector of a valid code. -/
def hallSector (code : Nat) : Option Nat := [1, 3, 2, 6, 4, 5].findIdx? (· == code)
/-- One sample of a Hall channel. -/
def hallSample (s : State) (n code : Nat) : State :=
  if !s.fbOn n || s.fbMode n != 1 then s
  else
    let f := s.fb n
    match hallSector code with
    | none => fbFlag (count (s.setFb n { f with impRun := f.impRun + 1, okRun := 0 }) (fbKey n 0x5C)) n 4
    | some sec =>
      let s := s.setFb n { f with impRun := 0, okRun := f.okRun + 1, sector := some sec }
      match f.sector with
      | none => s
      | some old =>
        let step := (sec + 6 - old) % 6
        if step = 0 then s
        else if step = 1 ∨ step = 5 then fbCount s n ((step == 1) != s.bitAt (fbKey n 0) 3)
        else emuSuspects (fbSuspect (fbFlag s n 16) n) n
/-- Eight impossible samples in a row (R388). -/
def hallFault (s : State) (n : Nat) : State :=
  let f := s.fb n
  if s.fbOn n && s.fbMode n == 1 && decide (8 ≤ f.impRun) && !f.fault then
    emuSuspects (fbFlag (s.setFb n { f with fault := true, suspect := true }) n 8) n
  else s
/-- Eight valid samples in a row (R388). -/
def hallClear (s : State) (n : Nat) : State :=
  let f := s.fb n
  if f.fault && decide (8 ≤ f.okRun) then s.setFb n { f with fault := false } else s

/-! Serial channels (R390 to R403). -/

/-- Bits of a raw word: 40 in ESS mode (Table 11-3). -/
def State.serBits (s : State) (n : Nat) : Nat := if s.fbMode n = 3 then 40 else s.fld (fbKey n 0x18) 0 6
/-- A transaction starts, or its slot is skipped (R390, R403). -/
def serStart (s : State) (n : Nat) : State :=
  if !s.fbOn n || s.fbMode n < 2 then s
  else
    let f := s.fb n
    if f.run.isSome then count s (fbKey n 0x58)
    else
      let delay := s.fld (fbKey n 0x24) 0 12
      let mem := f.mems.head?.bind fun m => (s.job? m.1).map fun j => (m.1, if j.d.op = 0xA2#8 then 3 else 4)
      let run : SerRun :=
        if s.fbMode n = 2 then { start := s.now, latch := s.now + delay, code := 0, job := none }
        else
          let code := if f.essStatus then 2 else (mem.map (·.2)).getD 1
          { start := s.now
            latch := s.now + 32 + delay
            code := code
            job := if f.essStatus then none else mem.map (·.1) }
      s.setFb n { f with run := some run, essStatus := f.essStatus && s.fbMode n == 2 }
/-- The descriptor served by a transaction that gave nothing: three attempts and it completes POSITION_SUSPECT (R419). -/
def memFail (s : State) (n : Nat) (job : Option Nat) : State :=
  match job with
  | none => s
  | some id =>
    let f := s.fb n
    let tries := ((f.mems.find? (·.1 == id)).map (·.2)).getD 0 + 1
    if 3 ≤ tries then
      let s := s.setFb n { f with mems := f.mems.filter (·.1 != id) }
      match s.job? id with
      | some j => complete s j 0x52 0
      | none => s
    else s.setFb n { f with mems := mapIf (·.1 == id) (fun m => (m.1, tries)) f.mems }
/-- A transaction is invalid (R394, R395); `fail` when it is a line failure (R396). -/
def serInvalid (s : State) (n : Nat) (fail : Bool) : State :=
  let f := s.fb n
  let job := f.run.bind (·.job)
  let s := s.setFb n
    { f with
      run := none
      invalid := true
      prevValid := false
      validRun := 0
      errRun := f.errRun + 1
      suspect := f.suspect || fail || decide (s.fld (fbKey n 0x18) 16 4 ≤ f.errRun + 1) }
  let s := fbFlag (count s (fbKey n 0x58)) n (if fail then 0xA0 else 0x20)
  memFail s n job
/-- A transaction is valid (R397). -/
def serValid (s : State) (n : Nat) : State :=
  let f := s.fb n
  let run := f.validRun + 1
  s.setFb n
    { f with
      run := none
      invalid := false
      prevValid := true
      validRun := run
      errRun := 0
      suspect := f.suspect && decide (run < 16) }
/-- The raw difference of R393, mapped into (−2^(B−1), 2^(B−1)]. -/
def rawDiff (b new old : Nat) : Int :=
  let m : Nat := (new + 2 ^ b - old % 2 ^ b) % 2 ^ b
  if 2 ^ (b - 1) < m then (m : Int) - (2 ^ b : Nat) else m
/-- A raw word that passed its checks (R393, R394). -/
def serWord (s : State) (n raw : Nat) : State :=
  let f := s.fb n
  let frac := s.fld (fbKey n 0x18) 8 5
  let latch := (f.run.map (·.latch)).getD s.now
  match f.raw with
  | none =>
    let pos := wrap64 (raw * (2 ^ (16 - frac) : Nat) : Nat)
    serValid (s.setFb n
      { f with
        raw := some raw
        pos := pos
        pts := (latch, pos) :: f.pts
        sers := [(latch, pos)] }) n
  | some old =>
    let d := rawDiff (s.serBits n) raw old
    let mx := s.rd (fbKey n 0x28)
    if mx ≠ 0 ∧ f.prevValid ∧ mx * 2 ^ frac < d.natAbs then serInvalid s n false
    else
      let pos := wrap64 (f.pos + d * (2 ^ (16 - frac) : Nat))
      serValid (s.setFb n
        { f with
          raw := some raw
          pos := pos
          pts := (latch, pos) :: f.pts
          sers := ((latch, pos) :: f.sers).take 2
          still := f.still && d == 0
          lastMove := if d = 0 then f.lastMove else s.now }) n
/-- Gray code of b bits to binary (R398). -/
def unGray : Nat → Nat → Nat
  | 0, _ => 0
  | b + 1, g => g ^^^ unGray b (g / 2)
/-- CRC-16, polynomial 0x1021, no reflection: k bits of one byte still to run. -/
def crcBits : Nat → Nat → Nat
  | 0, r => r
  | k + 1, r => crcBits k (if 0x8000 ≤ r then (r * 2 % 65536) ^^^ 0x1021 else r * 2)
/-- The CRC of Table 11-3 over bytes. -/
def crc16 : Nat → List Byte → Nat
  | r, [] => r
  | r, b :: l => crc16 (crcBits 8 (r ^^^ (b.toNat * 256))) l
/-- The length of a response (Table 11-3). -/
def essLen (code : Nat) : Nat := if code = 1 then 8 else if code = 2 ∨ code = 3 then 7 else 3
/-- An ESS response as received (R394, R401, R403, R419). -/
def essDone (s : State) (n : Nat) (r : SerRun) (bs : List Byte) (bad : Bool) : State :=
  let len := essLen r.code
  let body := bs.take (len - 2)
  if bad || bs.length != len || crc16 0xFFFF body != leNat (bs.drop (len - 2)) then serInvalid s n false
  else
    let st := leNat (bs.take 1)
    let s := s.updFb n fun f => { f with warn := bit st 5 }
    if st % 16 ≠ r.code then serInvalid s n false
    else
      let s := if r.code = 2 then s.wr (fbKey n 0x60) (leNat ((bs.drop 1).take 4)) else s
      if bit st 4 then serInvalid (s.updFb n fun f => { f with essStatus := true }) n false
      else if r.code = 1 then serWord s n (leNat ((bs.drop 1).take 5))
      else
        let s := serValid s n
        match r.job.bind s.job? with
        | some j =>
          let s := s.updFb n fun f => { f with mems := f.mems.filter (·.1 != j.id) }
          complete s j 0 (st + if r.code = 3 then 2 ^ 32 * leNat ((bs.drop 1).take 4) else 0)
        | none => s
/-- A transaction ends. -/
def serDone (s : State) (n : Nat) (rx : SerRx) : State :=
  match (s.fb n).run, rx with
  | some r, .ssi low word parity =>
    if r.code ≠ 0 then s
    else if low then serInvalid s n true
    else
      let b := s.serBits n
      let w := word % 2 ^ b
      if s.bitAt (fbKey n 0x18) 7 && (popcount b w + b2n parity) % 2 == 1 then serInvalid s n false
      else serWord s n (if s.bitAt (fbKey n 0x18) 6 then unGray b w else w)
  | some r, .ess bytes framing late => if r.code = 0 then s else essDone s n r bytes (framing || late)
  | none, _ => s
/-- No start bit within RESP_TIMEOUT (R396, R402). -/
def startTimeout (s : State) (n : Nat) (low : Bool) : State :=
  match (s.fb n).run with
  | some r => if r.code = 0 then s else serInvalid (fbFlag s n 0x40) n low
  | none => s

/-- No counted edge or change of position for STILL ticks (R407). -/
def fbStill (s : State) (n : Nat) : State :=
  let f := s.fb n
  if s.fbOn n && decide (f.lastMove + s.fld (fbKey n 0x2C) 0 24 ≤ s.now) then
    s.setFb n { f with still := true, stillDir := none }
  else s

/-! Snapshot, speed and history (R377, R378, R404 to R406, R409, R418). -/

/-- The newest position true at or before a tick, with its time. -/
def posAt (t : Nat) : List (Nat × Int) → Nat × Int
  | [] => (0, 0)
  | [e] => e
  | e :: l => if e.1 ≤ t then e else posAt t l
/-- Speed by the period method (R404). -/
def periodSpeed (edges : List (Nat × Bool)) (most len now : Nat) : Rat :=
  match edges with
  | [] => 0
  | (ta, up) :: l =>
    let same := (l.takeWhile (·.2 == up)).take most
    match same.getLast? with
    | none => 0
    | some tb =>
      let v := mkRat (same.length * len) (ta - tb.1)
      let v := if ta < now then ratMin v (mkRat len (now - ta)) else v
      if up then v else -v
/-- FB_SET_POS takes effect (R409). -/
def applySetPos (now : Nat) (f : Fb) : Fb :=
  f.setPos.foldl (fun f x =>
    if x.1 then { f with suspect := false }
    else
      { f with
        suspect := false
        pos := x.2
        pts := (now, x.2) :: f.pts
        sers := f.sers.map fun e => (e.1, wrap64 (e.2 + x.2 - f.pos)) }) { f with setPos := [] }
/-- The speed of a snapshot in Q40.24 and the method it used. -/
def fbSpeed (f : Fb) (mode len now : Nat) : Int × Bool :=
  if 2 ≤ mode then
    let v : Int := match f.sers with
      | a :: b :: _ => if b.1 < a.1 then satS 64 (divRound (posDiff a.2 b.2 * 256 * len) (a.1 - b.1)) else 0
      | _ => 0
    (if f.still then 0 else v, true)
  else
    let dp := posDiff f.pos f.snapPos
    let m := if f.countMethod then decide (48 * 65536 ≤ dp.natAbs) else decide (64 * 65536 ≤ dp.natAbs)
    let v := if m then satS 64 (dp * 256) else toVel (periodSpeed f.edges (if mode = 0 then 4 else 6) len now)
    (if f.still then 0 else v, m)
/-- The eight history entries of a snapshot, newest first (R378). -/
def fbHistory (f : Fb) (mode len now : Nat) : List (Nat × Int) :=
  (List.range 8).map fun i =>
    let t := now - i * (len / 8)
    let e := posAt t f.pts
    if mode < 2 then (t, e.2) else e
/-- FB_STATE (Table 11-7). -/
def Fb.stateWord (f : Fb) : Nat :=
  b2n f.suspect + 2 * b2n f.fault + 4 * b2n f.still + 8 * b2n f.countMethod + 16 * b2n f.homed + 32 * f.sector.getD 0 +
    256 * b2n f.invalid + 512 * b2n f.warn
/-- The streams of a channel due in this span (R418). -/
def fbStreams (s : State) (n : Nat) (hist : List (Nat × Int)) : State :=
  let f := s.fb n
  (f.streams.filter fun x => (s.tb.spanIx - x.first) % max 1 x.every == 0).foldl (fun s x =>
    offerNow s x.tenant x.queue 3 n
      (leBytes 8 (unsigned 64 f.snapVel) ++ leBytes 2 f.stateWord ++ leBytes 4 (s.tb.spanIx % 2 ^ 32) ++ leBytes 2 0 ++
        hist.reverse.flatMap fun e => leBytes 8 (unsigned 64 e.2) ++ leBytes 8 e.1)) s
/-- A channel takes its snapshot at the sample instant. -/
def fbSnapshot (s : State) (n : Nat) : State :=
  if !s.fbOn n then s
  else
    let mode := s.fbMode n
    let f := applySetPos s.now (s.fb n)
    let v := fbSpeed f mode s.tb.len s.now
    let h := fbHistory f mode s.tb.len s.now
    let s := s.setFb n
      { f with
        countMethod := v.2
        snapPos := f.pos
        snapVel := v.1
        snapTime := s.now
        snapped := true
        pts := prune (s.now - 40000) f.pts
        hist := (h ++ f.hist).take 48 }
    latchesOf (fbStreams s n h) n s.now

/-! The feedback and EMU opcodes (Table 11-5). -/

/-- Whether a channel is the feedback of a pier whose loops are enabled (R409). -/
def State.fbOfLivePier (s : State) (n : Nat) : Bool :=
  (List.range 32).any fun p =>
    let m := (s.pier p).mode
    (m == .torque || m == .velocity || m == .position) && (s.fld (pierKey p 4) 0 6 == n || s.fld (pierKey p 4) 8 6 == n)
def fbSetPosCheck (s : State) (d : Desc) : Verdict :=
  firstFail [(badFormat d (pm 0 1 ||| pb 1 1 ||| pm 4 8) false || decide (40 ≤ d.p 0 1), 0x14, 0),
    (!s.hasFb d.tenant (d.p 0 1), 0x11, 0),
    (!bit (d.p 1 1) 0 && s.fbOfLivePier (d.p 0 1), 0x13, 0)]
def doFbSetPos (s : State) (d : Desc) : State :=
  s.updFb (d.p 0 1) fun f => { f with setPos := f.setPos ++ [(bit (d.p 1 1) 0, d.pS 4 8)] }
def fbStreamCheck (s : State) (d : Desc) : Verdict :=
  firstFail [(badFormat d (pm 0 3) false || decide (40 ≤ d.p 0 1) || decide (64 ≤ d.p 1 1) ||
      s.qKind d.tenant (d.p 1 1) != 3, 0x14, 0),
    (!s.hasFb d.tenant (d.p 0 1) && !s.hasFbs d.tenant (d.p 0 1), 0x11, 0)]
/-- FB_STREAM: one stream for each tenant of a channel; N = 0 ends it (R418). -/
def doFbStream (s : State) (d : Desc) : State :=
  s.updFb (d.p 0 1) fun f =>
    let rest := f.streams.filter (·.tenant != d.tenant.val)
    let first := if s.now < s.tb.boundary + s.tb.offset then s.tb.spanIx else s.tb.spanIx + 1
    { f with
      streams := if d.p 2 1 = 0 then rest
        else rest ++ [{ tenant := d.tenant, queue := d.p 1 1, every := d.p 2 1, first := first }] }
def fbEssCheck (named : Nat) (write : Bool) (s : State) (d : Desc) : Verdict :=
  firstFail [(badFormat d named false || decide (40 ≤ d.p 0 1) || s.fbMode (d.p 0 1) != 3, 0x14, 0),
    (!s.hasFb d.tenant (d.p 0 1), 0x11, 0), (!s.expert d.tenant, 0x15, 0), (write && s.mode == .run, 0x13, 0)]
/-- FB_ESS_READ and FB_ESS_WRITE wait for a slot (R403, R419). -/
def fbEssStart (s : State) (j : Job) : State :=
  (keep s { j with phase := .active }).updFb (j.d.p 0 1) fun f => { f with mems := f.mems ++ [(j.id, 0)] }
def emuCheck (named : Nat) (s : State) (d : Desc) : Verdict :=
  firstFail [(badFormat d named false || decide (8 ≤ d.p 0 1), 0x14, 0), (!s.hasEmu d.tenant (d.p 0 1), 0x11, 0)]
/-- EMU_START (R414, R416). -/
def emuStart (s : State) (j : Job) : State :=
  let e := j.d.p 0 1
  let f := s.fb (s.fld (emuKey e 0) 1 6)
  if f.suspect || f.fault then complete (emuFlag s e 2) j 0x52 0
  else
    let d : Int := s.rd (emuKey e 4)
    let diff := posDiff f.pos (j.d.pS 4 8)
    let diff := if s.bitAt (emuKey e 0) 7 then -diff else diff
    let acc := if diff < 0 then diff + d else if d = 0 then diff else diff % d
    complete (s.updEmu e fun x => { x with e := acc, suspended := false }) j 0 0
def doEmuStop (s : State) (d : Desc) : State := s.updEmu (d.p 0 1) fun x => { x with suspended := true }

/-! The commands. -/

/-- FB_ENABLE (R375). -/
def execFbEnable (t : Nat) (n : Fin 40) (value : Word) (s : State) : Host.Outcome State Fault Refusal :=
  act s fun s => writeFbCfg (advance s t) n (value.toNat ||| 1)
/-- QUADRATURE_EDGE (R379, R380). -/
def execQuadratureEdge (t : Nat) (n : Fin 40) (a b : Bool) (s : State) : Host.Outcome State Fault Refusal :=
  act s fun s => quadEdge (advance s t) n a b
/-- EMU_PULSE_END (R412). -/
def execEmuPulseEnd (t : Nat) (e : Fin 8) (s : State) : Host.Outcome State Fault Refusal :=
  act s fun s => emuFall (advance s t) e
/-- INDEX_EDGE (R381 to R384). -/
def execIndexEdge (t : Nat) (n : Fin 40) (s : State) : Host.Outcome State Fault Refusal :=
  act s fun s => indexEdge (advance s t) n
/-- HALL_FAULT (R388). -/
def execHallFault (t : Nat) (n : Fin 40) (s : State) : Host.Outcome State Fault Refusal :=
  act s fun s => hallFault (advance s t) n
/-- HALL_FAULT_CLEAR (R388). -/
def execHallFaultClear (t : Nat) (n : Fin 40) (s : State) : Host.Outcome State Fault Refusal :=
  act s fun s => hallClear (advance s t) n
/-- SERIAL_TRANSACTION_START (R390, R399, R403). -/
def execSerialTransactionStart (t : Nat) (n : Fin 40) (s : State) : Host.Outcome State Fault Refusal :=
  act s fun s => serStart (advance s t) n
/-- SERIAL_TRANSACTION_DONE (R393 to R401). -/
def execSerialTransactionDone (t : Nat) (n : Fin 40) (rx : SerRx) (s : State) : Host.Outcome State Fault Refusal :=
  act s fun s => serDone (advance s t) n rx
/-- START_TIMEOUT (R402). -/
def execStartTimeout (t : Nat) (n : Fin 40) (lineLow : Bool) (s : State) : Host.Outcome State Fault Refusal :=
  act s fun s => startTimeout (advance s t) n lineLow
/-- STILL (R407). -/
def execStill (t : Nat) (n : Fin 40) (s : State) : Host.Outcome State Fault Refusal :=
  act s fun s => fbStill (advance s t) n
/-- FB_SET_POS (R409). -/
def execFbSetPos (t : Nat) (d : Desc) (s : State) : Host.Outcome State Fault Refusal :=
  act s fun s => runOp s t 0xA0 d fbSetPosCheck (andDone doFbSetPos)
/-- FB_STREAM (R418). -/
def execFbStream (t : Nat) (d : Desc) (s : State) : Host.Outcome State Fault Refusal :=
  act s fun s => runOp s t 0xA1 d fbStreamCheck (andDone doFbStream)
/-- FB_ESS_READ (R419). -/
def execFbEssRead (t : Nat) (d : Desc) (s : State) : Host.Outcome State Fault Refusal :=
  act s fun s => runOp s t 0xA2 d (fbEssCheck (pm 0 2) false) fbEssStart
/-- FB_ESS_WRITE (R419). -/
def execFbEssWrite (t : Nat) (d : Desc) (s : State) : Host.Outcome State Fault Refusal :=
  act s fun s => runOp s t 0xA3 d (fbEssCheck (pm 0 2 ||| pm 4 4) true) fbEssStart
/-- EMU_ENABLE (R410). -/
def execEmuEnable (t : Nat) (e : Fin 8) (value : Word) (s : State) : Host.Outcome State Fault Refusal :=
  act s fun s => writeEmuCfg (advance s t) e (value.toNat ||| 1)
/-- EMU_START (R414). -/
def execEmuStart (t : Nat) (d : Desc) (s : State) : Host.Outcome State Fault Refusal :=
  act s fun s => runOp s t 0xA4 d (emuCheck (pm 0 1 ||| pm 4 8)) emuStart
/-- EMU_STOP (R414). -/
def execEmuStop (t : Nat) (d : Desc) (s : State) : Host.Outcome State Fault Refusal :=
  act s fun s => runOp s t 0xA5 d (emuCheck (pm 0 1)) (andDone doEmuStop)

end Sys2Proof.Machine
end

