-- ==== Sys2Proof/Machine/Pwm.lean ====
section
/-!
DEFINITION. PWM channels and switches (chapter 15; R21 to R30): periods, compare values, publication, dead time and the
interlock. Trips and the opcodes follow in Trips.lean.
-/
namespace Sys2Proof.Machine

/-! Channels and stages. -/

/-- The number of a PWM channel. -/
def chanKey : PwmChan → Nat
  | .bridge g leg => 4 * g.val + leg.val
  | .pwmx n leg => 64 + 3 * n.val + leg.val
  | .aux a => 160 + a.val
/-- The number of a stage: bridge groups 0 to 15, PWMX sets 16 to 47. -/
def stageKey : StageId → Nat
  | .bridge g => g.val
  | .pwmx n => 16 + n.val
/-- The stage of a channel below 160, and the leg within it. -/
def stageOf (ch : Nat) : Nat := if ch < 64 then ch / 4 else 16 + (ch - 64) / 3
def legOf (ch : Nat) : Nat := if ch < 64 then ch % 4 else (ch - 64) % 3
/-- The channels of a stage. -/
def chansOf (st : Nat) : List Nat :=
  if st < 16 then [4 * st, 4 * st + 1, 4 * st + 2, 4 * st + 3]
  else [64 + 3 * (st - 16), 64 + 3 * (st - 16) + 1, 64 + 3 * (st - 16) + 2]
/-- The footing that carries a group, or whose GD_EN pin serves a PWMX set (R571). -/
def footOf (st : Nat) : Nat := if st < 16 then st / 8 else (st - 16) / 16

/-- What drives a group (Table 15-2). -/
inductive GroupSrc where
  | none
  | pier (p : Nat)
  | sg (n : Nat)
  | raw
  | block
  deriving DecidableEq, Repr

/-- The pier bound to a group. -/
def State.pierOfGroup (s : State) (g : Nat) : Option Nat :=
  (List.range 16).find? fun p => !s.bitAt (pierKey p 0) 0 && s.fld (pierKey p 0) 1 4 == g
/-- The step generator bound to a group. -/
def State.sgOfGroup (s : State) (g : Nat) : Option Nat :=
  (List.range 16).find? fun n => !s.bitAt (sgKey n 0) 0 && s.fld (sgKey n 0) 1 4 == g
/-- The source of a group. A group with nothing bound counts as raw once a raw compare has been written. -/
def State.groupSrc (s : State) (g : Nat) : GroupSrc :=
  match s.pierOfGroup g, s.sgOfGroup g with
  | some p, _ => .pier p
  | _, some n => .sg n
  | _, _ =>
    if s.bitAt (bgKey g 0) 0 then .block
    else if (chansOf g).any fun c => (s.pwm c).shadow != .off || (s.pwm c).active != .off then .raw
    else .none

/-- The ratios of R424. -/
def ratioOf (code : Nat) : Nat := nth [1, 2, 3, 4, 6, 8, 1, 1] code
/-- The ratio k a channel's registers ask for (Table 15-1). -/
def State.ratioNow (s : State) (ch : Nat) : Nat :=
  if 160 ≤ ch then (s.aux (ch - 160)).k
  else if 64 ≤ ch then ratioOf (s.fld (pierKey ((ch - 64) / 3) 0) 5 3)
  else match s.groupSrc (ch / 4) with
    | .pier p => ratioOf (s.fld (pierKey p 0) 5 3)
    | .sg n => ratioOf (s.fld (sgKey n 0) 9 3)
    | _ => ratioOf (s.fld (bgKey (ch / 4) 0) 1 3)
/-- The resolution step of a channel in 1/64 tick (R547). -/
def State.chanStep (s : State) (ch : Nat) : Nat :=
  if 160 ≤ ch then 64
  else if 64 ≤ ch then (if ch < 64 + 48 then 1 else 64)
  else if ch % 4 = 3 then 64
  else match s.groupSrc (ch / 4) with
    | .pier _ => 1
    | _ => 64
/-- The owner of a channel. -/
def State.chanOwner (s : State) (ch : Nat) : Nat :=
  if 160 ≤ ch then ownerBy (s.hasAux · (ch - 160)) else if 64 ≤ ch then s.pierOwner ((ch - 64) / 3) else s.bgOwner (ch / 4)

/-! Flags of a stage. -/

/-- A flag of BG_STATUS or PWMX_STATUS (the bits agree). -/
def stageFlag (s : State) (st mask : Nat) : State :=
  flag s (if st < 16 then bgKey st 0x24 else pxKey (st - 16) 0xC) mask
/-- Trip, shoot-through and clear-denied counters of a stage. -/
def stTripCnt (st : Nat) : Nat := if st < 16 then bgKey st 0x2C else pxKey (st - 16) 0x14
def stShootCnt (st : Nat) : Nat := if st < 16 then bgKey st 0x30 else pxKey (st - 16) 0x18
def stDeniedCnt (st : Nat) : Nat := if st < 16 then bgKey st 0x3C else pxKey (st - 16) 0x1C
/-- Dead time of a stage in ticks (R556). -/
def State.deadOf (s : State) (st : Nat) : Nat := if st < 16 then s.fld (bgKey st 4) 0 12 else s.fld (pxKey (st - 16) 0) 4 12
/-- ST_COUNT and ST_WINDOW of a stage (R558). -/
def State.stCfg (s : State) (st : Nat) : Nat × Nat :=
  let w := if st < 16 then s.rd (bgKey st 0x14) else s.rd (pxKey (st - 16) 4)
  (bits w 0 4, bits w 8 24)

/-! Publication (R21 to R28). -/

/-- Write a channel's shadow set. -/
def setShadow (s : State) (ch : Nat) (c : Cmp) : State := s.updPwm ch fun x => { x with shadow := c }
/-- Copy one channel's shadow set into its pending set. -/
def takePending (s : State) (ch : Nat) (basic : Bool) : State :=
  let x := s.pwm ch
  if x.shadow = x.active ∧ x.pending = none then s
  else s.setPwm ch { x with pending := some (x.shadow, s.now, basic) }
/-- Load-all for every channel of a tenant but those to skip (R21, R24, R37). -/
def loadAll (s : State) (tn : Nat) (basic : Bool) (skip : Nat → Bool) : State :=
  (List.range 176).foldl (fun s ch => if s.chanOwner ch = tn ∧ skip ch = false then takePending s ch basic else s) s
/-- A pending generation moves to active at a period start: Keystone's at the boundary (R21, R23), a tenant's at the first
start 32 ticks or more after it (R26). -/
def Pwm.publish (x : Pwm) (now : Nat) (first : Bool) : Pwm :=
  match x.pending with
  | some (c, t, basic) => if (if basic then first else decide (t + 32 ≤ now)) then { x with active := c, pending := none } else x
  | none => x

/-! Compare values (R548 to R553). -/

/-- The on-interval of a pair within a period, all in 1/64 tick: none when it is shorter than a step (R550, R551). -/
def onInterval (on off p step : Nat) : Option (Nat × Nat) :=
  let e := min off p
  if e < on + step then none else some (on, e)
/-- A centred pair for a duty (R553): ON rounded to the step with halves up. -/
def dutyOn (d : Rat) (p step : Nat) : Nat :=
  let x : Rat := (p : Rat) * (1 - d) / 2 / (step : Rat)
  (x + mkRat 1 2).floor.toNat * step
/-- Whether τ lies in an interval. -/
def inside (τ : Nat) : Option (Nat × Nat) → Bool
  | some (a, b) => decide (a ≤ τ) && decide (τ < b)
  | none => false
/-- The interval of the high command, and of the low one in INDEPENDENT mode. -/
def Cmp.high (c : Cmp) (p step : Nat) : Option (Nat × Nat) :=
  match c with
  | .duty d => let on := dutyOn d p step; onInterval on (p - on) p step
  | .pair a b => onInterval (a / step * step) (b / step * step) p step
  | .two a b _ _ => onInterval (a / step * step) (b / step * step) p step
  | .fill d => onInterval 0 ((2 * d * (p / 64) + 65536) / 131072 * 64) p step
  | _ => none
/-- The commands h and l at time τ of a period (R550, R552). -/
def Cmp.commands (c : Cmp) (p step τ : Nat) : Bool × Bool :=
  match c with
  | .off => (false, false)
  | .low => (false, true)
  | .two _ _ x y => (inside τ (c.high p step), inside τ (onInterval (x / step * step) (y / step * step) p step))
  | _ => let h := inside τ (c.high p step); (h, !h)
/-- When the high or low command that is on at τ ends in its period (R555). -/
def Cmp.endOf (c : Cmp) (high : Bool) (p step τ : Nat) : Nat :=
  let hi := c.high p step
  if high then (hi.map (·.2)).getD τ
  else match c with
    | .two _ _ x y => ((onInterval (x / step * step) (y / step * step) p step).map (·.2)).getD τ
    | .low => p
    | _ => match hi with
      | some (a, _) => if τ < a then a else p
      | none => p

/-! Block commutation (R564 to R567, Table 15-3). -/

/-- The PWM leg and the low leg of a sector, DIR = 0. -/
def blockLegs (sector : Nat) : Nat × Nat :=
  match sector with
  | 0 => (0, 2)
  | 1 => (1, 2)
  | 2 => (1, 0)
  | 3 => (2, 0)
  | 4 => (2, 1)
  | _ => (0, 1)
/-- What a leg of a block-commutation group runs. -/
def State.blockCmp (s : State) (g leg : Nat) : Cmp :=
  let x := s.stage g
  let r := blockLegs x.sector
  let r := if s.bitAt (bgKey g 0) 4 then (r.2, r.1) else r
  if x.ginNone || !x.ginValid then .off else if leg = r.1 then .fill x.duty else if leg = r.2 then .low else .off

/-! Switches (R554 to R561). -/

/-- Whether a pier's or generator's legs may be driven. -/
def State.srcLive (s : State) (g : Nat) : Bool :=
  match s.groupSrc g with
  | .pier p => (s.pier p).mode != .disabled && (s.pier p).mode != .fault
  | .sg n => (s.sg n).enabled && !(s.sg n).fault
  | _ => true
/-- Whether a stage's legs are in the off state whatever the commands say: a fault (R569), GD_EN low (R573), a device mode
that forces them off (Table 17-5), Parapet's gate-off (R631), a source that is not live (R426, R540), PWMX pins not driven
(R560). -/
def State.stageOff (s : State) (st : Nat) : Bool :=
  (s.stage st).fault || !(s.footing (footOf st)).gdHigh || !s.motionMode || s.power.gateHold ||
    (if st < 16 then !s.srcLive st
     else !s.bitAt (pxKey (st - 16) 0) 1 || !s.bitAt (pierKey (st - 16) 0) 0 ||
       (s.pier (st - 16)).mode == .disabled || (s.pier (st - 16)).mode == .fault)
/-- Every switch of a stage goes off (R559). -/
def legsOff (s : State) (st : Nat) : State :=
  (chansOf st).foldl (fun s c =>
    let x := s.pwm c
    s.setPwm c
      { x with
        hOff := if x.h then 64 * s.now else x.hOff
        lOff := if x.l then 64 * s.now else x.lOff
        edgeAt := if x.hSw || x.lSw then s.now else x.edgeAt
        hSw := false
        lSw := false
        h := false
        l := false }) s
/-- Force a command by a mask code: 1 off, 2 on (R584). -/
def maskCmd (code : Nat) (c : Bool) : Bool := if code = 1 then false else if code = 2 then true else c

/-- The chopper of a step generator's coil in strong mode: slow decay ends after OFF_TIME; the coil is driven towards its
setpoint until its current reaches it after BLANK (chapter 14). -/
def chopStep (s : State) (n : Nat) (second : Bool) (setQ sense : Int) : State :=
  let x := s.sg n
  let cfg := s.rd (sgKey n 0x18)
  let decay := if second then x.chopB else x.chopA
  let since := if second then x.driveB else x.driveA
  let r : Option Nat × Nat := match decay with
    | some e => if e ≤ s.now then (none, s.now) else (some e, since)
    | none =>
      if since + bits cfg 16 12 ≤ s.now ∧ setQ.natAbs ≤ sense.natAbs then (some (s.now + bits cfg 0 12), since) else (none, since)
  s.setSg n (if second then { x with chopB := r.1, driveB := r.2 } else { x with chopA := r.1, driveA := r.2 })
/-- The commands of an H-bridge leg under the chopper. -/
def chopCmd (decay : Option Nat) (setQ : Int) (first : Bool) : Bool × Bool :=
  match decay with
  | some _ => (false, true)
  | none => if setQ = 0 then (false, false) else if (0 < setQ) == first then (true, false) else (false, true)

/-- The new switch states of a channel from its commands: dead time, minimum on-interval and bootstrap (R554, R555, R561).
The last part says that the bootstrap supply was too low. -/
def Pwm.drive (x : Pwm) (t64 dead64 step p : Nat) (cmp : Cmp) (h l bootOk : Bool) : Pwm × Bool :=
  let hOff := if x.h && !h then t64 else x.hOff
  let lOff := if x.l && !l then t64 else x.lOff
  let τ := t64 - x.start * 64
  let hOn := h && !l && decide (lOff + dead64 ≤ t64) && (x.hSw || decide (τ + step ≤ cmp.endOf true p step τ))
  let lOn := l && !h && decide (hOff + dead64 ≤ t64) && (x.lSw || decide (τ + step ≤ cmp.endOf false p step τ))
  let bad := hOn && !x.hSw && !bootOk && !x.bootBlock
  let hNew := hOn && !(x.bootBlock || bad)
  ({ x with
      hOnAt := if hNew && !x.hSw then t64 / 64 else x.hOnAt
      lOnAt := if lOn && !x.lSw then t64 / 64 else x.lOnAt
      edgeAt := if hNew != x.hSw || lOn != x.lSw then t64 / 64 else x.edgeAt
      h := h
      l := l
      hOff := hOff
      lOff := lOff
      hSw := hNew
      lSw := lOn
      bootBlock := x.bootBlock || bad }, bad)

end Sys2Proof.Machine
end

