-- ==== Sys2Proof/Machine/Axes.lean ====
section
/-!
DEFINITION. Axis references that are the axis's own (chapter 13, R471 to R482; R453 to R457): single-axis profiles, jogs and
ramp-stops, the motion descriptor of an axis, and the limits of motion (R533, R534). Axes 0 to 31 are the piers, 32 to 47
the step generators.
-/
namespace Sys2Proof.Machine

/-! Planning (R476 to R479). Quantities are exact rationals in counts and spans; what is computed is rounded to binary64. -/

/-- A phase that holds the velocity it begins with for ever: a limit of 0 lets nothing move. -/
def endless : Leg := { dur := 18446744073709551616, acc := 0, jerk := 0 }
/-- The phases that change a velocity from `v` to `w` within acceleration `a` and jerk `j` (0: none), and their total time. -/
def velLegs (v w a j : Rat) : List Leg × Rat :=
  let d := ratAbs (w - v)
  let sg : Rat := ratSign (w - v)
  if d = 0 then ([], 0)
  else if j = 0 then
    let t := b64 (d / a)
    ([{ dur := t, acc := sg * a, jerk := 0 }], t)
  else if a * a / j ≤ d then
    let tj := b64 (a / j)
    let ta := b64 (d / a - a / j)
    ([{ dur := tj, acc := 0, jerk := sg * j }, { dur := ta, acc := sg * a, jerk := 0 }, { dur := tj, acc := sg * a, jerk := -(sg * j) }],
      2 * tj + ta)
  else
    let tj := b64 (ratSqrt (d / j))
    ([{ dur := tj, acc := 0, jerk := sg * j }, { dur := tj, acc := sg * j * tj, jerk := -(sg * j) }], 2 * tj)
/-- The distance those phases cover. -/
def velDist (v w a j : Rat) : Rat := b64 ((v + w) / 2 * (velLegs v w a j).2)
/-- The highest speed, between `lo` and `hi`, from which the target is still met, by bisection. -/
def peakSpeed (v d a dd j : Rat) : Nat → Rat → Rat → Rat
  | 0, lo, _ => lo
  | n + 1, lo, hi =>
    let m := b64 ((lo + hi) / 2)
    if velDist v m a j + velDist m 0 dd j ≤ d then peakSpeed v d a dd j n m hi else peakSpeed v d a dd j n lo m
/-- A move over a distance `d` ≥ 0 from a velocity `v` with 0 ≤ v ≤ V that still stops in it. -/
def forwardLegs (v d vmax a dd j : Rat) : List Leg :=
  let vp :=
    if velDist v vmax a j + velDist vmax 0 dd j ≤ d then vmax
    else if j = 0 then ratMax v (ratMin vmax (b64 (ratSqrt ((2 * a * dd * d + dd * v * v) / (a + dd)))))
    else peakSpeed v d a dd j 60 v vmax
  let rest := d - velDist v vp a j - velDist vp 0 dd j
  (velLegs v vp a j).1 ++ (if vp = 0 ∨ rest ≤ 0 then [] else [{ dur := b64 (rest / vp), acc := 0, jerk := 0 }]) ++
    (velLegs vp 0 dd j).1
/-- Phases mirrored. -/
def mirror (l : List Leg) : List Leg := l.map fun x => { x with acc := -x.acc, jerk := -x.jerk }
/-- A move over a signed distance: first whatever brings the velocity into 0 to V towards the target, then the move itself,
from the other side when the present velocity cannot stop short of it (R478). -/
def moveLegs (v0 d0 vmax a dd j : Rat) : List Leg :=
  if vmax = 0 ∨ a = 0 ∨ dd = 0 then [endless]
  else
    let neg := d0 < 0 || (d0 == 0 && v0 < 0)
    let v := if neg then -v0 else v0
    let d := ratAbs d0
    let w : Rat := if v < 0 then 0 else ratMin v vmax
    let lead := velLegs v w dd j
    let d := d - b64 ((v + w) / 2 * lead.2)
    let stop := velDist w 0 dd j
    let legs :=
      if stop ≤ d then lead.1 ++ forwardLegs w d vmax a dd j
      else lead.1 ++ (velLegs w 0 dd j).1 ++ mirror (forwardLegs 0 (stop - d) vmax a dd j)
    if neg then mirror legs else legs
/-- Bring an acceleration to 0 under a jerk limit: the phase, and the changes of position and velocity it makes. -/
def settleAcc (v a j : Rat) : List Leg × Rat × Rat :=
  if j = 0 ∨ a = 0 then ([], 0, v)
  else
    let t := b64 (ratAbs a / j)
    let jk : Rat := if a < 0 then j else -j
    ([{ dur := t, acc := a, jerk := jk }], b64 (v * t + a * t * t / 2 + jk * t * t * t / 6), b64 (v + a * t / 2))
/-- A profile to a target (R476). -/
def planMove (ix : Nat) (p v a : Rat) (target : Int) (vmax acc dec jerk : Rat) : Profile :=
  let first := settleAcc v a jerk
  let d := ofQ 16 target - (p + first.2.1)
  { from0 := ix
    p0 := p
    v0 := v
    legs := first.1 ++ moveLegs first.2.2 d vmax acc dec jerk
    target := some target }
/-- A change to a constant speed. -/
def planJog (ix : Nat) (p v speed acc : Rat) : Profile :=
  { from0 := ix, p0 := p, v0 := v, legs := if acc = 0 then [endless] else (velLegs v speed acc 0).1, target := none }

/-- Position, velocity and acceleration of planned phases at a time; none once they have ended. -/
def legsAt : List Leg → Rat → Rat → Rat → (Rat × Rat × Rat) × Bool
  | [], p, v, t => ((p + v * t, v, 0), true)
  | l :: ls, p, v, t =>
    if t < l.dur then ((p + v * t + l.acc * t * t / 2 + l.jerk * t * t * t / 6, v + l.acc * t + l.jerk * t * t / 2, l.acc + l.jerk * t), false)
    else legsAt ls (p + v * l.dur + l.acc * l.dur * l.dur / 2 + l.jerk * l.dur * l.dur * l.dur / 6)
      (v + l.acc * l.dur + l.jerk * l.dur * l.dur / 2) (t - l.dur)
/-- An acceleration in Q0.32. -/
def toAcc (q : Rat) : Int := toQ 32 q

/-- The next step of a ramp-stop (R480): exact position and velocity one span on. -/
def rampStep (p v dec : Rat) : Rat × Rat :=
  if ratAbs v ≤ dec then (if dec = 0 then (p, 0) else (p + v * ratAbs v / (2 * dec), 0))
  else
    let w := v - (ratSign v : Rat) * dec
    (p + (v + w) / 2, w)

/-! Axes. -/

/-- A generator's emitted position in Q48.16 of 1/256 full step (R521). -/
def State.sgPos (s : State) (n : Nat) : Int := wrap64 ((s.sg n).steps * (2 ^ (8 - s.fld (sgKey n 0) 5 4) : Nat) * 65536)
/-- The actual position of an axis: a pier's POS_CH snapshot, a generator's emitted position. -/
def State.actualPos (s : State) (a : Nat) : Int :=
  if a < 32 then (s.fb (s.fld (pierKey a 4) 0 6)).snapPos else s.sgPos (a - 32)
/-- The stop deceleration in counts per span² (R480, R541). -/
def State.stopDec (s : State) (a : Nat) : Rat :=
  if a < 32 then mkRat (s.axis a).stopDec 4294967296 else mkRat (s.rd (sgKey (a - 32) 0x20)) 4294967296
/-- The maximum speed in Q16.16 (R482, R523). -/
def State.maxSpeed (s : State) (a : Nat) : Nat :=
  if a < 32 then nth ((s.pier a).coef ++ []) 10 + (if (s.pier a).coef = [] then s.rd (pierKey a 0x70) else 0)
  else s.rd (sgKey (a - 32) 0x1C)
/-- Whether an axis is in a tenant's grant (R472). -/
def State.hasAxis (s : State) (tn a : Nat) : Bool := if a < 32 then s.hasPier tn a else s.hasSg tn (a - 32)
/-- The owner of an axis. -/
def State.axisOwner (s : State) (a : Nat) : Nat := if a < 32 then s.pierOwner a else s.sgOwner (a - 32)
/-- Whether an axis runs: an enabled pier, an enabled generator. -/
def State.axisOn (s : State) (a : Nat) : Bool :=
  if a < 32 then
    let m := (s.pier a).mode
    m == .torque || m == .velocity || m == .position
  else (s.sg (a - 32)).enabled
def State.axisFault (s : State) (a : Nat) : Bool := if a < 32 then (s.pier a).mode == .fault else (s.sg (a - 32)).fault
/-- The axis an axis code names (bit 7: a step generator); 48 for none (R518). -/
def axisOfCode (c : Nat) : Nat := if c < 32 then c else if 128 ≤ c ∧ c < 144 then c - 96 else 48

/-- The active motion descriptor of an axis completes. -/
def axisDone (s : State) (a status res : Nat) : State :=
  let x := s.axis a
  match x.job.bind s.job? with
  | some j => complete (s.setAxis a { x with job := none, modified := false }) j status res
  | none => s.setAxis a { x with job := none, modified := false }
/-- It is superseded (R455). -/
def supersede (s : State) (a : Nat) : State := if (s.axis a).job.isSome then axisDone s a 0 256 else s
/-- Motion that waits for the boundary is dropped, its descriptors completing with a status. -/
def dropNext (s : State) (a status res : Nat) : State :=
  let x := s.axis a
  let s := s.setAxis a { x with next := [] }
  (x.next.filterMap (·.2)).foldl (fun s id => match s.job? id with
    | some j => complete s j status res
    | none => s) s
/-- The disables that wait for an axis complete. -/
def disableDone (s : State) (a status : Nat) : State :=
  let x := s.axis a
  let s := s.setAxis a { x with disableAfter := [] }
  x.disableAfter.foldl (fun s id => match s.job? id with
    | some j => complete s j status 0
    | none => s) s
/-- Every descriptor of an axis completes with a status. -/
def axisEnd (s : State) (a status res : Nat) : State := disableDone (dropNext (axisDone s a status res) a status res) a status

/-- The reference stands where it is. -/
def Axis.still (x : Axis) : Axis := { x with gen := .hold, v := 0, a := 0 }
/-- The reference stands at a position. -/
def Axis.standAt (x : Axis) (p : Int) : Axis := { x.still with p := p, lastP := p }
/-- A ramp-stop begins from the present reference (R480); a reference already at rest stands. -/
def Axis.rampStop (x : Axis) : Axis := if x.v = 0 then x.still else { x with gen := .ramp (ofQ 16 x.p) (ofQ 24 x.v) }
/-- Ramp-stop of an axis: its reference is its own from here. -/
def rampAxis (s : State) (a : Nat) : State := s.updAxis a fun x => { x with src := .own }.rampStop
/-- Whether an axis's reference stands. -/
def Axis.stands (x : Axis) : Bool := x.gen == .hold && x.v == 0 && x.src == .own

/-- The reference of an axis's own generator in this span: in the k-th span from the boundary a profile was planned at, the planned
curve at t = k (R476, R479). -/
def axisStep (s : State) (a : Nat) : State :=
  let x := s.axis a
  let x := { x with lastP := x.p }
  if x.src != .own then s.setAxis a x
  else match x.gen with
    | .hold => s.setAxis a { x with v := 0, a := 0 }
    | .plan pr =>
      let r := legsAt pr.legs pr.p0 pr.v0 ((s.tb.spanIx + 1 - pr.from0 : Nat) : Rat)
      match r.2, pr.target with
      | true, some tgt => s.setAxis a { x.still with p := tgt, lastP := x.lastP }
      | _, _ => s.setAxis a { x with p := toPos (b64 r.1.1), v := toVel (b64 r.1.2.1), a := toAcc (b64 r.1.2.2) }
    | .ramp p v =>
      let r := rampStep p v (s.stopDec a)
      if r.2 = 0 then s.setAxis a { x.still with p := toPos r.1, lastP := x.lastP }
      else
        s.setAxis a
          { x with
            p := toPos r.1
            v := toVel r.2
            a := toAcc (-(ratSign v : Rat) * s.stopDec a)
            gen := .ramp r.1 r.2 }

/-! Limits (R533 to R535). -/

/-- Whether the positive or negative limit of an axis is active. -/
def State.limActive (s : State) (a : Nat) (pos : Bool) : Bool :=
  let w := s.rd (0x19000 + 4 * a)
  let en := bit w (if pos then 14 else 15)
  let i := if pos then bits w 0 6 else bits w 8 6
  en && (bit s.limLevels i != bit w 16)
/-- Whether a motion towards `dir` meets an active limit (R534). -/
def State.blocked (s : State) (a : Nat) (dir : Int) : Bool :=
  (decide (0 < dir) && s.limActive a true) || (decide (dir < 0) && s.limActive a false)

/-! Admission of motion descriptors. -/

/-- Motion is not allowed: outside COMMISSION and RUN, or under a tenant hold (R112, R515). -/
def State.noMotion (s : State) (tn : Nat) : Bool := !s.motionMode || (s.tn tn).held
/-- A motion descriptor waits for the boundary, unless a limit stops it at admission (R534). -/
def admitMotion (s : State) (j : Job) (a : Nat) (m : Motion) (dir : Int) : State :=
  if s.blocked a dir then complete s j 0x50 0
  else (keep s { j with phase := .active }).updAxis a fun x => { x with next := x.next ++ [(m, some j.id)] }

/-- A move begins at the boundary. -/
def startMove (s : State) (a : Nat) (target : Int) (v acc dec jerk : Nat) : State :=
  s.updAxis a fun x =>
    { x with
      gen := .plan (planMove s.tb.spanIx (ofQ 16 x.p) (ofQ 24 x.v) (ofQ 32 x.a) target (mkRat v 65536) (mkRat acc 4294967296)
        (mkRat dec 4294967296) (mkRat jerk 4294967296)) }
/-- A jog begins at the boundary. -/
def startJog (s : State) (a : Nat) (v : Int) (acc : Nat) : State :=
  s.updAxis a fun x =>
    { x with gen := .plan (planJog s.tb.spanIx (ofQ 16 x.p) (ofQ 24 x.v) (mkRat v 65536) (mkRat acc 4294967296)) }
/-- The active descriptor of an axis from here on. -/
def setJob (s : State) (a : Nat) (job : Option Nat) (modified : Bool) : State :=
  s.updAxis a fun x => { x with job := job, modified := modified, limStop := false }

/-- The opcode of an axis's active descriptor. -/
def State.axisOp (s : State) (a : Nat) : Nat := (((s.axis a).job.bind s.job?).map fun j => j.d.op.toNat).getD 0
/-- A descriptor whose motion has ended completes: a move once its position is reached, a stop once the reference stands
(R454, R482, R543). -/
def motionEnd (s : State) (a : Nat) (reached : Bool) : State :=
  let x := s.axis a
  let op := s.axisOp a
  if !x.stands then s
  else if op = 0x13 ∨ op = 0x20 ∨ op = 0x32 then
    if reached then axisDone s a (if x.modified then 3 else 0) (b2n x.modified) else s
  else if op = 0x16 ∨ op = 0x34 then axisDone s a 0 0
  else s

end Sys2Proof.Machine
end

