-- ==== Sys2Proof/Machine/Paths.lean ====
section
/-!
DEFINITION. Interpolation groups, stays and cams (chapter 13, R471 to R509, R515 to R518).
-/
namespace Sys2Proof.Machine

/-! Sources (R471 to R473). -/

/-- A stay drives its follower while engaging or engaged (R498). -/
def StayState.drives : StayState → Bool
  | .closed => false
  | .released => false
  | _ => true
/-- The stay that drives an axis. -/
def State.stayOf (s : State) (a : Nat) : Option Nat :=
  (s.stays.find? fun x => x.2.follower == a && x.2.state.drives).map (·.1)
/-- The group that drives an axis or is about to. -/
def State.groupOf (s : State) (a : Nat) : Option Nat :=
  (s.groups.find? fun x => x.2.axes.contains a && (x.2.opening || (s.axis a).src == .group x.1)).map (·.1)
/-- Whether an axis's reference is its own. -/
def State.axisFree (s : State) (a : Nat) : Bool :=
  (s.axis a).src == .own && (s.stayOf a).isNone && (s.groupOf a).isNone
/-- A pier that is DISABLED or in FAULT can take no source (R473). -/
def State.axisDead (s : State) (a : Nat) : Bool :=
  decide (a < 32) && ((s.pier a).mode == .disabled || (s.pier a).mode == .fault)
/-- Whether an axis takes position references now. -/
def State.axisPos (s : State) (a : Nat) : Bool := if a < 32 then (s.pier a).mode == .position else (s.sg (a - 32)).enabled
/-- Bumpless change of an axis to position control (R453): a pier in another mode starts from its actual position. -/
def toPosition (s : State) (a : Nat) : State :=
  if s.axisDead a || s.axisPos a || decide (32 ≤ a) then s
  else (s.updAxis a fun x => x.standAt (s.actualPos a)).updPier a fun p => { p with mode := .position, volt := none, posOff := false }

/-! Geometry of segments (R484, R489, R490), in counts. -/

/-- A vector of counts. -/
abbrev Vec8 := List Rat
def vAdd (a b : Vec8) : Vec8 := List.zipWith (· + ·) a b
def vSub (a b : Vec8) : Vec8 := List.zipWith (· - ·) a b
def vScale (k : Rat) (a : Vec8) : Vec8 := a.map (k * ·)
def vDot (a b : Vec8) : Rat := (List.zipWith (· * ·) a b).foldl (· + ·) 0
def vNorm (a : Vec8) : Rat := b64 (ratSqrt (vDot a a))
/-- A direction; the null vector has none. -/
def vUnit (a : Vec8) : Vec8 := let n := vNorm a; if n = 0 then a.map fun _ => 0 else vScale (1 / n) a

/-- The increments of a segment. -/
def Seg.delta (g : Seg) (n : Nat) : Vec8 := (g.ends.take n).map (ofQ 8)
/-- The slots of an arc's plane. -/
def Seg.slots (g : Seg) : Nat × Nat := (bits g.plane 0 3, bits g.plane 3 3)
def Seg.isArc (g : Seg) : Bool := g.typ == 2 || g.typ == 3
def Seg.endOf (g : Seg) (i : Nat) : Rat := ofQ 8 (g.ends.getD i 0)
/-- Start radius and end radius of an arc, squared. -/
def Seg.radii2 (g : Seg) : Rat × Rat :=
  let a := g.slots.1
  let b := g.slots.2
  let cx := ofQ 8 g.ca
  let cy := ofQ 8 g.cb
  (cx * cx + cy * cy, (g.endOf a - cx) * (g.endOf a - cx) + (g.endOf b - cy) * (g.endOf b - cy))
/-- Radius of an arc. -/
def Seg.radius (g : Seg) : Rat := b64 (ratSqrt g.radii2.1)
/-- Start angle of an arc and the turns it sweeps, signed by its sense. -/
def Seg.sweep (g : Seg) : Rat × Rat :=
  let a := g.slots.1
  let b := g.slots.2
  let cx := ofQ 8 g.ca
  let cy := ofQ 8 g.cb
  let t0 := angleTurns (-cx) (-cy)
  let t1 := angleTurns (g.endOf a - cx) (g.endOf b - cy)
  let d := if g.typ = 3 then t1 - t0 else t0 - t1
  let d := if g.endOf a = 0 ∧ g.endOf b = 0 then 1 else d - d.floor
  (t0, b64 (if g.typ = 3 then d else -d))
/-- The increments outside an arc's plane. -/
def Seg.others (g : Seg) (n : Nat) : Vec8 :=
  (List.range n).map fun i => if i = g.slots.1 ∨ i = g.slots.2 then 0 else g.endOf i
/-- Path length of a linear segment or arc. -/
def Seg.len (g : Seg) (n : Nat) : Rat :=
  if g.typ = 1 then vNorm (g.delta n)
  else if g.isArc then
    let r := 2 * ratPi * g.radius * ratAbs g.sweep.2
    b64 (ratSqrt (r * r + vDot (g.others n) (g.others n)))
  else 0
/-- The increment from the start of a linear segment or arc after a path length. -/
def Seg.at (g : Seg) (n : Nat) (x : Rat) : Vec8 :=
  let l := g.len n
  let f := if l = 0 then 1 else x / l
  if g.isArc then
    let w := g.sweep
    let c := cosSin (w.1 + w.2 * f)
    let r := g.radius
    (List.range n).map fun i =>
      if i = g.slots.1 then ofQ 8 g.ca + r * c.1 else if i = g.slots.2 then ofQ 8 g.cb + r * c.2 else g.endOf i * f
  else vScale f (g.delta n)
/-- The direction after a path length. -/
def Seg.dir (g : Seg) (n : Nat) (x : Rat) : Vec8 :=
  if g.isArc then
    let l := g.len n
    let w := g.sweep
    let c := cosSin (if l = 0 then w.1 else w.1 + w.2 * (x / l))
    let k : Rat := 2 * ratPi * g.radius * w.2
    vUnit ((List.range n).map fun i =>
      if i = g.slots.1 then -(k * c.2) else if i = g.slots.2 then k * c.1 else g.endOf i)
  else if g.typ = 1 then vUnit (g.delta n)
  else List.replicate n 0

/-! B-spline runs. -/

/-- Control point j of P0, P0, P0, P1, …, Pn, Pn, Pn, in counts. -/
def splineQ (run : List (List Int)) (j : Nat) : Vec8 := (run.getD (min (j - 2) (run.length - 1)) []).map (ofQ 16)
/-- Point, first and second derivative of a uniform cubic B-spline at a parameter from 0 to n + 2. -/
def splineAt (run : List (List Int)) (u : Rat) : Vec8 × Vec8 × Vec8 :=
  let j := min u.floor.toNat run.length
  let t := u - j
  let w (a b c d : Rat) : Vec8 :=
    vAdd (vAdd (vScale a (splineQ run j)) (vScale b (splineQ run (j + 1))))
      (vAdd (vScale c (splineQ run (j + 2))) (vScale d (splineQ run (j + 3))))
  let q := 1 - t
  (w (q * q * q / 6) ((3 * t * t * t - 6 * t * t + 4) / 6) ((3 * q * q * q - 6 * q * q + 4) / 6) (t * t * t / 6),
    w (-(q * q) / 2) ((3 * t * t - 4 * t) / 2) (-(3 * q * q - 4 * q) / 2) (t * t / 2),
    w q (3 * t - 2) (1 - 3 * t) t)
/-- The parameter at which segment i of a run of n ends, counted from 1. -/
def splineEnd (n i : Nat) : Rat := if n ≤ i then n + 2 else (i : Rat) + 1
/-- The length of a run between two parameters, as a chain of 16 chords. -/
def splineLen (run : List (List Int)) (a b : Rat) : Rat :=
  (List.range 16).foldl (fun (l : Rat) (k : Nat) =>
    let x : Rat := a + (b - a) * (k : Rat) / 16
    b64 (l + vNorm (vSub (splineAt run (x + (b - a) / 16)).1 (splineAt run x).1))) 0
/-- The points of the run a queue starts with, from a start point. -/
def runPoints : List Int → List Seg → List (List Int)
  | p, [] => [p]
  | p, g :: l => if g.typ = 4 then p :: runPoints (List.zipWith (fun a e => wrap64 (a + e * 256)) p g.ends) l else [p]
/-- The segments of the queue's first run that are still to end. -/
def Group.runLeft (g : Group) : Nat := g.run.length - 1 - g.runIx

/-! Speed planning (R491 to R493). -/

/-- What the planner knows of one segment: length, feed, its directions at both ends, and whether it forces a stop. -/
structure PlanSeg where
  len : Rat
  feed : Rat
  d0 : Vec8
  d1 : Vec8
  exact : Bool
  dwell : Bool
  spline : Bool
  deriving DecidableEq, Repr

/-- The plan view of queued segments from a start point; `run` is the run under way and how many of its segments ended. -/
def planSegs (n : Nat) : Nat → List Int → List (List Int) × Nat → List Seg → List PlanSeg
  | 0, _, _, _ => []
  | _ + 1, _, _, [] => []
  | k + 1, p, run, g :: l =>
    let feed := mkRat g.feed 65536
    let q := List.zipWith (fun a e => wrap64 (a + e * 256)) p g.ends
    if g.typ = 4 then
      let run := if run.1 = [] then (runPoints p (g :: l), 0) else run
      let m := run.1.length - 1
      let a : Rat := if run.2 = 0 then 0 else splineEnd m run.2
      let b := splineEnd m (run.2 + 1)
      let c0 := vUnit (vSub (splineAt run.1 (a + mkRat 1 16)).1 (splineAt run.1 a).1)
      let c1 := vUnit (vSub (splineAt run.1 b).1 (splineAt run.1 (b - mkRat 1 16)).1)
      { len := splineLen run.1 a b, feed := feed, d0 := c0, d1 := c1, exact := g.exact, dwell := false,
        spline := decide (run.2 + 1 < m) } :: planSegs n k q (if run.2 + 1 < m then (run.1, run.2 + 1) else ([], 0)) l
    else
      { len := g.len n, feed := feed, d0 := g.dir n 0, d1 := g.dir n (g.len n), exact := g.exact, dwell := g.typ == 5,
        spline := false } :: planSegs n k q ([], 0) l
/-- The speed at a junction (R492). Inside one B-spline run there is no corner. -/
def junction (aPath blend : Rat) (x y : PlanSeg) : Rat :=
  let top := ratMin x.feed y.feed
  if x.exact || x.dwell || y.dwell then 0
  else if x.spline then top
  else
    let s2 := (1 - vDot x.d1 y.d0) / 2
    let s := if s2 ≤ 0 then 0 else b64 (ratSqrt s2)
    if 1 ≤ s then 0 else ratMin top (b64 (ratSqrt (aPath * blend * s / (1 - s))))
/-- The end speeds of R493. -/
def planEnds (aPath blend : Rat) : List PlanSeg → List Rat
  | [] => []
  | [_] => [0]
  | x :: y :: l =>
    let r := planEnds aPath blend (y :: l)
    let v := r.headD 0
    ratMin (junction aPath blend x y) (b64 (ratSqrt (v * v + 2 * aPath * y.len))) :: r
/-- The replanned end speeds of a group's window. -/
def Group.plan (g : Group) : List Rat :=
  planEnds (mkRat g.aPath 4294967296) (mkRat g.blend 65536)
    (planSegs g.axes.length 32 (g.start.take g.axes.length) (g.run, g.runIx) g.queue)

/-! Segments of SEG_APPEND (R484 to R488). -/

/-- One segment record (Table 13-1). -/
def parseSeg (w job : Nat) : Seg :=
  let typ := bits w 0 8
  { typ := typ
    exact := bit w 8
    plane := bits w 16 8
    feed := bits w 32 32
    tag := bits w 64 32
    ca := if typ = 5 then bits w 96 32 else signed 32 (bits w 96 32)
    cb := signed 32 (bits w 128 32)
    ends := (List.range 8).map fun i => signed 32 (bits w (192 + 32 * i) 32)
    job := job }
/-- The conditions of R485. -/
def segBad (w n : Nat) : Bool :=
  let g := parseSeg w 0
  let a := g.slots.1
  let b := g.slots.2
  let r := g.radii2
  let r0 := ratSqrt r.1
  let tol := ratMax 2 (r0 / 1000)
  g.typ == 0 || decide (5 < g.typ) || bits w 9 7 != 0 || bits w 22 2 != 0 || bits w 24 8 != 0 || bits w 160 32 != 0 ||
    bits w 448 64 != 0 || (g.typ != 5 && g.feed == 0) || ((g.ends.drop n).any (· != 0)) ||
    (g.isArc && (a == b || decide (n ≤ a) || decide (n ≤ b) || decide (tol < ratAbs (r0 - ratSqrt r.2))))
/-- A SEG_APPEND whose last segment has ended completes (R486, R487). -/
def segDone (s : State) (g job : Nat) : State :=
  let x := s.group g
  if x.queue.any (·.job == job) || x.after.any (·.job == job) then s
  else match s.job? job with
    | some j => complete s j (if nth j.aux 2 = 1 then 3 else 0) (nth j.aux 0 + 2 ^ 32 * nth j.aux 1)
    | none => s
/-- The jobs of some segments, each once. -/
def segJobs (l : List Seg) : List Nat := (l.map (·.job)).eraseDups
/-- Every SEG_APPEND with unexecuted segments completes with a status; `stop` gives RESULT byte 9 and keeps byte 8. -/
def segsEnd (s : State) (ids : List Nat) (status res : Nat) (stop : Bool) : State :=
  ids.foldl (fun s id => match s.job? id with
    | some j => complete s j status (res + if stop then 256 + nth j.aux 0 else 0)
    | none => s) s
/-- The segments of a descriptor enter the queue, as many as fit (R486). -/
def segEnter (s : State) (j : Job) : State :=
  let g := j.d.p 0 1
  let x := s.group g
  let w := leNat (j.aux.map (BitVec.ofNat 8))
  let cnt := j.d.p 1 1
  let words := (List.range cnt).map fun i => bits w (512 * i) 512
  if words.any (segBad · x.axes.length) then complete s j 0x14 0
  else if x.state = .closed then complete s j 0x13 0
  else
    let n := min cnt (256 - (if x.state = .stopping then x.after.length else x.queue.length))
    let segs := (words.take n).map fun w => parseSeg w j.id
    let tag := (segs.getLast?.map (·.tag)).getD 0
    let j : Job := { j with phase := .active, aux := [n, tag, b2n (n < cnt)] }
    let x := { x with starved := false, dirty := true }
    let x := if x.state = .stopping then { x with after := x.after ++ segs } else { x with queue := x.queue ++ segs }
    if n = 0 then complete (s.setGroup g x) j 3 0 else keep (s.setGroup g x) j
/-- A segment of a SEG_APPEND has been fetched (R487). -/
def segSlice (s : State) (j : Job) (r : SliceResult) : State :=
  let bs := (r.data ++ List.replicate 64 0).take 64
  let j : Job := { j with aux := j.aux ++ bs.map fun (b : Byte) => b.toNat }
  if j.slices = [] then segEnter s j else keep s j

/-! Groups. -/

/-- The position and direction of a group now. -/
def Group.here (g : Group) : Vec8 × Vec8 :=
  let n := g.axes.length
  let p := g.start.map (ofQ 16)
  match g.queue with
  | [] => (p, List.replicate n 0)
  | x :: _ =>
    if x.typ = 4 ∧ g.run ≠ [] then let r := splineAt g.run g.along; (r.1, vUnit r.2.1)
    else if x.typ = 5 ∨ x.typ = 4 then (p, List.replicate n 0)
    else (vAdd p (x.at n g.along), x.dir n g.along)
/-- The speed limit of R491 at the present point. -/
def Group.top (s : State) (g : Group) : Rat :=
  match g.queue with
  | [] => 0
  | x :: _ =>
    let aPath := mkRat g.aPath 4294967296
    let feed := mkRat (x.feed * g.ovr) 6553600
    let dirs := g.here.2
    let axis := (List.zip g.axes dirs).foldl (fun v p =>
      if p.2 = 0 then v else ratMin v (b64 (mkRat (s.maxSpeed p.1) 65536 / ratAbs p.2))) feed
    if x.isArc then ratMin axis (b64 (ratSqrt (aPath * x.radius)))
    else if x.typ = 4 ∧ g.run ≠ [] then
      let r := splineAt g.run g.along
      let n2 := vDot r.2.1 r.2.1
      let c := n2 * vDot r.2.2 r.2.2 - vDot r.2.1 r.2.2 * vDot r.2.1 r.2.2
      if c ≤ 0 then axis else ratMin axis (b64 (ratSqrt (aPath * ratSqrt (n2 * n2 * n2 / c))))
    else axis
/-- What is left of the segment in execution. -/
def Group.rest (g : Group) : Rat :=
  match g.queue with
  | [] => 0
  | x :: _ =>
    if x.typ = 5 then 0
    else if x.typ = 4 then splineLen g.run g.along (splineEnd (g.run.length - 1) (g.runIx + 1))
    else x.len g.axes.length - g.along
/-- The speed at the end of this span: within the limit, stopping in time, changing by at most A_path (R493). -/
def nextSpeed (v top vend a rest : Rat) : Rat :=
  let k := vend * vend + 2 * a * rest - a * v
  let fit := if k ≤ 0 then 0 else (ratSqrt (a * a + 4 * k) - a) / 2
  b64 (ratMax 0 (ratMax (v - a) (ratMin (v + a) (ratMin top fit))))
/-- The segment in execution has ended: its end point is exact (R488). -/
def Group.pop (g : Group) : Group :=
  match g.queue with
  | [] => g
  | x :: l =>
    let last := decide (g.runLeft ≤ 1)
    { g with
      queue := l
      start := List.zipWith (fun a e => wrap64 (a + e * 256)) g.start x.ends
      along := if x.typ = 4 ∧ last = false then g.along else 0
      run := if x.typ = 4 ∧ last = false then g.run else []
      runIx := if x.typ = 4 ∧ last = false then g.runIx + 1 else 0
      vend := g.vend.drop 1
      dirty := true }
/-- The run of a B-spline segment about to execute. -/
def Group.openRun (g : Group) : Group :=
  match g.queue with
  | [] => g
  | x :: _ => if x.typ = 4 ∧ g.run = [] then { g with run := runPoints g.start g.queue, runIx := 0, along := 0 } else g
/-- The spline parameter after a path step. Where the derivative is 0 the spec gives no step: an open one, forward. -/
def splineStep (run : List (List Int)) (u d : Rat) : Rat :=
  let n := vNorm (splineAt run u).2.1
  if n = 0 then b64 (u + mkRat (1 + (Config.openValue 490 [u.num, u.den, d.num, d.den]) % 65536) 65536) else b64 (u + d / n)
/-- Move a distance along the path; the list gathers the jobs of the segments that end. -/
def Group.go : Nat → Rat → Group → List Nat → Group × List Nat
  | 0, _, g, done => (g, done)
  | k + 1, d, g, done =>
    let g := g.openRun
    match g.queue with
    | [] => ({ g with speed := 0 }, done)
    | x :: _ =>
      let vend := g.vend.headD 0
      if x.typ = 5 then (g, done)
      else if x.typ = 4 then
        let u := splineStep g.run g.along d
        let e := splineEnd (g.run.length - 1) (g.runIx + 1)
        if u < e then ({ g with along := u }, done)
        else
          let stop := decide (vend = 0)
          let g' := { g.pop with speed := if stop then 0 else g.speed }
          if g.runLeft ≤ 1 then (g', done ++ [x.job]) else ({ g' with along := if stop then e else u }, done ++ [x.job])
      else
        let l := x.len g.axes.length
        if g.along + d < l then ({ g with along := b64 (g.along + d) }, done)
        else if vend = 0 then ({ g.pop with speed := 0 }, done ++ [x.job])
        else Group.go k (d - (l - g.along)) g.pop (done ++ [x.job])
/-- One span of a group's path. -/
def Group.span (s : State) (g : Group) : Group × List Nat :=
  let g := g.openRun
  match g.queue with
  | [] => ({ g with speed := 0 }, [])
  | x :: _ =>
    let run := g.state == .running
    if x.typ = 5 then
      if !run then (g, [])
      else if x.ca ≤ g.along + 1 then (g.pop, [x.job]) else ({ g with along := g.along + 1 }, [])
    else
      let a := mkRat g.aPath 4294967296
      let rest := g.rest
      let vend := g.vend.headD 0
      let v := nextSpeed g.speed (if run then g.top s else 0) vend a rest
      if vend = 0 ∧ run ∧ g.speed ≤ a ∧ rest ≤ ratMax (g.speed / 2) (a / 4) ∧ x.typ ≠ 4 then
        ({ g.pop with speed := 0 }, [x.job])
      else Group.go 32 (b64 ((g.speed + v) / 2)) { g with speed := v } []
/-- The references of a group's axes follow its path. -/
def groupRefs (s : State) (gi : Nat) : State :=
  let g := s.group gi
  let h := g.here
  (List.zip g.axes (List.zip h.1 h.2)).foldl (fun s p =>
    s.updAxis p.1 fun x =>
      if x.src != .group gi then x
      else
        let v := toVel (b64 (p.2.2 * g.speed))
        { x with p := toPos (b64 p.2.1), v := v, a := (v - x.v) * 256 }) s
/-- A flush at STOP: the queue empties, its descriptors complete, and what was appended since then enters (R495). -/
def groupFlush (s : State) (gi : Nat) : State :=
  let g := s.group gi
  let here := g.here.1.map toPos
  let ids := segJobs g.queue
  let s := s.setGroup gi
    { g with state := .idle, queue := g.after, after := [], start := here, along := 0, speed := 0, vend := [], run := [],
             runIx := 0, dirty := true }
  segsEnd s ids 0 0 true
/-- One sample instant of a group (R474). -/
def groupStep (s : State) (gi : Nat) : State :=
  let g := s.group gi
  if g.state = .closed ∨ g.state = .idle then s
  else
    let r := g.span s
    let s := groupRefs (s.setGroup gi r.1) gi
    let s := r.2.eraseDups.foldl (fun s id => segDone s gi id) s
    let g := s.group gi
    if g.state = .running ∧ g.queue = [] then s.setGroup gi { g with state := .idle, starved := true, speed := 0 }
    else if g.state = .stopping ∧ g.speed = 0 then groupFlush s gi
    else s
/-- A group aborts: other axes ramp-stop, the queue is flushed, its descriptors complete (R497). -/
def groupAbort (s : State) (gi : Nat) (hit : Option Nat) (status res : Nat) : State :=
  let g := s.group gi
  if g.state = .closed then s
  else
    let ids := segJobs (g.queue ++ g.after)
    let s := s.setGroup gi
      { g with state := .idle, queue := [], after := [], along := 0, speed := 0, vend := [], run := [], runIx := 0, ctrl := [],
               opening := false }
    let s := g.axes.foldl (fun s a =>
      if (s.axis a).src != .group gi then s
      else if hit = some a then s.updAxis a fun x => { x with src := .own }
      else rampAxis s a) s
    segsEnd s ids status res false
/-- Whatever group drives an axis aborts because of it. -/
def abortGroupOf (s : State) (a status res : Nat) : State :=
  match (s.axis a).src with
  | .group g => groupAbort s g (some a) status res
  | _ => s
/-- A group whose axes hold where they are, with no motion (R515, R517 HOLD). -/
def groupDrop (s : State) (gi : Nat) (status : Nat) : State :=
  let g := s.group gi
  let s := groupAbort s gi none status 0
  g.axes.foldl (fun s a => s.updAxis a fun x => if x.src == .own && x.gen != .hold then x.still else x) s
/-- GROUP_CTRL at the boundary (R495). -/
def groupCtrl (g : Group) (c : Nat × Nat) : Group :=
  match c.1 with
  | 0 => if g.state = .running ∨ g.state = .held then { g with state := .stopping } else g
  | 1 => if g.state = .running ∨ g.state = .idle then { g with state := .held } else g
  | 2 => if g.state = .held then { g with state := if g.queue = [] then .idle else .running } else g
  | _ => { g with ovr := min c.2 200 }
/-- A group's axes can be driven: enabled, and either its own already or standing free. -/
def State.groupReady (s : State) (gi : Nat) : Bool :=
  (s.group gi).axes.all fun a =>
    s.axisOn a && ((s.axis a).src == .group gi || ((s.axis a).stands && (s.stayOf a).isNone))
/-- Take the axes of a group (R483). -/
def groupTake (s : State) (gi : Nat) : State :=
  let g := s.group gi
  let s := g.axes.foldl (fun s a =>
    let s := toPosition (supersede s a) a
    s.updAxis a fun x => { x.still with src := .group gi }) s
  s.updGroup gi fun g => { g with start := g.axes.map fun a => (s.axis a).p, opening := false, along := 0, speed := 0, dirty := true }
/-- A group at a span boundary: binding, GROUP_CTRL, restart and replanning. -/
def groupBoundary (s : State) (gi : Nat) : State :=
  let s := if (s.group gi).opening then groupTake s gi else s
  let s := s.updGroup gi fun g => g.ctrl.foldl groupCtrl { g with ctrl := [] }
  let g := s.group gi
  let s := if g.state = .idle ∧ g.queue ≠ [] ∧ s.groupReady gi then
      (if g.axes.all fun a => (s.axis a).src == .group gi then s else groupTake s gi).updGroup gi fun g => { g with state := .running }
    else s
  s.updGroup gi fun g => if g.dirty then { g with vend := g.plan, dirty := false } else g

/-! Cam tables (R506 to R509). -/

/-- Point j of a cyclic extension. -/
def CamTab.pt (c : CamTab) (j : Int) : Rat :=
  let n : Int := c.pts.length
  if n = 0 then 0 else ofQ 8 (c.pts.getD (j % n).toNat 0 + (j / n) * c.rise)
/-- F(Δ) and F′(Δ) in counts, Δ in Q48.16 (R507). -/
def CamTab.eval (c : CamTab) (δ : Int) : Rat × Rat :=
  if c.mlen = 0 then (0, 0)
  else
    let per : Rat := mkRat ((c.pts.length : Int) * 65536) c.mlen
    let u : Rat := mkRat (δ * c.pts.length) c.mlen
    let k : Int := u.floor
    let t := u - k
    if c.cubic then
      let a := c.pt (k - 1)
      let b := c.pt k
      let d := c.pt (k + 1)
      let e := c.pt (k + 2)
      let k1 := d - a
      let k2 := 2 * a - 5 * b + 4 * d - e
      let k3 := 3 * b - a - 3 * d + e
      ((2 * b + k1 * t + k2 * t * t + k3 * t * t * t) / 2, (k1 + 2 * k2 * t + 3 * k3 * t * t) / 2 * per)
    else (c.pt k + (c.pt (k + 1) - c.pt k) * t, (c.pt (k + 1) - c.pt k) * per)

/-! Stays. -/

/-- The master of a stay now: its position, its velocity, and whether it is invalid (Table 13-2, R475, R505). -/
def State.master (s : State) (y : Stay) : Int × Int × Bool :=
  let i := y.index
  let dead := (s.pier i).mode == .disabled || (s.pier i).mode == .fault
  let snap (n : Nat) (bad : Bool) : Int × Int × Bool :=
    let f := s.fb n
    (f.snapPos, f.snapVel, f.suspect || f.fault || bad)
  let pub (kind : Nat) : Int × Int × Bool :=
    let r := storeGet (fun _ => PubRec.reset) s.pubRec (64 * kind + i)
    (r.pos, r.vel, !r.valid || r.suspect)
  match y.kind with
  | 0 => snap (s.fld (pierKey i 4) 0 6) dead
  | 1 => ((s.axis i).p, (s.axis i).v, dead)
  | 2 => ((s.axis (32 + i)).p, (s.axis (32 + i)).v, !(s.sg i).enabled || (s.sg i).fault)
  | 3 => snap i false
  | 4 => pub 0
  | 5 => pub 1
  | _ => pub 2
/-- The law of a stay at a displacement: follower position and the slope of its velocity (R500, R501, R508). -/
def State.stayLaw (s : State) (y : Stay) (δ : Int) : Int × Rat :=
  if y.cam then
    let c := s.camTab y.table
    let δ := if c.cyclic then δ else clampI δ 0 c.mlen
    let f := c.eval δ
    let k := ofQ 24 y.num
    (wrap64 (y.pf0 + toQ 16 (k * (f.1 - (c.eval 0).1))), k * f.2)
  else
    let ratio := mkRat y.num y.den
    if y.mode = 0 ∨ y.dm ≤ δ then (wrap64 (y.pf0 + y.num * (2 * δ - (if y.mode = 0 then 0 else y.dm)) / (2 * y.den : Int)), ratio)
    else if δ < 0 then (y.pf0, 0)
    else (wrap64 (y.pf0 + divRound (y.num * δ * δ) (2 * y.den * y.dm.toNat)), ratio * mkRat δ y.dm.toNat)
/-- A stay's STAY_ENGAGE completes. -/
def engageDone (s : State) (yi status res : Nat) : State :=
  match (s.stay yi).engJob.bind s.job? with
  | some j => complete (s.updStay yi fun y => { y with engJob := none }) j status res
  | none => s.updStay yi fun y => { y with engJob := none }
/-- STAY_RELEASE and what else waits for the follower to stand complete (R503). -/
def releaseDone (s : State) (yi : Nat) : State :=
  let ids := (s.stay yi).relJobs
  ids.foldl (fun s id => match s.job? id with
    | some j => complete s j 0 0
    | none => s) (s.updStay yi fun y => { y with relJobs := [] })
/-- The stay becomes released; its follower is its own again. -/
def stayFree (s : State) (yi : Nat) : State :=
  let y := s.stay yi
  let s := s.updAxis y.follower fun x => if x.src == .stay yi then { x with src := .own, gen := .hold } else x
  s.setStay yi { y with state := .released, relWait := false, pOff := none, pm0 := none }
/-- The follower ramp-stops from its present velocity (R503, R505). -/
def stayRamp (s : State) (yi : Nat) (st : StayState) : State :=
  let s := rampAxis s (s.stay yi).follower
  s.updStay yi fun y => { y with state := st, relWait := false, pOff := none, pm0 := none }
/-- The end of a release whose follower stands (R503). -/
def stayRest (s : State) (yi : Nat) : State := releaseDone (engageDone (stayFree s yi) yi 0 256) yi
/-- STAY_RELEASE mode 0, and PIER_STOP on a follower. -/
def stayRelease0 (s : State) (yi : Nat) : State :=
  let s := stayRamp s yi .releasing
  if (s.axis (s.stay yi).follower).stands then stayRest s yi else s
/-- A stay is dropped with no motion (R515, R517 HOLD). -/
def stayDrop (s : State) (yi status : Nat) : State :=
  let y := s.stay yi
  if y.state.drives then
    let s := stayFree s yi
    let s := s.updAxis y.follower fun x => if x.gen != .hold then x.still else x
    releaseDone (engageDone s yi status 0) yi
  else s
/-- Whether the master has reached a place in a direction. -/
def reached (m place : Int) (falling : Bool) : Bool := if falling then decide (posDiff m place ≤ 0) else decide (0 ≤ posDiff m place)
/-- The follower takes a reference from a stay. -/
def stayDrive (s : State) (yi : Nat) (p v : Int) : State :=
  let y := s.stay yi
  (s.updAxis y.follower fun x => { x with p := p, v := v, a := (v - y.lastVref) * 256, src := .stay yi }).updStay yi
    fun y => { y with lastVref := v }
/-- A stay follows its master in this span; `m`, `v` the master's position and velocity. -/
def stayFollow (s : State) (yi : Nat) (m v : Int) : State :=
  let y := s.stay yi
  let s := match y.pm0 with
    | some _ => s
    | none =>
      if y.mode = 2 then (if reached m y.m y.falling then s.updStay yi fun y => { y with pm0 := some y.m, state := .clutching } else s)
      else s.updStay yi fun y => { y with pm0 := some m, state := .clutching }
  let y := s.stay yi
  match y.pm0 with
  | none => stayDrive s yi y.pf0 0
  | some p0 =>
    let δ := posDiff m p0
    let vr : Rat := ofQ 24 v
    match y.pOff with
    | some off =>
      let d' := posDiff m y.relM
      let k := (s.stayLaw y (posDiff y.relM p0)).2
      if d' < 0 then stayDrive s yi off 0
      else if d' < y.relDm then
        let f := mkRat d' y.relDm.toNat
        stayDrive s yi (toPos (ofQ 16 off + k * (ofQ 16 d' * (1 - f / 2)))) (toVel (k * (1 - f) * vr))
      else stayRest (stayDrive s yi (toPos (ofQ 16 off + k * ofQ 16 y.relDm / 2)) 0) yi
    | none =>
      let l := s.stayLaw y δ
      let s := stayDrive s yi l.1 (toVel (l.2 * vr))
      let tab := s.camTab y.table
      let s := if y.state = .clutching ∧ (y.cam ∨ y.mode = 0 ∨ y.dm ≤ δ) then
          let s := s.updStay yi fun y => { y with state := .engaged }
          if y.cam && !tab.cyclic then s else engageDone s yi 0 0
        else s
      if y.cam && !tab.cyclic && decide ((tab.mlen : Int) ≤ δ) then
        releaseDone (engageDone (stayFree (stayDrive s yi l.1 0) yi) yi 0 0) yi
      else if y.relWait && reached m y.relM y.relFalling then
        s.updStay yi fun y => { y with state := .releasing, pOff := some (s.stayLaw y (posDiff y.relM p0)).1 }
      else s
/-- One sample instant of a stay (R474, R505). -/
def stayStep (s : State) (yi : Nat) : State :=
  let y := s.stay yi
  if y.state = .released ∨ y.state = .closed then
    if y.relJobs ≠ [] ∧ (s.axis y.follower).stands then releaseDone s yi else s
  else if y.state = .releasing ∧ y.pOff = none then
    if (s.axis y.follower).stands then stayRest s yi else s
  else
    let m := s.master y
    if m.2.2 then
      let s := if y.isInvalid then s else s.updStay yi fun y =>
        { y with
          isInvalid := true
          invalid := y.invalid + 1
          wasState := y.state
          coastLeft := y.coastSpans
          coastP := ofQ 16 (y.lastM.getD 0) }
      let y := s.stay yi
      if y.state = .coasting ∧ y.coastLeft = 0 then s
      else if y.coast && y.coastLeft != 0 && y.lastM.isSome then
        let p := y.coastP + ofQ 24 y.lastV
        let s := s.updStay yi fun y => { y with coastLeft := y.coastLeft - 1, coastP := p, state := y.wasState }
        let s := stayFollow s yi (toPos p) y.lastV
        s.updStay yi fun y => if y.state.drives then { y with wasState := y.state, state := .coasting } else y
      else engageDone (stayRamp s yi .released) yi 0x52 0
    else
      let s := s.updStay yi fun y =>
        { y with
          state := if y.state = .coasting then y.wasState else y.state
          isInvalid := false
          lastM := some m.1
          lastV := m.2.1 }
      stayFollow s yi m.1 m.2.1
/-- All references of a sample instant, in the order of R474. -/
def allRefs (s : State) : State :=
  let s := (s.axes.map (·.1)).foldl axisStep s
  let s := (s.groups.map (·.1)).foldl groupStep s
  (s.stays.map (·.1)).foldl stayStep s

/-- The reference of an axis for the end of the span now opening (R519): what the sample instant of that span will give it, from
what its source knows at the boundary. -/
def State.refAhead (s : State) (a : Nat) : Int :=
  match (s.axis a).src with
  | .own => ((axisStep s a).axis a).p
  | .group g => ((groupStep s g).axis a).p
  | .stay _ => ((allRefs s).axis a).p

/-! The opcodes of Table 13-5. -/

def profileMoveCheck (s : State) (d : Desc) : Verdict :=
  let a := axisOfCode (d.p 0 1)
  firstFail [(badFormat d (pm 0 1 ||| pm 4 24) true || decide (48 ≤ a), 0x14, 0),
    (!s.hasAxis d.tenant a, 0x11, 0),
    (s.noMotion d.tenant || !s.axisOn a || !s.axisFree a, 0x13, 0)]
/-- PROFILE_MOVE (R482). -/
def profileMove (s : State) (j : Job) : State :=
  let d := j.d
  let a := axisOfCode (d.p 0 1)
  let v := d.p 12 4
  let mx := s.maxSpeed a
  admitMotion s j a (.move (d.pS 4 8) (min v mx) (d.p 16 4) (d.p 20 4) (d.p 24 4) (decide (mx < v)))
    (ratSign (ofQ 16 (posDiff (d.pS 4 8) (s.axis a).p)))
def axisStopCheck (s : State) (d : Desc) : Verdict :=
  firstFail [(badFormat d (pm 0 1 ||| pm 4 4) false || decide (32 ≤ d.p 0 1) || d.p 4 4 == 0, 0x14, 0),
    (!s.hasPier d.tenant (d.p 0 1), 0x11, 0)]
/-- AXIS_STOP_CFG (R481). -/
def doAxisStop (s : State) (d : Desc) : State := s.updAxis (d.p 0 1) fun x => { x with stopNext := some (d.p 4 4) }
/-- Whether a unit is claimed by another tenant (R471). -/
def claimedByOther (o : Option Nat) (tn : Nat) : Bool := o.isSome && o != some tn
/-- The axes a GROUP_OPEN names. -/
def groupAxes (d : Desc) : List Nat := (List.range (d.p 1 1)).map fun i => axisOfCode (d.p (4 + i) 1)
/-- No number stands twice in a list. -/
def distinct : List Nat → Bool
  | [] => true
  | a :: l => !l.contains a && distinct l
def groupOpenCheck (s : State) (d : Desc) : Verdict :=
  let tn := d.tenant.val
  let n := d.p 1 1
  let ax := groupAxes d
  let own := (s.group (d.p 0 1)).owner
  firstFail [(badFormat d (pm 0 2 ||| pm 4 16) false || decide (8 ≤ d.p 0 1) || n == 0 || decide (8 < n) || ax.contains 48 ||
      !distinct ax || d.p 12 4 == 0, 0x14, 0),
    (claimedByOther own tn || ax.any fun a => !s.hasAxis tn a, 0x11, 0),
    (own.isSome || ax.any fun a => !s.axisFree a || s.axisDead a, 0x13, 0)]
/-- GROUP_OPEN (R483). -/
def doGroupOpen (s : State) (d : Desc) : State :=
  s.setGroup (d.p 0 1)
    { Group.reset with
      owner := some d.tenant
      axes := groupAxes d
      aPath := d.p 12 4
      blend := d.p 16 4
      state := .idle
      opening := true }
/-- The checks of an opcode on an open group. -/
def groupCheck (named : Nat) (bad : Desc → Bool) (mode : State → Desc → Bool) (s : State) (d : Desc) : Verdict :=
  let g := s.group (d.p 0 1)
  firstFail [(badFormat d named false || decide (8 ≤ d.p 0 1) || bad d, 0x14, 0),
    (claimedByOther g.owner d.tenant, 0x11, 0), (g.owner.isNone || mode s d, 0x13, 0)]
/-- GROUP_CLOSE (R496). -/
def closeGroup (s : State) (gi : Nat) : State :=
  let g := s.group gi
  let s := g.axes.foldl (fun s a => s.updAxis a fun x => if x.src == .group gi then { x.still with src := .own } else x) s
  s.setGroup gi Group.reset
/-- The checks of SEG_APPEND. -/
def segAppendCheck (s : State) (d : Desc) : Verdict :=
  let tn := d.tenant.val
  let need := [1, 0, 0, 0, 0, 0, 0]
  let g := s.group (d.p 0 1)
  firstFail [(badFormat d (pm 0 2 ||| pm 4 8) false || decide (8 ≤ d.p 0 1) || d.p 1 1 == 0 || decide (32 < d.p 1 1) ||
      d.p 4 8 % 64 != 0, 0x14, 0),
    (claimedByOther g.owner tn || s.noBudget tn d.clsNo need, 0x11, 0),
    (g.owner.isNone || s.noMotion tn, 0x13, 0),
    (s.tooLarge tn d.clsNo need, 0x12, 0)]
/-- SEG_APPEND waits for Keystone, one segment a slice (R487). -/
def segAppend (s : State) (j : Job) : State :=
  keep s { j with phase := .active, slices := List.replicate (j.d.p 1 1) [1, 0, 0, 0, 0, 0, 0], aux := [] }
/-- GROUP_CTRL waits for the boundary (R495). -/
def groupCtrlStart (s : State) (j : Job) : State :=
  let pct := j.d.p 4 2
  let s := s.updGroup (j.d.p 0 1) fun g => { g with ctrl := g.ctrl ++ [(j.d.p 1 1, pct)] }
  complete s j (if j.d.p 1 1 = 3 ∧ 200 < pct then 3 else 0) 0
def groupCtrlCheck : State → Desc → Verdict :=
  groupCheck (pm 0 2 ||| pm 4 2) (fun d => decide (3 < d.p 1 1)) fun _ _ => false

/-- The need of a stay's master (Table 13-2). -/
def State.masterNeed (s : State) (tn kind i : Nat) : Bool :=
  match kind with
  | 0 => s.hasPier tn i
  | 1 => s.hasPier tn i
  | 2 => s.hasSg tn i
  | 3 => s.hasFb tn i || s.hasFbs tn i
  | _ => s.hasPub tn (kind - 4) i
/-- The number of masters of a kind. -/
def masterCount (kind : Nat) : Nat := if kind < 2 ∨ kind = 4 then 32 else if kind = 2 ∨ kind = 5 then 16 else 40
def stayOpenCheck (s : State) (d : Desc) : Verdict :=
  let tn := d.tenant.val
  let own := (s.stay (d.p 0 1)).owner
  let cam := bit (d.p 4 1) 0
  let a := axisOfCode (d.p 1 1)
  firstFail [(badFormat d (pm 0 4 ||| pb 4 3 ||| pm 5 11) false || decide (64 ≤ d.p 0 1) || decide (48 ≤ a) ||
      decide (6 < d.p 2 1) || decide (masterCount (d.p 2 1) ≤ d.p 3 1) || d.p 12 4 == 0 || (!cam && d.p 8 4 == 0) ||
      (cam && decide (16 ≤ d.p 5 1)), 0x14, 0),
    (claimedByOther own tn || !s.hasAxis tn a || !s.masterNeed tn (d.p 2 1) (d.p 3 1) ||
      (cam && (s.camTab (d.p 5 1)).owner != some tn), 0x11, 0),
    (own.isSome, 0x13, 0)]
/-- STAY_OPEN (R498). -/
def doStayOpen (s : State) (d : Desc) : State :=
  s.setStay (d.p 0 1)
    { Stay.reset with
      owner := some d.tenant
      follower := axisOfCode (d.p 1 1)
      kind := d.p 2 1
      index := d.p 3 1
      cam := bit (d.p 4 1) 0
      coast := bit (d.p 4 1) 1
      table := d.p 5 1
      coastSpans := d.p 6 2
      num := d.pS 8 4
      den := d.p 12 4
      state := .released }
/-- The checks of STAY_ENGAGE (R499, R502, R508). -/
def stayEngageCheck (s : State) (d : Desc) : Verdict :=
  let tn := d.tenant.val
  let y := s.stay (d.p 0 1)
  let mode := d.p 1 1
  let x := s.axis y.follower
  firstFail [(badFormat d (pm 0 2 ||| pb 2 1 ||| pm 4 16) false || decide (64 ≤ d.p 0 1) || decide (2 < mode) ||
      (mode != 0 && !y.cam && decide (d.p 12 8 < 65536)) || (mode == 1 && y.cam), 0x14, 0),
    (claimedByOther y.owner tn || (y.owner.isSome && !s.hasAxis tn y.follower), 0x11, 0),
    (mode == 0 && !s.expert tn, 0x15, 0),
    (y.state != .released || s.noMotion tn || s.axisDead y.follower || !s.axisFree y.follower || !x.stands || x.p != x.lastP ||
      x.next != [], 0x13, 0)]
/-- STAY_ENGAGE (R499, R502). -/
def stayEngage (s : State) (j : Job) : State :=
  let yi := j.d.p 0 1
  let a := (s.stay yi).follower
  let s := toPosition (supersede (keep s { j with phase := .active }) a) a
  let s := s.updAxis a fun x => { x with src := .stay yi }
  s.updStay yi fun y =>
    { y with
      state := .waiting
      mode := j.d.p 1 1
      falling := j.d.p 2 1 == 1
      m := j.d.pS 4 8
      dm := if j.d.p 1 1 = 0 ∨ y.cam then 0 else j.d.p 12 8
      pm0 := none
      pf0 := (s.axis a).p
      lastM := none
      lastV := 0
      lastVref := 0
      isInvalid := false
      relWait := false
      pOff := none
      engJob := some j.id }
def stayReleaseCheck (s : State) (d : Desc) : Verdict :=
  let y := s.stay (d.p 0 1)
  firstFail [(badFormat d (pm 0 2 ||| pb 2 1 ||| pm 4 16) false || decide (64 ≤ d.p 0 1) || decide (1 < d.p 1 1), 0x14, 0),
    (claimedByOther y.owner d.tenant, 0x11, 0), (y.owner.isNone, 0x13, 0)]
/-- STAY_RELEASE (R503). -/
def stayRelease (s : State) (j : Job) : State :=
  let yi := j.d.p 0 1
  let y := s.stay yi
  let s := (keep s { j with phase := .active }).updStay yi fun y => { y with relJobs := y.relJobs ++ [j.id] }
  if !y.state.drives then
    if (s.axis y.follower).stands then releaseDone s yi else s
  else if j.d.p 1 1 = 0 then stayRelease0 s yi
  else
    s.updStay yi fun y =>
      { y with relWait := true, relM := j.d.pS 4 8, relDm := j.d.p 12 8, relFalling := j.d.p 2 1 == 1 }
/-- STAY_CLOSE: refused unless released. -/
def stayCloseCheck (s : State) (d : Desc) : Verdict :=
  let y := s.stay (d.p 0 1)
  firstFail [(badFormat d (pm 0 1) false || decide (64 ≤ d.p 0 1), 0x14, 0), (claimedByOther y.owner d.tenant, 0x11, 0),
    (y.state != .released, 0x13, 0)]
/-- The coast of a stay ends (R505): its coast spans are used up and the master is still invalid. -/
def coastEnd (s : State) (yi : Nat) : State :=
  let y := s.stay yi
  if y.state = .coasting ∧ y.coastLeft = 0 ∧ (s.master y).2.2 then engageDone (stayRamp s yi .released) yi 0x52 0 else s
/-- Whether an engaged or engaging stay uses a cam table (R506). -/
def State.tableUsed (s : State) (t : Nat) : Bool := s.stays.any fun x => x.2.cam && x.2.table == t && x.2.state.drives
def camLoadCheck (s : State) (d : Desc) : Verdict :=
  let tn := d.tenant.val
  let n := d.p 2 2
  let need := [b2n (n != 0), 0, 0, 0, 0, 0, 0]
  firstFail [(badFormat d (pm 0 1 ||| pb 1 3 ||| pm 2 22) true || decide (16 ≤ d.p 0 1) || n == 1 || decide (4096 < n) ||
      d.p 12 8 == 0, 0x14, 0),
    (claimedByOther (s.camTab (d.p 0 1)).owner tn || s.noBudget tn d.clsNo need, 0x11, 0),
    (s.tableUsed (d.p 0 1), 0x13, 0),
    (s.tooLarge tn d.clsNo need, 0x12, 0)]
/-- CAM_LOAD (R506): POINTS = 0 ends the claim. -/
def camLoad (s : State) (j : Job) : State :=
  let t := j.d.p 0 1
  let n := j.d.p 2 2
  if n = 0 then complete (s.setCamTab t CamTab.reset) j 0 0
  else
    keep (s.updCamTab t fun c => { c with owner := some j.d.tenant })
      { j with phase := .active, slices := List.replicate (ceilDiv (4 * n) 1024) [1, 0, 0, 0, 0, 0, 0], aux := [] }
/-- The 32-bit words of a list of bytes. -/
def words32 (n : Nat) (bs : List Nat) : List Int :=
  (List.range n).map fun i => signed 32 (leNat (((bs.drop (4 * i)).take 4).map (BitVec.ofNat 8)))
/-- Up to 1 KiB of a cam table has been read. -/
def camSlice (s : State) (j : Job) (r : SliceResult) : State :=
  let n := j.d.p 2 2
  let want := min 1024 (4 * n - j.aux.length)
  let bs : List Byte := (r.data ++ List.replicate want 0).take want
  let j : Job := { j with aux := j.aux ++ bs.map fun (b : Byte) => b.toNat }
  if j.slices = [] then
    complete (s.updCamTab (j.d.p 0 1) fun c =>
      { c with
        cubic := bit (j.d.p 1 1) 0
        cyclic := bit (j.d.p 1 1) 1
        mlen := j.d.p 12 8
        rise := j.d.pS 20 4
        pts := words32 n j.aux }) j 0 0
  else keep s j
/-- The checks of LINK_INFO (R518). -/
def linkInfoCheck (s : State) (d : Desc) : Verdict :=
  let tn := d.tenant.val
  let i := d.p 1 1
  let k := d.p 0 1
  firstFail [(badFormat d (pm 0 3) false || decide (3 < k) || (k == 0 && decide (8 ≤ i)) || (k == 1 && decide (64 ≤ i)) ||
      (k == 2 && decide (16 ≤ i)) || (k == 3 && (decide (8 ≤ i) || decide (32 ≤ d.p 2 1))), 0x14, 0),
    ((k == 0 && claimedByOther (s.group i).owner tn) || (k == 1 && claimedByOther (s.stay i).owner tn) ||
      (k == 2 && claimedByOther (s.camTab i).owner tn) || (k == 3 && !s.hasPier tn (d.p 2 1)), 0x11, 0)]
/-- LINK_INFO's RESULT (R518). -/
def linkInfo (s : State) (j : Job) : State :=
  let i := j.d.p 1 1
  let res := match j.d.p 0 1 with
    | 0 =>
      let g := s.group i
      g.state.code + 256 * b2n g.starved + 65536 * g.queue.length + 2 ^ 32 * ((g.queue.head?.map (·.tag)).getD 0)
    | 1 => let y := s.stay i; y.state.code + 2 ^ 32 * (y.invalid % 2 ^ 32)
    | 2 => b2n (s.camTab i).owner.isSome
    | _ => let l := s.latch (8 * j.d.p 2 1 + i); b2n l.armed + 2 ^ 32 * (l.captures % 2 ^ 32)
  complete s j 0 res

/-! The commands. -/

def groupCloseCheck : State → Desc → Verdict :=
  groupCheck (pm 0 1) (fun _ => false) fun s d => (s.group (d.p 0 1)).state != .idle
/-- PROFILE_MOVE (R476 to R482). -/
def execProfileMove (t : Nat) (d : Desc) (s : State) : Host.Outcome State Fault Refusal :=
  act s fun s => runOp s t 0x20 d profileMoveCheck profileMove
/-- AXIS_STOP_CFG (R480, R481). -/
def execAxisStopCfg (t : Nat) (d : Desc) (s : State) : Host.Outcome State Fault Refusal :=
  act s fun s => runOp s t 0x21 d axisStopCheck (andDone doAxisStop)
/-- GROUP_OPEN (R483). -/
def execGroupOpen (t : Nat) (d : Desc) (s : State) : Host.Outcome State Fault Refusal :=
  act s fun s => runOp s t 0x22 d groupOpenCheck (andDone doGroupOpen)
/-- GROUP_CLOSE (R496). -/
def execGroupClose (t : Nat) (d : Desc) (s : State) : Host.Outcome State Fault Refusal :=
  act s fun s => runOp s t 0x23 d groupCloseCheck
    (andDone fun s d => closeGroup s (d.p 0 1))
/-- SEG_APPEND (R484 to R488). -/
def execSegAppend (t : Nat) (d : Desc) (s : State) : Host.Outcome State Fault Refusal :=
  act s fun s => runOp s t 0x24 d segAppendCheck segAppend
/-- GROUP_CTRL with action STOP (R495). -/
def execGroupCtrlStop (t : Nat) (d : Desc) (s : State) : Host.Outcome State Fault Refusal :=
  act s fun s => runOp s t 0x25 (d.setP 1 0) groupCtrlCheck groupCtrlStart
/-- GROUP_CTRL with action HOLD (R495). -/
def execGroupCtrlHold (t : Nat) (d : Desc) (s : State) : Host.Outcome State Fault Refusal :=
  act s fun s => runOp s t 0x25 (d.setP 1 1) groupCtrlCheck groupCtrlStart
/-- GROUP_CTRL with action RESUME (R495). -/
def execGroupCtrlResume (t : Nat) (d : Desc) (s : State) : Host.Outcome State Fault Refusal :=
  act s fun s => runOp s t 0x25 (d.setP 1 2) groupCtrlCheck groupCtrlStart
/-- GROUP_CTRL with action OVERRIDE (R495). -/
def execGroupCtrlOverride (t : Nat) (d : Desc) (s : State) : Host.Outcome State Fault Refusal :=
  act s fun s => runOp s t 0x25 (d.setP 1 3) groupCtrlCheck groupCtrlStart
/-- STAY_OPEN (R498). -/
def execStayOpen (t : Nat) (d : Desc) (s : State) : Host.Outcome State Fault Refusal :=
  act s fun s => runOp s t 0x26 d stayOpenCheck (andDone doStayOpen)
/-- STAY_ENGAGE (R499 to R502). -/
def execStayEngage (t : Nat) (d : Desc) (s : State) : Host.Outcome State Fault Refusal :=
  act s fun s => runOp s t 0x27 d stayEngageCheck stayEngage
/-- STAY_RELEASE (R503). -/
def execStayRelease (t : Nat) (d : Desc) (s : State) : Host.Outcome State Fault Refusal :=
  act s fun s => runOp s t 0x28 d stayReleaseCheck stayRelease
/-- STAY_CLOSE (R471). -/
def execStayClose (t : Nat) (d : Desc) (s : State) : Host.Outcome State Fault Refusal :=
  act s fun s => runOp s t 0x29 d stayCloseCheck (andDone fun s d => s.setStay (d.p 0 1) Stay.reset)
/-- STAY_COAST_EXPIRY (R505). -/
def execStayCoastExpiry (y : Fin 64) (s : State) : Host.Outcome State Fault Refusal := act s fun s => coastEnd s y
/-- CAM_LOAD (R506). -/
def execCamLoad (t : Nat) (d : Desc) (s : State) : Host.Outcome State Fault Refusal :=
  act s fun s => runOp s t 0x2A d camLoadCheck camLoad
/-- LINK_INFO (R518). -/
def execLinkInfo (t : Nat) (d : Desc) (s : State) : Host.Outcome State Fault Refusal :=
  act s fun s => runOp s t 0x2D d linkInfoCheck linkInfo

end Sys2Proof.Machine
end

