-- ==== Sys2Proof/Machine/Piers.lean ====
section
/-!
DEFINITION. Piers (chapter 12): coefficients, the loops, states, faults and opcodes.
-/
namespace Sys2Proof.Machine

def pierFlag (s : State) (p mask : Nat) : State := flag s (pierKey p 0x144) mask
/-- The pier's loops run. -/
def PierMode.live : PierMode → Bool
  | .torque => true
  | .velocity => true
  | .position => true
  | _ => false
/-- Channels of a pier. -/
def State.posCh (s : State) (p : Nat) : Nat := s.fld (pierKey p 4) 0 6
def State.commCh (s : State) (p : Nat) : Nat := s.fld (pierKey p 4) 8 6
def State.hallCh (s : State) (p : Nat) : Nat := s.fld (pierKey p 4) 16 6
/-- Whether the pier drives PWMX pins, and its stage. -/
def State.onPwmx (s : State) (p : Nat) : Bool := s.bitAt (pierKey p 0) 0
def State.pierStage (s : State) (p : Nat) : Nat := if s.onPwmx p then 16 + p else s.fld (pierKey p 0) 1 4
/-- The PWM channel of phase i. -/
def State.pierLeg (s : State) (p i : Nat) : Nat := if s.onPwmx p then 64 + 3 * p + i else 4 * s.fld (pierKey p 0) 1 4 + i

/-! Coefficients (R446 to R450). -/

/-- The register of each PIER_COEF parameter (Table 12-3). -/
def coefReg (i : Nat) : Nat := nth [0x44, 0x48, 0x4C, 0x50, 0x54, 0x58, 0x5C, 0x60, 0x68, 0x6C, 0x70, 0x74] (i - 1)
/-- The range of each parameter. -/
def coefRange (i : Nat) : Nat × Nat := if i = 7 then (0, 33554432) else if i = 10 then (50, 100) else (0, 0xFFFFFFFF)
/-- A coefficient in force. -/
def Pier.k (x : Pier) (i : Nat) : Nat := nth x.coef (i - 1)
/-- The coefficients as registers and overrides give them (R449, R450). -/
def State.coefs (s : State) (p : Nat) : List Nat :=
  (List.range 12).map fun i =>
    match storeGet (fun _ => 0) (s.pier p).ovr (i + 1) with
    | 0 => s.rd (pierKey p (coefReg (i + 1)))
    | v + 1 => v
/-- Sample rate of the loops, 4 × 10^8 / L. -/
def State.fs (s : State) : Rat := mkRat 400000000 s.tb.len
/-- A value as an unsigned register of f fraction bits. -/
def toReg (f : Nat) (q : Rat) : Nat := min (toQ f q).toNat 0xFFFFFFFF
/-- Derive the coefficients from the motor data and bandwidths (R446, R447). -/
def deriveCoefs (s : State) (p : Nat) : State :=
  if !s.bitAt (pierKey p 0x38) 0 then s
  else
    let fs := s.fs
    let t := 1 / fs
    let bi : Rat := s.fld (pierKey p 0x38) 2 14
    let bv : Rat := s.fld (pierKey p 0x38) 16 11
    let bp : Rat := s.fld (pierKey p 0x3C) 0 10
    let bi' := ratMin bi (fs / 10)
    let bv' := ratMin bv (bi' / 4)
    let bp' := ratMin bp (bv' / 4)
    let w (b : Rat) : Rat := 2 * ratPi * b
    let micro (off : Nat) : Rat := mkRat (s.fld (pierKey p off) 0 24) 1000000
    let jacc := ofQ 16 (s.rd (pierKey p 0x34))
    let kpv := jacc * w bv' * t
    let vals : List Nat :=
      [toReg 16 (w bi' * micro 0x28), toReg 16 (w bi' * micro 0x2C), toReg 16 (w bi' * mkRat (s.fld (pierKey p 0x24) 0 24) 1000 * t),
       toReg 16 kpv, toReg 24 (kpv * (w bv' / 4) * t * (s.fld (pierKey p 0x40) 0 5 : Rat)), toReg 24 (w bp' * t), 0x1000000,
       s.rd (pierKey p 0x34)]
    let s := (List.range 8).foldl (fun s i => s.wr (pierKey p (coefReg (i + 1))) (nth vals i)) s
    if bi' < bi ∨ bv' < bv ∨ bp' < bp then pierFlag s p 8 else s
/-- Biquad registers. -/
def State.bqType (s : State) (p i : Nat) : Nat := s.fld (pierKey p (0x80 + 0x10 * i)) 0 2
def State.bqF0 (s : State) (p i : Nat) : Nat := s.fld (pierKey p (0x80 + 0x10 * i)) 16 15
/-- A coefficient in Q2.30. -/
def toQ30 (q : Rat) : Int := satS 32 (toQ 30 q)
/-- The coefficients of a biquad (R440). -/
def State.bqCoef (s : State) (p i : Nat) : List Int :=
  match s.bqType p i with
  | 0 => []
  | 3 => ((s.pier p).bqRaw).getD i []
  | ty =>
    let cs := cosSin (mkRat (s.bqF0 p i) 1 / s.fs)
    let q := mkRat (s.fld (pierKey p (0x84 + 0x10 * i)) 0 16) 256
    let al := if q = 0 then 0 else cs.2 / (2 * q)
    let a0 := 1 + al
    let b0 := if ty = 1 then 1 else (1 - cs.1) / 2
    let b1 := if ty = 1 then -2 * cs.1 else 1 - cs.1
    [toQ30 (b0 / a0), toQ30 (b1 / a0), toQ30 (b0 / a0), toQ30 (-2 * cs.1 / a0), toQ30 ((1 - al) / a0)]
/-- Coefficients and filters in force are taken from the registers (R450). -/
def takeCoefs (s : State) (p : Nat) : State :=
  s.updPier p fun x => { x with coef := s.coefs p, bq := (List.range 4).map (s.bqCoef p) }

/-! Disabling and faults. -/

/-- The legs of a pier go to the off state. -/
def pierLegsOff (s : State) (p : Nat) : State :=
  let s := (List.range 3).foldl (fun s i => setShadow s (s.pierLeg p i) .off) s
  legsOff (if s.onPwmx p then s else setShadow s (s.pierLeg p 3) .off) (s.pierStage p)
/-- A pier's alignment completes. -/
def alignEnd (s : State) (p status res : Nat) : State :=
  match (s.pier p).alignJob.bind s.job? with
  | some j => complete (s.updPier p fun x => { x with alignJob := none }) j status res
  | none => s.updPier p fun x => { x with alignJob := none }
/-- A pier leaves its loops for DISABLED or FAULT: overrides end (R449) and its legs go off (R426). -/
def pierDown (s : State) (p : Nat) (m : PierMode) (cause : Nat) : State :=
  let s := pierLegsOff s p
  let s := s.updAxis p fun x => { x.still with src := .own }
  s.updPier p fun x =>
    { x with mode := m, cause := cause, ovr := [], overPend := [], coef := [], volt := none, isat := false, vsat := false,
             inpos := false, feRun := 0, inRun := 0, missRun := 0, posOff := false, alignLeft := 0 }
/-- A pier becomes DISABLED. -/
def pierDisabled (s : State) (p : Nat) : State := pierDown s p .disabled 0
/-- The status of the descriptors of a pier that faults (R466). -/
def faultStatus (cause : Nat) : Nat := if cause = 1 then 0x51 else if cause = 2 ∨ cause = 6 then 0x52 else 0x13
/-- A stay whose follower cannot follow is released. -/
def dropStayOf (s : State) (a status : Nat) : State :=
  match s.stayOf a with
  | some y => stayDrop s y status
  | none => s
/-- A pier faults (R466). -/
def pierFault (s : State) (p cause : Nat) : State :=
  let m := (s.pier p).mode
  if m = .disabled ∨ m = .fault then s
  else
    let st := faultStatus cause
    let s := dropStayOf (abortGroupOf s p st cause) p st
    let s := alignEnd (axisEnd s p st cause) p st cause
    pierFlag (pierDown s p .fault cause) p 2
/-- Entry to STANDBY or SAFE HOLD (R460). -/
def pierForced (s : State) (p : Nat) : State :=
  let m := (s.pier p).mode
  let s := alignEnd (axisEnd s p 0x13 0) p 0x13 0
  if m = .disabled ∨ m = .fault then s else pierDisabled s p
/-- A pier that is not in VELOCITY or POSITION mode starts from what it does: its actual position and velocity. -/
def fromActual (s : State) (p : Nat) : State :=
  if (s.pier p).mode = .torque then
    s.updAxis p fun x => { x with p := s.actualPos p, lastP := s.actualPos p, v := (s.fb (s.posCh p)).snapVel, a := 0, gen := .hold }
  else s
/-- The pier's ramp-stop: in VELOCITY mode unless it is in POSITION mode. -/
def pierRamp (s : State) (p : Nat) : State :=
  let s := fromActual s p
  let s := s.updPier p fun x =>
    { x with mode := if x.mode = .torque then .velocity else x.mode, volt := none, iqCmd := 0, idCmd := 0 }
  rampAxis s p
/-- A hold (R459, R112): POSITION mode at the actual position, or VELOCITY mode at rest when POS_CH is suspect. -/
def pierHold (s : State) (p : Nat) : State :=
  if !(s.pier p).mode.live then s
  else
    let s := axisEnd s p 0x13 0
    let s := s.updAxis p fun x => { x.standAt (s.actualPos p) with src := .own }
    let bad := (s.fb (s.posCh p)).suspect
    s.updPier p fun x =>
      { x with mode := if bad then .velocity else .position, volt := none, iqCmd := 0, idCmd := 0, posOff := false, feRun := 0 }

/-! Motion at the boundary (R452 to R458). -/

/-- PIER_ENABLE takes effect (R452). -/
def pierEnableNow (s : State) (p mode : Nat) (job : Option Nat) : State :=
  let fin (s : State) (st res : Nat) : State :=
    match job.bind s.job? with
    | some j => complete s j st res
    | none => s
  if (s.pier p).mode ≠ .disabled then fin s 0x13 2
  else
    let s := deriveCoefs s p
    let s := s.updAxis p fun x => { x.standAt (s.actualPos p) with src := .own, limStop := false }
    let s := s.updPier p fun x =>
      { x with
        mode := if mode = 2 then .torque else if mode = 3 then .velocity else .position
        cause := 0
        e := s.tb.spanIx
        bqState := [(0, 0), (0, 0), (0, 0), (0, 0)]
        intD := 0
        intQ := 0
        intV := 0
        vCmd := 0
        uHeld := 0
        iqCmd := 0
        idCmd := 0
        volt := none
        feRun := 0
        inRun := 0
        missRun := 0
        posOff := false }
    fin s 0 s.spanCount
/-- A disable takes effect (R457); it ends an alignment. -/
def pierDisableNow (s : State) (p : Nat) : State :=
  disableDone (alignEnd (pierDisabled (supersede s p) p) p 0x13 0) p 0
/-- The mode a motion needs (R453): a change to POSITION mode sets p_ref to the actual position. -/
def pierMode (s : State) (p : Nat) (m : PierMode) : State :=
  let s := fromActual s p
  let s := if m = .position ∧ (s.pier p).mode ≠ .position then
      s.updAxis p fun x => { x with p := s.actualPos p, lastP := s.actualPos p }
    else s
  s.updPier p fun x =>
    { x with mode := m, volt := none, posOff := x.posOff && (s.fb (s.posCh p)).suspect, iqCmd := 0, idCmd := 0, feRun := 0 }
/-- A motion descriptor of a pier takes effect at the boundary. -/
def pierMotion (s : State) (p : Nat) (x : Motion × Option Nat) : State :=
  let live := (s.pier p).mode.live
  match x.1 with
  | .enable mode => pierEnableNow s p mode x.2
  | .disable ramp =>
    -- a pier in FAULT leaves it by PIER_CLEAR alone (R467)
    let s := s.updAxis p fun a => { a with disableAfter := a.disableAfter ++ x.2.toList }
    if (s.pier p).mode = .fault then s
    else if ramp && live then pierRamp (supersede s p) p
    else pierDisableNow s p
  | .move tgt v a d j m =>
    if !live then s
    else startMove (pierMode (setJob (supersede s p) p x.2 m) p .position) p tgt v a d j
  | .jog v a => if !live then s else startJog (pierMode (setJob (supersede s p) p x.2 false) p .velocity) p v a
  | .torque iq id =>
    if !live then s
    else
      let s := pierMode (setJob (supersede s p) p x.2 false) p .torque
      (s.updAxis p fun a => a.still).updPier p fun y => { y with iqCmd := iq, idCmd := id }
  | .stop =>
    if !live then s
    else
      let s := setJob (supersede s p) p x.2 false
      match (s.axis p).src, s.stayOf p with
      | .group g, _ => s.updGroup g fun y => { y with ctrl := y.ctrl ++ [(0, 0)] }
      | _, some y => stayRelease0 s y
      | _, none => pierRamp s p
  | _ => s
/-- Motions wait in order; each takes effect on what the one before it left. -/
def pierMotions (s : State) (p : Nat) : State :=
  let l := (s.axis p).next
  l.foldl (fun s x => pierMotion s p x) (s.updAxis p fun x => { x with next := [] })
/-- A span boundary of a pier; `changed` says that the span length changed (R440, R441, R446, R449, R450, R481). -/
def pierBoundary (s : State) (changed : Bool) (p : Nat) : State :=
  let s := s.updAxis p fun x => { x with stopDec := x.stopNext.getD x.stopDec, stopNext := none }
  let s := if changed then
      let s := (List.range 4).foldl (fun s i =>
        if s.bqType p i ≠ 0 ∧ s.fs ≤ 2 * (s.bqF0 p i : Rat) then pierFlag (s.setFld (pierKey p (0x80 + 0x10 * i)) 0 2 0) p 4 else s) s
      if (s.pier p).mode.live then deriveCoefs s p else s
    else s
  let x := s.pier p
  let s := x.bqPend.foldl (fun s b =>
    (s.setFld (pierKey p (0x80 + 0x10 * b.1)) 0 2 3).updPier p fun y => { y with bqRaw := y.bqRaw.set b.1 b.2 }) s
  let s := s.updPier p fun y =>
    { y with bqPend := [], overPend := [], ovr := y.overPend.foldl (fun m o => storePut (fun _ => 0) m o.1 o.2) y.ovr }
  let s := pierMotions s p
  if (s.pier p).mode.live || (s.pier p).mode == .aligning then takeCoefs s p else s

/-! The loops (R427 to R445). -/

/-- The phase currents in Q1.15, and their sum when THREE is used (R427). -/
def pierCurrents (s : State) (p : Nat) (m : Measured) : (Rat × Rat) × Option Int :=
  let w := s.rd (pierKey p 8)
  if s.onPwmx p || bit w 0 then ((((m.xsd.getD (2 * p) 0 : Int) : Rat), ((m.xsd.getD (2 * p + 1) 0 : Int) : Rat)), none)
  else
    let i (k : Nat) : Int := m.legs.getD (s.pierLeg p k) 0
    if bit w 1 then
      let sum := i 0 + i 1 + i 2
      (((i 0 : Rat) - (sum : Rat) / 3, (i 1 : Rat) - (sum : Rat) / 3), some sum)
    else (((i 0 : Rat), (i 1 : Rat)), none)
/-- A current in Q16.16 A from Q1.15 (R429). -/
def State.toAmp (s : State) (p : Nat) (q : Rat) : Int := ratRound (q * (2 * s.fld (pierKey p 0xC) 0 20 : Nat) / 1000)
/-- A current in Q1.15 from Q16.16 A (R5). -/
def State.toShare (s : State) (p : Nat) (i : Int) : Int :=
  let fs := s.fld (pierKey p 0xC) 0 20
  if fs = 0 then 0 else satS 16 (ratRound (mkRat (i * 500) fs))
/-- Bus voltage in mV (R430). -/
def State.pierBus (s : State) (p : Nat) (m : Measured) : Nat :=
  let w := s.rd (pierKey p 0x10)
  if s.onPwmx p || bit w 31 then bits w 0 17 else m.buses.getD (s.fld (pierKey p 0) 1 4) 0
/-- The mechanical angle from a position. -/
def State.thetaM (s : State) (p : Nat) (pos : Int) : Nat :=
  let cpr := s.rd (pierKey p 0x18)
  if cpr = 0 then 0 else ((pos % ((cpr : Int) * 65536)) * 65536 / (cpr : Int)).toNat
/-- POLE_PAIRS × θm. -/
def State.thetaP (s : State) (p : Nat) (pos : Int) : Nat := s.fld (pierKey p 0x14) 0 6 * s.thetaM p pos
/-- θe at the sample instant (R434). -/
def State.thetaE (s : State) (p : Nat) : Nat :=
  if (s.pier p).mode = .aligning then 0
  else if s.bitAt (pierKey p 4) 14 && !(s.pier p).aligned then
    ((s.fb (s.hallCh p)).sector.getD 0 * 2 ^ 32 / 6 + 2 ^ 32 / 12) % 2 ^ 32
  else (s.thetaP p (s.fb (s.commCh p)).snapPos + s.rd (pierKey p 0x1C)) % 2 ^ 32
/-- Electrical speed in turns per span. -/
def State.turnsPerSpan (s : State) (p : Nat) : Rat :=
  let cpr := s.rd (pierKey p 0x18)
  if cpr = 0 then 0 else ofQ 24 (s.fb (s.commCh p)).snapVel * (s.fld (pierKey p 0x14) 0 6 : Rat) / (cpr : Rat)
/-- Clamp a Q16.16 value, and whether the clamp acted. -/
def limitTo (x lo hi : Int) : Int × Bool := (clampI x lo hi, decide (x < lo) || decide (hi < x))
/-- One biquad, direct form II transposed (R439): output and new delays. -/
def biquad (c : List Int) (z : Int × Int) (x : Int) : Int × (Int × Int) :=
  match c with
  | [b0, b1, b2, a1, a2] =>
    let y := divRound (b0 * x + z.1) (2 ^ 30)
    (y, (b1 * x - a1 * y + z.2, b2 * x - a2 * y))
  | _ => (x, z)
/-- The four biquads in order. -/
def biquads : List (List Int) → List (Int × Int) → Int → Int × List (Int × Int)
  | c :: cs, z :: zs, x =>
    let r := biquad c z x
    let q := biquads cs zs r.1
    (q.1, r.2 :: q.2)
  | _, zs, x => (x, zs)
/-- sign(e) reduces |v|. -/
def reduces (e v : Int) : Bool := (decide (e < 0) && decide (0 < v)) || (decide (0 < e) && decide (v < 0))
/-- A Q16.16 product of a Q16.16 coefficient and a Q16.16 value, rounded. -/
def mul16 (k : Nat) (x : Int) : Int := divRound (k * x) 65536
/-- The d and q voltages of one span, the new integrators, and whether a clamp acted (R435). All in Q16.16. -/
def currentLoop (s : State) (p : Nat) (busMv : Nat) (id iq idRef iqRef : Int) : (Int × Int) × (Int × Int) × Bool :=
  let x := s.pier p
  let ed := idRef - id
  let eq := iqRef - iq
  let dec := s.bitAt (pierKey p 0x38) 1
  let we : Rat := s.turnsPerSpan p * 2 * ratPi * s.fs
  let micro (off : Nat) : Rat := mkRat (s.fld (pierKey p off) 0 24) 1000000
  let dd : Int := if dec then toQ 16 (-(we * micro 0x2C * ofQ 16 iq)) else 0
  let dq : Int := if dec then toQ 16 (we * (micro 0x28 * ofQ 16 id + micro 0x30)) else 0
  let vd0 := mul16 (x.k 1) ed + x.intD + dd
  let vq0 := mul16 (x.k 2) eq + x.intQ + dq
  let lim : Int := toQ 16 (mkRat busMv 1000 * (x.k 10 : Rat) / 100 / ratSqrt 3)
  let vd := limitTo vd0 (-lim) lim
  let lq : Int := isqrt (lim * lim - vd.1 * vd.1).toNat
  let vq := limitTo vq0 (-lq) lq
  let iD := if !vd.2 || reduces ed vd0 then x.intD + mul16 (x.k 3) ed else x.intD
  let iQ := if !vq.2 || reduces eq vq0 then x.intQ + mul16 (x.k 3) eq else x.intQ
  ((vd.1, vq.1), (iD, iQ), vd.2 || vq.2)
/-- Duties of the three legs for v_d and v_q at an angle in turns (R436). With no bus voltage the quotient is open. -/
def legDuties (vd vq : Int) (turns : Rat) (busMv : Nat) : List Rat :=
  let cs := cosSin turns
  let d := ofQ 16 vd
  let q := ofQ 16 vq
  let a := d * cs.1 - q * cs.2
  let b := d * cs.2 + q * cs.1
  let r3 := ratSqrt 3
  let ph : List Rat := [a, (b * r3 - a) / 2, (-(b * r3) - a) / 2]
  let hi := ph.foldl ratMax a
  let lo := ph.foldl ratMin a
  let z := -(hi + lo) / 2
  ph.map fun v =>
    if busMv = 0 then mkRat (Config.openValue 436 [vd, vq, turns.num, turns.den] % 65537) 65536
    else ratClamp (mkRat 1 2 + b64 ((v + z) / mkRat busMv 1000)) 0 1
/-- The duties go to the shadows of the pier's legs, with its brake leg (R421, R425). -/
def writeDuties (s : State) (p : Nat) (l : List Rat) : State :=
  let s := (List.range 3).foldl (fun s i => setShadow s (s.pierLeg p i) (.duty (l.getD i 0))) s
  if s.onPwmx p then s
  else if s.bitAt (pierKey p 0) 8 && (s.pier p).mode.live then
    setShadow s (s.pierLeg p 3) (.duty (mkRat (s.fld (pierKey p 0x64) 0 16) 65536))
  else setShadow s (s.pierLeg p 3) .off
/-- A following error (R444). -/
def followError (s : State) (p : Nat) : State :=
  let s := pierFlag (count s (pierKey p 0x14C)) p 1
  let s := s.updPier p fun x => { x with feRun := 0 }
  if s.bitAt (pierKey p 0x78) 0 then pierFault s p 1
  else
    let s := dropStayOf (abortGroupOf s p 0x51 0) p 0x51
    rampAxis (axisDone s p 0x51 0) p
/-- The position loop (R442, R444). -/
def positionLoop (s : State) (p : Nat) : State :=
  let x := s.pier p
  let a := s.axis p
  let ep := posDiff a.p (s.fb (s.posCh p)).snapPos
  let vmax : Rat := ofQ 16 (x.k 11)
  let v := ofQ 24 (x.k 6) * ofQ 16 ep + ofQ 24 (x.k 7) * ofQ 24 a.v
  let run := if (x.k 12 : Int) * 65536 < (ep.natAbs : Int) then x.feRun + 1 else 0
  let s := s.setPier p { x with vCmd := toVel (ratClamp v (-vmax) vmax), feRun := run }
  if max 1 (s.fld (pierKey p 0x78) 4 8) ≤ run then followError s p else s
/-- The velocity loop (R438). -/
def velocityLoop (s : State) (p : Nat) : State :=
  let x := s.pier p
  let ev := x.vCmd - (s.fb (s.posCh p)).snapVel
  let u := toQ 16 (ofQ 16 (x.k 4) * ofQ 24 ev) + x.intV + toQ 16 (ofQ 16 (x.k 8) * ofQ 32 (s.axis p).a)
  let iv := if u.natAbs ≤ x.k 9 || reduces ev u then x.intV + toQ 16 (ofQ 24 (x.k 5) * ofQ 24 ev) else x.intV
  s.setPier p { x with intV := iv, uHeld := u }
/-- In-position (R445). -/
def inPosition (s : State) (p : Nat) : State :=
  let x := s.pier p
  let a := s.axis p
  let ep := posDiff a.p (s.fb (s.posCh p)).snapPos
  let w := s.rd (pierKey p 0x7C)
  let ok := x.mode == .position && a.p == a.lastP && decide (ep.natAbs ≤ bits w 0 16 * 65536)
  let run := if ok then x.inRun + 1 else 0
  s.setPier p { x with inRun := run, inpos := ok && decide (max 1 (bits w 16 8) ≤ run), ferr := satS 32 (divRound ep 65536) }
/-- Filters, the current loop and the duties of one span. -/
def driveLoop (s : State) (p : Nat) (m : Measured) (θ : Nat) : State :=
  let x := s.pier p
  let cs := cosSin (mkRat θ (2 ^ 32))
  let raw := (pierCurrents s p m).1
  let iu := ofQ 16 (s.toAmp p raw.1)
  let iv := ofQ 16 (s.toAmp p raw.2)
  let beta := (iu + 2 * iv) / ratSqrt 3
  let id := toQ 16 (iu * cs.1 + beta * cs.2)
  let iq := toQ 16 (beta * cs.1 - iu * cs.2)
  let imax : Int := x.k 9
  let u := if x.mode = .torque then s.toAmp p (x.iqCmd : Rat) else if x.mode = .aligning then 0 else x.uHeld
  let f := if x.mode = .aligning then (u, x.bqState) else biquads x.bq x.bqState u
  let iqRef := limitTo f.1 (-imax) imax
  let idRef := limitTo (if x.mode = .torque ∨ x.mode = .aligning then s.toAmp p (x.idCmd : Rat) else 0) (-imax) imax
  let bus := s.pierBus p m
  let adv := s.turnsPerSpan p * (s.fld (pierKey p 0x20) 0 16 : Rat) / (s.tb.len : Rat)
  let turns := if x.mode = .aligning then 0 else mkRat θ (2 ^ 32) + adv
  let x := { x with theta := θ, idMeas := s.toShare p id, iqMeas := s.toShare p iq, bqState := f.2, isat := iqRef.2 || idRef.2 }
  match x.volt with
  | some (vd, vq, ang) =>
    writeDuties (s.setPier p { x with vsat := false }) p (legDuties vd vq (mkRat ang (2 ^ 32)) bus)
  | none =>
    let r := currentLoop s p bus id iq idRef.1 iqRef.1
    let s := s.setPier p { x with intD := r.2.1.1, intQ := r.2.1.2, vsat := r.2.2 }
    writeDuties (if r.2.2 then count s (pierKey p 0x150) else s) p (legDuties r.1.1 r.1.2 turns bus)
/-- The sense sum of a pier at a sample instant (R428): faults after two in a row beyond tolerance. -/
def senseCheck (s : State) (p : Nat) (m : Measured) : State :=
  match (pierCurrents s p m).2 with
  | none => s.updPier p fun x => { x with senseRun := 0, senseOk := x.senseOk + 1 }
  | some sum =>
    if s.fld (pierKey p 8) 8 8 * 128 < sum.natAbs then
      let s := s.updPier p fun x => { x with senseRun := x.senseRun + 1, senseOk := 0 }
      if 2 ≤ (s.pier p).senseRun then pierFault s p 3 else s
    else s.updPier p fun x => { x with senseRun := 0, senseOk := x.senseOk + 1 }
/-- POS_CH is suspect in POSITION mode (R462). -/
def suspectReaction (s : State) (p : Nat) : State :=
  if (s.pier p).mode ≠ .position ∨ !(s.fb (s.posCh p)).suspect then s
  else if s.bitAt (pierKey p 0x78) 1 then pierFault s p 6
  else
    let s := dropStayOf (abortGroupOf s p 0x52 0) p 0x52
    let s := axisDone s p 0x52 0
    (rampAxis s p).updPier p fun x => { x with mode := .velocity, posOff := true, feRun := 0 }
/-- The commutation channel of a live pier fails (R463). -/
def commCheck (s : State) (p : Nat) : State :=
  let n := s.commCh p
  let f := s.fb n
  if f.fault || (decide (2 ≤ s.fbMode n) && f.suspect) then pierFault s p 2 else s
/-- Whether a stage is frozen by a debug halt (R461). -/
def State.frozen (s : State) (st : Nat) : Bool := (s.stage st).frozenAt.isSome
/-- A stop on a group's axis ends when the group has stopped; a disable after a ramp ends when the reference stands. -/
def pierEnds (s : State) (p : Nat) : State :=
  let x := s.axis p
  let s := match x.src with
    | .group g => if s.axisOp p = 0x16 ∧ (s.group g).state = .idle then axisDone s p 0 0 else s
    | _ => motionEnd s p ((s.pier p).inpos)
  if (s.axis p).disableAfter != [] && (s.axis p).stands then pierDisableNow s p else s
/-- One sample instant of a pier (R31, R33). -/
def pierSample (s : State) (m : Measured) (p : Nat) : State :=
  if s.frozen (s.pierStage p) then s
  else
    let s := senseCheck s p m
    if (s.pier p).mode = .disabled ∨ (s.pier p).mode = .fault then s
    else
      let s := suspectReaction (commCheck s p) p
      let x := s.pier p
      if x.mode = .disabled ∨ x.mode = .fault then s
      else if x.mode = .aligning then
        driveLoop (s.setPier p { x with alignLeft := x.alignLeft - 1 }) p m 0
      else
        let n := s.tb.spanIx - x.e
        let nv := max 1 (s.fld (pierKey p 0x40) 0 5)
        let np := max 1 (s.fld (pierKey p 0x40) 8 7)
        let s := if x.mode = .position ∧ n % np = 0 ∧ !x.posOff then positionLoop s p
          else if x.mode = .velocity then s.setPier p { x with vCmd := (s.axis p).v } else s
        if !(s.pier p).mode.live then s
        else
          let s := if (s.pier p).mode ≠ .torque ∧ n % nv = 0 then velocityLoop s p else s
          pierEnds (inPosition (driveLoop s p m (s.thetaE p)) p) p
/-- A pier missed the compute deadline, or met it (R37, R465). -/
def pierDeadline (s : State) (missed : Bool) (p : Nat) : State :=
  let x := s.pier p
  if !missed then (if x.missRun = 0 then s else s.setPier p { x with missRun := 0 })
  else
    let s := s.setPier p { x with missRun := x.missRun + 1 }
    if 2 ≤ x.missRun + 1 then pierFault s p 5 else s

/-! The opcodes of Table 12-4. -/

/-- The checks every pier opcode passes: format, grant, level, mode. -/
def pierCheck (named : Nat) (s2 : Bool) (bad : Desc → Bool) (expert : Bool) (mode : State → Desc → Option Nat) (s : State)
    (d : Desc) : Verdict :=
  let r := mode s d
  firstFail [(badFormat d named s2 || decide (32 ≤ d.p 0 1) || bad d, 0x14, 0), (!s.hasPier d.tenant (d.p 0 1), 0x11, 0),
    (expert && !s.expert d.tenant, 0x15, 0), (r.isSome, 0x13, r.getD 0)]
/-- A pier lacks the group or channels it drives with (R75, R451). -/
def State.pierLacks (s : State) (tn p : Nat) : Bool :=
  (!s.onPwmx p && !s.hasBg tn (s.fld (pierKey p 0) 1 4)) || !(s.hasFb tn (s.posCh p) || s.hasFbs tn (s.posCh p)) ||
    !(s.hasFb tn (s.commCh p) || s.hasFbs tn (s.commCh p))
/-- Whether a condition refuses for mode. -/
def modeIf (c : Bool) (res : Nat) : Option Nat := if c then some res else none
/-- PIER_ENABLE's checks (R451). -/
def pierEnableCheck (s : State) (d : Desc) : Verdict :=
  let p := d.p 0 1
  firstFail [(badFormat d (pm 0 2) false || decide (32 ≤ p) || decide (d.p 1 1 < 2) || decide (4 < d.p 1 1), 0x14, 0),
    (!s.hasPier d.tenant p || s.pierLacks d.tenant p, 0x11, 0), (!s.motionMode, 0x13, 1),
    ((s.pier p).mode != .disabled, 0x13, 2), (!(s.pier p).aligned && !s.bitAt (pierKey p 4) 14, 0x13, 3)]
/-- An opcode that waits for the boundary. -/
def pierWait (f : Desc → Motion) (s : State) (j : Job) : State :=
  (keep s { j with phase := .active }).updAxis (j.d.p 0 1) fun x => { x with next := x.next ++ [(f j.d, some j.id)] }
/-- A motion descriptor is refused: outside the motion modes, held, DISABLED or in FAULT, or (but for a stop) with a
reference that is not the pier's own (R453, R456, R473). -/
def pierMotionMode (stop : Bool) (s : State) (d : Desc) : Option Nat :=
  let p := d.p 0 1
  modeIf (s.noMotion d.tenant || !(s.pier p).mode.live || (!stop && !s.axisFree p)) 0
def pierAlignCheck (s : State) (d : Desc) : Verdict :=
  let p := d.p 0 1
  firstFail [(badFormat d (pm 0 1 ||| pm 4 6) false || decide (32 ≤ p) || d.p 8 2 == 0, 0x14, 0),
    (!s.hasPier d.tenant p || s.pierLacks d.tenant p, 0x11, 0), (s.noMotion d.tenant || (s.pier p).mode != .disabled, 0x13, 0)]
/-- PIER_ALIGN (R433). -/
def pierAlign (s : State) (j : Job) : State :=
  let p := j.d.p 0 1
  let s := (keep s { j with phase := .active }).updPier p fun x =>
    { x with
      mode := .aligning
      cause := 0
      alignLeft := j.d.p 8 2
      alignJob := some j.id
      idCmd := s.toShare p (j.d.pS 4 4)
      iqCmd := 0
      intD := 0
      intQ := 0 }
  takeCoefs s p
/-- PIER_ALIGN_DONE (R433). -/
def pierAlignDone (s : State) (p : Nat) : State :=
  let x := s.pier p
  if x.mode ≠ .aligning ∨ x.alignLeft ≠ 0 then s
  else
    let off := unsigned 32 (-(s.thetaP p (s.fb (s.commCh p)).snapPos : Int))
    let s := pierDisabled (s.wr (pierKey p 0x1C) off) p
    alignEnd (s.updPier p fun x => { x with aligned := true }) p 0 off
/-- PIER_MOVE (R454). -/
def pierMove (s : State) (j : Job) : State :=
  let p := j.d.p 0 1
  let v := j.d.p 12 4
  let mx := s.maxSpeed p
  admitMotion s j p (.move (j.d.pS 4 8) (min v mx) (j.d.p 16 4) (j.d.p 16 4) 0 (decide (mx < v)))
    (ratSign (ofQ 16 (posDiff (j.d.pS 4 8) (s.axis p).p)))
/-- PIER_JOG. -/
def pierJog (s : State) (j : Job) : State :=
  admitMotion s j (j.d.p 0 1) (.jog (j.d.pS 4 4) (j.d.p 8 4)) (ratSign (ofQ 16 (j.d.pS 4 4)))
/-- PIER_TORQUE: currents convert on receipt (R5). -/
def pierTorque (s : State) (j : Job) : State :=
  let p := j.d.p 0 1
  pierWait (fun d => .torque (s.toShare p (d.pS 4 4)) (s.toShare p (d.pS 8 4))) s j
/-- PIER_COEF (R449). -/
def pierCoef (s : State) (j : Job) : State :=
  let i := j.d.p 1 1
  let v := j.d.p 4 4
  let r := coefRange i
  let a := max r.1 (min v r.2)
  let s := s.updPier (j.d.p 0 1) fun x => { x with overPend := storePut (fun _ => 0) x.overPend i (a + 1) }
  if a = v then complete s j 0 0 else complete s j 3 (i + 2 ^ 32 * a)
/-- PIER_FILTER. -/
def doPierFilter (s : State) (d : Desc) : State :=
  s.updPier (d.p 0 1) fun x =>
    { x with bqPend := x.bqPend ++ [(d.p 1 1, (List.range 5).map fun i => d.pS (4 + 4 * i) 4)] }
/-- PIER_VOLT (R458). -/
def doPierVolt (s : State) (d : Desc) : State :=
  (supersede s (d.p 0 1)).updPier (d.p 0 1) fun x => { x with volt := some (d.pS 4 4, d.pS 8 4, d.p 12 4) }
/-- Whether the cause of a pier's fault is gone (R467). -/
def State.pierGone (s : State) (p : Nat) : Bool :=
  let ok (n : Nat) : Bool := !(s.fb n).suspect && !(s.fb n).fault
  match (s.pier p).cause with
  | 2 => ok (s.commCh p)
  | 6 => ok (s.posCh p)
  | 3 => decide (2 ≤ (s.pier p).senseOk)
  | 4 => !(s.stage (s.pierStage p)).fault
  | _ => true
/-- PIER_CLEAR (R467). -/
def pierClear (s : State) (j : Job) : State :=
  let p := j.d.p 0 1
  if (s.pier p).mode = .fault ∧ s.pierGone p then
    complete (disableDone (s.updPier p fun x => { x with mode := .disabled, cause := 0 }) p 0) j 0 1
  else complete s j 0 0
/-- The Hall edge of R434: COMM_OFF such that θe is the angle of the edge between two sectors. -/
def hallAlign (s : State) (n old new : Nat) : State :=
  (List.range 32).foldl (fun s p =>
    if s.bitAt (pierKey p 4) 14 && s.hallCh p == n && !(s.pier p).aligned then
      let edge : Nat := (if (new + 6 - old) % 6 = 1 then new else old) * 2 ^ 32 / 6
      let off := unsigned 32 ((edge : Int) - s.thetaP p (s.fb (s.commCh p)).pos)
      (s.wr (pierKey p 0x1C) off).updPier p fun x => { x with aligned := true }
    else s) s
/-- A change of Hall code: the sample (R386, R387), and the alignment of piers at the first change of sector. -/
def hallChange (s : State) (n code : Nat) : State :=
  let old := (s.fb n).sector
  let s := hallSample s n code
  match old, (s.fb n).sector with
  | some a, some b => if (b + 6 - a) % 6 = 1 ∨ (b + 6 - a) % 6 = 5 then hallAlign s n a b else s
  | _, _ => s

/-! The checks of the plain opcodes of Table 12-4. -/

def pierDisableCheck : State → Desc → Verdict := pierCheck (pm 0 1 ||| pb 1 1) false (fun _ => false) false fun _ _ => none
def pierMoveCheck : State → Desc → Verdict := pierCheck (pm 0 1 ||| pm 4 16) false (fun _ => false) false (pierMotionMode false)
def pierJogCheck : State → Desc → Verdict := pierCheck (pm 0 1 ||| pm 4 8) false (fun _ => false) false (pierMotionMode false)
def pierStopCheck : State → Desc → Verdict := pierCheck (pm 0 1) false (fun _ => false) false (pierMotionMode true)
def pierCoefCheck : State → Desc → Verdict :=
  pierCheck (pm 0 2 ||| pm 4 4) false (fun d => d.p 1 1 == 0 || decide (12 < d.p 1 1)) true fun _ _ => none
def pierFilterCheck : State → Desc → Verdict :=
  pierCheck (pm 0 2 ||| pm 4 20) true (fun d => decide (4 ≤ d.p 1 1)) true fun _ _ => none
def pierVoltCheck : State → Desc → Verdict :=
  pierCheck (pm 0 1 ||| pm 4 12) false (fun _ => false) true fun s d =>
    modeIf (s.mode == .run || s.noMotion d.tenant || !(s.pier (d.p 0 1)).mode.live) 0
def pierClearCheck : State → Desc → Verdict := pierCheck (pm 0 1) false (fun _ => false) false fun _ _ => none

/-! The commands. -/

/-- HALL_CODE_CHANGE (R386, R434). -/
def execHallCodeChange (t : Nat) (n : Fin 40) (code : Fin 8) (s : State) : Host.Outcome State Fault Refusal :=
  act s fun s => hallChange (advance s t) n code
/-- PIER_ENABLE (R451, R452). -/
def execPierEnable (t : Nat) (d : Desc) (s : State) : Host.Outcome State Fault Refusal :=
  act s fun s => runOp s t 0x10 d pierEnableCheck (pierWait fun d => .enable (d.p 1 1))
/-- PIER_DISABLE (R457). -/
def execPierDisable (t : Nat) (d : Desc) (s : State) : Host.Outcome State Fault Refusal :=
  act s fun s => runOp s t 0x11 d pierDisableCheck
    (pierWait fun d => .disable (bit (d.p 1 1) 0))
/-- PIER_ALIGN (R433). -/
def execPierAlign (t : Nat) (d : Desc) (s : State) : Host.Outcome State Fault Refusal :=
  act s fun s => runOp s t 0x12 d pierAlignCheck pierAlign
/-- PIER_ALIGN_DONE (R433). -/
def execPierAlignDone (t : Nat) (p : Fin 32) (s : State) : Host.Outcome State Fault Refusal :=
  act s fun s => pierAlignDone (advance s t) p
/-- PIER_MOVE (R454). -/
def execPierMove (t : Nat) (d : Desc) (s : State) : Host.Outcome State Fault Refusal :=
  act s fun s => runOp s t 0x13 d pierMoveCheck pierMove
/-- PIER_JOG (R443). -/
def execPierJog (t : Nat) (d : Desc) (s : State) : Host.Outcome State Fault Refusal :=
  act s fun s => runOp s t 0x14 d pierJogCheck pierJog
/-- PIER_TORQUE (R443). -/
def execPierTorque (t : Nat) (d : Desc) (s : State) : Host.Outcome State Fault Refusal :=
  act s fun s => runOp s t 0x15 d pierJogCheck pierTorque
/-- PIER_STOP (R453, R456). -/
def execPierStop (t : Nat) (d : Desc) (s : State) : Host.Outcome State Fault Refusal :=
  act s fun s => runOp s t 0x16 d pierStopCheck
    (pierWait fun _ => .stop)
/-- PIER_COEF (R449). -/
def execPierCoef (t : Nat) (d : Desc) (s : State) : Host.Outcome State Fault Refusal :=
  act s fun s => runOp s t 0x17 d pierCoefCheck pierCoef
/-- PIER_FILTER (R439). -/
def execPierFilter (t : Nat) (d : Desc) (s : State) : Host.Outcome State Fault Refusal :=
  act s fun s => runOp s t 0x18 d pierFilterCheck (andDone doPierFilter)
/-- PIER_VOLT (R458). -/
def execPierVolt (t : Nat) (d : Desc) (s : State) : Host.Outcome State Fault Refusal :=
  act s fun s => runOp s t 0x19 d pierVoltCheck (andDone doPierVolt)
/-- PIER_CLEAR (R467). -/
def execPierClear (t : Nat) (d : Desc) (s : State) : Host.Outcome State Fault Refusal :=
  act s fun s => runOp s t 0x1A d pierClearCheck pierClear

end Sys2Proof.Machine
end

