-- ==== Sys2Proof/Machine/Sg.lean ====
section
/-!
DEFINITION. Step generators and limit inputs (chapter 14).
-/
namespace Sys2Proof.Machine

def sgFlag (s : State) (n mask : Nat) : State := flag s (sgKey n 0x44) mask
/-- Pin mode, and the resolution code r. -/
def State.sgPins (s : State) (n : Nat) : Bool := s.bitAt (sgKey n 0) 0
def State.sgRes (s : State) (n : Nat) : Nat := s.fld (sgKey n 0) 5 4
def State.sgGroup (s : State) (n : Nat) : Nat := s.fld (sgKey n 0) 1 4
/-- One output step in Q48.16 counts. -/
def State.sgStep (s : State) (n : Nat) : Nat := 65536 * 2 ^ (8 - s.sgRes n)

/-! The phase accumulator (R519 to R521). -/

/-- The total phase Φ at a tick. It does not advance in a debug halt (R539) nor beyond a hard limit stop (R533). -/
def Sg.phase (x : Sg) (now : Nat) : Int :=
  if !x.enabled || x.halted then x.phi
  else
    let t := (x.stopAt.map fun e => min e now).getD now
    let d : Int := x.inc * (t - x.phiAt)
    if x.neg then x.phi - d else x.phi + d
/-- Φ is brought up to a tick. -/
def Sg.settle (x : Sg) (now : Nat) : Sg := { x with phi := x.phase now, phiAt := now }
/-- Whole steps of a phase. -/
def stepsOf (phi : Int) : Int := phi / (2 ^ 48 : Nat)
/-- The highest increment (R520). -/
def maxInc : Nat := 2 ^ 48 / 80
/-- What R519 asks for: the increment and whether the direction is negative. -/
def State.sgWant (s : State) (n : Nat) : Nat × Bool :=
  let r := s.sgRes n
  let target : Int := s.refAhead (32 + n) * (2 ^ (24 + r) : Nat)
  let d := signed (88 + r) (unsigned (88 + r) (target - (s.sg n).phi))
  (d.natAbs / max 1 s.tb.len, decide (d < 0))
/-- A generator takes its increment for the span that opens (R519, R520, R525, R530). -/
def sgRate (s : State) (n : Nat) : State :=
  let x := s.sg n
  if !x.enabled || x.fault then s
  else
    let w := match x.raw with
      | some r => r
      | none => s.sgWant n
    let ovr := decide (maxInc < w.1)
    let inc := min w.1 maxInc
    let neg := if inc = 0 then x.neg else w.2
    let high := neg == s.bitAt (sgKey n 0) 12
    let turn := inc != 0 && s.sgPins n && high != x.dirHigh
    let s := s.setSg n
      { x with
        inc := inc
        neg := neg
        rateSat := ovr
        standstill := x.standstill && inc == 0
        ramp := if inc = 0 then x.ramp else 0
        holdNow := x.holdNow && inc == 0
        dirHigh := if turn then high else x.dirHigh
        dirAt := if turn then some s.now else x.dirAt }
    flagIf s ovr (sgKey n 0x44) 4

/-! Coil current (R528 to R531). -/

/-- The current I in mA. -/
def State.sgAmps (s : State) (n : Nat) : Rat :=
  let x := s.sg n
  let run : Rat := s.fld (sgKey n 8) 0 14
  let hold := run * (s.fld (sgKey n 8) 16 7 : Rat) / 100
  if x.holdNow then hold else if x.standstill then run - (run - hold) * (min x.ramp 16 : Nat) / 16 else run
/-- The coil setpoints in Q1.15 of `SG_IFS`. -/
def State.sgSet (s : State) (n : Nat) : Int × Int :=
  match (s.sg n).coil with
  | some c => c
  | none =>
    let m : Int := s.sgPos n / 65536
    let cs := cosSin (mkRat ((m + 128) % 1024) 1024)
    let fs : Rat := s.fld (sgKey n 0xC) 0 20
    let i := if fs = 0 then 0 else s.sgAmps n / fs
    (toQ15 (i * cs.1), toQ15 (i * cs.2))
/-- The current of a coil in Q1.15, from the two legs of its bridge. -/
def coilOf (a b : Int) : Int := (a - b) / 2
/-- The quiet regulator of one coil: the voltage asked for and the new integrator, in Q16.16. -/
def quietStep (s : State) (n : Nat) (setQ i int : Int) : Int × Int :=
  let w := 2 * ratPi * s.fs / 10
  let cfg := s.rd (sgKey n 0x24)
  let fs := mkRat (s.fld (sgKey n 0xC) 0 20) 1000
  let e := ofQ 15 (setQ - i) * fs
  let kp := w * mkRat (bits cfg 16 16) 1000000
  let ki := w * mkRat (bits cfg 0 16) 1000 / s.fs
  (toQ 16 (kp * e) + int, int + toQ 16 (ki * e))
/-- The duties of a coil's two legs. With no bus voltage the quotient is open. -/
def coilDuties (v : Int) (busMv : Nat) : Rat × Rat :=
  let d := if busMv = 0 then mkRat (Config.openValue 528 [v] % 32769) 65536 else b64 (ofQ 16 v / mkRat (2 * busMv) 1000)
  (ratClamp (mkRat 1 2 + d) 0 1, ratClamp (mkRat 1 2 - d) 0 1)

/-! Stopping. -/

/-- The legs of a generator on a bridge group go off, and STEPn is low (R527, R537, R540). -/
def sgQuiet (s : State) (n : Nat) : State :=
  let s := s.updSg n fun x =>
    { x.settle s.now with inc := 0, stepHigh := false, raw := none, coil := none, rateSat := false, stopAt := none }
  if s.sgPins n then s
  else legsOff ((List.range 4).foldl (fun s i => setShadow s (4 * s.sgGroup n + i) .off) s) (s.sgGroup n)
/-- A generator becomes DISABLED; the position is kept. -/
def sgDisabled (s : State) (n : Nat) : State :=
  let s := sgQuiet s n
  (s.updAxis (32 + n) fun x => { x.still with src := .own }).updSg n fun x =>
    { x with enabled := false, standstill := false, ramp := 0, holdNow := false, holdAfter := false, chkBad := 0, chkRef := none }
/-- A generator faults (R540): cause 1 GROUP, 2 STALL. -/
def sgFault (s : State) (n cause : Nat) : State :=
  if !(s.sg n).enabled || (s.sg n).fault then s
  else
    let a := 32 + n
    let st := if cause = 2 then 0x51 else 0x13
    let s := axisEnd (dropStayOf (abortGroupOf s a st 0) a st) a st 0
    let s := (sgQuiet s n).updAxis a fun x => { x.still with src := .own }
    sgFlag (s.updSg n fun x => { x with fault := true, enabled := false, cause := cause }) n 1
/-- Entry to STANDBY or SAFE HOLD (R537). -/
def sgForced (s : State) (n : Nat) : State :=
  let s := axisEnd s (32 + n) 0x13 0
  if (s.sg n).enabled then sgDisabled s n else s
/-- A hold (R538): no step, p_ref at the emitted position, hold current at once. -/
def sgHold (s : State) (n : Nat) : State :=
  if !(s.sg n).enabled then s
  else
    let s := axisEnd s (32 + n) 0x13 0
    let s := s.updSg n fun x => { x.settle s.now with inc := 0, raw := none, coil := none, holdNow := true }
    s.updAxis (32 + n) fun x => { x.standAt (s.sgPos n) with src := .own }

/-! Motion at the boundary. -/

/-- Under SG_RATE and SG_COIL the reference follows the emitted position, with its rate as velocity (R545). -/
def sgFollow (s : State) (n : Nat) : State :=
  match (s.sg n).raw with
  | none => s
  | some r =>
    let v := divRound (min r.1 maxInc * s.tb.len * 2 ^ (8 - s.sgRes n) : Nat) (2 ^ 24)
    let v := if r.2 then -v else v
    let p := s.sgPos n
    s.updAxis (32 + n) fun x =>
      if v = 0 then x.standAt p
      else
        { x with
          p := p
          lastP := p
          v := v
          a := 0
          gen := .plan { from0 := s.tb.spanIx, p0 := ofQ 16 p, v0 := ofQ 24 v, legs := [], target := none } }
/-- A motion descriptor ends SG_RATE and SG_COIL. A reference that followed the emitted position starts from it. -/
def sgTake (s : State) (n : Nat) (job : Option Nat) (m : Bool) : State :=
  let s := setJob (supersede s (32 + n)) (32 + n) job m
  let s := if (s.sg n).raw.isSome then s.updAxis (32 + n) fun x => { x with p := s.sgPos n, lastP := s.sgPos n } else s
  s.updSg n fun x => { x with raw := none, coil := none, holdAfter := false }
/-- A disable completes (R543, R457). -/
def sgDisableNow (s : State) (n : Nat) : State := disableDone (sgDisabled (supersede s (32 + n)) n) (32 + n) 0
/-- The emitted position is set (R544). -/
def sgSetPos (s : State) (n : Nat) (p : Int) : State :=
  let k : Int := p / (s.sgStep n : Int)
  let s := s.updSg n fun x => { x with steps := k, phi := k * (2 ^ 48 : Nat), phiAt := s.now }
  s.updAxis (32 + n) fun x => x.standAt (s.sgPos n)
/-- SG_ENABLE takes effect (R536). -/
def sgEnableNow (s : State) (n : Nat) (job : Option Nat) : State :=
  let fin (s : State) (st res : Nat) : State :=
    match job.bind s.job? with
    | some j => complete s j st res
    | none => s
  let x := s.sg n
  if x.enabled || x.fault then fin s 0x13 2
  else
    let s := s.setSg n
      { x with enabled := true, inc := 0, phiAt := s.now, stopAt := none, lastStep := s.tb.spanIx, intA := 0, intB := 0,
               chopA := none, chopB := none, driveA := s.now, driveB := s.now, chkBad := 0, chkRef := none, strong := false,
               strongNext := none }
    fin (s.updAxis (32 + n) fun a => { a.standAt (s.sgPos n) with src := .own, limStop := false }) 0 0
/-- A motion descriptor of a generator takes effect at the boundary (R543 to R545). -/
def sgMotion (s : State) (n : Nat) (x : Motion × Option Nat) : State :=
  let a := 32 + n
  let on := (s.sg n).enabled
  match x.1 with
  | .enable _ => sgEnableNow s n x.2
  | .disable ramp =>
    -- a generator in FAULT leaves it by SG_CLEAR alone (R540)
    let s := s.updAxis a fun y => { y with disableAfter := y.disableAfter ++ x.2.toList }
    if (s.sg n).fault then s else if ramp && on then rampAxis (supersede s a) a else sgDisableNow s n
  | .move tgt v acc d j m => if on then startMove (sgTake s n x.2 m) a tgt v acc d j else s
  | .jog v acc => if on then startJog (sgTake s n x.2 false) a v acc else s
  | .stop =>
    if !on then s
    else
      let s := sgTake s n x.2 false
      match (s.axis a).src, s.stayOf a with
      | .group g, _ => s.updGroup g fun y => { y with ctrl := y.ctrl ++ [(0, 0)] }
      | _, some y => stayRelease0 s y
      | _, none => rampAxis s a
  | .rate inc neg => if on then (sgTake s n x.2 false).updSg n fun y => { y with raw := some (inc, neg) } else s
  | .coil ia ib => if on then (sgTake s n x.2 false).updSg n fun y => { y with raw := some (0, y.neg), coil := some (ia, ib) } else s
  | .setPos p => sgSetPos s n p
  | .hold => sgHold s n
  | _ => s
/-- Motions of a generator in order. -/
def sgMotions (s : State) (n : Nat) : State :=
  let l := (s.axis (32 + n)).next
  l.foldl (fun s x => sgMotion s n x) (s.updAxis (32 + n) fun x => { x with next := [] })
/-- A span boundary of a generator: what takes effect there. -/
def sgBoundary (s : State) (n : Nat) : State :=
  let s := s.updSg n fun x =>
    let y := x.settle s.now
    let y := if x.stopAt.isSome then { y with stopAt := none, phi := y.steps * (2 ^ 48 : Nat) + y.phi % (2 ^ 48 : Nat) } else y
    { y with ramp := if y.standstill then min 16 (y.ramp + 1) else y.ramp }
  let s := match (s.sg n).strongNext with
    | some b => count (s.updSg n fun x => { x with strong := b, strongNext := none, chopA := none, chopB := none, driveA := s.now, driveB := s.now })
        (sgKey n 0x58)
    | none => s
  sgMotions s n
/-- The increment of the span that opens, once every source of references stands for it. -/
def sgOpen (s : State) (n : Nat) : State :=
  let s := sgRate (sgFollow s n) n
  s.updSg n fun x => if x.holdAfter && (s.axis (32 + n)).stands && x.inc == 0 then { x with holdNow := true, holdAfter := false } else x

/-! The sample instant. -/

/-- The regulation mode for the next span (R528). -/
def sgMode (s : State) (n : Nat) : State :=
  let x := s.sg n
  let cfg := s.rd (sgKey n 0x14)
  let v := ratAbs (ofQ 24 (s.axis (32 + n)).v) * s.fs / 256
  let th : Rat := bits cfg 0 16
  let want : Bool :=
    match bits cfg 16 2 with
    | 1 => false
    | 2 => true
    | _ => if x.strong then !decide (v < mkRat 95 100 * th) else decide (mkRat 105 100 * th ≤ v)
  s.setSg n { x with strongNext := if want = x.strong then none else some want }
/-- The position check (R532). -/
def sgCheck (s : State) (n : Nat) : State :=
  let cfg := s.rd (sgKey n 0x28)
  let x := s.sg n
  if !bit cfg 6 then s
  else
    let f := s.fb (bits cfg 0 6)
    let pos := s.sgPos n
    if f.suspect || f.fault then s.setSg n { x with chkRef := none, chkBad := 0 }
    else match x.chkRef with
      | none => s.setSg n { x with chkRef := some (pos, f.snapPos), chkBad := 0 }
      | some (p0, c0) =>
        let d : Int := divRound (posDiff pos p0 * s.rd (sgKey n 0x2C)) 65536 - posDiff f.snapPos c0
        let bad := decide (bits cfg 16 16 * 65536 < d.natAbs)
        let s := s.setSg n { x with chkBad := if bad then x.chkBad + 1 else 0 }
        if bad && decide (1 ≤ x.chkBad) then sgFault s n 2 else s
/-- Quiet regulation of both coils, at the sample instant. -/
def sgCoils (s : State) (n : Nat) (m : Measured) : State :=
  let g := s.sgGroup n
  if s.sgPins n || s.frozen g then s
  else
    let i (k : Nat) : Int := m.legs.getD (4 * g + k) 0
    if (List.range 4).any fun k => decide (5 * 32768 < 4 * (i k).natAbs) then sgFault s n 1
    else
      let x := s.sg n
      if x.strong then (List.range 4).foldl (fun s k => setShadow s (4 * g + k) .low) s
      else
        let set := s.sgSet n
        let a := quietStep s n set.1 (coilOf (i 0) (i 1)) x.intA
        let b := quietStep s n set.2 (coilOf (i 2) (i 3)) x.intB
        let bus := m.buses.getD g 0
        let da := coilDuties a.1 bus
        let db := coilDuties b.1 bus
        let s := s.setSg n { x with intA := a.2, intB := b.2 }
        setShadow (setShadow (setShadow (setShadow s (4 * g) (.duty da.1)) (4 * g + 1) (.duty da.2)) (4 * g + 2) (.duty db.1))
          (4 * g + 3) (.duty db.2)
/-- A move ends when the emitted position has come to the target, within one output step (R521, R543). -/
def State.sgReached (s : State) (n : Nat) : Bool :=
  decide ((posDiff (s.sgPos n) (s.axis (32 + n)).p).natAbs ≤ s.sgStep n)
/-- Descriptors that end with the motion. -/
def sgEnds (s : State) (n : Nat) : State :=
  let a := 32 + n
  let x := s.axis a
  let s := match x.src with
    | .group g => if s.axisOp a = 0x34 ∧ (s.group g).state = .idle then axisDone s a 0 0 else s
    | _ => motionEnd s a (s.sgReached n)
  if (s.axis a).disableAfter != [] && (s.axis a).stands then sgDisableNow s n else s
/-- One sample instant of a generator. -/
def sgSample (s : State) (m : Measured) (n : Nat) : State :=
  if !(s.sg n).enabled then s
  else
    let s := sgCoils s n m
    let s := if (s.sg n).enabled then sgCheck s n else s
    if (s.sg n).enabled then sgEnds (sgMode s n) n else s

/-! Steps. -/

/-- STEP_EMIT (R519, R524, R525): a carry is due and the pin may rise. -/
def stepEmit (s : State) (n : Nat) : State :=
  let x := s.sg n
  let want := stepsOf (x.phase s.now)
  let width := s.fld (sgKey n 4) 0 12
  let setup := s.fld (sgKey n 4) 16 12
  let pins := s.sgPins n
  let after (a : Option Nat) (d : Nat) : Bool := (a.map fun v => decide (v + d ≤ s.now)).getD true
  if !x.enabled || x.halted || want == x.steps || (x.stopAt.map fun e => decide (e ≤ s.now)).getD false ||
      (pins && (x.stepHigh || !after x.dirAt setup || !after x.fallAt width)) then s
  else
    let s := s.setSg n
      { x with
        steps := if x.steps < want then x.steps + 1 else x.steps - 1
        lastStep := s.tb.spanIx
        stepHigh := pins
        riseAt := if pins then some s.now else x.riseAt }
    if x.stopAt.isSome then s.updAxis (32 + n) fun a => a.standAt (s.sgPos n) else s
/-- STEP_PULSE_END (R524). -/
def stepFall (s : State) (n : Nat) : State :=
  let x := s.sg n
  let w := s.fld (sgKey n 4) 0 12
  if x.stepHigh && (x.riseAt.map fun r => decide (r + w ≤ s.now)).getD false then
    s.setSg n { x with stepHigh := false, fallAt := some s.now }
  else s
/-- SG_STANDSTILL (R529). -/
def sgStandstill (s : State) (n : Nat) : State :=
  let x := s.sg n
  if x.enabled && !x.standstill && x.inc == 0 && decide (s.fld (sgKey n 0x10) 0 16 ≤ s.tb.spanIx - x.lastStep) then
    s.setSg n { x with standstill := true, ramp := 0 }
  else s

/-! Limit inputs (R533 to R535). -/

/-- The direction an axis moves in. -/
def State.axisDir (s : State) (a : Nat) : Int :=
  if a < 32 then
    if (s.pier a).mode = .torque then ratSign (ofQ 24 (s.fb (s.posCh a)).snapVel)
    else if (s.pier a).mode.live then ratSign (ofQ 24 (s.axis a).v) else 0
  else
    let x := s.sg (a - 32)
    if !x.enabled then 0
    else match x.raw with
      | some (inc, neg) => if inc = 0 then 0 else if neg then -1 else 1
      | none => ratSign (ofQ 24 (s.axis a).v)
/-- An axis stops at a limit in its direction (R533). -/
def limitStop (s : State) (a : Nat) : State :=
  let hard := !s.bitAt (0x19000 + 4 * a) 17
  let s := axisDone s a 0x50 0
  let s := abortGroupOf s a 0x50 0
  let s := match s.stayOf a with
    | some y => releaseDone (engageDone (stayRamp s y .released) y 0x50 0) y
    | none => s
  let s :=
    if a < 32 then
      let s := if hard then s.updAxis a fun x => { x with limStop := true } else pierRamp s a
      pierFlag s a 16
    else
      let n := a - 32
      let s := s.updSg n fun x => { x.settle s.now with raw := none, coil := none }
      let s := if hard then
          (s.updSg n fun x => { x with stopAt := some (s.now + 8) }).updAxis a fun x => { x.standAt (s.sgPos n) with src := .own }
        else rampAxis s a
      sgFlag s n 8
  count s 0x190D0
/-- The `LIM_STATE` bit of an axis. -/
def setLimState (s : State) (a : Nat) (on : Bool) : State := s.setFld (0x190C4 + 4 * (a / 32)) (a % 32) 1 (b2n on)
/-- One axis after a limit input changed. -/
def limitAxis (before : State) (s : State) (a : Nat) : State :=
  let pos := s.limActive a true
  let neg := s.limActive a false
  let dir := s.axisDir a
  let s := setLimState s a ((s.bitAt (0x190C4 + 4 * (a / 32)) (a % 32) && (pos || neg)) ||
    (pos && !before.limActive a true) || (neg && !before.limActive a false))
  if (pos && !before.limActive a true && decide (0 < dir)) || (neg && !before.limActive a false && decide (dir < 0)) then limitStop s a
  else s
/-- LIMIT_INPUT: a filtered level changes. -/
def limitInput (s : State) (i : Nat) (high : Bool) : State :=
  let s' := { s with limLevels := setBits s.limLevels i 1 (b2n high) }
  (List.range 48).foldl (limitAxis s) s'
/-- A pier stopped hard at a limit stands at its actual position from the next sample instant (R533). -/
def pierLimit (s : State) (p : Nat) : State :=
  if (s.axis p).limStop then
    let s := s.updAxis p fun x => { x.standAt (s.actualPos p) with src := .own, limStop := false }
    s.updPier p fun x => if x.mode = .torque then { x with mode := .position, iqCmd := 0, idCmd := 0 } else x
  else s

/-! The opcodes of Table 14-1. -/

def sgOpCheck (named : Nat) (bad : Desc → Bool) (expert : Bool) (mode : State → Desc → Option Nat) (s : State) (d : Desc) : Verdict :=
  let r := mode s d
  firstFail [(badFormat d named false || decide (16 ≤ d.p 0 1) || bad d, 0x14, 0), (!s.hasSg d.tenant (d.p 0 1), 0x11, 0),
    (expert && !s.expert d.tenant, 0x15, 0), (r.isSome, 0x13, r.getD 0)]
/-- A generator lacks the group it drives (R75). -/
def State.sgLacks (s : State) (tn n : Nat) : Bool := !s.sgPins n && !s.hasBg tn (s.sgGroup n)
def sgEnableCheck (s : State) (d : Desc) : Verdict :=
  let n := d.p 0 1
  firstFail [(badFormat d (pm 0 1) false || decide (16 ≤ n), 0x14, 0),
    (!s.hasSg d.tenant n || s.sgLacks d.tenant n, 0x11, 0), (!s.motionMode, 0x13, 1),
    ((s.sg n).enabled || (s.sg n).fault, 0x13, 2)]
/-- Whether a maximum speed needs more than the outputs give (R522). -/
def State.sgTooFast (s : State) (n vmax width : Nat) : Bool :=
  let f : Rat := mkRat vmax 65536 * s.fs / ((2 ^ (8 - s.sgRes n) : Nat) : Rat)
  decide (5000000 < f) || (s.sgPins n && width != 0 && decide (mkRat 400000000 (2 * width) < f))
/-- An opcode that waits for the boundary. -/
def sgWait (f : Desc → Motion) (s : State) (j : Job) : State :=
  (keep s { j with phase := .active }).updAxis (32 + j.d.p 0 1) fun x => { x with next := x.next ++ [(f j.d, some j.id)] }
/-- An opcode whose work is done at admission and which acts from the boundary. -/
def sgNext (s : State) (n : Nat) (m : Motion) : State := s.updAxis (32 + n) fun x => { x with next := x.next ++ [(m, none)] }
/-- SG_ENABLE (R522, R536). -/
def sgEnable (s : State) (j : Job) : State :=
  let n := j.d.p 0 1
  if s.sgTooFast n (s.rd (sgKey n 0x1C)) (s.fld (sgKey n 4) 0 12) then complete (sgFlag s n 2) j 0x13 4
  else sgWait (fun _ => .enable 0) s j
def sgMotionMode (stop : Bool) (s : State) (d : Desc) : Option Nat :=
  let n := d.p 0 1
  modeIf (s.noMotion d.tenant || !(s.sg n).enabled || (!stop && !s.axisFree (32 + n))) 0
/-- SG_MOVE (R523, R543). -/
def sgMove (s : State) (j : Job) : State :=
  let a := 32 + j.d.p 0 1
  let v := j.d.p 12 4
  let mx := s.maxSpeed a
  admitMotion s j a (.move (j.d.pS 4 8) (min v mx) (j.d.p 16 4) (j.d.p 16 4) 0 (decide (mx < v)))
    (ratSign (ofQ 16 (posDiff (j.d.pS 4 8) (s.axis a).p)))
/-- SG_JOG (R523). -/
def sgJog (s : State) (j : Job) : State :=
  let a := 32 + j.d.p 0 1
  let mx : Int := s.maxSpeed a
  admitMotion s j a (.jog (clampI (j.d.pS 4 4) (-mx) mx) (j.d.p 8 4)) (ratSign (ofQ 16 (j.d.pS 4 4)))
/-- SG_SET_POS (R544). -/
def sgSetPosOp (s : State) (j : Job) : State :=
  let n := j.d.p 0 1
  let p := j.d.pS 4 8
  let q : Int := p / (s.sgStep n : Int) * (s.sgStep n : Int)
  complete (sgNext s n (.setPos q)) j (if q = p then 0 else 3) 0
/-- SG_CLEAR (R540). -/
def sgClear (s : State) (j : Job) : State :=
  let n := j.d.p 0 1
  let x := s.sg n
  if x.fault && (x.cause == 2 || s.sgPins n || !(s.stage (s.sgGroup n)).fault) then
    complete (disableDone (s.setSg n { x with fault := false, cause := 0 }) (32 + n) 0) j 0 1
  else complete s j 0 0

/-! The checks of the plain opcodes. -/

def sgDisableCheck : State → Desc → Verdict := sgOpCheck (pm 0 1 ||| pb 1 1) (fun _ => false) false fun _ _ => none
def sgMoveCheck : State → Desc → Verdict := sgOpCheck (pm 0 1 ||| pm 4 16) (fun _ => false) false (sgMotionMode false)
def sgJogCheck : State → Desc → Verdict := sgOpCheck (pm 0 1 ||| pm 4 8) (fun _ => false) false (sgMotionMode false)
def sgStopCheck : State → Desc → Verdict := sgOpCheck (pm 0 1) (fun _ => false) false (sgMotionMode true)
def sgSetPosCheck : State → Desc → Verdict :=
  sgOpCheck (pm 0 1 ||| pm 4 8) (fun _ => false) false fun s d =>
    let x := s.sg (d.p 0 1)
    modeIf (!x.standstill && (x.enabled || x.fault)) 0
def sgRateCheck : State → Desc → Verdict :=
  sgOpCheck (pm 0 1 ||| pm 4 6 ||| pb 10 1) (fun _ => false) true (sgMotionMode false)
def sgCoilCheck : State → Desc → Verdict :=
  sgOpCheck (pm 0 1 ||| pm 4 4) (fun _ => false) true fun s d =>
    modeIf (s.mode == .run || s.sgPins (d.p 0 1) || (sgMotionMode false s d).isSome) 0
def sgClearCheck : State → Desc → Verdict := sgOpCheck (pm 0 1) (fun _ => false) false fun _ _ => none

/-! The commands. -/

/-- SG_ENABLE (R536). -/
def execSgEnable (t : Nat) (d : Desc) (s : State) : Host.Outcome State Fault Refusal :=
  act s fun s => runOp s t 0x30 d sgEnableCheck sgEnable
/-- SG_DISABLE (R543). -/
def execSgDisable (t : Nat) (d : Desc) (s : State) : Host.Outcome State Fault Refusal :=
  act s fun s => runOp s t 0x31 d sgDisableCheck
    (sgWait fun d => .disable (bit (d.p 1 1) 0))
/-- SG_MOVE (R543). -/
def execSgMove (t : Nat) (d : Desc) (s : State) : Host.Outcome State Fault Refusal :=
  act s fun s => runOp s t 0x32 d sgMoveCheck sgMove
/-- SG_JOG (R543). -/
def execSgJog (t : Nat) (d : Desc) (s : State) : Host.Outcome State Fault Refusal :=
  act s fun s => runOp s t 0x33 d sgJogCheck sgJog
/-- SG_STOP (R543). -/
def execSgStop (t : Nat) (d : Desc) (s : State) : Host.Outcome State Fault Refusal :=
  act s fun s => runOp s t 0x34 d sgStopCheck (sgWait fun _ => .stop)
/-- SG_SET_POS (R544). -/
def execSgSetPos (t : Nat) (d : Desc) (s : State) : Host.Outcome State Fault Refusal :=
  act s fun s => runOp s t 0x35 d sgSetPosCheck sgSetPosOp
/-- SG_RATE (R545). -/
def execSgRate (t : Nat) (d : Desc) (s : State) : Host.Outcome State Fault Refusal :=
  act s fun s => runOp s t 0x36 d sgRateCheck
    (andDone fun s d => sgNext s (d.p 0 1) (.rate (d.p 4 6) (bit (d.p 10 1) 0)))
/-- SG_COIL (R545). -/
def execSgCoil (t : Nat) (d : Desc) (s : State) : Host.Outcome State Fault Refusal :=
  act s fun s => runOp s t 0x37 d sgCoilCheck
    (andDone fun s d => sgNext s (d.p 0 1) (.coil (d.pS 4 2) (d.pS 6 2)))
/-- SG_CLEAR (R540). -/
def execSgClear (t : Nat) (d : Desc) (s : State) : Host.Outcome State Fault Refusal :=
  act s fun s => runOp s t 0x38 d sgClearCheck sgClear
/-- STEP_EMIT (R524, R525). -/
def execStepEmit (t : Nat) (n : Fin 16) (s : State) : Host.Outcome State Fault Refusal :=
  act s fun s => stepEmit (advance s t) n
/-- STEP_PULSE_END (R524). -/
def execStepPulseEnd (t : Nat) (n : Fin 16) (s : State) : Host.Outcome State Fault Refusal :=
  act s fun s => stepFall (advance s t) n
/-- SG_STANDSTILL (R529). -/
def execSgStandstill (n : Fin 16) (s : State) : Host.Outcome State Fault Refusal := act s fun s => sgStandstill s n
/-- LIMIT_INPUT (R533 to R535). -/
def execLimitInput (t : Nat) (i : Fin 48) (high : Bool) (s : State) : Host.Outcome State Fault Refusal :=
  act s fun s => limitInput (advance s t) i high

end Sys2Proof.Machine
end

