-- ==== Sys2Proof/Machine/Trips.lean ====
section
/-!
DEFINITION. Driving the legs, trips and their clearing, debug halt and the PWM opcodes (chapter 15; R641).
-/
namespace Sys2Proof.Machine

/-- A stage's outputs do not move: frozen, or waiting for its restart (R575, R577, R578). -/
def State.stopped (s : State) (st : Nat) : Bool := (s.stage st).frozenAt.isSome || (s.stage st).restart.isSome

/-! Trips (R568 to R574, Table 15-4). -/

/-- A number put into a rising list once. -/
def insCode (c : Nat) : List Nat → List Nat
  | [] => [c]
  | x :: l => if c < x then c :: x :: l else if c = x then x :: l else x :: insCode c l
/-- The axis that drives a stage faults with cause GROUP (R464, R531). -/
def tripAxis (s : State) (st : Nat) : State :=
  if st < 16 then
    match s.groupSrc st with
    | .pier p => pierFault s p 4
    | .sg n => sgFault s n 1
    | _ => s
  else if s.onPwmx (st - 16) then pierFault s (st - 16) 4 else s
/-- A condition of Table 15-4 is met (R568): further causes are latched; of causes in one tick the lowest code is kept. -/
def trip (s : State) (st cause : Nat) : State :=
  let x := s.stage st
  if x.fault then
    s.setStage st
      { x with latched := insCode cause x.latched, cause := if x.faultAt = s.now then min x.cause cause else x.cause }
  else
    let s := s.setStage st { x with fault := true, cause := cause, faultAt := s.now, latched := [cause], masks := 0, shoots := [] }
    stageFlag (count (tripAxis (legsOff s st) st) (stTripCnt st)) st 1
/-- The junction temperature of a footing. -/
def State.footTemp (s : State) (f : Nat) : Int := if f = 0 then s.pp.tFootA else s.pp.tFootB
/-- Whether a cause is gone (Table 15-4). -/
def State.causeGone (s : State) (st cause : Nat) : Bool :=
  let f := footOf st
  match cause with
  | 3 => decide ((s.stage st).busMv + 1000 ≤ s.fld (bgKey st 0x10) 0 16)
  | 4 => decide (10500 ≤ nth s.power.vgdMv f)
  | 5 => decide (s.footTemp f < 150)
  | 8 => (s.footing f).gdHigh
  | 9 => !(s.stage st).xfltLow
  | _ => true
/-- A clear attempt (R570, R572, R574). -/
def clearStage (s : State) (st : Nat) : State :=
  let x := s.stage st
  if !x.fault then s
  else if x.latched.all (s.causeGone st) then s.setStage st { x with fault := false, cause := 0, latched := [] }
  else stageFlag (count s (stDeniedCnt st)) st 8
/-- The groups of a footing, and the PWMX sets its pin serves (R571). -/
def footGroups (f : Nat) : List Nat := (List.range 8).map (8 * f + ·)
def footSets (f : Nat) : List Nat := (List.range 16).map (16 + 16 * f + ·)
/-- Every group of a footing trips. -/
def tripFooting (s : State) (f cause : Nat) : State := (footGroups f).foldl (fun s g => trip s g cause) s
def ftFlag (s : State) (f mask : Nat) : State := flag s (ftKey f 8) mask

/-! Legs (R550 to R561). -/

/-- The bits of a gate mask for a switch of a leg (Table 15-5). -/
def maskOf (masks leg : Nat) (high : Bool) : Nat := bits masks (4 * leg + if high then 0 else 2) 2
/-- A shoot-through request (R557, R558). -/
def shootThrough (s : State) (ch st : Nat) : State :=
  let x := s.pwm ch
  let s := s.setPwm ch
    { x with h := true, l := true, hSw := false, lSw := false, block := true, edgeAt := if x.hSw || x.lSw then s.now else x.edgeAt }
  let s := stageFlag (count s (stShootCnt st)) st 2
  let cfg := s.stCfg st
  let times := s.now :: (s.stage st).shoots.filter fun t => decide (s.now ≤ t + cfg.2)
  let s := s.updStage st fun y => { y with shoots := times.take 15 }
  if max 1 cfg.1 ≤ times.length then trip s st 6 else s
/-- The compare set a channel runs. -/
def State.cmpOf (s : State) (ch : Nat) : Cmp :=
  if ch < 64 then
    match s.groupSrc (ch / 4) with
    | .block => s.blockCmp (ch / 4) (ch % 4)
    | _ => (s.pwm ch).active
  else (s.pwm ch).active
/-- The generator whose chopper drives a leg (strong mode). -/
def State.chopper (s : State) (ch : Nat) : Option Nat :=
  if 64 ≤ ch then none
  else match s.groupSrc (ch / 4) with
    | .sg n => if (s.sg n).strong then some n else none
    | _ => none
/-- The pin of an AUX channel (R581). -/
def evalAux (s : State) (a t64 : Nat) : State :=
  let ch := 160 + a
  let x := s.pwm ch
  let u := s.aux a
  if u.frozen || u.restart.isSome then s
  else
    let on := inside (t64 - 64 * x.start) (x.active.high (64 * x.len) 64)
    s.setPwm ch { x with hSw := u.enabled && ((s.motionMode && on) != u.pol) }
/-- The commands and switches of a channel at a time; `sense` the leg's current (R550 to R561). -/
def evalLeg (s : State) (ch t64 : Nat) (bootOk : Bool) (sense : Int) : State :=
  if 160 ≤ ch then evalAux s (ch - 160) t64
  else
    let st := stageOf ch
    let leg := legOf ch
    let x := s.pwm ch
    if s.stopped st then s
    else if s.stageOff st then
      s.setPwm ch
        { x with
          hOff := if x.h then t64 else x.hOff
          lOff := if x.l then t64 else x.lOff
          edgeAt := if x.hSw || x.lSw then t64 / 64 else x.edgeAt
          h := false
          l := false
          hSw := false
          lSw := false }
    else
      let p := 64 * x.len
      let step := s.chanStep ch
      let τ := t64 - 64 * x.start
      let cmp := s.cmpOf ch
      let s := match s.chopper ch with
        | some n => chopStep s n (decide (2 ≤ leg)) (if leg < 2 then (s.sgSet n).1 else (s.sgSet n).2) sense
        | none => s
      let c := match s.chopper ch with
        | some n =>
          let g := s.sg n
          chopCmd (if leg < 2 then g.chopA else g.chopB) (if leg < 2 then (s.sgSet n).1 else (s.sgSet n).2) (leg % 2 == 0)
        | none => cmp.commands p step τ
      let m := (s.stage st).masks
      let h := maskCmd (maskOf m leg true) c.1
      let l := maskCmd (maskOf m leg false) c.2
      let forced := maskOf m leg true == 2 || maskOf m leg false == 2 || (s.chopper ch).isSome
      if x.block then
        s.updPwm ch fun y =>
          { y with
            h := h
            l := l
            hOff := if y.h && !h then t64 else y.hOff
            lOff := if y.l && !l then t64 else y.lOff }
      else if h && l then shootThrough s ch st
      else
        let r := x.drive t64 (64 * s.deadOf st) step p (if forced then .two 0 p 0 p else cmp) h l bootOk
        let s := s.setPwm ch r.1
        if r.2 && decide (st < 16) then stageFlag (count s (bgKey st 0x34)) st 4 else s
/-- Every leg of a stage at the present tick. -/
def evalStage (s : State) (st : Nat) : State := (chansOf st).foldl (fun s ch => evalLeg s ch (64 * s.now) true 0) s
/-- The length of period j (R29). -/
def periodLen (len k j : Nat) : Nat := len / max 1 k + if j < len % max 1 k then 1 else 0
/-- PWM_PERIOD_START: a period of a channel starts (R26, R29, R30, R549, R567). -/
def periodStart (s : State) (ch : Nat) : State :=
  let x := s.pwm ch
  let stop := if 160 ≤ ch then (s.aux (ch - 160)).frozen || (s.aux (ch - 160)).restart.isSome else s.stopped (stageOf ch)
  let first := s.now == s.tb.boundary && (x.start != s.now || x.j != 0 || x.len == 0)
  let next := s.now == x.start + x.len && decide (x.j + 1 < x.k)
  if stop || !(first || next) then s
  else
    let k := if first then s.ratioNow ch else x.k
    let j := if first then 0 else x.j + 1
    let s := s.setPwm ch
      ({ x with k := k, j := j, start := s.now, len := periodLen s.tb.len k j, block := false, bootBlock := false }.publish s.now first)
    let s := if ch < 64 then
        match (s.stage (ch / 4)).dutyNext with
        | some (d, dir) =>
          (s.updStage (ch / 4) fun y => { y with duty := d, dutyNext := none }).setFld (bgKey (ch / 4) 0) 4 1 (b2n dir)
        | none => s
      else s
    evalLeg s ch (64 * s.now) true 0
/-- PWM_COMPARE_EDGE: a compare, a dead-time end or a chopper event of a channel. The bootstrap supply counts below 8.0 V. -/
def compareEdge (s : State) (ch t64 bootMv : Nat) (sense : Int) : State := evalLeg s ch t64 (decide (8000 ≤ bootMv)) sense

/-! Conditions of Table 15-4. -/

/-- DESAT: an on switch beyond its blanking time, for 8 ticks. -/
def doDesat (s : State) (g leg : Nat) (high : Bool) (mv : Nat) : State :=
  let x := s.pwm (4 * g + leg)
  let w := s.rd (bgKey g 8)
  let on := if high then x.hSw else x.lSw
  let at0 := if high then x.hOnAt else x.lOnAt
  if on && decide (bits w 0 14 < mv) && decide (at0 + bits w 16 12 + 8 ≤ s.now) then trip s g 1 else s
/-- OVERCURRENT: beyond the blanking time of the leg's last edge, for 8 ticks. -/
def doOvercurrent (s : State) (g leg : Nat) (i : Int) : State :=
  let w := s.rd (bgKey g 0xC)
  if bits w 0 16 < i.natAbs ∧ (s.pwm (4 * g + leg)).edgeAt + bits w 16 12 + 8 ≤ s.now then trip s g 2 else s
/-- BUS_OV. -/
def doBusOv (s : State) (g mv : Nat) : State :=
  let s := s.updStage g fun x => { x with busMv := mv }
  if s.fld (bgKey g 0x10) 0 16 < mv then trip s g 3 else s
/-- GATE_UV. -/
def doGateUv (s : State) (f mv : Nat) : State :=
  let s := { s with power := { s.power with vgdMv := s.power.vgdMv.set f mv } }
  if mv < 10000 then tripFooting (ftFlag s f 2) f 4 else s
/-- OVERTEMP. -/
def doFootOt (s : State) (f : Nat) (c : Int) : State :=
  let s := { s with pp := if f = 0 then { s.pp with tFootA := c } else { s.pp with tFootB := c } }
  if 160 ≤ c then tripFooting (ftFlag s f 4) f 5 else s
/-- XFLTn_N after its filter. -/
def doXflt (s : State) (n : Nat) (low : Bool) : State :=
  let s := s.updStage (16 + n) fun x => { x with xfltLow := low }
  if low then trip s (16 + n) 9 else s
/-- GD_EN goes low (R573). -/
def gdLow (s : State) (f : Nat) : State :=
  if !(s.footing f).gdHigh then s
  else
    let s := ftFlag (s.updFooting f fun x => { x with gdHigh := false, lowAt := s.now }) f 1
    let s := (footGroups f).foldl (fun s g =>
      let s := if s.groupSrc g = .none then s else trip s g 8
      legsOff s g) s
    (footSets f).foldl (fun s st => trip s st 8) s
/-- GD_EN goes high: a clearing toggle after 800 ticks or more of low (R572). -/
def gdHigh (s : State) (f : Nat) : State :=
  let x := s.footing f
  if x.gdHigh then s
  else
    let s := s.setFooting f { x with gdHigh := true }
    if s.now < x.lowAt + 800 then s
    else
      let s := ftFlag (count s (ftKey f 0x10)) f 8
      (footGroups f ++ footSets f).foldl clearStage s
/-- A filtered change of the GIN code of a group (R564 to R566, R570). -/
def ginChange (s : State) (g code : Nat) : State :=
  let x := s.stage g
  let on := s.bitAt (bgKey g 0) 0
  match hallSector code with
  | some sec =>
    let s := s.setStage g { x with gin := code, ginValid := true, ginNone := false, sector := sec }
    if !on then s
    else
      let s := if (s.footing (footOf g)).gdHigh then clearStage s g else s
      evalStage s g
  | none =>
    let s := s.setStage g { x with gin := code, ginValid := false, ginNone := false }
    if !on then s else stageFlag (count (evalStage s g) (bgKey g 0x38)) g 16
/-- A write of `PWMX_CFG` (R556, R560, R628); its reserved bits stay 0. -/
def writePwmx (s : State) (n w : Nat) : State :=
  if s.mode = .run then s
  else if bits w 4 12 < 4 then flag s (pxKey n 0xC) 32
  else evalStage ((s.wr (pxKey n 0) (w % 4 + 16 * bits w 4 12)).updStage (16 + n) fun x => { x with pinsDriven := bit w 1 }) (16 + n)

/-! Debug halt (R575 to R580). -/

/-- The stages and AUX channels PWM_HALT and PWM_RESUME name. -/
def haltStages (d : Desc) : List Nat := bitsOf 16 (d.p 4 2) ++ (bitsOf 32 (d.p 8 4)).map (16 + ·)
def haltAux (d : Desc) : List Nat := bitsOf 16 (d.p 12 2)
/-- A stage freezes. -/
def freezeStage (s : State) (st : Nat) : State :=
  if s.stopped st then s
  else
    let s := s.updStage st fun x => { x with frozenAt := some s.now, frozenTmo := s.fld 0x4801C 0 14 }
    if st < 16 then
      match s.groupSrc st with
      | .sg n => s.updSg n fun x => { x.settle s.now with halted := true }
      | _ => s
    else s
/-- Step generators run again. -/
def unhalt (s : State) (st : Nat) : State :=
  if st < 16 then
    match s.groupSrc st with
    | .sg n => s.updSg n fun x => { x.settle s.now with halted := false }
    | _ => s
  else s
/-- A channel takes the newest generation at its restart (R577). -/
def newest (s : State) (ch : Nat) : State :=
  s.updPwm ch fun x =>
    { x with
      active := (x.pending.map (·.1)).getD x.active
      pending := none
      k := s.ratioNow ch
      j := 0
      start := s.tb.boundary
      len := periodLen s.tb.len (s.ratioNow ch) 0
      block := false
      bootBlock := false }
/-- Whether a restart asked for at a time is due: the next boundary has come. -/
def State.restartDue (s : State) (r : Option Nat) : Bool := (r.map fun t => decide (t < s.tb.boundary)).getD false
/-- PWM_RESTART (R577, R578). -/
def pwmRestart (s : State) : State :=
  let s := (List.range 48).foldl (fun s st =>
    if s.restartDue (s.stage st).restart then
      let s := unhalt (s.updStage st fun x => { x with frozenAt := none, restart := none }) st
      (chansOf st).foldl (fun s ch => evalLeg (newest s ch) ch (64 * s.now) true 0) s
    else s) s
  let s := (List.range 16).foldl (fun s a =>
    if s.restartDue (s.aux a).restart then
      let s := s.updAux a fun x => { x with frozen := false, restart := none }
      evalAux (newest s (160 + a)) a (64 * s.now)
    else s) s
  (s.jobs.filter fun j => j.d.op == 0x43#8 && j.phase == .active && s.restartDue (some (nth j.aux 0))).foldl
    (fun s j => complete s j 0 0) s
/-- Whether any channel is frozen by a debug halt (R579). -/
def State.haltActive (s : State) : Bool := s.stages.any (fun x => x.2.frozenAt.isSome) || s.auxs.any (fun x => x.2.frozen)
/-- Every mode change ends every debug halt and gate mask (R578, R584); in STANDBY and SAFE HOLD outputs go off and raw legs
lose their compares (Table 17-3, Table 17-5). -/
def pwmModeChange (s : State) : State :=
  let s := (s.stages.map (·.1)).foldl (fun s st =>
    let x := s.stage st
    let s := if x.frozenAt.isSome then unhalt s st else s
    s.updStage st fun x =>
      { x with masks := 0, restart := if x.frozenAt.isSome then some s.now else x.restart, frozenAt := none }) s
  let s := (s.auxs.map (·.1)).foldl (fun s a =>
    s.updAux a fun x => { x with restart := if x.frozen then some s.now else x.restart, frozen := false }) s
  if s.motionMode then s
  else
    let s := (List.range 16).foldl (fun s g =>
      if s.groupSrc g = .raw then
        (chansOf g).foldl (fun s ch => s.updPwm ch fun x => { x with shadow := .off, pending := none, active := .off }) s
      else s) s
    let s := (List.range 48).foldl legsOff s
    (s.auxs.map (·.1)).foldl (fun s a => s.updPwm (160 + a) fun x => { x with hSw := (s.aux a).enabled && (s.aux a).pol }) s
/-- FROZEN_ON_EXPIRY (R641, R642): Parapet's oscillator lies within 3 % of nominal (R630). -/
def frozenOn (s : State) (st : Nat) : State :=
  let x := s.stage st
  let on := (chansOf st).any fun ch => (s.pwm ch).hSw || (s.pwm ch).lSw
  match x.frozenAt with
  | some f =>
    if on && !s.pp.unsafeAck && decide (x.frozenTmo * 3880 ≤ s.now - f) then
      flag (count (trip s st 7) 0x4803C) kPp 8
    else s
  | none => s
/-- The AUX settings in force at a boundary (R581). -/
def auxBoundary (s : State) (a : Nat) : State :=
  let w := s.rd (auxKey a 0)
  let u := s.aux a
  let s := s.setAux a { u with enabled := bit w 0, pol := bit w 1, k := bits w 2 8 + 1 }
  if bit w 0 || !u.enabled then s else s.updPwm (160 + a) fun x => { x with hSw := false, len := 0 }
/-- The bus senses of the groups at a sample instant. -/
def busSense (s : State) (m : Measured) : State :=
  (List.range (min 16 m.buses.length)).foldl (fun s g => s.updStage g fun x => { x with busMv := nth m.buses g, vbus := nth m.buses g }) s

/-! The opcodes of Table 15-5. -/

/-- The stage a target names; none for an AUX channel or a target out of range. -/
def stageTarget (c : Nat) : Option Nat := if c < 16 then some c else if 0x80 ≤ c ∧ c < 0xA0 then some (c - 0x80 + 16) else none
/-- The AUX channel a target names. -/
def auxTarget (c : Nat) : Option Nat := if 0x40 ≤ c ∧ c < 0x50 then some (c - 0x40) else none
/-- Whether a stage is in a tenant's grant. -/
def State.hasStage (s : State) (tn st : Nat) : Bool := if st < 16 then s.hasBg tn st else s.hasPier tn (st - 16)
/-- Whether a group is raw: nothing bound and MODE 0 (Table 15-2). -/
def State.isRaw (s : State) (g : Nat) : Bool := (s.pierOfGroup g).isNone && (s.sgOfGroup g).isNone && !s.bitAt (bgKey g 0) 0
def pwmRawCheck (s : State) (d : Desc) : Verdict :=
  let c := d.p 0 1
  let bad := match auxTarget c with
    | some _ => d.p 1 1 != 0 || d.p 2 1 != 0 || d.p 12 8 != 0
    | none => decide (16 ≤ c) || decide (4 ≤ d.p 1 1)
  let has := match auxTarget c with
    | some a => s.hasAux d.tenant a
    | none => s.hasBg d.tenant c
  firstFail [(badFormat d (pm 0 2 ||| pb 2 1 ||| pm 4 16) false || bad, 0x14, 0), (!has, 0x11, 0), (!s.expert d.tenant, 0x15, 0),
    ((auxTarget c).isNone && !s.isRaw c, 0x13, 0)]
/-- PWM_RAW writes the shadows. -/
def doPwmRaw (s : State) (d : Desc) : State :=
  match auxTarget (d.p 0 1) with
  | some a => setShadow s (160 + a) (.pair (d.p 4 4) (d.p 8 4))
  | none =>
    setShadow s (4 * d.p 0 1 + d.p 1 1)
      (if bit (d.p 2 1) 0 then .two (d.p 4 4) (d.p 8 4) (d.p 12 4) (d.p 16 4) else .pair (d.p 4 4) (d.p 8 4))
def gateMaskCheck (s : State) (d : Desc) : Verdict :=
  let st := stageTarget (d.p 0 1)
  firstFail [(badFormat d (pm 0 1 ||| pm 4 2) false || st.isNone || (List.range 8).any fun i => bits (d.p 4 2) (2 * i) 2 == 3, 0x14, 0),
    (!s.hasStage d.tenant (st.getD 0), 0x11, 0), (!s.expert d.tenant, 0x15, 0), (s.mode != .commission, 0x13, 0)]
/-- GATE_MASK (R584). -/
def doGateMask (s : State) (d : Desc) : State :=
  let st := (stageTarget (d.p 0 1)).getD 0
  let s := s.updStage st fun x => { x with masks := d.p 4 2 }
  if (s.stage st).fault then s.updStage st fun x => { x with masks := 0 } else evalStage s st
def haltCheck (halt : Bool) (s : State) (d : Desc) : Verdict :=
  firstFail [(badFormat d (pm 4 2 ||| pm 8 6) false, 0x14, 0),
    ((haltStages d).any (fun st => !s.hasStage d.tenant st) || (haltAux d).any (fun a => !s.hasAux d.tenant a), 0x11, 0),
    (!s.expert d.tenant, 0x15, 0), (halt && s.mode != .commission, 0x13, 0)]
/-- PWM_HALT (R575). -/
def doPwmHalt (s : State) (d : Desc) : State :=
  (haltAux d).foldl (fun s a => s.updAux a fun x => { x with frozen := true }) ((haltStages d).foldl freezeStage s)
/-- PWM_RESUME waits for the boundary (R577). -/
def pwmResume (s : State) (j : Job) : State :=
  let s := (haltStages j.d).foldl (fun s st => s.updStage st fun x => if x.frozenAt.isSome then { x with restart := some s.now } else x) s
  let s := (haltAux j.d).foldl (fun s a => s.updAux a fun x => if x.frozen then { x with restart := some s.now } else x) s
  keep s { j with phase := .active, aux := [s.now] }
def auxDutyCheck (s : State) (d : Desc) : Verdict :=
  let a := auxTarget (d.p 0 1)
  firstFail [(badFormat d (pm 0 1 ||| pm 4 2) false || a.isNone, 0x14, 0), (!s.hasAux d.tenant (a.getD 0), 0x11, 0)]
def blockDutyCheck (s : State) (d : Desc) : Verdict :=
  firstFail [(badFormat d (pm 0 1 ||| pb 2 1 ||| pm 4 2) false || decide (16 ≤ d.p 0 1), 0x14, 0), (!s.hasBg d.tenant (d.p 0 1), 0x11, 0),
    (!s.bitAt (bgKey (d.p 0 1) 0) 0, 0x13, 0)]
def groupInfoCheck (s : State) (d : Desc) : Verdict :=
  let st := stageTarget (d.p 0 1)
  firstFail [(badFormat d (pm 0 1) false || st.isNone, 0x14, 0), (!s.hasStage d.tenant (st.getD 0), 0x11, 0)]
/-- The state GROUP_INFO reports. -/
def State.stageCode (s : State) (st : Nat) : Nat :=
  let x := s.stage st
  let live := !s.stageOff st && (if st < 16 then match s.groupSrc st with
    | .none => false
    | .block => x.ginValid
    | _ => true else true)
  if x.fault then 3 else if x.frozenAt.isSome then 2 else b2n live
def groupInfo (s : State) (j : Job) : State :=
  let st := (stageTarget (j.d.p 0 1)).getD 0
  complete s j 0 (s.stageCode st + 256 * (s.stage st).cause + 2 ^ 32 * s.rd (stShootCnt st))

/-! The commands. -/

/-- PWM_PERIOD_START (R29, R30). -/
def execPwmPeriodStart (t : Nat) (ch : PwmChan) (s : State) : Host.Outcome State Fault Refusal :=
  act s fun s => periodStart (advance s t) (chanKey ch)
/-- PWM_COMPARE_EDGE (R550 to R558). -/
def execPwmCompareEdge (t64 : Nat) (ch : PwmChan) (bootMv : Nat) (sense : Int) (s : State) : Host.Outcome State Fault Refusal :=
  act s fun s => compareEdge (advance s (t64 / 64)) (chanKey ch) t64 bootMv sense
/-- DESAT (Table 15-4). -/
def execDesat (t : Nat) (g : Fin 16) (leg : Fin 4) (high : Bool) (mv : Nat) (s : State) : Host.Outcome State Fault Refusal :=
  act s fun s => doDesat (advance s t) g leg high mv
/-- OVERCURRENT (Table 15-4). -/
def execOvercurrent (t : Nat) (g : Fin 16) (leg : Fin 4) (current : Int) (s : State) : Host.Outcome State Fault Refusal :=
  act s fun s => doOvercurrent (advance s t) g leg current
/-- BUS_OV (Table 15-4). -/
def execBusOv (t : Nat) (g : Fin 16) (mv : Nat) (s : State) : Host.Outcome State Fault Refusal :=
  act s fun s => doBusOv (advance s t) g mv
/-- GATE_UV (Table 15-4). -/
def execGateUv (t : Nat) (f : Fin 2) (mv : Nat) (s : State) : Host.Outcome State Fault Refusal :=
  act s fun s => doGateUv (advance s t) f mv
/-- XFLT (Table 15-4). -/
def execXflt (t : Nat) (n : Fin 32) (low : Bool) (s : State) : Host.Outcome State Fault Refusal :=
  act s fun s => doXflt (advance s t) n low
/-- GD_EN_LOW (R573). -/
def execGdEnLow (t : Nat) (f : Fin 2) (s : State) : Host.Outcome State Fault Refusal := act s fun s => gdLow (advance s t) f
/-- GD_EN_HIGH (R572). -/
def execGdEnHigh (t : Nat) (f : Fin 2) (s : State) : Host.Outcome State Fault Refusal := act s fun s => gdHigh (advance s t) f
/-- GIN_CHANGE (R564 to R566). -/
def execGinChange (t : Nat) (g : Fin 16) (code : Fin 8) (s : State) : Host.Outcome State Fault Refusal :=
  act s fun s => ginChange (advance s t) g code
/-- PWMX_DRIVE_WRITE (R560). -/
def execPwmxDriveWrite (t : Nat) (n : Fin 32) (value : Word) (s : State) : Host.Outcome State Fault Refusal :=
  act s fun s => writePwmx (advance s t) n value.toNat
/-- PWM_RAW (Table 15-5). -/
def execPwmRaw (t : Nat) (d : Desc) (s : State) : Host.Outcome State Fault Refusal :=
  act s fun s => runOp s t 0x40 d pwmRawCheck (andDone doPwmRaw)
/-- GATE_MASK (R584). -/
def execGateMask (t : Nat) (d : Desc) (s : State) : Host.Outcome State Fault Refusal :=
  act s fun s => runOp s t 0x41 d gateMaskCheck (andDone doGateMask)
/-- PWM_HALT (R575). -/
def execPwmHalt (t : Nat) (d : Desc) (s : State) : Host.Outcome State Fault Refusal :=
  act s fun s => runOp s t 0x42 d (haltCheck true) (andDone doPwmHalt)
/-- PWM_RESUME (R577). -/
def execPwmResume (t : Nat) (d : Desc) (s : State) : Host.Outcome State Fault Refusal :=
  act s fun s => runOp s t 0x43 d (haltCheck false) pwmResume
/-- PWM_RESTART (R577, R578). -/
def execPwmRestart (s : State) : Host.Outcome State Fault Refusal := act s pwmRestart
/-- AUX_DUTY (R582). -/
def execAuxDuty (t : Nat) (d : Desc) (s : State) : Host.Outcome State Fault Refusal :=
  act s fun s => runOp s t 0x44 d auxDutyCheck
    (andDone fun s d => setShadow s (160 + (auxTarget (d.p 0 1)).getD 0) (.fill (d.p 4 2)))
/-- BLOCK_DUTY (R567). -/
def execBlockDuty (t : Nat) (d : Desc) (s : State) : Host.Outcome State Fault Refusal :=
  act s fun s => runOp s t 0x45 d blockDutyCheck
    (andDone fun s d => s.updStage (d.p 0 1) fun x => { x with dutyNext := some (d.p 4 2, bit (d.p 2 1) 0) })
/-- GROUP_INFO (Table 15-5). -/
def execGroupInfo (t : Nat) (d : Desc) (s : State) : Host.Outcome State Fault Refusal :=
  act s fun s => runOp s t 0x46 d groupInfoCheck groupInfo
/-- FROZEN_ON_EXPIRY (R641). -/
def execFrozenOnExpiry (t : Nat) (x : StageId) (s : State) : Host.Outcome State Fault Refusal :=
  act s fun s => frozenOn (advance s t) (stageKey x)

end Sys2Proof.Machine
end

