-- ==== Sys2Proof/Machine/Wheel.lean ====
section
/-!
DEFINITION. The event wheel and the valves (chapter 09): enabling, the insertion checks, merging and the air limit, removal,
shots, faults, learned latencies and signatures.
-/
namespace Sys2Proof.Machine

def ejErr (s : State) : State := flag s kEj 4
/-- A valve's ENABLE. -/
def State.valveOn (s : State) (v : Nat) : Bool := s.bitAt (valveKey v 0) 0
def State.minOn (s : State) (v : Nat) : Nat := 16 * s.fld (valveKey v 4) 0 16
def State.minOff (s : State) (v : Nat) : Nat := 16 * s.fld (valveKey v 4) 16 16
def State.horizon (s : State) : Nat := s.fld 0x2F400 0 26
def State.manifold (s : State) (v : Nat) : Nat := s.fld (valveKey v 0) 2 4
/-- The command lead of a valve (R322, R358). -/
def State.cmdLead (s : State) (v : Nat) : Nat := if v < 64 then 64 else 2 * s.tb.len
/-- The enabled valves: the ENABLE bit resets to 0, so each is a listed register. -/
def State.valvesOn (s : State) : List Nat :=
  s.regs.filterMap fun e =>
    if 0x28000 ≤ e.1 ∧ e.1 < 0x28000 + 0x20 * 576 ∧ e.1 % 0x20 = 0 ∧ bit e.2.toNat 0 then some ((e.1 - 0x28000) / 0x20) else none
/-- What one enabled valve takes of the bound of R321; a spacing of 0 breaks it. -/
def wheelShare (h on off : Nat) : Nat := if on + off = 0 then 65537 else h / (on + off) + 2
/-- Whether the bound of R321 holds for a set of enabled valves, one valve's spacing given apart, and a horizon. -/
def State.wheelFits (s : State) (h v on off : Nat) : Bool :=
  decide (sumL ((s.valvesOn.filter (· != v)).map fun u => wheelShare h (s.minOn u) (s.minOff u)) + wheelShare h on off ≤ 65536)

/-! Outcomes (R325, R326, R346, R347). -/

/-- A status from the mask of outcomes (R325). -/
def maskStatus (m : Nat) : Nat :=
  if bit m 4 then 0x26 else if bit m 2 then 0x23 else if bit m 1 then 0x24 else if bit m 0 then 0x22 else 0
/-- The dip bytes of a VALVE_TEST (R349). -/
def dipBytes (d : Option Nat) : Nat := min (d.getD 0xFFFFFF) 0xFFFFFF
/-- RESULT of VALVE_TEST (R349). -/
def State.testResult (s : State) (v mask : Nat) (d : Option Nat) : Nat :=
  mask + 2 ^ 8 * dipBytes d + 2 ^ 32 * (s.valve v).lat
/-- The ticks a valve has been open. -/
def State.openTicks (s : State) (v : Nat) : Nat := if (s.valve v).drive = .off then 0 else s.now - (s.valve v).openAt
/-- A row's counter advances (Table 09-8). -/
def rowCount (s : State) (r k : Nat) : State :=
  s.updRow r fun x => { x with cnts := x.cnts.set k (satInc (nth x.cnts k) 1) }
/-- A report item of a row (R346). -/
def rowReport (s : State) (r track v status mask : Nat) (asked : Int) : State :=
  if s.bitAt (rowKey r 0x38) 22 then
    offerNow s (s.row r).tenant (s.fld (rowKey r 0x38) 16 6) 1 r
      (leBytes 4 track ++ leBytes 2 v ++ leBytes 1 status ++ leBytes 1 mask ++ leBytes 8 (unsigned 64 asked))
  else s
/-- The row of a source and its TRACK_ID; none for a descriptor. -/
def EvKind.rowOf : EvKind → Option (Nat × Nat)
  | .arc r k => some (r, k)
  | .blanket r => some (r, 0xFFFFFFFF)
  | .desc _ => none
/-- The row counter of a final status other than DONE. -/
def rowCounterOf (status : Nat) : Nat := if status = 0x26 then 12 else if status = 0x25 then 11 else 13
/-- The descriptor behind a source completes. -/
def descEnd (s : State) (id v mask status : Nat) (ticks : Nat) (d : Option Nat) : State :=
  match s.job? id with
  | some j => complete s j status (if j.d.op = 0x63#8 then s.testResult v mask d else mask + 2 ^ 32 * ticks)
  | none => s
/-- A source ends without its shot: not issued, skipped or removed. -/
def srcLost (v status ticks : Nat) (s : State) (x : EvSrc) : State :=
  match x.kind.rowOf with
  | some (r, k) => rowReport (rowCount s r (rowCounterOf status)) r k v status x.mask x.asked
  | none =>
    match x.kind with
    | .desc id => descEnd s id v x.mask status ticks none
    | _ => s
/-- A source ends with its shot. -/
def srcShot (v ticks : Nat) (d : Option Nat) (s : State) (x : EvSrc) : State :=
  match x.kind with
  | .desc id => descEnd s id v x.mask (maskStatus x.mask) ticks d
  | _ => s
/-- What an issued event's own source records at T_ins: its row's counters of the outcomes that applied, DONE among them, and a
report when its status is not DONE (R346). -/
def srcIssued (s : State) (v : Nat) (x : EvSrc) : State :=
  match x.kind.rowOf with
  | none => s
  | some (r, k) =>
    let s := if bit x.mask 0 then rowCount s r 8 else s
    let s := if bit x.mask 2 then rowCount s r 9 else s
    let s := if bit x.mask 1 then rowCount s r 10 else s
    if maskStatus x.mask = 0 then rowCount s r 7 else rowReport s r k v (maskStatus x.mask) x.mask x.asked

/-! The wheel. -/

def setEvents (s : State) (l : List Event) : State := { s with wheel := { s.wheel with events := l } }
/-- A pending event: its close time has not passed. -/
def State.isPending (s : State) (e : Event) : Bool := decide ((s.now : Int) < e.cls)
/-- Whether an event has opened (R329); a satellite opens at the time its sweep carried. -/
def State.hasOpened (s : State) (e : Event) : Bool := e.opened || (e.sentOpen && decide (e.opn ≤ s.now))
/-- A satellite open that a sweep has taken and whose close none has: the next sweep closes it, LATE. -/
def owedClose (s : State) (e : Event) : State :=
  if e.sentOpen && !e.sentClose then
    { s with
      ring := { s.ring with
        lateCloses := s.ring.lateCloses ++ [{ valve := e.valve, opening := false, time := s.now, late := true, arr := e.arr }] } }
  else s
/-- An event leaves the wheel without its shot. -/
def dropEvent (s : State) (e : Event) (status : Nat) (srcs : List EvSrc) : State :=
  let ticks := if !s.hasOpened e then 0 else if e.valve < 64 then s.openTicks e.valve else ((s.now : Int) - e.opn).toNat
  let s := owedClose (setEvents s (s.wheel.events.filter (·.arr != e.arr))) e
  srcs.foldl (srcLost e.valve status ticks) s
/-- Every event that meets a test is removed (R332 to R335). -/
def removeEvents (s : State) (sel : Event → Bool) (status : Nat) : State :=
  (s.wheel.events.filter sel).foldl (fun s e => dropEvent s e status e.srcs) s
/-- A valve switches off at once. -/
def valveOff (s : State) (v : Nat) : State := if (s.valve v).drive = .off then s else s.updValve v fun x => { x with drive := .off }
/-- A valve closes at once and its events are removed. -/
def valveStop (s : State) (v status : Nat) : State := valveOff (removeEvents s (·.valve == v) status) v
/-- Every valve closes at once and the wheel empties (R332, R627). -/
def valvesCloseAll (s : State) : State :=
  let s := removeEvents s (fun _ => true) 0x13
  s.valves.foldl (fun s e => valveOff s e.1) s

/-- Merge an event into the pending ones of its valve until none lies within MIN_OFF (R323 step 6, R324). The new source takes
MERGED; those it joins take ABSORBED. -/
def mergeEvents (off : Int) : Nat → List Event → Event → List EvSrc → Bool → Event × List EvSrc × Bool
  | 0, _, e, olds, m => (e, olds, m)
  | n + 1, l, e, olds, m =>
    match l.find? fun x => (if e.opn ≤ x.opn then x.opn - e.cls else e.opn - x.cls) < off with
    | none => (e, olds, m)
    | some x =>
      let u : Event :=
        { e with
          opn := min e.opn x.opn
          cls := max e.cls x.cls
          score := max e.score x.score
          arr := min e.arr x.arr
          opened := e.opened || x.opened
          sentOpen := e.sentOpen || x.sentOpen
          sentClose := x.sentClose && decide (e.cls ≤ x.cls) }
      mergeEvents off n (l.filter (·.arr != x.arr)) u (olds ++ x.srcs.map fun y => { y with mask := y.mask ||| 8 }) true

/-- The distinct valves of a list of events. -/
def valvesOf (l : List Event) : List Nat := l.foldl (fun a e => if a.contains e.valve then a else e.valve :: a) []
/-- The event the air limit skips: the lowest score, the latest arrival on equal scores (R328). -/
def skipPick : List Event → Option Event
  | [] => none
  | e :: l =>
    match skipPick l with
    | some b => if e.score < b.score ∨ (e.score = b.score ∧ b.arr < e.arr) then some e else some b
    | none => some e
/-- Put an integer into a rising list. -/
def insInt (a : Int) : List Int → List Int
  | [] => [a]
  | b :: l => if a ≤ b then a :: b :: l else b :: insInt a l
/-- The next event to skip so that the limit holds through an interval, instant by instant: the opening times within it. -/
def State.overLimit (s : State) (m : Nat) (opn cls : Int) : Option Event :=
  let l := s.wheel.events.filter fun e => s.isPending e && s.manifold e.valve == m
  let at_ := opn :: (l.map (·.opn)).filter fun x => decide (opn < x) && decide (x < cls)
  (at_.foldl (fun l a => insInt a l) []).findSome? fun x =>
    let here := l.filter fun e => decide (e.opn ≤ x) && decide (x < e.cls)
    if s.rd (0x2F440 + 4 * m) % 256 < (valvesOf here).length then skipPick (here.filter fun e => !s.hasOpened e) else none
/-- R328 to R330. -/
def airLimit (m : Nat) (opn cls : Int) : Nat → State → State
  | 0, s => s
  | n + 1, s =>
    match s.overLimit m opn cls with
    | none => s
    | some e => airLimit m opn cls n (dropEvent s e 0x26 (e.srcs.map fun x => { x with mask := x.mask ||| 16 }))

/-- An event reaches the wheel: the checks of Table 09-1 (R323 to R330). -/
def insertEvent (s : State) (v : Nat) (opn cls : Int) (score : Nat) (kind : EvKind) : State :=
  let asked := opn
  let s := match kind.rowOf with
    | some (r, _) => rowCount s r 6
    | none => s
  let src : EvSrc := { kind := kind, mask := 0, asked := asked }
  let iss : Int := s.now + s.cmdLead v
  let on : Int := s.minOn v
  if cls = opn then srcUnissued s v src 0x20
  else if cls < opn then srcUnissued s v src 0x21
  else if opn < iss ∧ cls - iss ≤ on then srcLost v 0x25 0 s src
  else
    let late := decide (opn < iss)
    let opn := if late then iss else opn
    let short := decide (cls - opn < on)
    let cls := if short then opn + on else cls
    let e : Event :=
      { valve := v, opn := opn, cls := cls, score := score, arr := s.wheel.nextArr, srcs := [], opened := false,
        sentOpen := false, sentClose := false }
    let near := s.wheel.events.filter fun x => x.valve == v && s.isPending x
    let u := mergeEvents (s.minOff v) near.length near e [] false
    let src := { src with mask := b2n short + 2 * b2n late + 4 * b2n u.2.2 }
    let gone := near.filter fun x => x.opn ≥ u.1.opn && x.cls ≤ u.1.cls
    let u : Event := { u.1 with srcs := u.2.1 ++ [src] }
    let s := { s with
      wheel := { s.wheel with
        nextArr := s.wheel.nextArr + 1
        events := s.wheel.events.filter (fun x => !gone.any (·.arr == x.arr)) ++ [u] } }
    let m := s.manifold v
    let s := airLimit m u.opn u.cls (s.wheel.events.length + 1) s
    -- a new event skipped at once has had its report as EJECT_SKIPPED_AIR
    if s.wheel.events.any (·.arr == u.arr) then srcIssued s v src else srcOutcomes s src
where
  /-- Steps 1 and 2: not issued, and no row counter stands for it. -/
  srcUnissued (s : State) (v : Nat) (x : EvSrc) (status : Nat) : State :=
    match x.kind with
    | .desc id => descEnd s id v x.mask status 0 none
    | .arc r k => rowReport s r k v status x.mask x.asked
    | .blanket r => rowReport s r 0xFFFFFFFF v status x.mask x.asked
  srcOutcomes (s : State) (x : EvSrc) : State :=
    match x.kind.rowOf with
    | none => s
    | some (r, _) =>
      let s := if bit x.mask 0 then rowCount s r 8 else s
      let s := if bit x.mask 2 then rowCount s r 9 else s
      if bit x.mask 1 then rowCount s r 10 else s

/-! Latencies (R341 to R344). -/

/-- LAT and WEAR from the estimate (R341, R343). -/
def judgeLat (s : State) (v : Nat) : State :=
  let x := s.valve v
  let avg := (x.est + 8) / 16
  let lo := 16 * s.fld (valveKey v 8) 0 16
  let hi := 16 * s.fld (valveKey v 8) 16 16
  let out := decide (avg < lo) || decide (hi < avg)
  let s := s.setValve v { x with lat := if avg < lo then lo else if hi < avg then hi else avg, wear := out }
  if out && !x.wear then flag (s.wr 0x2F40C v) kEj 1 else s
/-- The estimate is set (R341). -/
def seedLat (s : State) (v ticks : Nat) : State := judgeLat (s.updValve v fun x => { x with est := 16 * ticks }) v
/-- The filter takes a shot's dip time (R341). -/
def learnLat (s : State) (v d : Nat) : State :=
  if s.bitAt (valveKey v 0) 1 then
    let m : Int := (d + s.rd (phKey v 0xC) % 2 ^ 24 : Nat)
    judgeLat (s.updValve v fun x => { x with est := ((x.est : Int) + (16 * m - x.est + 8) / 16).toNat }) v
  else s
/-- A shot with or without a dip (R340, R341, R344). -/
def shotDip (s : State) (v : Nat) (d : Option Nat) : State :=
  match d with
  | some d => learnLat (s.updValve v fun x => { x with noDip := false, dipLast := d }) v d
  | none => count (s.updValve v fun x => { x with noDip := true }) (valveKey v 0x18)
/-- The dip detector (R340): the samples with their times, the running maximum, and the lowest sample once the dip has
begun. -/
def findDip (depth : Nat) : List (Nat × Nat) → Nat → Option (Nat × Nat) → Option Nat
  | [], _, low => low.map (·.1)
  | (t, x) :: l, mx, none => if x + depth ≤ mx then findDip depth l mx (some (t, x)) else findDip depth l (max mx x) none
  | (t, x) :: l, mx, some (tl, lo) =>
    if x < lo then findDip depth l mx (some (t, x)) else if lo + depth ≤ x then some tl else findDip depth l mx (some (tl, lo))
/-- The samples of a shot's full-on phase, one every 100 ticks from the open (R337, R338). -/
def fullOn (peak : Nat) : Nat → Nat → List Nat → List (Nat × Nat)
  | _, _, [] => []
  | lim, t, x :: l => if lim < t then [] else if peak ≤ x then [(t, x)] else (t, x) :: fullOn peak lim (t + 100) l
/-- The dip time of a local valve's shot (R340). -/
def State.dipOf (s : State) (v width : Nat) (samples : List Nat) : Option Nat :=
  let win := min (min (16 * s.fld (phKey v 8) 16 16) width) (16 * s.fld (phKey v 4) 0 16)
  findDip (s.fld (phKey v 8) 0 12) (fullOn (s.fld (phKey v 0) 0 12) win 0 samples) 0 none

/-! Signatures (R345). -/

/-- The first payload cell (Table 09-2). -/
def sigCell (s : State) (v : Nat) (e : Event) (d : Option Nat) (interval : Nat) : List Byte :=
  leBytes 2 v ++
    leBytes 1 (b2n d.isSome + 2 * b2n (e.srcs.any fun x => bit x.mask 1) + 4 * b2n (decide (1 < e.srcs.length))) ++ leBytes 1 0 ++
    leBytes 4 (d.getD 0xFFFFFFFF) ++ leBytes 4 (s.valve v).lat ++ leBytes 4 interval
/-- A signature item is offered. -/
def sigOffer (s : State) (v : Nat) (g : SigCfg) (time : Nat) (cell : List Byte) (xs : List Nat) : State :=
  offer s g.tenant g.queue 3 { src := v % 256, time := time, payload := cell ++ xs.flatMap (leBytes 2), lane := 0, done := true }
/-- One shot counts for every request of the valve; every Nth is written. -/
def sigShot (s : State) (v : Nat) (e : Event) (d : Option Nat) (openAt : Nat) (samples : List Nat) : State :=
  let gs := (s.valve v).sigs
  let due (g : SigCfg) := decide (g.every ≤ g.count + 1)
  let s := s.updValve v fun x => { x with sigs := x.sigs.map fun g => { g with count := if due g then 0 else g.count + 1 } }
  (gs.filter due).foldl (fun s g =>
    sigOffer s v g openAt (sigCell s v e d g.interval)
      ((List.range g.samples).map fun i => nth samples (i * g.interval / 100))) s

/-! Valve registers (R321, R335, R341, R371). -/

/-- A write of `VALVE_CFG`. -/
def writeValveCfg (s : State) (v w : Nat) : State :=
  let k := valveKey v 0
  let w := w % 64
  if s.mode = .run then s
  else if bit w 0 then
    if s.bitAt k 0 then s.wr k w
    else if s.wheelFits s.horizon v (s.minOn v) (s.minOff v) then seedLat (s.wr k w) v (s.rd (valveKey v 0xC) % 2 ^ 24)
    else ejErr s
  else if s.bitAt k 0 then valveStop (s.wr k w) v 0x13
  else s.wr k w
/-- A write of `VALVE_MIN`. -/
def writeValveMin (s : State) (v w : Nat) : State :=
  let k := valveKey v 4
  let on := 16 * bits w 0 16
  let off := 16 * bits w 16 16
  if s.mode = .run then s
  else if s.valveOn v && (!s.wheelFits s.horizon v on off || (decide (64 ≤ v) && decide (min on off < s.tb.len))) then ejErr s
  else s.wr k w
/-- A write of `EJ_HORIZON`. -/
def writeHorizon (s : State) (w : Nat) : State :=
  let h := w % 2 ^ 26
  if s.mode = .run then s
  else if h < 400000 ∨ 40000000 < h ∨
      65536 < sumL (s.valvesOn.map fun u => wheelShare h (s.minOn u) (s.minOff u)) then ejErr s
  else s.wr 0x2F400 h

/-! Shots and faults of local valves (R337 to R339). -/

/-- VALVE_OPEN: the event whose time has come. -/
def valveOpen (s : State) (v : Nat) : State :=
  match s.wheel.events.find? fun e => e.valve == v && !e.opened && decide (e.opn ≤ (s.now : Int)) && s.isPending e with
  | none => s
  | some e =>
    if !s.valveOn v || (s.valve v).fault then s
    else
      (setEvents s (mapIf (·.arr == e.arr) (fun x => { x with opened := true }) s.wheel.events)).updValve v fun x =>
        { x with drive := .peak, openAt := s.now }
/-- VALVE_PEAK_END. -/
def valvePeakEnd (s : State) (v : Nat) : State :=
  let x := s.valve v
  if x.drive = .peak ∧ x.openAt + 16 * s.fld (phKey v 4) 0 16 ≤ s.now then s.setValve v { x with drive := .hold } else s
/-- VALVE_CLOSE: the shot ends, is counted, learned from, sampled and reported. -/
def valveClose (s : State) (v : Nat) (samples : List Nat) : State :=
  match s.wheel.events.find? fun e => e.valve == v && e.opened && decide (e.cls ≤ (s.now : Int)) with
  | none => s
  | some e =>
    let x := s.valve v
    let ticks := s.now - x.openAt
    let d := s.dipOf v ticks samples
    let s := valveOff (setEvents s (s.wheel.events.filter (·.arr != e.arr))) v
    let s := shotDip (count s (valveKey v 0x14)) v d
    let s := sigShot s v e d x.openAt samples
    e.srcs.foldl (srcShot v ticks d) s
/-- Cause codes of `VALVE_LAT_NOW.CAUSE`. -/
def valveCauseCode (c : ValveCause) : Nat :=
  match c with
  | .short => 1
  | .openLoad => 2
  | .undervoltage => 3
  | .overtemp => 4
/-- A valve takes a fault, unless it holds one, and loses its events (R333, R338). -/
def valveFaulted (s : State) (v cause status : Nat) : State :=
  let x := s.valve v
  if x.fault then s else valveStop (s.setValve v { x with fault := true, cause := cause }) v status
/-- VALVE_FAULT: the supply and the footing concern every valve of the footing. -/
def valveFault (s : State) (v : Nat) (c : ValveCause) : State :=
  let vs := if c = .undervoltage ∨ c = .overtemp then (List.range 32).map (v / 32 * 32 + ·) else [v]
  let new := vs.any fun u => !(s.valve u).fault
  let s := vs.foldl (fun s u => valveFaulted s u (valveCauseCode c) 0x13) s
  flagIf s new kEj 2
/-- Whether the cause of a valve's fault is gone (R339, R369). -/
def State.valveCauseGone (s : State) (v : Nat) (restored : Bool) : Bool :=
  match (s.valve v).cause with
  | 3 => decide (11200 ≤ nth s.power.vvMv (v / 32))
  | 4 => decide (s.footTemp (v / 32) < 150)
  | 5 =>
    match s.ring.nodes[(v - 64) / 32]? with
    | some n => n.reach && n.acked
    | none => false
  | _ => restored
def valveClearCheck (s : State) (d : Desc) : Verdict :=
  firstFail [(badFormat d (pm 0 2) false || decide (575 < d.p 0 2), 0x14, 0), (!s.hasValve d.tenant (d.p 0 2), 0x11, 0)]
/-- VALVE_CLEAR (R339). -/
def doValveClear (restored : Bool) (s : State) (j : Job) : State :=
  let v := j.d.p 0 2
  let x := s.valve v
  if x.fault && s.valveCauseGone v restored then complete (s.setValve v { x with fault := false, cause := 0 }) j 0 1
  else complete s j 0 0

/-! Events by descriptor (R331, R333, R335, R347 to R350). -/

/-- Whether a valve can be named now. -/
def State.valveReady (s : State) (v : Nat) : Bool := s.motionMode && s.valveOn v && !(s.valve v).fault
def valveTestCheck (s : State) (d : Desc) : Verdict :=
  let v := d.p 0 2
  firstFail [(badFormat d (pm 0 2 ||| pm 4 4) false || decide (575 < v), 0x14, 0), (!s.hasValve d.tenant v, 0x11, 0),
    (!s.valveReady v, 0x13, s.testResult v 0 none)]
/-- The first span boundary at least `n` ticks from now. -/
def State.boundaryAfter (s : State) (n : Nat) : Nat :=
  s.tb.boundary + ceilDiv (s.now + n - s.tb.boundary) s.tb.len * s.tb.len
/-- VALVE_TEST (R349). -/
def doValveTest (s : State) (j : Job) : State :=
  let v := j.d.p 0 2
  let o : Int := s.boundaryAfter (s.cmdLead v + 64)
  insertEvent (keep s { j with phase := .active }) v o (o + j.d.p 4 4) 65535 (.desc j.id)
def ejectAtCheck (s : State) (d : Desc) : Verdict :=
  let v := d.p 0 2
  firstFail [(badFormat d (pm 0 20) false || decide (575 < v), 0x14, 0), (!s.hasValve d.tenant v, 0x11, 0),
    (!s.expert d.tenant, 0x15, 0), (!s.valveReady v, 0x13, 0), (decide (s.now + s.horizon < d.p 4 8), 0x14, 0)]
/-- EJECT_AT (R350). -/
def doEjectAt (s : State) (j : Job) : State :=
  insertEvent (keep s { j with phase := .active }) (j.d.p 0 2) (j.d.p 4 8) (j.d.p 12 8) (j.d.p 2 2) (.desc j.id)
def valveLatSetCheck (s : State) (d : Desc) : Verdict :=
  firstFail [(badFormat d (pm 0 2 ||| pm 4 4) false || decide (575 < d.p 0 2), 0x14, 0), (!s.hasValve d.tenant (d.p 0 2), 0x11, 0),
    (!s.expert d.tenant, 0x15, 0)]
def doValveLatSet (s : State) (d : Desc) : State := seedLat s (d.p 0 2) (d.p 4 4)
def valveSigCheck (s : State) (d : Desc) : Verdict :=
  let v := d.p 0 2
  let n := d.p 2 2
  let k := d.p 6 2
  firstFail [(badFormat d (pm 0 10) false || n == 0 || decide (576 < v + n) || decide (64 ≤ d.p 4 1) || k % 8 != 0 ||
      decide (k < 8) || decide (496 < k) || d.p 8 2 == 0 || d.p 8 2 % 100 != 0, 0x14, 0),
    ((List.range n).any fun i => !s.hasValve d.tenant (v + i) && !s.hasSig d.tenant (v + i), 0x11, 0)]
/-- VALVE_SIG: the tenant's request of each valve, replaced; N = 0 ends it (R345). -/
def doValveSig (s : State) (d : Desc) : State :=
  (List.range (d.p 2 2)).foldl (fun s i =>
    s.updValve (d.p 0 2 + i) fun x =>
      let rest := x.sigs.filter (·.tenant != d.tenant.val)
      { x with
        sigs := if d.p 5 1 = 0 then rest
          else rest ++ [{ tenant := d.tenant, queue := d.p 4 1, every := d.p 5 1, samples := d.p 6 2, interval := d.p 8 2,
                          count := 0, busy := false, openTime := 0, cell := [], held := [] }] }) s

/-! The commands. -/

def execValveTest (t : Nat) (d : Desc) (s : State) : Host.Outcome State Fault Refusal :=
  act s fun s => runOp s t 0x63 d valveTestCheck doValveTest
def execEjectAt (t : Nat) (d : Desc) (s : State) : Host.Outcome State Fault Refusal :=
  act s fun s => runOp s t 0x64 d ejectAtCheck doEjectAt
def execValveLatSet (t : Nat) (d : Desc) (s : State) : Host.Outcome State Fault Refusal :=
  act s fun s => runOp s t 0x65 d valveLatSetCheck (andDone doValveLatSet)
def execValveSig (t : Nat) (d : Desc) (s : State) : Host.Outcome State Fault Refusal :=
  act s fun s => runOp s t 0x66 d valveSigCheck (andDone doValveSig)
def execValveClear (t : Nat) (d : Desc) (pathRestored : Bool) (s : State) : Host.Outcome State Fault Refusal :=
  act s fun s => runOp s t 0x67 d valveClearCheck (doValveClear pathRestored)
def execValveOpen (t : Nat) (v : Fin 64) (s : State) : Host.Outcome State Fault Refusal :=
  act s fun s => valveOpen (advance s t) v
def execValvePeakEnd (t : Nat) (v : Fin 64) (s : State) : Host.Outcome State Fault Refusal :=
  act s fun s => valvePeakEnd (advance s t) v
def execValveClose (t : Nat) (v : Fin 64) (samples : List Nat) (s : State) : Host.Outcome State Fault Refusal :=
  act s fun s => valveClose (advance s t) v samples
def execValveFault (t : Nat) (v : Fin 64) (cause : ValveCause) (s : State) : Host.Outcome State Fault Refusal :=
  act s fun s => valveFault (advance s t) v cause
/-- VALVE_ENABLE (R321, R341): a `VALVE_CFG` write with ENABLE = 1. -/
def execValveEnable (t : Nat) (v : Fin 576) (value : Word) (s : State) : Host.Outcome State Fault Refusal :=
  act s fun s => writeValveCfg (advance s t) v (value.toNat ||| 1)
/-- VALVE_DISABLE (R335): a `VALVE_CFG` write with ENABLE = 0. -/
def execValveDisable (t : Nat) (v : Fin 576) (value : Word) (s : State) : Host.Outcome State Fault Refusal :=
  act s fun s => writeValveCfg (advance s t) v (value.toNat / 2 * 2)

end Sys2Proof.Machine
end

