-- ==== Sys2Proof/Machine/Arc.lean ====
section
/-!
DEFINITION. Nozzle rows and the Arc unit (chapter 09): binding queues, taking items, the ballistic fit, the choice of valves,
blanket events, and their insertion into the wheel.
-/
namespace Sys2Proof.Machine

def State.rowOn (s : State) (r : Nat) : Bool := s.bitAt (rowKey r 0) 0
def State.rowFirst (s : State) (r : Nat) : Nat := s.fld (rowKey r 0) 1 10
def State.rowCount' (s : State) (r : Nat) : Nat := s.fld (rowKey r 0) 11 10
def State.rowPitch (s : State) (r : Nat) : Rat := mkRat (s.rd (rowKey r 0xC)) 65536
def State.rowX0 (s : State) (r : Nat) : Rat := mkRat (signed 32 (s.rd (rowKey r 8))) 65536
/-- A row that is bound to a queue. -/
def NozzleRow.bound (x : NozzleRow) : Bool := x.running || x.starting
/-- Whether a `NR_CFG` value and a pitch may be enabled on a row (R305). -/
def State.rowOk (s : State) (r w pitch : Nat) : Bool :=
  let f := bits w 1 10
  let n := bits w 11 10
  decide (1 ≤ n) && decide (f + n ≤ 576) && pitch != 0 &&
    (List.range 16).all fun q => q == r || !s.rowOn q ||
      !(decide (f < s.rowFirst q + s.rowCount' q) && decide (s.rowFirst q < f + n))
/-- A write of `NR_CFG` (R305, R336). -/
def writeNrCfg (s : State) (r w : Nat) : State :=
  let k := rowKey r 0
  let w := w % 2 ^ 29
  if s.mode = .run then s
  else if bits w 21 3 = 0 then ejErr s
  else if bit w 0 then
    if s.rowOk r w (s.rd (rowKey r 0xC)) then s.wr k w else ejErr s
  else if s.bitAt k 0 then
    (s.wr k w).updRow r fun x => { x with stopping := x.running, starting := x.starting && x.running }
  else s.wr k w
/-- A write of `NR_PITCH`: an enabled row keeps a pitch (R305). -/
def writeNrPitch (s : State) (r w : Nat) : State :=
  if s.mode = .run then s else if s.rowOn r && w == 0 then ejErr s else s.wr (rowKey r 0xC) w

/-! Opcodes of rows (R306, R308, R348). -/

def ejectStartCheck (s : State) (d : Desc) : Verdict :=
  let tn := d.tenant.val
  let r := d.p 0 1
  let q := d.p 1 1
  firstFail [(badFormat d (pm 0 2 ||| pb 2 7) false || decide (15 < r) || decide (64 ≤ q) || !s.rowOn r ||
      (List.range 16).any (fun x => x != r && (s.row x).bound && (s.row x).tenant == tn && (s.row x).queue == q), 0x14, 0),
    ((List.range (s.rowCount' r)).any (fun i => !s.hasValve tn (s.rowFirst r + i)) || s.qKind tn q != 0 ||
      !s.hasBudget tn 0 4, 0x11, 0),
    (decide (s.gTu tn 4 < 2), 0x12, 0)]
/-- EJECT_START: the row runs from the next boundary; a running row takes the queue and policy for its next item. -/
def doEjectStart (s : State) (d : Desc) : State :=
  s.updRow (d.p 0 1) fun x =>
    { x with tenant := d.tenant, queue := d.p 1 1, policy := d.p 2 1, starting := x.starting || !x.running }
/-- Who may stop or trim a row: the tenant it is bound to, or the owner of every valve. -/
def State.mayRow (s : State) (tn r : Nat) : Bool :=
  ((s.row r).bound && (s.row r).tenant == tn) ||
    (s.rowCount' r != 0 && (List.range (s.rowCount' r)).all fun i => s.hasValve tn (s.rowFirst r + i))
def ejectStopCheck (s : State) (d : Desc) : Verdict :=
  firstFail [(badFormat d (pm 0 1) false || decide (15 < d.p 0 1), 0x14, 0), (!s.mayRow d.tenant (d.p 0 1), 0x11, 0)]
/-- A row lets go of its queue (R308). -/
def rowStop (s : State) (r : Nat) : State :=
  s.updRow r fun x => { x with running := false, starting := false, stopping := false }
def doEjectStop (s : State) (d : Desc) : State := rowStop s (d.p 0 1)
def ejectTrimCheck (s : State) (d : Desc) : Verdict :=
  firstFail [(badFormat d (pm 0 1 ||| pm 4 4) false || decide (15 < d.p 0 1), 0x14, 0), (!s.mayRow d.tenant (d.p 0 1), 0x11, 0)]
/-- EJECT_TRIM (R348). -/
def doEjectTrim (s : State) (j : Job) : State :=
  let v := j.d.pS 4 4
  let c := clampI v (-400000) 400000
  let s := s.wr (rowKey (j.d.p 0 1) 0x1C) (unsigned 32 c)
  if c = v then complete s j 0 0 else complete s j 3 (2 ^ 32 * unsigned 32 c)

/-! Taking items (R307). -/

/-- One item of a row's queue is taken, as G work of the row's owner. -/
def arcTake (s : State) (r : Nat) : Nat → State
  | 0 => s
  | n + 1 =>
    let x := s.row r
    let q := s.queue (64 * x.tenant + x.queue)
    if !x.running || s.qKind x.tenant x.queue != 0 || nth (s.gRoom x.tenant) 4 < 2 then s
    else
      match q.items with
      | [] => s
      | i :: rest =>
        let s := s.setQueue (64 * x.tenant + x.queue)
          { q with items := rest, markerOpen := q.markerOpen && !rest.isEmpty }
        let s := rowCount (s.updRow r fun y => { y with taken := y.taken ++ [i] }) r 0
        let s := { s with ks := { s.ks with
          gUsed := storePut (fun _ => []) s.ks.gUsed x.tenant (addL (s.gUsedOf x.tenant) [0, 0, 0, 0, 2, 0, 0])
          used := addL s.ks.used [0, 0, 0, 0, 2, 0, 0] } }
        arcTake (countN s (tkey x.tenant (0x58 + 16)) 2) r n
/-- What rows do at a span boundary: stop (R336), start (R306), take (R307). -/
def arcBoundary (s : State) : State :=
  (List.range 16).foldl (fun s r =>
    let x := s.row r
    let s := if x.stopping then rowStop s r else s
    let x := s.row r
    let s := if x.starting then s.setRow r { x with running := true, starting := false } else s
    if (s.row r).running then arcTake s r (s.queue (64 * (s.row r).tenant + (s.row r).queue)).items.length else s) s

/-! The fit (R310 to R315). -/

/-- Unsigned little-endian field of a record. -/
def recU (p : List Byte) (a n : Nat) : Nat := leNat ((p.drop a).take n)
def recS (p : List Byte) (a n : Nat) : Int := signed (8 * n) (recU p a n)
/-- An observation as time in seconds and position in pixels. -/
def recObs (p : List Byte) (k : Nat) : Rat × Rat × Rat :=
  (mkRat (recS p (24 + 12 * k) 4) 400000000, mkRat (recU p (28 + 12 * k) 4) 65536, mkRat (recU p (32 + 12 * k) 4) 65536)
/-- The least-squares line through points of equal weight: its value at 0 and its slope; none when all times are equal. -/
def lsLine (l : List (Rat × Rat)) : Option (Rat × Rat) :=
  let n : Rat := (l.length : Nat)
  let st := l.foldl (fun a e => a + e.1) 0
  let sz := l.foldl (fun a e => a + e.2) 0
  let stt := l.foldl (fun a e => a + e.1 * e.1) 0
  let stz := l.foldl (fun a e => a + e.1 * e.2) 0
  let det := n * stt - st * st
  if det = 0 then none
  else
    let m := (n * stz - st * sz) / det
    some (b64 ((sz - m * st) / n), b64 m)
/-- A line through one point when the spec gives no fit: the slope is open. -/
def openLine (tag : Nat) (z : Rat) (args : List Int) : Rat × Rat := (z, ((Config.openValue tag args : Int) : Rat))
/-- The belt prior (R313). -/
def State.beltPrior (s : State) (r : Nat) : Option Rat :=
  let kind := s.fld (rowKey r 0x24) 0 2
  let i := s.fld (rowKey r 0x24) 2 6
  if kind = 0 ∨ !s.hasPub (s.row r).tenant (kind - 1) i then none
  else
    let x := storeGet (fun _ => PubRec.reset) s.pubRec (64 * (kind - 1) + i)
    if !x.valid || x.suspect then none
    else some (b64 (mkRat (s.rd (rowKey r 0x28)) 65536 * ofQ 24 x.vel * 400000000 / (s.tb.len : Nat)))
/-- A fit: x0, vx, y0, vy. -/
structure Fit where
  x0 : Rat
  vx : Rat
  y0 : Rat
  vy : Rat
  deriving DecidableEq, Repr
/-- R311 and R312. -/
def State.fitOf (s : State) (r : Nat) (p : List Byte) : Fit :=
  let acc : Rat := mkRat (signed 32 (s.rd (rowKey r 0x10))) 256
  let n := min 3 (recU p 7 1)
  let prior := (s.beltPrior r).getD ((s.fld (rowKey r 0x2C) 16 16 : Nat) : Rat)
  if 2 ≤ n then
    let o := (List.range n).map (recObs p)
    let args : List Int := (List.range 36).map fun i => (recU p (24 + i) 1 : Nat)
    let lx := (lsLine (o.map fun e => (e.1, e.2.1))).getD (openLine 311 (recObs p 0).2.1 (0 :: args))
    let ly := (lsLine (o.map fun e => (e.1, e.2.2 - acc * e.1 * e.1 / 2))).getD (openLine 311 (recObs p 0).2.2 (1 :: args))
    { x0 := lx.1, vx := lx.2, y0 := ly.1, vy := ly.2 }
  else
    let o := recObs p 0
    let ticks := s.rd (rowKey r 0x20) % 2 ^ 24
    let v (a : Nat) : Rat :=
      if ticks = 0 then ((Config.openValue 312 [(a : Nat), recS p a 2] : Int) : Rat)
      else b64 ((recS p a 2 : Rat) * 100000000 / (ticks : Nat))
    if bit (recU p 6 1) 4 then { x0 := o.2.1, vx := 0, y0 := o.2.2, vy := prior }
    else { x0 := o.2.1, vx := v 60, y0 := o.2.2, vy := v 62 }
/-- R314: the fitted vy against the prior; whether it was replaced. -/
def State.checkPrior (s : State) (r : Nat) (f : Fit) : Fit × Bool :=
  match s.beltPrior r with
  | none => (f, false)
  | some b =>
    if b * (s.fld (rowKey r 0x2C) 0 8 : Nat) / 100 < ratAbs (f.vy - b) then ({ f with vy := b }, true) else (f, false)
/-- The smallest t ≥ 0 with y0 + vy·t + ½·a·t² = Y (R315). -/
def crossTime (y0 vy a y : Rat) : Option Rat :=
  let pick (l : List Rat) : Option Rat :=
    (l.filter fun t => decide (0 ≤ t)).foldl (fun m t => match m with
      | none => some t
      | some u => some (ratMin t u)) none
  if a = 0 then if vy = 0 then (if y0 = y then some 0 else none) else pick [b64 ((y - y0) / vy)]
  else
    let disc := vy * vy - 2 * a * (y0 - y)
    if disc < 0 then none
    else
      let q := b64 (ratSqrt disc)
      pick [b64 ((-vy + q) / a), b64 ((-vy - q) / a)]

/-! The choice of valves and the events (R316 to R320). -/

/-- The row's valves that may be chosen: not disabled and not in fault (R333, R335). -/
def State.rowValve (s : State) (r i : Nat) : Bool :=
  let v := s.rowFirst r + i
  s.valveOn v && !(s.valve v).fault
/-- Put an index into a list ordered by distance from `c`, lower indices first on ties. -/
def insNear (c : Int) (i : Nat) : List Nat → List Nat
  | [] => [i]
  | j :: l =>
    let d (x : Nat) : Nat := ((x : Int) - c).natAbs
    if d i < d j ∨ (d i = d j ∧ i < j) then i :: j :: l else j :: insNear c i l
/-- The chosen indices, rising (R317). -/
def State.chosen (s : State) (r : Nat) (xc rad : Rat) : List Nat :=
  let ix (x : Rat) : Int := ((x - s.rowX0 r) / s.rowPitch r).floor
  let lo := ix (xc - rad)
  let hi := ix (xc + rad)
  let l : List Nat := (List.range (s.rowCount' r)).filter fun (i : Nat) => decide (lo ≤ (i : Int)) && decide ((i : Int) ≤ hi) && s.rowValve r i
  let keep := (l.foldl (fun a i => insNear (ix xc) i a) []).take (s.fld (rowKey r 0) 21 3)
  l.filter keep.contains
/-- What the Arc unit does with the events of one record or marker: counted outside COMMISSION and RUN (R309), or on their way
to the wheel. -/
def fitted (s : State) (r : Nat) (l : List FitEv) : State :=
  if l.isEmpty then s
  else if !s.motionMode then rowCount s r 15
  else { s with wheel := { s.wheel with fitted := s.wheel.fitted ++ [l] } }
/-- A record (R311 to R318). -/
def arcRecord (s : State) (r : Nat) (p : List Byte) : State :=
  let flags := recU p 6 1
  let pol := (s.row r).policy
  if !(bit flags 0 || (bit pol 0 && bit flags 5) || (bit pol 1 && bit flags 3) || (bit pol 2 && bit flags 2)) then rowCount s r 1
  else
    let fp := s.checkPrior r (s.fitOf r p)
    let s := if fp.2 then rowCount s r 5 else s
    let f := fp.1
    let acc : Rat := mkRat (signed 32 (s.rd (rowKey r 0x10))) 256
    match crossTime f.y0 f.vy acc (mkRat (signed 32 (s.rd (rowKey r 4))) 65536) with
    | none => rowCount s r 2
    | some t =>
      let xc := f.x0 + f.vx * t
      let rad := ratSqrt ((recU p 12 4 : Nat) / ratPi) * (s.fld (rowKey r 0x2C) 8 8 : Nat) / 100
      let tc : Int := recU p 16 8 + (t * 400000000 + mkRat 1 2).floor
      let score := if bit flags 1 then 65535 else recU p 8 2
      match s.chosen r xc rad with
      | [] => rowCount s r 3
      | l =>
        fitted s r (l.map fun i =>
          { kind := .arc r (recU p 0 4), valve := s.rowFirst r + i, opn := tc - (s.rd (rowKey r 0x14) % 2 ^ 24 : Nat),
            cls := tc + (s.rd (rowKey r 0x18) % 2 ^ 24 : Nat), score := score })
/-- A gap marker under BLANKET (R320). -/
def arcMarker (s : State) (r : Nat) (first last lanes : Nat) : State :=
  let pipe := s.fld (rowKey r 0) 24 5
  let off : Int := (s.rd (rowKey r 0x30) % 2 ^ 24 : Nat)
  let mar : Int := (s.rd (rowKey r 0x34) % 2 ^ 24 : Nat)
  let ovr (i : Nat) : Bool := (List.range 32).any fun j =>
    let w := s.rd (visKey pipe (0x80 + 4 * j))
    let lo := s.rowX0 r + s.rowPitch r * (i : Nat)
    bit lanes j && bit w 31 && decide (lo < ((bits w 16 13 + 1 : Nat) : Rat)) &&
      decide (((bits w 0 13 : Nat) : Rat) < lo + s.rowPitch r)
  fitted s r (((List.range (s.rowCount' r)).filter fun i => ovr i && s.rowValve r i).map fun i =>
    { kind := .blanket r, valve := s.rowFirst r + i, opn := first + off - mar, cls := last + off + mar,
      score := s.fld (rowKey r 0x38) 0 16 })
/-- ARC_FIT: the next item taken by a row. -/
def arcFit (s : State) (r : Nat) : State :=
  let x := s.row r
  match x.taken with
  | [] => s
  | i :: rest =>
    let s := s.setRow r { x with taken := rest }
    match i.body with
    | .data p => arcRecord s r p
    | .gap last _ lanes => if s.bitAt (qKey x.tenant x.queue 0) 4 then arcMarker s r i.time last lanes else s
    | .flush _ _ _ => s

/-- One computed event reaches the wheel: the latency and trim now in force (R318, R320, R342, R348), the horizon (R319), and
valves that have faulted, been disabled or left the grant since. -/
def insertFit (s : State) (e : FitEv) : State :=
  match e.kind.rowOf with
  | none => s
  | some (r, _) =>
    let lat : Int := (s.valve e.valve).lat
    let trim := signed 32 (s.rd (rowKey r 0x1C))
    let opn := e.opn - lat + trim
    let s := match e.kind with
      | .blanket _ => rowCount s r 14
      | _ => s
    if !s.valveOn e.valve || (s.valve e.valve).fault || !s.hasValve (s.row r).tenant e.valve then rowCount s r 13
    else if (s.now + s.horizon : Nat) < opn then rowCount s r 4
    else insertEvent s e.valve opn (e.cls - lat + trim) e.score e.kind
/-- EVENT_INSERT: the events of one record or marker at one tick, in ascending valve order (R318). -/
def eventInsert (s : State) : State :=
  match s.wheel.fitted with
  | [] => s
  | l :: rest =>
    let s := { s with wheel := { s.wheel with fitted := rest } }
    if s.motionMode then l.foldl insertFit s
    else
      match (l.head?).bind fun e => e.kind.rowOf with
      | some (r, _) => rowCount s r 15
      | none => s

/-! The commands. -/

/-- NR_ENABLE: an `NR_CFG` write with ENABLE = 1. -/
def execNrEnable (t : Nat) (r : Fin 16) (value : Word) (s : State) : Host.Outcome State Fault Refusal :=
  act s fun s => writeNrCfg (advance s t) r (value.toNat ||| 1)
/-- NR_DISABLE: an `NR_CFG` write with ENABLE = 0. -/
def execNrDisable (t : Nat) (r : Fin 16) (value : Word) (s : State) : Host.Outcome State Fault Refusal :=
  act s fun s => writeNrCfg (advance s t) r (value.toNat / 2 * 2)
def execEjectStart (t : Nat) (d : Desc) (s : State) : Host.Outcome State Fault Refusal :=
  act s fun s => runOp s t 0x60 d ejectStartCheck (andDone doEjectStart)
def execEjectStop (t : Nat) (d : Desc) (s : State) : Host.Outcome State Fault Refusal :=
  act s fun s => runOp s t 0x61 d ejectStopCheck (andDone doEjectStop)
def execEjectTrim (t : Nat) (d : Desc) (s : State) : Host.Outcome State Fault Refusal :=
  act s fun s => runOp s t 0x62 d ejectTrimCheck doEjectTrim
def execArcFit (t : Nat) (r : Fin 16) (s : State) : Host.Outcome State Fault Refusal :=
  act s fun s => arcFit (advance s t) r
def execEventInsert (t : Nat) (s : State) : Host.Outcome State Fault Refusal := act s fun s => eventInsert (advance s t)

end Sys2Proof.Machine
end

