-- ==== Sys2Proof/Machine/Can.lean ====
section
/-!
DEFINITION. CAN controllers (chapter 16): timing, channel states, the transmit set, filters, taps, sleep and wake.
-/
namespace Sys2Proof.Machine

/-! Timing (R589 to R592). -/

/-- The limits of R589 on one phase: prescaler and segments of a timing word with the widths of its fields, its shortest TSEG1
and its shortest bit in CAN clocks. -/
def canPhaseOk (w t1w t2w t1min bit0 : Nat) : Bool :=
  let brp := bits w 0 5 + 1
  let t1 := bits w 8 t1w + 1
  let t2 := bits w 16 t2w + 1
  decide (t1min ≤ t1) && decide (bits w 24 t2w + 1 ≤ t2) && decide (bit0 ≤ brp * (1 + t1 + t2))
/-- Whether every phase in use meets its limits (R589). -/
def canTimingOk (cfg nbt dbt xbt : Nat) : Bool :=
  canPhaseOk nbt 8 7 2 80 && (!bit cfg 0 || canPhaseOk dbt 5 4 1 10) && (!bit cfg 1 || canPhaseOk xbt 5 4 1 4)
/-- One phase derived from a rate and a sample point with one prescaler (R590); none when N is not whole or out of range. -/
def canDerive1 (rate pct t1max t2max t1min bit0 brp : Nat) : Option Nat :=
  if rate = 0 ∨ 80000000 % (brp * rate) ≠ 0 then none
  else
    let n := 80000000 / (brp * rate)
    let t1 := (divRound (n * pct : Nat) 100).toNat - 1
    let t2 := n - t1 - 1
    if t1min ≤ t1 ∧ t1 ≤ t1max ∧ 1 ≤ t2 ∧ t2 ≤ t2max ∧ t1 + 1 + t2 = n ∧ bit0 ≤ brp * n then
      some (brp - 1 + 256 * (t1 - 1) + 2 ^ 16 * (t2 - 1) + 2 ^ 24 * (t2 - 1))
    else none
/-- One phase derived with the smallest prescaler that serves (R590). -/
def canDerive (rate pct t1max t2max t1min bit0 : Nat) : Option Nat :=
  (List.range 32).findSome? fun b => canDerive1 rate pct t1max t2max t1min bit0 (b + 1)

/-- The words CAN_CONFIG sets: CAN_CFG, CAN_NBT, CAN_DBT, CAN_XBT and the stuck time (Table 16-4); none when no timing serves
(R589, R590). A phase not in use keeps its word. -/
def canConfigWords (s : State) (d : Desc) : Option (Nat × Nat × Nat × Nat × Nat) :=
  let c := d.p 0 1
  let f := d.p 1 1
  let cfg := b2n (bit f 2) + 2 * b2n (bit f 3) + 4 * b2n (bit f 1) + 8 * b2n (bit f 4) + 16 * b2n (bit f 5) +
    32 * s.fld (canKey c 0) 5 1
  let old := (s.rd (canKey c 8), s.rd (canKey c 0xC))
  let stuck := d.p 28 2
  let words :=
    if bit f 0 then some (d.p 4 4, d.p 8 4, d.p 12 4)
    else
      match canDerive (d.p 4 4) (d.p 8 1) 256 128 2 80,
        (if bit f 2 then canDerive (d.p 12 4) (d.p 16 1) 32 16 1 10 else some old.1),
        (if bit f 3 then canDerive (d.p 20 4) (d.p 24 1) 32 16 1 4 else some old.2) with
      | some n, some dd, some x => some (n, dd, x)
      | _, _, _ => none
  match words with
  | some (n, dd, x) => if canTimingOk cfg n dd x && decide (11 ≤ stuck) then some (cfg, n, dd, x, stuck) else none
  | none => none

/-! Grants on a channel. -/

/-- Whether an identifier lies in one of a tenant's ranges for its format, TX-flagged ones only with `tx` (R88, R90). -/
def State.canInRange (s : State) (tn c : Nat) (tx ext : Bool) (id : Nat) : Bool :=
  (List.range 8).any fun r =>
    let lo := s.gw tn (0x148 + 0x48 * c + 8 * r)
    let hi := s.gw tn (0x14C + 0x48 * c + 8 * r)
    bit lo 31 && bit lo 29 == ext && (!tx || bit lo 30) && decide (bits lo 0 29 ≤ id) && decide (id ≤ bits hi 0 29)
/-- The filters and transmit slots of a tenant on a channel. -/
def State.canFilterQuota (s : State) (tn c : Nat) : Nat :=
  if s.canUse tn c = 1 then 128 else if s.canUse tn c = 2 then bits (s.gw tn (0x140 + 0x48 * c)) 8 8 else 0
def State.canSlotQuota (s : State) (tn c : Nat) : Nat :=
  if s.canUse tn c = 1 then 32 else if s.canUse tn c = 2 then bits (s.gw tn (0x140 + 0x48 * c)) 16 6 else 0
/-- Slots a tenant has taken: frames in the set, and XL frames whose data is on its way. -/
def State.canTaken (s : State) (tn c : Nat) : Nat :=
  ((s.can c).set.filter (·.tenant == tn)).length +
    (s.jobs.filter fun j => j.kind == .desc && j.d.op == 0x81#8 && j.phase == .active && j.d.tenant.val == tn && j.d.p 0 1 == c &&
      (s.can c).set.all (·.job != j.id)).length

/-! The transmit set (R595 to R601). -/

/-- The bits of n bits of a number, highest first. -/
def msbBits (n w : Nat) : List Nat := (List.range n).map fun i => bits w (n - 1 - i) 1
/-- The arbitration field as it appears on the bus, dominant 0 (R595). -/
def arbField (f : CanFrame) : List Nat :=
  let tail := match f.fmt with
    | 0 => [0]
    | 1 => [1, 0]
    | _ => [1, 1]
  if f.ide then msbBits 11 (f.id / 2 ^ 18) ++ [1, 1] ++ msbBits 18 f.id ++ [b2n f.rtr] ++ tail
  else msbBits 11 f.id ++ [b2n f.rtr, 0] ++ tail
/-- Whether one arbitration field wins over another. -/
def arbWins : List Nat → List Nat → Bool
  | a :: l, b :: m => if a < b then true else if b < a then false else arbWins l m
  | _, _ => false
/-- The frame the channel sends from a set, of those in it at the start of frame (R595). -/
def canWinner (sof : Nat) : List CanSlot → Option CanSlot
  | [] => none
  | x :: l =>
    match canWinner sof l with
    | none => if x.since ≤ sof then some x else none
    | some y => if sof < x.since then some y else if arbWins (arbField y.frame) (arbField x.frame) then some y else some x
/-- The channel sends frames. -/
def Can.sends (x : Can) : Bool := x.state == .active || x.state == .passive
def State.canListenOnly (s : State) (c : Nat) : Bool := s.bitAt (canKey c 0) 2

/-- A CAN-block flag. -/
def canFlag (s : State) (c mask : Nat) : State := flag s (canKey c 0x44) mask
/-- The error state the counters give (ISO 11898-1), with ERR_PASSIVE flagged on its entry. -/
def canErrState (s : State) (c : Nat) : State :=
  let x := s.can c
  let passive := decide (128 ≤ x.txErr) || decide (128 ≤ x.rxErr)
  if !x.sends then s
  else flagIf (s.setCan c { x with state := if passive then .passive else .active }) (passive && x.state == .active)
    (canKey c 0x44) 8

/-- A job's frame, when its data is the given bytes. -/
def canFrameOf (d : Desc) (data : List Byte) : CanFrame :=
  if d.op = 0x81#8 then
    { fmt := 2, ide := false, rtr := false, brs := false, esi := false, sec := bit (d.p 1 1) 0, id := d.p 4 2, len := d.p 2 2,
      data := data, sdt := d.p 6 1, vcid := d.p 7 1, af := d.p 8 4 }
  else
    { fmt := d.p 1 1 % 4, ide := bit (d.p 1 1) 2, rtr := bit (d.p 1 1) 3, brs := d.p 1 1 % 4 == 1 && bit (d.p 1 1) 4, esi := false, sec := false,
      id := d.p 4 4, len := d.p 2 2, data := data, sdt := 0, vcid := 0, af := 0 }
/-- The n bytes of a frame from a list. -/
def takeBytes (n : Nat) (l : List Byte) : List Byte := (l ++ List.replicate n 0).take n

/-- LEN values of an FD frame (R597). -/
def fdLens : List Nat := [0, 1, 2, 3, 4, 5, 6, 7, 8, 12, 16, 20, 24, 32, 48, 64]
/-- Format checks of a frame (R597). -/
def canFrameBad (s : State) (d : Desc) : Bool :=
  let c := d.p 0 1
  let f := d.p 1 1
  let n := d.p 2 2
  let cfg := s.rd (canKey c 0)
  if d.op = 0x81#8 then n == 0 || decide (2048 < n) || decide (2 ^ 11 ≤ d.p 4 2) || !bit cfg 1
  else
    let fmt := f % 4
    decide (2 ≤ fmt) || decide ((if bit f 2 then 2 ^ 29 else 2 ^ 11) ≤ d.p 4 4) || (fmt == 0 && decide (8 < n)) ||
      (fmt == 1 && (!fdLens.contains n || bit f 3 || !bit cfg 0)) || (!bit f 7 && decide (8 < n))
/-- Why the channel takes no frame now: 1 stopped, 2 asleep, 3 listen-only, 0 it takes one (R601). -/
def State.canClosed (s : State) (c : Nat) : Nat :=
  match (s.can c).state with
  | .stopped => 1
  | .sleep => 2
  | _ => if s.canListenOnly c then 3 else 0
/-- The checks of CAN_TX and CAN_TX_XL. -/
def canTxCheck (s : State) (d : Desc) : Verdict :=
  let tn := d.tenant.val
  let c := d.p 0 1
  let xl := d.op == 0x81#8
  let named := if xl then pm 0 1 ||| pb 1 0x21 ||| pm 2 10 ||| pm 16 8 else pm 0 1 ||| pb 1 0xBF ||| pm 2 14
  let ext := !xl && bit (d.p 1 1) 2
  let id := if xl then d.p 4 2 else d.p 4 4
  let cost := if xl then [ceilDiv (d.p 2 2) 1024, 0, 0, 0, 0, 0, 0] else []
  firstFail [(badFormat d named xl || decide (8 ≤ c), 0x14, 0), (canFrameBad s d, 0x14, 0),
    (s.canUse tn c == 0 || (s.canUse tn c == 2 && !s.canInRange tn c true ext id) || s.noBudget tn d.clsNo cost, 0x11, 0),
    (s.canClosed c != 0, 0x13, s.canClosed c), (s.tooLarge tn d.clsNo cost, 0x12, 0)]

/-- A frame takes its place in the set, by admission (R595). -/
def canInsert (y : CanSlot) : List CanSlot → List CanSlot
  | [] => [y]
  | x :: l => if y.adm < x.adm ∨ (y.adm = x.adm ∧ y.job < x.job) then y :: x :: l else x :: canInsert y l
/-- A frame enters the transmit set; a one-shot frame on a stuck channel completes BUS_STUCK (R603). An XL frame's job holds the tick
of its admission. -/
def canPut (s : State) (j : Job) (data : List Byte) : State :=
  let c := j.d.p 0 1
  let one := bit (j.d.p 1 1) 5
  let x := s.can c
  if x.state = .stuck ∧ one then complete s j 0x32 0
  else
    let y : CanSlot := { job := j.id, tenant := j.d.tenant, frame := canFrameOf j.d data, oneShot := one,
                         adm := if j.d.op = 0x81#8 then j.aux.headD 0 else s.now, since := s.now }
    (keep s { j with phase := .active }).setCan c { x with set := canInsert y x.set }
/-- Admission of CAN_TX and CAN_TX_XL: they wait for a free slot (R596); an XL frame's data is then fetched. -/
def canAdmit (s : State) (j : Job) : State :=
  let c := j.d.p 0 1
  if s.canSlotQuota j.d.tenant c ≤ s.canTaken j.d.tenant c then keep s { j with phase := .waitSlot }
  else
    let s := if j.phase = .waitSlot then dropJob s j.id else s
    let j := if j.phase = .waitSlot then { j with adm := s.tb.spanIx, deadline := deadlineOf s j.d s.tb.spanIx, shedAt := s.tb.spanIx + bits s.ks.cfg2.toNat 0 16 } else j
    if j.d.op = 0x81#8 then keep s { j with phase := .active, slices := [[ceilDiv (j.d.p 2 2) 1024, 0, 0, 0, 0, 0, 0]], aux := [s.now] }
    else canPut s j (j.aux.map (BitVec.ofNat 8))
/-- CAN_TX at admission with its data: the parameter bytes or, with DATA_IN_HOST, what the host holds. -/
def canTxStart (hostData : List Byte) (s : State) (j : Job) : State :=
  let d := j.d
  let data := if bit (d.p 1 1) 3 then [] else if bit (d.p 1 1) 7 then takeBytes (d.p 2 2) hostData else
    takeBytes (d.p 2 2) ((d.params.drop 8).take 8)
  canAdmit s { j with aux := data.map (·.toNat) }
/-- The frames that wait for a slot of a channel are admitted in order as slots free, after their checks (R596). -/
def canRetry (s : State) (c : Nat) : State :=
  (s.jobs.filter fun j => j.phase == .waitSlot && j.kind == .desc && j.d.p 0 1 == c).foldl (fun s j =>
    match canTxCheck s j.d with
    | some (st, res) => complete s j st res
    | none => planNow (canAdmit s j) j) s
/-- The XL frame's data has arrived (R595). A channel that has stopped taking frames since refuses it (R601). -/
def canXlArrive (s : State) (id : Nat) (data : List Byte) : State :=
  match s.job? id with
  | some j =>
    if j.kind = .desc ∧ j.d.op = 0x81#8 ∧ j.phase = .active ∧ j.slices = [] ∧
        (s.can (j.d.p 0 1)).set.all (·.job != id) then
      if s.canClosed (j.d.p 0 1) ≠ 0 then complete s j 0x13 (s.canClosed (j.d.p 0 1))
      else canPut s j (takeBytes (j.d.p 2 2) data)
    else s
  | none => s
/-- The DMA slice of a CAN_TX_XL has run; its data arrives under its own command. -/
def canXlSlice (s : State) (j : Job) : State := keep s j

/-- Frames leave the set with a final status. -/
def canEndSlots (s : State) (c : Nat) (f : CanSlot → Bool) (st res : Nat) : State :=
  let out := (s.can c).set.filter f
  let s := s.updCan c fun x => { x with set := x.set.filter fun y => !f y }
  out.foldl (fun s y => match s.job? y.job with
    | some j => complete s j st res
    | none => s) s
/-- The frames of a tenant on a channel, in the set or waiting, end with a status (R81, R100). -/
def canDropTenant (s : State) (tn c st : Nat) : State :=
  let s := canEndSlots s c (·.tenant == tn) st 0
  let mine := s.jobs.filter fun j => j.kind == .desc && j.d.tenant.val == tn && j.d.p 0 1 == c &&
    (j.phase == .waitSlot || (j.d.op == 0x81#8 && j.phase == .active))
  canRetry (mine.foldl (fun s j => complete s j st 0) s) c

/-! Channel states (R593, R594, R602 to R608). -/

/-- STOP takes effect (R593). A SLEEP that never woke ends with it. -/
def canStopNow (s : State) (c : Nat) : State :=
  let s := canEndSlots s c (fun _ => true) 0x13 1
  let x := s.can c
  let s := s.setCan c { x with state := .stopped, sleepJob := none, recovering := false }
  let s := match x.sleepJob.bind s.job? with
    | some j => complete s j 0x13 1
    | none => s
  canRetry s c
/-- Sleep is entered (R605, R606). -/
def canSleepNow (s : State) (c : Nat) (job : Option Nat) : State :=
  let s := canEndSlots s c (fun _ => true) 0x13 2
  let x := s.can c
  let off := x.state == .busOff
  let s := s.setCan c
    { x with
      state := .sleep
      sleepJob := job
      recovering := false
      txErr := if off then 0 else x.txErr
      rxErr := if off then 0 else x.rxErr }
  canRetry s c
/-- A STOP whose time has come, with its completion. -/
def canStopDo (s : State) (c : Nat) (job : Option Nat) : State :=
  let s := canStopNow s c
  match job.bind s.job? with
  | some j => complete s j 0 0
  | none => s
/-- A SLEEP whose time has come: refused on a stopped or sleeping channel (R605). -/
def canSleepDo (s : State) (c : Nat) (job : Option Nat) : State :=
  let st := (s.can c).state
  if st = .stopped ∨ st = .sleep then
    match job.bind s.job? with
    | some j => complete s j 0x13 (if st = .stopped then 1 else 2)
    | none => s
  else canSleepNow s c job
/-- The frame in progress has ended: STOP and SLEEP that waited take effect (R593, R605). -/
def canFrameEnd (s : State) (c : Nat) : State :=
  let w := (s.can c).stop
  let s := s.updCan c fun x => { x with stop := [], filters := x.filters.map fun e => (e.1, e.2.take 1) }
  w.foldl (fun s e => if e.1 then canSleepDo s c e.2 else canStopDo s c e.2) s

/-- The actions of CAN_CTRL and `CAN_CMD`: 0 START, 1 STOP, 2 SLEEP, 3 RECOVER. -/
def canAct (s : State) (c act : Nat) (busy : Bool) (job : Option Nat) : State :=
  let x := s.can c
  let done (s : State) : State := match job.bind s.job? with
    | some j => complete s j 0 0
    | none => s
  let wait := busy && x.sends
  match act with
  | 0 =>
    done (if x.state = .stopped then
      s.setCan c { x with state := .active, txErr := 0, rxErr := 0, recovering := false } else s)
  | 1 => if wait then s.setCan c { x with stop := x.stop ++ [(false, job)] } else canStopDo s c job
  | 2 => if wait then s.setCan c { x with stop := x.stop ++ [(true, job)] } else canSleepDo s c job
  | _ => done (if x.state = .busOff then s.setCan c { x with recovering := true } else s)

/-- BUS_OFF (R594). -/
def canBusOff (s : State) (c : Nat) : State :=
  if !(s.can c).sends then s
  else
    let s := canEndSlots s c (fun _ => true) 0x33 0
    let s := s.updCan c fun x => { x with state := .busOff, recovering := s.bitAt (canKey c 0) 3 }
    canFrameEnd (canRetry (canFlag (count s (canKey c 0x60)) c 2) c) c
/-- BUS_OFF_RECOVERED (R594). -/
def canRecovered (s : State) (c : Nat) : State :=
  let x := s.can c
  if x.state = .busOff ∧ x.recovering then
    s.setCan c { x with state := .active, recovering := false, txErr := 0, rxErr := 0 }
  else s
/-- BUS_STUCK (R602): the detector also runs in sleep and bus-off, where the state stays. -/
def canStuck (s : State) (c : Nat) : State :=
  let x := s.can c
  if x.state == .stopped || (x.rxdStuck && !x.sends) then s
  else
    let s := s.setCan c { x with rxdStuck := true, state := if x.sends then .stuck else x.state }
    let s := canFlag (count s (canKey c 0x5C)) c 1
    if x.sends then canFrameEnd (canRetry (canEndSlots s c (·.oneShot) 0x32 0) c) c else s
/-- RXD_RECESSIVE (R604, R608). -/
def canRecessive (s : State) (c : Nat) : State :=
  let x := s.can c
  let st := if x.state = .stuck then (if 128 ≤ x.txErr ∨ 128 ≤ x.rxErr then .passive else .active) else x.state
  s.setCan c { x with rxdStuck := false, masked := false, state := st }

/-! Receiving (R609 to R615). -/

/-- The bit of a frame's format in a filter's format mask (Table 16-4). -/
def canFmtBit (f : CanFrame) : Nat :=
  if f.rtr then 5 else if f.fmt = 2 then 4 else 2 * f.fmt + b2n f.ide
/-- Whether a filter matches a frame. -/
def CanFilt.hits (x : CanFilt) (f : CanFrame) : Bool :=
  x.enabled && bit x.formats (canFmtBit f) &&
    (if x.range then decide (x.id1 ≤ f.id) && decide (f.id ≤ x.id2) else (f.id &&& x.id2) == (x.id1 &&& x.id2))
/-- A filter slot as it stood at a start of frame (R612). -/
def Can.filterAt (x : Can) (tn slot sof : Nat) : CanFilt :=
  ((storeGet (fun _ => []) x.filters (128 * tn + slot)).find? fun y => decide (y.since < sof)).getD CanFilt.reset
/-- A tenant's first matching filter (R609). -/
def State.canFirst (s : State) (c tn sof : Nat) (f : CanFrame) : Option (Nat × CanFilt) :=
  if s.canUse tn c = 2 ∧ ¬ s.canInRange tn c false f.ide f.id then none
  else ((List.range (s.canFilterQuota tn c)).map fun i => (i, (s.can c).filterAt tn i sof)).find? fun e => e.2.hits f
/-- The payload of a receive item (Table 16-3). -/
def canPayload (f : CanFrame) (slot : Nat) : List Byte :=
  leBytes 4 f.id ++
    leBytes 1 (f.fmt + 4 * b2n f.ide + 8 * b2n f.rtr + 16 * b2n f.brs + 32 * b2n f.esi + 64 * b2n f.sec) ++ leBytes 1 slot ++
    leBytes 2 f.len ++ leBytes 4 f.af ++ leBytes 1 f.sdt ++ leBytes 1 f.vcid ++ leBytes 2 0 ++ f.data
def canOffer (s : State) (c tn q sof slot : Nat) (sent : Bool) (f : CanFrame) : State :=
  offer s tn q 2 { src := c + 8 * b2n sent, time := sof, payload := canPayload f slot, lane := 0, done := true }
/-- The tenants with a use of a channel. -/
def State.canTenants (s : State) (c : Nat) : List Nat := (List.range 256).filter fun t => s.canUse t c != 0
/-- The taps of a channel that still have their right (R614). -/
def State.canTaps (s : State) (c : Nat) : List (Nat × Nat) :=
  (s.can c).taps.filter fun e => s.canUse e.1 c == 1 || s.hasListen e.1 c
/-- A valid frame is delivered; `from0` is the sender's tenant for a frame of the channel's own (R609 to R611, R613, R614).
Also whether somebody took it. -/
def canDeliver (s : State) (c sof : Nat) (from0 : Option Nat) (f : CanFrame) : State × Bool :=
  let hits := (s.canTenants c).filterMap fun t =>
    if from0 = some t then none
    else (s.canFirst c t sof f).bind fun e => if e.2.reject then none else some (t, e)
  let taps := s.canTaps c
  let s := hits.foldl (fun s h => canOffer s c h.1 h.2.2.queue sof h.2.1 from0.isSome f) s
  let s := taps.foldl (fun s e => canOffer s c e.1 e.2 sof 0xFF from0.isSome f) s
  (s, !(hits.isEmpty && taps.isEmpty))
/-- Whether the channel's settings let it take a frame of a format. -/
def State.canFmtOn (s : State) (c fmt : Nat) : Bool :=
  fmt == 0 || (fmt == 1 && s.bitAt (canKey c 0) 0) || (fmt == 2 && s.bitAt (canKey c 0) 1)
/-- A received frame is counted and delivered (R609, R610). -/
def canTake (s : State) (c sof : Nat) (f : CanFrame) : State :=
  let r := canDeliver (count s (canKey c 0x4C)) c sof none f
  if r.2 then r.1 else count r.1 (canKey c 0x68)
/-- CAN_FRAME_RECEIVED. -/
def canReceived (s : State) (c sof : Nat) (f : CanFrame) : State :=
  if !(s.can c).sends || !s.canFmtOn c f.fmt then s
  else
    let s := canTake s c sof f
    let s := s.updCan c fun x => { x with rxErr := if 128 ≤ x.rxErr then 127 else x.rxErr - 1 }
    canFrameEnd (canErrState s c) c
/-- CAN_FRAME_TRANSMITTED (R595, R598, R611). -/
def canTransmitted (s : State) (c sof : Nat) : State :=
  if !(s.can c).sends || s.canListenOnly c then s
  else
    match canWinner sof (s.can c).set with
    | none => s
    | some y =>
      let esi := y.frame.fmt == 1 && (s.can c).state == .passive
      let s := (canDeliver (count s (canKey c 0x50)) c sof (some y.tenant) { y.frame with esi := esi }).1
      let s := canEndSlots s c (·.job == y.job) 0 sof
      let s := s.updCan c fun x => { x with txErr := x.txErr - 1 }
      canFrameEnd (canRetry (canErrState s c) c) c
/-- The RESULT of ONE_SHOT_ARB_LOST (Table 16-2). -/
def arbResult (w : Option CanWinner) (index : Nat) : Nat :=
  let x := match w with
    | some v => v.id % 2 ^ 32 + 2 ^ 32 * (b2n v.ide + 2 * b2n v.rtr + 4 * b2n v.fdf + 8 * b2n v.xlf)
    | none => 0xFFFFFFFF
  x + 2 ^ 48 * (index % 2 ^ 16)
/-- ONE_SHOT_ARB_LOST (R599): a retried frame that loses stays in the set. -/
def canArbLost (s : State) (c sof : Nat) (w : Option CanWinner) (index : Nat) : State :=
  if !(s.can c).sends || s.canListenOnly c then s
  else
    match canWinner sof (s.can c).set with
    | none => s
    | some y =>
      let s := count s (canKey c 0x58)
      if y.oneShot then canRetry (canEndSlots s c (·.job == y.job) 0x30 (arbResult w index)) c else s
/-- The code of an error kind (R600). -/
def canErrCode : CanErr → Nat
  | .bit => 1
  | .stuff => 2
  | .crc => 3
  | .form => 4
  | .ack => 5
/-- CAN_BUS_ERROR (R600): the transmit error counter rises by 8, but not for a missing acknowledgement while error passive
(ISO 11898-1, PRESUMED). -/
def canTxError (s : State) (c sof : Nat) (kind : CanErr) : State :=
  if !(s.can c).sends || s.canListenOnly c then s
  else
    match canWinner sof (s.can c).set with
    | none => s
    | some y =>
      let s := count s (canKey c 0x54)
      let s := s.updCan c fun x =>
        { x with txErr := if kind = .ack ∧ x.state = .passive then x.txErr else min 256 (x.txErr + 8) }
      let s := if y.oneShot then canEndSlots s c (·.job == y.job) 0x31 (canErrCode kind) else s
      canFrameEnd (canRetry (canErrState s c) c) c
/-- CAN_RX_ERROR (R586): no error frame and no count in listen-only mode (R615). -/
def canRxErr (s : State) (c : Nat) (afterFlag : Bool) : State :=
  if !(s.can c).sends || s.canListenOnly c then s
  else
    let s := count s (canKey c 0x54)
    let s := s.updCan c fun x => { x with rxErr := min 255 (x.rxErr + if afterFlag then 8 else 1) }
    canFrameEnd (canErrState s c) c

/-! Sleep and wake (R607, R608). -/

/-- Whether a frame matches the wake frame. -/
def State.canWakeHit (s : State) (c : Nat) (f : CanFrame) : Bool :=
  let w := s.rd (canKey c 0x1C)
  let mask := s.rd (canKey c 0x20)
  let data := s.rd (canKey c 0x24) + 2 ^ 32 * s.rd (canKey c 0x28)
  let dm := s.rd (canKey c 0x2C) + 2 ^ 32 * s.rd (canKey c 0x30)
  decide (f.fmt ≤ 1) && f.ide == bit w 29 && (f.fmt == 1) == bit w 30 && (f.id &&& mask) == (bits w 0 29 &&& mask) &&
    (List.range 8).all fun i =>
      let m := bits dm (8 * i) 8
      m == 0 || (decide (i < f.data.length) && ((f.data.getD i 0).toNat &&& m) == (bits data (8 * i) 8 &&& m))
/-- The channel wakes (R607). -/
def canWakeNow (s : State) (c start : Nat) (edge : Bool) : State :=
  let x := s.can c
  let s := s.setCan c { x with state := .active, sleepJob := none, masked := x.masked || edge }
  let s := canFlag (count s (canKey c 0x64)) c 4
  match x.sleepJob.bind s.job? with
  | some j => complete s j 0 start
  | none => s
/-- CAN_WAKE: a dominant edge that has stayed for WAKE_MIN, or a frame, as WAKE_MODE says. -/
def canWake (s : State) (c start : Nat) (frame : Option CanFrame) : State :=
  let k := s.rd (canKey c 0x18)
  if (s.can c).state ≠ .sleep then s
  else
    match frame with
    | none =>
      if bit k 0 || (s.can c).masked || decide (s.now < start + bits k 4 12) then s else canWakeNow s c start true
    | some f =>
      if bit k 0 && s.canFmtOn c f.fmt && s.canWakeHit c f then canTake (canWakeNow s c start false) c start f else s

/-! The other opcodes (Table 16-4, R618). -/

def canFilterCheck (s : State) (d : Desc) : Verdict :=
  let c := d.p 0 1
  firstFail [(badFormat d (pm 0 2 ||| pb 2 7 ||| pb 3 0x3F ||| pm 4 1 ||| pm 8 8) false || decide (8 ≤ c), 0x14, 0),
    (decide (64 ≤ d.p 4 1) || s.qKind d.tenant (d.p 4 1) != 2, 0x14, 0), (decide (s.canFilterQuota d.tenant c ≤ d.p 1 1), 0x11, 0)]
/-- CAN_FILTER (R609, R612). -/
def doCanFilter (s : State) (d : Desc) : State :=
  let f : CanFilt :=
    { enabled := bit (d.p 2 1) 0, range := bit (d.p 2 1) 1, reject := bit (d.p 2 1) 2, formats := d.p 3 1, queue := d.p 4 1,
      id1 := d.p 8 4, id2 := d.p 12 4, since := s.now }
  s.updCan (d.p 0 1) fun x =>
    let k := 128 * d.tenant.val + d.p 1 1
    { x with filters := storePut (fun _ => []) x.filters k (f :: storeGet (fun _ => []) x.filters k) }
def canTapCheck (s : State) (d : Desc) : Verdict :=
  let c := d.p 0 1
  firstFail [(badFormat d (pm 0 2 ||| pb 2 1) false || decide (8 ≤ c), 0x14, 0),
    (decide (64 ≤ d.p 1 1) || s.qKind d.tenant (d.p 1 1) != 2, 0x14, 0),
    (s.canUse d.tenant c != 1 && !s.hasListen d.tenant c, 0x11, 0)]
/-- CAN_TAP (R614). -/
def doCanTap (s : State) (d : Desc) : State :=
  s.updCan (d.p 0 1) fun x =>
    let rest := x.taps.filter (·.1 != d.tenant.val)
    { x with taps := if bit (d.p 2 1) 0 then rest ++ [(d.tenant.val, d.p 1 1)] else rest }
def canCtrlCheck (s : State) (d : Desc) : Verdict :=
  let c := d.p 0 1
  let st := (s.can c).state
  firstFail [(badFormat d (pm 0 2) false || decide (8 ≤ c) || decide (4 ≤ d.p 1 1), 0x14, 0), (s.canUse d.tenant c != 1, 0x11, 0),
    (d.p 1 1 == 2 && (st == .stopped || st == .sleep), 0x13, if st = .stopped then 1 else 2)]
/-- CAN_CTRL (R593, R594, R605). -/
def canCtrl (busy : Bool) (s : State) (j : Job) : State :=
  canAct (keep s { j with phase := .active }) (j.d.p 0 1) (j.d.p 1 1) busy (some j.id)
def canConfigCheck (s : State) (d : Desc) : Verdict :=
  let c := d.p 0 1
  let raw := bit (d.p 1 1) 0
  let named := pm 0 1 ||| pb 1 0x3F ||| pm 28 2 |||
    (if raw then pm 4 12 else pm 4 5 ||| pm 12 5 ||| pm 20 5)
  let words := if raw then (d.p 4 4 &&& 0x7F7FFF1F) != d.p 4 4 || (d.p 8 4 &&& 0x0F0F1F1F) != d.p 8 4 ||
    (d.p 12 4 &&& 0x0F0F1F1F) != d.p 12 4 else false
  firstFail [(badFormat d named true || words || decide (8 ≤ c) || (canConfigWords s d).isNone, 0x14, 0),
    (s.canUse d.tenant c != 1, 0x11, 0), (raw && !s.expert d.tenant, 0x15, 0),
    (s.mode == .run || (s.can c).state != .stopped, 0x13, 0)]
/-- CAN_CONFIG (R589, R590). -/
def doCanConfig (s : State) (d : Desc) : State :=
  let c := d.p 0 1
  match canConfigWords s d with
  | some (cfg, n, dd, x, stuck) =>
    ((((s.wr (canKey c 0) cfg).wr (canKey c 4) n).wr (canKey c 8) dd).wr (canKey c 0xC) x).wr (canKey c 0x14) stuck
  | none => s
/-- What else a refusal does: CAN_CONFIG with timing outside R589 or R590 also sets `CAN_STATUS.CFG_ERR`. -/
def refuseSide (s : State) (d : Desc) : State :=
  if d.op = 0x85#8 ∧ d.p 0 1 < 8 ∧ (canConfigWords s d).isNone then canFlag s (d.p 0 1) 0x10 else s
def canInfoCheck (s : State) (d : Desc) : Verdict :=
  let c := d.p 0 1
  firstFail [(badFormat d (pm 0 1) false || decide (8 ≤ c), 0x14, 0),
    (s.canUse d.tenant c == 0 && !s.hasListen d.tenant c, 0x11, 0)]
/-- CAN_INFO. -/
def canInfo (s : State) (j : Job) : State :=
  let c := j.d.p 0 1
  let x := s.can c
  let free := s.canSlotQuota j.d.tenant c - s.canTaken j.d.tenant c
  complete s j 0 (x.state.code + 256 * min 255 x.txErr + 2 ^ 16 * min 255 x.rxErr +
    2 ^ 24 * (b2n x.masked + 2 * b2n x.rxdStuck) + 2 ^ 32 * free)
/-- `CAN_STATE` as it reads (Table 16-6). -/
def State.canStateWord (s : State) (c : Nat) : Nat :=
  let x := s.can c
  x.state.code + 8 * b2n x.masked + 16 * b2n x.rxdStuck + 256 * min 255 x.txErr + 2 ^ 16 * min 255 x.rxErr

/-! The commands. -/

/-- CAN_TX (R595 to R603). -/
def execCanTx (t : Nat) (d : Desc) (hostData : List Byte) (s : State) : Host.Outcome State Fault Refusal :=
  act s fun s => runOp s t 0x80 d canTxCheck (canTxStart hostData)
/-- CAN_TX_XL (R595 to R597, R617). -/
def execCanTxXl (t : Nat) (d : Desc) (s : State) : Host.Outcome State Fault Refusal :=
  act s fun s => runOp s t 0x81 d canTxCheck canAdmit
/-- CAN_TX_XL_DATA_ARRIVAL (R595). -/
def execCanTxXlDataArrival (t : Nat) (job : Nat) (data : List Byte) (s : State) : Host.Outcome State Fault Refusal :=
  act s fun s => canXlArrive (advance s t) job data
/-- CAN_FILTER (R609, R612). -/
def execCanFilter (t : Nat) (d : Desc) (s : State) : Host.Outcome State Fault Refusal :=
  act s fun s => runOp s t 0x82 d canFilterCheck (andDone doCanFilter)
/-- CAN_TAP (R614). -/
def execCanTap (t : Nat) (d : Desc) (s : State) : Host.Outcome State Fault Refusal :=
  act s fun s => runOp s t 0x83 d canTapCheck (andDone doCanTap)
/-- CAN_CTRL START (R593). -/
def execCanStart (t : Nat) (d : Desc) (s : State) : Host.Outcome State Fault Refusal :=
  act s fun s => runOp s t 0x84 (d.setP 1 0) canCtrlCheck (canCtrl false)
/-- CAN_CTRL STOP (R593). -/
def execCanStop (t : Nat) (d : Desc) (busy : Bool) (s : State) : Host.Outcome State Fault Refusal :=
  act s fun s => runOp s t 0x84 (d.setP 1 1) canCtrlCheck (canCtrl busy)
/-- CAN_CTRL SLEEP (R605, R606). -/
def execCanSleep (t : Nat) (d : Desc) (busy : Bool) (s : State) : Host.Outcome State Fault Refusal :=
  act s fun s => runOp s t 0x84 (d.setP 1 2) canCtrlCheck (canCtrl busy)
/-- CAN_CTRL RECOVER (R594). -/
def execCanRecover (t : Nat) (d : Desc) (s : State) : Host.Outcome State Fault Refusal :=
  act s fun s => runOp s t 0x84 (d.setP 1 3) canCtrlCheck (canCtrl false)
/-- CAN_CONFIG (R589, R590, R592, R618). -/
def execCanConfig (t : Nat) (d : Desc) (s : State) : Host.Outcome State Fault Refusal :=
  act s fun s => runOp (refuseSide (advance s t) { d with op := 0x85#8 }) t 0x85 d canConfigCheck (andDone doCanConfig)
/-- CAN_INFO (Table 16-4). -/
def execCanInfo (t : Nat) (d : Desc) (s : State) : Host.Outcome State Fault Refusal :=
  act s fun s => runOp s t 0x86 d canInfoCheck canInfo
/-- CAN_FRAME_RECEIVED (R609 to R616). -/
def execCanFrameReceived (t : Nat) (c : Fin 8) (sof : Nat) (f : CanFrame) (s : State) : Host.Outcome State Fault Refusal :=
  act s fun s => canReceived (advance s t) c sof f
/-- CAN_FRAME_TRANSMITTED (R598, R611). -/
def execCanFrameTransmitted (t : Nat) (c : Fin 8) (sof : Nat) (s : State) : Host.Outcome State Fault Refusal :=
  act s fun s => canTransmitted (advance s t) c sof
/-- ONE_SHOT_ARB_LOST (R599). -/
def execOneShotArbLost (t : Nat) (c : Fin 8) (sof : Nat) (winner : Option CanWinner) (index : Nat) (s : State) :
    Host.Outcome State Fault Refusal :=
  act s fun s => canArbLost (advance s t) c sof winner index
/-- CAN_BUS_ERROR (R600). -/
def execCanBusError (t : Nat) (c : Fin 8) (sof : Nat) (kind : CanErr) (s : State) : Host.Outcome State Fault Refusal :=
  act s fun s => canTxError (advance s t) c sof kind
/-- CAN_RX_ERROR (R586). -/
def execCanRxError (t : Nat) (c : Fin 8) (afterFlag : Bool) (s : State) : Host.Outcome State Fault Refusal :=
  act s fun s => canRxErr (advance s t) c afterFlag
/-- BUS_OFF (R594). -/
def execBusOff (t : Nat) (c : Fin 8) (s : State) : Host.Outcome State Fault Refusal := act s fun s => canBusOff (advance s t) c
/-- BUS_OFF_RECOVERED (R594). -/
def execBusOffRecovered (t : Nat) (c : Fin 8) (s : State) : Host.Outcome State Fault Refusal :=
  act s fun s => canRecovered (advance s t) c
/-- BUS_STUCK (R602). -/
def execBusStuck (t : Nat) (c : Fin 8) (s : State) : Host.Outcome State Fault Refusal := act s fun s => canStuck (advance s t) c
/-- RXD_RECESSIVE (R604, R608). -/
def execRxdRecessive (t : Nat) (c : Fin 8) (s : State) : Host.Outcome State Fault Refusal :=
  act s fun s => canRecessive (advance s t) c
/-- CAN_WAKE (R607, R608). -/
def execCanWake (t : Nat) (c : Fin 8) (start : Nat) (frame : Option CanFrame) (s : State) : Host.Outcome State Fault Refusal :=
  act s fun s => canWake (advance s t) c start frame

end Sys2Proof.Machine
end

