-- ==== Sys2Proof/Machine/Refs.lean ====
section
/-!
DEFINITION. Timing references, qualification and loss, the glide, holdover, SYNC_OUT and PTM (chapter 02).
-/
namespace Sys2Proof.Machine

def setRefs (s : State) (r : Refs) : State := { s with refs := r }
def refFlag (s : State) (mask : Nat) : State := flag s kRef mask
/-- S in ppm, as in force (R67). -/
def Refs.slew (r : Refs) : Nat := bits r.cfg.toNat 8 8
def Refs.syncEn (r : Refs) : Bool := bit r.cfg.toNat 0
def Refs.ptmEn (r : Refs) : Bool := bit r.cfg.toNat 1 && r.ptmCapable
/-- |y_cand| ≤ S/4 (Table 02-1). -/
def Refs.slow (r : Refs) (y : Int) : Bool := decide (4 * y.natAbs ≤ 1024 * r.slew)
/-- The code of `GLIDE_STATUS.TARGET`. -/
def RefTarget.code (t : RefTarget) : Nat :=
  match t with
  | .freeRun => 0
  | .holdover => 1
  | .ptm => 2
  | .syncIn => 3

/-- Host time at a device time, in 2^−16 tick. -/
def Refs.hostAt (r : Refs) (b : Nat) : Int := r.ptmHost + ((b : Int) - r.ptmAt) * 65536 - r.ptmDrift
/-- φ of PTM at a boundary in 1/64 tick. -/
def Refs.ptmPhi (r : Refs) (b : Nat) : Int := divRound (r.hostAt b - ((b : Int) + r.epoch) * 65536) 1024

/-! The glide (R50, R53, R55, R58, R59). -/

/-- One step of R50 with a phase. -/
def Refs.glide (r : Refs) (len : Nat) (phi : Int) : Refs :=
  let lim := divRound (len * r.slew * 4096) 125000
  let step := divRound (len * r.slew * 32) 15625
  let want := clampI (phi * 16) (-lim) lim
  let p := r.p + clampI (want - r.p) (-step) step
  { r with p := p, phi := phi, y := r.yT + divRound (p * 15625) len }
/-- The frequency of a target. -/
def Refs.freqOf (r : Refs) (t : RefTarget) : Int :=
  match t with
  | .freeRun => 0
  | .holdover => r.yT
  | .ptm => r.ptmY
  | .syncIn => r.syncY
/-- The target changes: p is recomputed so that y is continuous. -/
def retarget (s : State) (t : RefTarget) : State :=
  let r := s.refs
  let yT := r.freqOf t
  let r : Refs :=
    { r with
      target := t
      yT := yT
      p := divRound ((r.y - yT) * s.tb.len) 15625
      lockRun := 0
      locked := false }
  refFlag (count (setRefs s r) 0x2074) 4
/-- φ of the target at a boundary; none where it has no valid one (R53). -/
def Refs.phiOf (r : Refs) (b : Nat) : Option Int :=
  match r.target with
  | .freeRun => some 0
  | .holdover => some 0
  | .ptm => if r.ptmRun = 0 then none else some (r.ptmPhi b)
  | .syncIn => if r.syncRun = 0 then none else r.syncPhi
/-- The step of a boundary: the frequency of the target as now measured, p and y, and LOCKED (R55). While cause CLOCK is active the PLL
holds its control value (R638). -/
def glideStep (s : State) : State :=
  let r := s.refs
  if bit s.pp.causes 3 then s
  else match r.phiOf s.tb.boundary with
  | none => setRefs s { r with y := r.yT + divRound (r.p * 15625) s.tb.len }
  | some phi =>
    let r := ({ r with yT := r.freqOf r.target } : Refs).glide s.tb.len phi
    let run := if phi.natAbs ≤ 64 then r.lockRun + 1 else 0
    setRefs s
      { r with
        lockRun := min 16 run
        locked := if 256 < phi.natAbs then false else r.locked || decide (16 ≤ run) }

/-! Choice of the target (R43, R51, R52, R56, R57). -/

/-- The target after a loss. -/
def Refs.afterLoss (r : Refs) : RefTarget :=
  if r.syncQual then .syncIn else if r.ptmQual then .ptm else if r.holdSpans.toNat % 2 ^ 20 = 0 then .freeRun else .holdover
/-- The target is lost: the best that is left, or holdover. -/
def targetLost (s : State) : State :=
  let t := s.refs.afterLoss
  let s := retarget s t
  setRefs s { s.refs with holdLeft := if t = .holdover then s.refs.holdSpans.toNat % 2 ^ 20 else 0 }
/-- A better reference than the target takes over (R56). -/
def takeBetter (s : State) : State :=
  let r := s.refs
  if r.syncQual ∧ r.target ≠ .syncIn then retarget s .syncIn
  else if r.ptmQual ∧ r.target ≠ .syncIn ∧ r.target ≠ .ptm then retarget s .ptm
  else s
/-- SYNC_IN meets a loss criterion (R46): whether the target was lost with it. -/
def syncDrop (s : State) : State × Bool :=
  let r := s.refs
  let s := setRefs s { r with syncQual := false, syncRun := 0, syncPhi := none }
  if r.syncQual then (refFlag s 1, r.target == .syncIn) else (s, false)
/-- PTM meets a loss criterion. -/
def ptmDrop (s : State) : State × Bool :=
  let r := s.refs
  let s := setRefs s { r with ptmQual := false, ptmRun := 0, ptmBad := false }
  if r.ptmQual then (refFlag s 2, r.target == .ptm) else (s, false)
/-- PTM is lost at once with the link, PERST_N or an FLR of PF0 (Table 02-1, Table 02-3). -/
def ptmLost (s : State) : State :=
  let x := ptmDrop s
  let s := setRefs x.1 { x.1.refs with ptmSeen := false }
  if x.2 then targetLost s else s

/-! A boundary. -/

/-- SYNC_IN at a boundary (R44, R65): the count of valid boundaries, of boundaries without a valid edge, and of wrong
intervals; whether φ has jumped. -/
def syncTest (s : State) : State × Bool :=
  let r := s.refs
  let valid := r.syncEn && r.syncEdge.isSome && r.syncIntervalOk && r.slow r.syncY
  -- an edge in its window is enough for a jump of φ: its interval is off by what φ has moved, so it is not itself valid
  let jump := match r.syncEdge, r.syncPhi with
    | some a, some b => r.syncEn && decide (4096 < (a - b).natAbs)
    | _, _ => false
  let r : Refs :=
    { r with
      syncRun := if valid then r.syncRun + 1 else 0
      syncMiss := if valid then 0 else r.syncMiss + 1
      syncPhi := if valid then r.syncEdge else none
      syncMismatch := if r.syncSeen && !r.syncIntervalOk && r.syncEn then (if r.syncMismatch < 16 then r.syncMismatch + 1 else r.syncMismatch) else 0
      syncEdge := none
      syncSeen := false }
  (setRefs s r, jump)
/-- PTM at a boundary (R44): its age, and what device time has gained on host time in the span that closed. -/
def ptmTest (s : State) (len : Nat) : State :=
  let r := s.refs
  let part := min len (s.tb.boundary - r.ptmAt)
  let age := if r.ptmSeen then r.ptmAge + 1 else r.ptmAge
  let valid := r.ptmEn && r.ptmSeen && decide (age ≤ bits r.ptmCfg.toNat 8 16) && decide (r.ptmResid ≤ 2560) && r.slow r.ptmY
  setRefs s
    { r with
      ptmAge := age
      ptmDrift := r.ptmDrift + divRound ((r.y - r.ptmY) * part) 15625
      ptmRun := if valid then r.ptmRun + 1 else 0
      ptmCount := r.ptmCount + 1 }
/-- A reference that has been valid long enough qualifies (R44); PTM takes its epoch (R48). -/
def qualify (s : State) : State :=
  let r := s.refs
  let n := r.qualify.toNat % 2 ^ 13
  let r := if n ≤ r.syncRun then { r with syncQual := true } else r
  if n ≤ r.ptmRun ∧ r.ptmQual = false then
    let len : Int := s.tb.len * 65536
    let k := -((len - 2 * r.hostAt s.tb.boundary) / (2 * len))
    setRefs s { r with ptmQual := true, epoch := (s.tb.len : Int) * k - s.tb.boundary }
  else setRefs s r
/-- What the references do at a span boundary. `len` is the length of the span that closed; `changed` says that the length
changes here. -/
def refsBoundary (s : State) (len : Nat) (changed : Bool) : State :=
  let w (k : Nat) : Word := BitVec.ofNat 32 (s.rd k)
  let s := setRefs s { s.refs with cfg := w 0x2040, qualify := w 0x2044, holdSpans := w 0x2048, ptmCfg := w 0x2050 }
  let x := syncTest s
  let s := ptmTest x.1 len
  let a := if x.2 || changed then syncDrop s else (s, false)
  let c := if a.1.refs.ptmBad || changed then ptmDrop a.1 else (a.1, false)
  let s := qualify c.1
  let s := if a.2 || c.2 then targetLost s else takeBetter s
  let r := s.refs
  let s := setRefs s
    { r with
      holdLeft := if r.target = .holdover ∧ !(a.2 || c.2) then r.holdLeft - 1 else r.holdLeft
      syncOut := bit r.cfg.toNat 2
      syncOutAt := s.tb.boundary }
  -- a holdover that ends here leaves the step to HOLDOVER_EXPIRY
  if s.refs.target = .holdover ∧ s.refs.holdLeft = 0 then s else glideStep s

/-! The commands. -/

/-- A rising edge on SYNC_IN (R47, R65), at a time in 1/64 tick. -/
def syncEdge (s : State) (t64 : Nat) (y : Int) : State :=
  let r := s.refs
  let e : Int := (t64 : Int) - s.fld 0x204C 0 16
  let b0 : Int := 64 * (s.tb.boundary : Int)
  let b1 : Int := b0 + 64 * s.tb.len
  let near : Int := if 2 * (e - b0) ≤ 64 * s.tb.len then b0 else b1
  let ok := decide (8 * (near - e).natAbs ≤ 64 * s.tb.len)
  if !r.syncEn then s
  else if !ok && r.syncQual then refFlag s 0x10
  else
    let good := (r.syncLast64.map fun l => decide ((e - l - 64 * s.tb.len).natAbs ≤ 4096)).getD false
    setRefs s
      { r with
        syncLast64 := some e
        syncIntervalOk := good
        syncSeen := r.syncLast64.isSome
        syncEdge := if ok then some (near - e) else none
        syncY := y }
def execSyncInEdge (t64 : Nat) (yCand : Int) (s : State) : Host.Outcome State Fault Refusal :=
  act s fun s => syncEdge (advance s (t64 / 64)) t64 yCand
/-- SYNC_IN_LOST: no valid edge at 4 consecutive boundaries (R46). -/
def execSyncInLost (s : State) : Host.Outcome State Fault Refusal :=
  act s fun s =>
    if s.refs.syncQual ∧ 4 ≤ s.refs.syncMiss then
      let x := syncDrop s
      if x.2 then glideStep (targetLost x.1) else x.1
    else s
/-- SYNC_LEN_MISMATCH (R65). -/
def execSyncLenMismatch (s : State) : Host.Outcome State Fault Refusal :=
  act s fun s =>
    if s.refs.syncMismatch = 16 then refFlag (setRefs s { s.refs with syncMismatch := 17 }) 0x20 else s
/-- SYNC_OUT_PULSE_END (R60). -/
def execSyncOutPulseEnd (t : Nat) (s : State) : Host.Outcome State Fault Refusal :=
  act s fun s =>
    let s := advance s t
    if s.refs.syncOutAt + 40 ≤ s.now then setRefs s { s.refs with syncOut := false } else s
/-- HOLDOVER_EXPIRY (R52). -/
def execHoldoverExpiry (s : State) : Host.Outcome State Fault Refusal :=
  act s fun s =>
    if s.refs.target = .holdover ∧ s.refs.holdLeft = 0 then glideStep (refFlag (retarget s .freeRun) 8) else s
/-- PTM_REQUEST (R49). -/
def execPtmRequest (s : State) : Host.Outcome State Fault Refusal :=
  act s fun s =>
    if s.refs.ptmEn ∧ s.link.up ∧ s.refs.ptmCfg.toNat % 256 ≤ s.refs.ptmCount then
      send (setRefs s { s.refs with ptmCount := 0 }) .ptmRequest
    else s
/-- PTM_EXCHANGE_DONE: host time in ns at a device time, its residual against the fitted host time in 1/64 tick, and the
frequency measured. -/
def execPtmExchangeDone (t hostNs residual64 : Nat) (yCand : Int) (s : State) : Host.Outcome State Fault Refusal :=
  act s fun s =>
    let s := advance s t
    if s.refs.ptmEn ∧ s.link.up then
      setRefs s
        { s.refs with
          ptmSeen := true
          ptmAge := 0
          ptmHost := divRound (hostNs * 2 * 65536) 5
          ptmAt := s.now
          ptmDrift := 0
          ptmResid := residual64
          ptmY := yCand
          ptmBad := s.refs.ptmBad || decide (25600 < residual64) }
    else s
/-- PTM_TIMEOUT (R46): no completed exchange for `PTM_CFG.TIMEOUT` spans. -/
def execPtmTimeout (s : State) : Host.Outcome State Fault Refusal :=
  act s fun s =>
    if s.refs.ptmQual ∧ bits s.refs.ptmCfg.toNat 8 16 ≤ s.refs.ptmAge then
      let x := ptmDrop s
      if x.2 then glideStep (targetLost x.1) else x.1
    else s

end Sys2Proof.Machine
end

