-- ==== Sys2Proof/Machine/Trestle.lean ====
section
/-!
DEFINITION. The Trestle ring and the satellites (chapter 10): link-up, sweeps, replies and shot reports, breaks and wraps, node
loss, management operations and the RUN entry check.
-/
namespace Sys2Proof.Machine

def trFlag (s : State) (mask : Nat) : State := flag s kTr mask
def setRing (s : State) (r : Ring) : State := { s with ring := r }
def updRing (s : State) (f : Ring → Ring) : State := { s with ring := f s.ring }
/-- SWEEP_OFFSET. -/
def State.sweepOff (s : State) : Nat := s.fld 0x40000 4 12
/-- A symbol in 1/80 tick (R352). -/
def Ring.symbol (r : Ring) : Nat := if r.rate2 then 128 else 256
/-- The length of a frame with n segments in 1/80 tick. -/
def Ring.frameLen (r : Ring) (n : Nat) : Nat := (22 + 176 * n) * r.symbol
/-- RD_MAX in 1/80 tick (R370). -/
def Ring.roundTrip (r : Ring) : Nat :=
  let pass := 16 * r.symbol
  let through := match r.nodes.getLast? with
    | some n => if r.closed then 5 * (n.delayE + n.delayW) + pass else 0
    | none => 0
  r.nodes.foldl (fun m n => max m (max (2 * 5 * n.delayE + pass) (if r.closed then 2 * 5 * n.delayW + pass else 0))) through
/-- Whether the ring meets R370. -/
def State.ringFits (s : State) : Bool :=
  decide ((s.sweepOff + 128) * 80 + s.ring.frameLen s.ring.nodes.length + s.ring.rdMax ≤ s.tb.len * 80)
/-- Whether the enabled satellite valves meet R371. -/
def State.satMinsFit (s : State) : Bool :=
  s.valvesOn.all fun v => decide (v < 64) || (decide (s.tb.len ≤ s.minOn v) && decide (s.tb.len ≤ s.minOff v))

/-! Link-up (R355, R356). -/

/-- Link-up starts: what the ring knew is forgotten; what tenants wait for is kept. -/
def startLink (s : State) : State :=
  let r := s.ring
  setRing s
    { Ring.reset with
      linking := true
      linkStart := s.tb.spanIx
      relinkJobs := r.relinkJobs
      lateCloses := r.lateCloses
      mgmt := (r.mgmt.filter (·.job.isSome)).map fun m => { m with sent := false }
      reportJobs := r.reportNow ++ r.reportJobs }
/-- A write of `TR_CFG` (R355, R373). -/
def writeTrCfg (s : State) (w : Nat) : State :=
  let was := s.bitAt 0x40000 0
  let w := w % 2 ^ 24 - bits w 2 2 * 4
  if s.mode = .run then s
  else if bits w 4 12 < 64 then trFlag s 0x20
  else
    let s := s.wr 0x40000 w
    if bit w 0 && !was then startLink s
    else if !bit w 0 && was then
      let r := s.ring
      setRing s { Ring.reset with relinkJobs := r.relinkJobs, mgmt := r.mgmt, reportJobs := r.reportNow ++ r.reportJobs }
    else s
/-- LINK_UP_DONE. -/
def linkUpDone (s : State) (info : List NodeInfo) (hops : List Nat) (closed : Bool) : State :=
  let r := s.ring
  if !r.linking || r.linkStart + 4096 ≤ s.tb.spanIx then s
  else if hops.any fun h => decide (16 * s.fld 0x40000 16 8 < h) then trFlag (updRing s fun r => { r with linking := false }) 4
  else
    let nodes := (info.take 16).map fun i =>
      ({ version2 := i.version2, delayE := i.delayE % 2 ^ 20, delayW := i.delayW % 2 ^ 20, reach := true, wrapE := false,
         wrapW := false, miss := 0, missRun := 0, acked := true, closedHeld := false, served := false } : Node)
    let r : Ring :=
      { r with
        linking := false
        up := true
        nodes := nodes
        closed := closed
        rate2 := s.bitAt 0x40000 1 && nodes.all (·.version2) }
    let jobs := r.relinkJobs
    let s := setRing s { r with rdMax := r.roundTrip, relinkJobs := [] }
    jobs.foldl (fun s id => match s.job? id with
      | some j => complete s j 0 0
      | none => s) s
def linkUpTimeout (s : State) : State :=
  if s.ring.linking && decide (s.ring.linkStart + 4096 ≤ s.tb.spanIx) then updRing s fun r => { r with linking := false } else s

/-! Satellite edges (R358, R365). -/

/-- The node of a satellite valve. -/
def nodeOf (v : Nat) : Nat := (v - 64) / 32
/-- EDGE_FREEZE: the edges of the next span, and the late closes, leave the wheel's hands. -/
def edgeFreeze (s : State) : State :=
  if !s.ring.sweeping || s.now + 64 < s.tb.boundary + s.sweepOff then s
  else
    let lim : Int := (s.tb.boundary + 2 * s.tb.len : Nat)
    let mine (e : Event) : Bool := decide (64 ≤ e.valve) && decide (nodeOf e.valve < s.ring.nodes.length)
    let opens (e : Event) : Bool := mine e && !e.sentOpen && decide (e.opn < lim) && s.motionMode
    let closes (e : Event) : Bool := mine e && (e.sentOpen || opens e) && !e.sentClose && decide (e.cls < lim)
    let edges := s.wheel.events.flatMap fun e =>
      (if opens e then [({ valve := e.valve, opening := true, time := e.opn.toNat, late := false, arr := e.arr } : SatEdge)] else []) ++
        (if closes e then [({ valve := e.valve, opening := false, time := e.cls.toNat, late := false, arr := e.arr } : SatEdge)] else [])
    let evs := s.wheel.events.map fun e => { e with sentOpen := e.sentOpen || opens e, sentClose := e.sentClose || closes e }
    updRing (setEvents s evs) fun r => { r with frozen := r.frozen ++ r.lateCloses ++ edges, lateCloses := [] }

/-! Management operations (R357, R372). -/

/-- A push of a satellite valve's setting, named by its register. -/
def phPush (s : State) (v key value : Nat) : State :=
  if v < 64 ∨ s.ring.nodes.length ≤ nodeOf v then s
  else
    updRing s fun r =>
      { r with
        mgmt := r.mgmt ++ [{ job := none, node := nodeOf v, write := true, addr := key, value := value, left := 0, sent := false }]
        nodes := r.nodes.mapIdx fun i n => if i = nodeOf v then { n with acked := false } else n }
/-- Mark the operation each node's segment carries: a push before any tenant's. -/
def pickMgmt (l : List Mgmt) : List Mgmt :=
  let carried (m : Mgmt) (before : List Mgmt) : Bool :=
    if m.job.isNone then !before.any fun x => x.node == m.node && x.job.isNone
    else !l.any (fun x => x.node == m.node && x.job.isNone) && !before.any fun x => x.node == m.node
  (l.foldl (fun acc m => (acc.1 ++ [m], acc.2 ++ [{ m with sent := carried m acc.1 }])) (([], []) : List Mgmt × List Mgmt)).2
/-- A node answers its operation. A tenant's completes DONE with the value; a push is acknowledged. -/
def mgmtAnswer (s : State) (node value : Nat) : State :=
  match s.ring.mgmt.find? fun m => m.node == node && m.sent with
  | none => s
  | some m =>
    let rest := s.ring.mgmt.erase m
    let s := updRing s fun r =>
      { r with
        mgmt := rest
        nodes := r.nodes.mapIdx fun i n =>
          if i = node ∧ m.job.isNone ∧ !rest.any (fun x => x.node == node && x.job.isNone) then { n with acked := true } else n }
    match m.job.bind s.job? with
    | some j => complete s j 0 (value % 2 ^ 32)
    | none => s
/-- A sweep has ended: an operation unanswered in four sweeps completes NODE_UNREACHED. -/
def mgmtMissed (s : State) : State :=
  let missed := s.ring.mgmt.filter fun m => m.sent && m.job.isSome && decide (m.left ≤ 1)
  let s := updRing s fun r =>
    { r with
      mgmt := (r.mgmt.filter fun m => !(m.sent && m.job.isSome && decide (m.left ≤ 1))).map fun m =>
        if m.sent then { m with sent := false, left := m.left - 1 } else m }
  missed.foldl (fun s m => match m.job.bind s.job? with
    | some j => complete s j 0x42 0
    | none => s) s

/-! Shot reports (R341, R345). -/

/-- A node captures a signature of every Nth shot, unless it holds one. -/
def satSig (s : State) (v : Nat) (e : Event) (d : Option Nat) : State :=
  let busy := (List.range 32).any fun o => (s.valve (64 + 32 * nodeOf v + o)).sigs.any (·.busy)
  let cell (g : SigCfg) := sigCell s v e d g.interval
  s.updValve v fun x =>
    { x with
      sigs := (x.sigs.foldl (fun (acc : List SigCfg × Bool) g =>
        if g.count + 1 < g.every then (acc.1 ++ [{ g with count := g.count + 1 }], acc.2)
        else if acc.2 then (acc.1 ++ [{ g with count := 0 }], true)
        else (acc.1 ++ [{ g with count := 0, busy := true, openTime := e.opn.toNat, cell := cell g, held := [] }], true))
        (([], busy) : List SigCfg × Bool)).1 }
/-- Signature samples drained in a reply; the item is written once all have arrived. -/
def sigDrain (s : State) (v : Nat) (xs : List Nat) : State :=
  match (s.valve v).sigs.find? (·.busy) with
  | none => s
  | some g =>
    let held := g.held ++ xs
    let full := decide (g.samples ≤ held.length)
    let s := s.updValve v fun x =>
      { x with sigs := mapIf (·.busy) (fun y => { y with busy := !full, held := if full then [] else held }) x.sigs }
    if full then sigOffer s v g g.openTime g.cell (held.take g.samples) else s
/-- A shot report of a satellite valve. -/
def shotReport (s : State) (node : Nat) (r : ShotReport) : State :=
  let v := 64 + 32 * node + r.output
  if r.fault then
    let new := !(s.valve v).fault
    let l := (s.valve v).reported
    let s := s.updValve v fun x => { x with reported := [] }
    let s := l.foldl (fun s e => e.srcs.foldl (fun s x => match x.kind with
      | .desc id => descEnd s id v x.mask 0x13 (e.cls - e.opn).toNat none
      | _ => s) s) s
    flagIf (valveFaulted s v (r.value % 8) 0x13) new kEj 2
  else
    let d := if r.dipFound then some r.value else none
    let s := shotDip s v d
    match (s.valve v).reported with
    | [] => s
    | e :: rest =>
      let s := satSig (s.updValve v fun x => { x with reported := rest }) v e d
      e.srcs.foldl (fun s x => match x.kind with
        | .desc id => descEnd s id v x.mask (maskStatus x.mask) (e.cls - e.opn).toNat d
        | _ => s) s
/-- One reply segment (R360): CRC failures are counted; the first good copy of a sweep is taken. -/
def takeReply (s : State) (p : Reply) : State :=
  let k := p.node.val
  match s.ring.nodes[k]? with
  | none => s
  | some n =>
    if !p.crcOk then trFlag (count s 0x40024) 0x10
    else if n.served then s
    else
      let wrapped := bit p.flags 2
      let s := updRing s fun r =>
        { r with
          nodes := r.nodes.mapIdx fun i x =>
            if i = k then
              { x with
                served := true
                closedHeld := false
                wrapE := wrapped && !bit p.flags 0
                wrapW := wrapped && !bit p.flags 1 }
            else x }
      let s := p.reports.foldl (fun s r => shotReport s k r) s
      let s := if p.mgmtResult = 0 then s else mgmtAnswer s k p.mgmtValue
      if p.sig.isEmpty then s else sigDrain s (64 + 32 * k + p.sigOutput % 32) p.sig

/-! Sweeps (R358, R361 to R365, R368). -/

/-- SWEEP_SEND: the sweep leaves port A, or in halves from both ports. -/
def sweepSend (s : State) : State :=
  let r := s.ring
  if !r.sweeping || r.eastOut || r.westOut || s.now < s.tb.boundary + s.sweepOff then s
  else
    setRing s
      { r with
        inFlight := r.frozen
        frozen := []
        eastOut := !r.split || r.breakW != 0xFF
        westOut := r.split && r.breakE != 0xFF
        westDue := none
        nodes := r.nodes.map fun n => { n with served := false }
        mgmt := pickMgmt r.mgmt
        reportNow := r.reportJobs
        reportJobs := [] }
/-- A node is lost (R368). -/
def nodeLost (s : State) (k : Nat) : State :=
  let s := updRing s fun r => { r with nodes := r.nodes.mapIdx fun i n => if i = k then { n with reach := false } else n }
  let s := count (trFlag s 8) 0x40028
  let new := (List.range 32).any fun o => !(s.valve (64 + 32 * k + o)).fault
  let s := (List.range 32).foldl (fun s o =>
    let v := 64 + 32 * k + o
    let l := (s.valve v).reported
    let s := valveFaulted (s.updValve v fun x => { x with reported := [] }) v 5 0x27
    l.foldl (fun s e => e.srcs.foldl (fun s x => match x.kind with
      | .desc id => descEnd s id v x.mask 0x27 (e.cls - e.opn).toNat none
      | _ => s) s) s) s
  flagIf s new kEj 2
/-- The edges a partial sweep did not deliver: closes go out late, opens are dropped (R365). -/
def undelivered (s : State) : State :=
  let r := s.ring
  let lost := r.inFlight.filter fun e => !((r.nodes[nodeOf e.valve]?).map (·.served)).getD true
  let opens := (lost.filter (·.opening)).map (·.arr)
  let late := (lost.filter fun e => !e.opening && !opens.contains e.arr).map fun e => { e with late := true }
  let s := updRing s fun r => { r with lateCloses := r.lateCloses ++ late }
  (s.wheel.events.filter fun e => opens.contains e.arr).foldl (fun s e =>
    dropEvent (setEvents s (mapIf (·.arr == e.arr) (fun x => { x with sentOpen := false }) s.wheel.events))
      { e with sentOpen := false } 0x25 e.srcs) s
/-- A sweep has ended `ticks` after its boundary: complete (0), split (0x40) or partial (0x41). -/
def finishSweep (s : State) (how ticks : Nat) : State :=
  let s := if how = 0x41 then count (undelivered s) 0x40020 else if how = 0x40 then count s 0x4001C else s
  let lostNow := (List.range s.ring.nodes.length).filter fun k =>
    ((s.ring.nodes[k]?).map fun n => !n.served && n.reach && decide (1 ≤ n.missRun)).getD false
  let s := updRing s fun r =>
    { r with
      eastOut := false
      westOut := false
      westDue := none
      inFlight := []
      sweepTime := if how = 0x41 then r.sweepTime else ticks
      nodes := r.nodes.map fun n =>
        if n.served then { n with missRun := 0, reach := true } else { n with miss := satInc n.miss 1, missRun := n.missRun + 1 } }
  let s := mgmtMissed (lostNow.foldl nodeLost s)
  let r := s.ring
  let status := if r.nodes.any fun n => !n.reach then 0x42 else how
  r.reportNow.foldl (fun s id => match s.job? id with
    | some j => complete s j status (r.breakW + 2 ^ 8 * r.breakE + 2 ^ 32 * ticks)
    | none => s) (setRing s { r with reportNow := [] })
/-- A break is recorded: the flag, the count, the sides (R362), and split mode from the next span (R363). -/
def recordBreak (s : State) (w e : Nat) : State :=
  count (trFlag (updRing s fun r => { r with breakW := w, breakE := e, splitNext := true }) 1) 0x40018
/-- The sweep ends once nothing of it is out or due. -/
def sweepMaybeDone (s : State) (how : Nat) : State :=
  let r := s.ring
  if r.eastOut || r.westOut || r.westDue.isSome then s else finishSweep s how (s.now - s.tb.boundary)
/-- SWEEP_RETURN (R362 to R364). -/
def sweepReturn (s : State) (half : SweepHalf) (wrappedAt : Option (Fin 16)) (crcOk : Bool) (replies : List Reply) : State :=
  let r := s.ring
  if !(match half with
    | .east => r.eastOut
    | .west => r.westOut) then s
  else
    let s := if crcOk then s else trFlag (count s 0x40024) 0x10
    let s := replies.foldl takeReply s
    let n := r.nodes.length
    match half, wrappedAt with
    | .east, none => sweepMaybeDone (updRing s fun r => { r with eastOut := false }) (if r.split then 0x40 else 0)
    | .west, none => sweepMaybeDone (updRing s fun r => { r with westOut := false }) 0x40
    | .west, some k =>
      let s := if r.breakE ≠ k.val then recordBreak s s.ring.breakW k else s
      sweepMaybeDone (updRing s fun r => { r with westOut := false }) 0x40
    | .east, some k =>
      let s := updRing s fun r => { r with eastOut := false }
      if !r.closed && k.val + 1 = n then sweepMaybeDone s (if r.split then 0x40 else 0)
      else if r.split then
        sweepMaybeDone (if r.breakW ≠ k.val then recordBreak s k s.ring.breakE else s) (if r.closed then 0x40 else 0x41)
      else
        let e := if k.val + 1 < n ∧ r.closed then k.val + 1 else 0xFF
        let s := if r.breakW ≠ k.val then recordBreak s k e else s
        if n ≤ k.val + 1 then sweepMaybeDone s 0x40
        else
          match r.nodes[k.val + 1]? with
          | some node =>
            let back := (s.now + 64) * 80 + r.frameLen (n - 1 - k.val) + 2 * 5 * node.delayW + 16 * r.symbol
            if r.closed && decide (back < (s.tb.boundary + s.tb.len) * 80) then
              updRing s fun r => { r with westDue := some (s.now + 64) }
            else finishSweep s 0x41 (s.now - s.tb.boundary)
          | none => sweepMaybeDone s 0x40
/-- WEST_HALF_SEND. -/
def westHalfSend (s : State) : State :=
  match s.ring.westDue with
  | some w => if s.now < w then s else updRing s fun r => { r with westDue := none, westOut := true }
  | none => s
/-- What the ring does at a span boundary: a sweep still out ends partial (R364); sweeps begin (R355); split mode begins or ends
(R363, R366). `len` is the length of the span that ends. -/
def ringBoundary (s : State) (len : Nat) : State :=
  let r := s.ring
  let s := if r.eastOut || r.westOut || r.westDue.isSome then finishSweep s 0x41 len else s
  updRing s fun r =>
    { r with
      sweeping := r.up
      split := r.splitNext
      breakW := if r.splitNext then r.breakW else 0xFF
      breakE := if r.splitNext then r.breakE else 0xFF }
/-- Satellite events whose close has passed: the shot is counted and sources other than VALVE_TEST end; the report is awaited.
An open no sweep took is a missed one. -/
def satBoundary (s : State) : State :=
  (s.wheel.events.filter fun e => decide (64 ≤ e.valve) && !s.isPending e).foldl (fun s e =>
    if !e.sentOpen then dropEvent s e 0x25 e.srcs
    else
      let s := count (setEvents s (s.wheel.events.filter (·.arr != e.arr))) (valveKey e.valve 0x14)
      let isTest (x : EvSrc) : Bool := match x.kind with
        | .desc id => ((s.job? id).map fun j => j.d.op == 0x63#8).getD false
        | _ => false
      let s := (e.srcs.filter fun x => !isTest x).foldl (srcShot e.valve (e.cls - e.opn).toNat none) s
      s.updValve e.valve fun x => { x with reported := x.reported ++ [e] }) s

/-! Breaks and rejoins (R353, R361, R366), the watchdog (R367). -/

/-- The two sides of the broken stretch by the hops that are broken. -/
def breakSides (broken : List Nat) (n : Nat) : Nat × Nat :=
  let lo := broken.foldl min 16
  let hi := broken.foldl max 0
  if broken.isEmpty then (0xFF, 0xFF) else (if lo = 0 then 0xFF else lo - 1, if n ≤ hi then 0xFF else hi)
/-- HOP_BREAK: a port sees its own hop; an inner hop shows when a frame returns wrapped. -/
def hopBreak (s : State) (hop : Nat) : State :=
  let r := s.ring
  let n := r.nodes.length
  if !r.up || (if r.closed then decide (n < hop) else decide (n ≤ hop)) then s
  else if r.broken.contains hop then setRing s { r with restored := storeDel r.restored hop }
  else
    let s := setRing s { r with broken := r.broken ++ [hop] }
    if hop = 0 ∨ hop = n then
      recordBreak s (if hop = 0 then 0xFF else if r.split && r.breakW != 0xFF then r.breakW else n - 1)
        (if hop = 0 then (if r.split && r.breakE != 0xFF then r.breakE else 0) else 0xFF)
    else s
def hopRestored (s : State) (hop : Nat) : State :=
  if s.ring.broken.contains hop then updRing s fun r => { r with restored := storeIns r.restored hop s.tb.spanIx } else s
/-- HOP_REJOIN (R366): the delays as measured again. -/
def hopRejoin (s : State) (hop : Nat) (info : List NodeInfo) : State :=
  let r := s.ring
  match (r.restored.find? (·.1 == hop)).map (·.2) with
  | none => s
  | some ix =>
    if !r.broken.contains hop || s.tb.spanIx < ix + 64 then s
    else
      let broken := r.broken.erase hop
      let nodes := r.nodes.mapIdx fun i n => match info[i]? with
        | some x => { n with delayE := x.delayE % 2 ^ 20, delayW := x.delayW % 2 ^ 20 }
        | none => n
      let side := breakSides broken nodes.length
      let r : Ring :=
        { r with
          broken := broken
          restored := storeDel r.restored hop
          nodes := nodes
          splitNext := !broken.isEmpty
          breakW := if broken.isEmpty then r.breakW else side.1
          breakE := if broken.isEmpty then r.breakE else side.2 }
      trFlag (setRing s { r with rdMax := r.roundTrip }) 0x40
def satWatchdog (s : State) (k : Nat) : State :=
  updRing s fun r => { r with nodes := r.nodes.mapIdx fun i n => if i = k then { n with closedHeld := true } else n }

/-! Opcodes (Table 10-2). -/

def trReportCheck (s : State) (d : Desc) : Verdict :=
  firstFail [(badFormat d 0 false, 0x14, 0), ((List.range 512).all fun i => !s.hasValve d.tenant (64 + i), 0x11, 0)]
def trReport (s : State) (j : Job) : State :=
  updRing (keep s { j with phase := .active }) fun r => { r with reportJobs := r.reportJobs ++ [j.id] }
def trNodeCheck (named : Nat) (write : Bool) (s : State) (d : Desc) : Verdict :=
  let k := d.p 0 1
  firstFail [(badFormat d named false || decide (16 ≤ k), 0x14, 0),
    ((List.range 32).any fun o => !s.hasValve d.tenant (64 + 32 * k + o), 0x11, 0), (!s.expert d.tenant, 0x15, 0),
    (write && s.mode == .run, 0x13, 0)]
def trNode (write : Bool) (s : State) (j : Job) : State :=
  updRing (keep s { j with phase := .active }) fun r =>
    { r with mgmt := r.mgmt ++ [{ job := some j.id, node := j.d.p 0 1, write := write, addr := j.d.p 2 2,
                                  value := if write then j.d.p 4 4 else 0, left := 4, sent := false }] }
def trRelinkCheck (s : State) (d : Desc) : Verdict :=
  firstFail [(badFormat d 0 false, 0x14, 0), (d.tenant.val != 0, 0x11, 0), (s.mode == .run, 0x13, 0)]
def trRelink (s : State) (j : Job) : State :=
  startLink (updRing (keep s { j with phase := .active }) fun r => { r with relinkJobs := r.relinkJobs ++ [j.id] })

/-! The commands. -/

/-- TRESTLE_ENABLE: a `TR_CFG` write with ENABLE = 1. -/
def execTrestleEnable (t : Nat) (value : Word) (s : State) : Host.Outcome State Fault Refusal :=
  act s fun s => writeTrCfg (advance s t) (value.toNat ||| 1)
def execLinkUpDone (t : Nat) (nodes : List NodeInfo) (hops : List Nat) (closed : Bool) (s : State) :
    Host.Outcome State Fault Refusal :=
  act s fun s => linkUpDone (advance s t) nodes hops closed
def execLinkUpTimeout (s : State) : Host.Outcome State Fault Refusal := act s linkUpTimeout
def execEdgeFreeze (t : Nat) (s : State) : Host.Outcome State Fault Refusal := act s fun s => edgeFreeze (advance s t)
def execSweepSend (t : Nat) (s : State) : Host.Outcome State Fault Refusal := act s fun s => sweepSend (advance s t)
def execSweepReturn (t : Nat) (half : SweepHalf) (wrappedAt : Option (Fin 16)) (frameCrcOk : Bool) (replies : List Reply)
    (s : State) : Host.Outcome State Fault Refusal :=
  act s fun s => sweepReturn (advance s t) half wrappedAt frameCrcOk replies
def execWestHalfSend (t : Nat) (s : State) : Host.Outcome State Fault Refusal := act s fun s => westHalfSend (advance s t)
def execHopBreak (t : Nat) (hop : Fin 17) (s : State) : Host.Outcome State Fault Refusal :=
  act s fun s => hopBreak (advance s t) hop
def execHopRejoin (t : Nat) (hop : Fin 17) (nodes : List NodeInfo) (s : State) : Host.Outcome State Fault Refusal :=
  act s fun s => hopRejoin (advance s t) hop nodes
def execHopRestored (t : Nat) (hop : Fin 17) (s : State) : Host.Outcome State Fault Refusal :=
  act s fun s => hopRestored (advance s t) hop
def execSatelliteWatchdog (t : Nat) (node : Fin 16) (s : State) : Host.Outcome State Fault Refusal :=
  act s fun s => satWatchdog (advance s t) node
def execTrSweepReport (t : Nat) (d : Desc) (s : State) : Host.Outcome State Fault Refusal :=
  act s fun s => runOp s t 0x70 d trReportCheck trReport
def execTrNodeRead (t : Nat) (d : Desc) (s : State) : Host.Outcome State Fault Refusal :=
  act s fun s => runOp s t 0x71 d (trNodeCheck (pm 0 1 ||| pm 2 2) false) (trNode false)
def execTrNodeWrite (t : Nat) (d : Desc) (s : State) : Host.Outcome State Fault Refusal :=
  act s fun s => runOp s t 0x72 d (trNodeCheck (pm 0 1 ||| pm 2 6) true) (trNode true)
def execTrRelink (t : Nat) (d : Desc) (s : State) : Host.Outcome State Fault Refusal :=
  act s fun s => runOp s t 0x73 d trRelinkCheck trRelink

end Sys2Proof.Machine
end

