-- ==== Sys2Proof/Machine/VisPixels.lean ====
section
/-!
DEFINITION. The pixel work of the vision engines (R272 to R287): luma, the pyramid, motion estimation, foreground, blobs with
their moments, and colour classes. Images are lists of rows joined.
-/
namespace Sys2Proof.Machine

/-! Pixels (R272, R285, Table 07-1). -/

/-- A list cut into n pieces of k bytes. -/
def chunks (k : Nat) : Nat → List Byte → List (List Byte)
  | 0, _ => []
  | n + 1, l => l.take k :: chunks k n (l.drop k)
/-- A stored pixel: the value, or R, G and B in bits [23:16], [15:8] and [7:0]. -/
def pixelOf (dt : Nat) (b : List Byte) : Nat :=
  if dt = 3 then (b.getD 0 0).toNat * 65536 + (b.getD 1 0).toNat * 256 + (b.getD 2 0).toNat else leNat b
/-- Level-0 luma of a pixel (R272). -/
def lumaOf (dt v : Nat) : Nat :=
  if dt = 3 then (77 * bits v 16 8 + 150 * bits v 8 8 + 29 * bits v 0 8) / 256
  else if dt = 1 then bits v 2 8 else if dt = 2 then bits v 4 8 else v % 256
/-- The class index of a pixel (R285). -/
def classIx (dt v : Nat) : Nat :=
  if dt = 3 then bits v 20 4 * 256 + bits v 12 4 * 16 + bits v 4 4
  else if dt = 1 then v % 1024 * 4 else if dt = 2 then v % 4096 else v % 256 * 16

/-! The pyramid (R273). -/

/-- A pixel; beyond an edge the nearest edge pixel. -/
def Plane.px0 (a : Plane) (x y : Int) : Nat :=
  nth a.px ((clampI y 0 (a.h - 1 : Int)).toNat * a.w + (clampI x 0 (a.w - 1 : Int)).toNat)
/-- The 5-tap filter. -/
def taps : List (Int × Nat) := [(-2, 1), (-1, 4), (0, 6), (1, 4), (2, 1)]
/-- One pixel of the next level, rounded once after both passes. -/
def downPx (a : Plane) (x y : Nat) : Nat :=
  (sumL (taps.map fun tj => tj.2 * sumL (taps.map fun ti => ti.2 * a.px0 (2 * x + ti.1) (2 * y + tj.1))) + 128) / 256
/-- The next level. -/
def down (a : Plane) : Plane :=
  let w := ceilDiv a.w 2
  let h := ceilDiv a.h 2
  { w := w, h := h, px := (List.range (w * h)).map fun i => downPx a (i % w) (i / w) }
/-- Levels 0 to 3. -/
def pyramidOf (a : Plane) : List Plane :=
  let b := down a
  let c := down b
  [a, b, c, down c]
def emptyPlane : Plane := { w := 0, h := 0, px := [] }

/-! Motion estimation (R276 to R278). -/

/-- The pixels of a block that lie inside an image. -/
def blockPx (a : Plane) (bx by0 : Nat) : List (Nat × Nat) :=
  ((List.range 8).flatMap fun j => (List.range 8).map fun i => (8 * bx + i, 8 * by0 + j)).filter
    fun q => decide (q.1 < a.w) && decide (q.2 < a.h)
/-- The sum of absolute differences of a block against the reference displaced by a vector: motion is from the reference to the
current image, so the pixel at x came from x − d. -/
def sad (cur ref : Plane) (q : List (Nat × Nat)) (dx dy : Int) : Nat :=
  sumL (q.map fun z => ((nth cur.px (z.2 * cur.w + z.1) : Int) - ref.px0 (z.1 - dx) (z.2 - dy)).natAbs)
/-- A reference sample at a position in quarter pixels, bilinear, times 16. -/
def quarterPx (ref : Plane) (x4 y4 : Int) : Nat :=
  let fx := (x4 % 4).toNat
  let fy := (y4 % 4).toNat
  let x := x4 / 4
  let y := y4 / 4
  (4 - fy) * ((4 - fx) * ref.px0 x y + fx * ref.px0 (x + 1) y) +
    fy * ((4 - fx) * ref.px0 x (y + 1) + fx * ref.px0 (x + 1) (y + 1))
/-- The same sum for a vector in quarter pixels, times 16. -/
def sadQuarter (cur ref : Plane) (q : List (Nat × Nat)) (dx dy : Int) : Nat :=
  sumL (q.map fun z =>
    (16 * (nth cur.px (z.2 * cur.w + z.1) : Int) - quarterPx ref (4 * z.1 - dx) (4 * z.2 - dy)).natAbs)
/-- The displacements within ±r of a centre. -/
def around (r : Nat) (c : Int × Int) : List (Int × Int) :=
  (List.range (2 * r + 1)).flatMap fun (j : Nat) => (List.range (2 * r + 1)).map fun (i : Nat) => (c.1 + i - r, c.2 + j - r)
/-- Whether one candidate goes before another: lower cost, then smaller |dx| + |dy|, then smaller dy, then smaller dx (R277). -/
def candLt (a b : Nat × Int × Int) : Bool :=
  if a.1 ≠ b.1 then decide (a.1 < b.1)
  else
    let na := a.2.1.natAbs + a.2.2.natAbs
    let nb := b.2.1.natAbs + b.2.2.natAbs
    if na ≠ nb then decide (na < nb)
    else if a.2.2 ≠ b.2.2 then decide (a.2.2 < b.2.2) else decide (a.2.1 < b.2.1)
/-- The best of a list of candidates. -/
def bestCand : List (Nat × Int × Int) → Nat × Int × Int
  | [] => (0, 0, 0)
  | [a] => a
  | a :: l => let b := bestCand l; if candLt b a then b else a
/-- The best integer vector of a block around a centre. -/
def searchInt (lam : Nat) (cur ref : Plane) (q : List (Nat × Nat)) (r : Nat) (c : Int × Int) : Nat × Int × Int :=
  bestCand ((around r c).map fun d =>
    (sad cur ref q d.1 d.2 + lam * ((d.1 - c.1).natAbs + (d.2 - c.2).natAbs), d.1, d.2))
/-- The blocks across and down an image. -/
def blocksX (a : Plane) : Nat := ceilDiv a.w 8
def blocksY (a : Plane) : Nat := ceilDiv a.h 8
/-- The integer vectors of one level; `parent` gives the centre of a block's search. -/
def meLevel (lam : Nat) (cur ref : Plane) (r : Nat) (parent : Nat → Nat → Int × Int) : List (Nat × Int × Int) :=
  (List.range (blocksX cur * blocksY cur)).map fun b =>
    let bx := b % blocksX cur
    let by0 := b / blocksX cur
    searchInt lam cur ref (blockPx cur bx by0) r (parent bx by0)
/-- Twice the vector of a block's parent in the level above. -/
def parentOf (above : Plane) (vs : List (Nat × Int × Int)) (bx by0 : Nat) : Int × Int :=
  let v := vs.getD (by0 / 2 * blocksX above + bx / 2) (0, 0, 0)
  (2 * v.2.1, 2 * v.2.2)
/-- The quarter-pixel refinement of a level-0 vector within ¾ pixel (R276) and its reliability (R278). -/
def refine (lam limit : Nat) (cur ref : Plane) (q : List (Nat × Nat)) (v : Nat × Int × Int) : MotionVec :=
  let c := (4 * v.2.1, 4 * v.2.2)
  let b := bestCand ((around 3 c).map fun d =>
    (sadQuarter cur ref q d.1 d.2 + 16 * lam * ((d.1 - c.1).natAbs + (d.2 - c.2).natAbs), d.1, d.2))
  { x := b.2.1, y := b.2.2, ok := decide (b.1 ≤ 16 * limit) }
/-- The vectors of every level-0 block. -/
def motionOf (lam limit : Nat) (cur ref : List Plane) : List MotionVec :=
  let c (i : Nat) := cur.getD i emptyPlane
  let r (i : Nat) := ref.getD i emptyPlane
  let v3 := meLevel lam (c 3) (r 3) 8 fun _ _ => (0, 0)
  let v2 := meLevel lam (c 2) (r 2) 4 (parentOf (c 3) v3)
  let v1 := meLevel lam (c 1) (r 1) 4 (parentOf (c 2) v2)
  let v0 := meLevel lam (c 0) (r 0) 4 (parentOf (c 1) v1)
  (List.range v0.length).map fun b =>
    refine lam limit (c 0) (r 0) (blockPx (c 0) (b % blocksX (c 0)) (b / blocksX (c 0))) (v0.getD b (0, 0, 0))

/-! Foreground and background (R279, R280). -/

/-- The lane of a column. -/
def laneOf (lanes : List Nat) (x : Nat) : Option Nat :=
  lanes.findIdx? fun w => bit w 31 && decide (bits w 0 13 ≤ x) && decide (x ≤ bits w 16 13)
/-- The test of POLARITY. -/
def polTest (pol thresh y bg : Nat) : Bool :=
  if pol = 0 then decide (y + thresh < bg) else if pol = 1 then decide (bg + thresh < y)
  else decide (thresh < ((y : Int) - bg).natAbs)
/-- The background of an image that has none yet (R281). -/
def noBg (pol n : Nat) : List Nat := List.replicate n (if pol = 0 then 255 else 0)
/-- The foreground pixels, in raster order (R279). -/
def foreground (a : Plane) (lines pol thresh : Nat) (lanes bg : List Nat) : List Nat :=
  (List.range (a.w * a.h)).filter fun i =>
    decide (i / a.w < lines) && (laneOf lanes (i % a.w)).isSome && polTest pol thresh (nth a.px i) (nth bg i)
/-- The background after a frame (R280). -/
def bgUpdate (shift : Nat) (a : Plane) (fg bg : List Nat) : List Nat :=
  (List.range bg.length).map fun i =>
    if fg.contains i then nth bg i
    else ((nth bg i : Int) + ((nth a.px i : Int) - nth bg i) / (2 ^ shift : Nat)).toNat

/-! Blobs (R282 to R284). -/

/-- Whether pixel i, later in raster order, touches pixel k. -/
def touches (w i k : Nat) : Bool :=
  let dx := ((i % w : Nat) : Int) - (k % w : Nat)
  let dy := ((i / w : Nat) : Int) - (k / w : Nat)
  decide (dx.natAbs ≤ 1) && decide (dy.natAbs ≤ 1)
/-- Join a pixel to the components it touches; components keep their pixels latest first. -/
def joinPx (w : Nat) (cs : List (List Nat)) (i : Nat) : List (List Nat) :=
  let r := cs.partition fun c => c.any (touches w i)
  (i :: r.1.flatten) :: r.2
/-- Put a component where its first pixel says. -/
def insComp (c : List Nat) : List (List Nat) → List (List Nat)
  | [] => [c]
  | d :: l => if c.foldl min (c.headD 0) < d.foldl min (d.headD 0) then c :: d :: l else d :: insComp c l
/-- The components of the foreground in raster order of their first pixel. -/
def components (w : Nat) (fg : List Nat) : List (List Nat) := (fg.foldl (joinPx w) []).foldl (fun l c => insComp c l) []

/-- The largest of 0 to 255 that meets a test. -/
def largest255 (f : Nat → Bool) : Nat := (List.range 256).foldl (fun m e => if f e then e else m) 0
/-- ELONG of central second moments a, b, c scaled alike (R284): e ≤ 16 √((S + D)/(S − D)) with S = a + c, D² = (a − c)² + 4b²,
that is S (e² − 256) ≤ D (e² + 256). -/
def elongOf (a b c : Int) : Nat :=
  let sum := a + c
  let d2 := (a - c) * (a - c) + 4 * b * b
  if sum * sum ≤ d2 then 255
  else largest255 fun e =>
    let l := sum * ((e * e : Nat) - 256 : Int)
    decide (l ≤ 0) || decide (l * l ≤ d2 * ((e * e + 256 : Nat) : Int) * ((e * e + 256 : Nat) : Int))

/-- The class of a pixel in a bank image; a bank never loaded holds class 0. -/
def bankClass (bank : List Byte) (ix : Nat) : Nat := bits (bank.getD (ix / 2) 0).toNat (4 * (ix % 2)) 4
/-- The fields of a bank image (Table 08-2). -/
def bankWeight (bank : List Byte) (c : Nat) : Nat := (bank.getD (2048 + c) 0).toNat
def bankThresh (bank : List Byte) : Nat := if bank.isEmpty then 0xFFFF else leNat ((bank.drop 2064).take 2)
def bankHard (bank : List Byte) : Nat := leNat ((bank.drop 2066).take 2)
def bankHardMin (bank : List Byte) : Nat := leNat ((bank.drop 2068).take 4)

/-- The class with the largest count, the lower one on a tie, of those not excluded. -/
def topClass (n : List Nat) (but : Nat) : Nat :=
  (List.range 16).foldl (fun m c => if c = but then m else if m = 16 ∨ nth n m < nth n c then c else m) 16

/-- What blob/classify needs of a frame. -/
structure BlobIn where
  w : Nat
  lines : Nat
  lanes : List Nat
  amin : Nat
  amax : Nat
  bank : List Byte
  classes : List Nat
  mvs : List MotionVec
  suspect : Bool
  t : Nat
  seq : Nat
  deriving DecidableEq, Repr

/-- The pixel counts per class of a blob. -/
def classCounts (f : BlobIn) (px : List Nat) : List Nat :=
  (List.range 16).map fun c => (px.filter fun i => bankClass f.bank (nth f.classes i) == c).length
/-- One blob as an observation (R284, R286, R287), without its vector. -/
def obsOf (f : BlobIn) (px : List Nat) : Obs :=
  let xs := px.map (· % f.w)
  let ys := px.map (· / f.w)
  let m00 := px.length
  let m10 := sumL xs
  let m01 := sumL ys
  let m20 := sumL (xs.map fun x => x * x)
  let m02 := sumL (ys.map fun y => y * y)
  let m11 := sumL (px.map fun i => i % f.w * (i / f.w))
  let n := classCounts f px
  let score := 256 * sumL ((List.range 16).map fun c => bankWeight f.bank c * nth n c) / max 1 m00
  let hard := bankHardMin f.bank != 0 &&
    (List.range 16).any fun c => bit (bankHard f.bank) c && decide (bankHardMin f.bank ≤ nth n c)
  let x := m10 * 65536 / max 1 m00
  let lane := (laneOf f.lanes (x / 65536)).getD 0
  let lw := nth f.lanes lane
  let top := topClass n 16
  { x := x, y := m01 * 65536 / max 1 m00, area := m00, score := score, top := top % 16 + 16 * (topClass n top % 16),
    elong := elongOf ((m20 * m00 : Nat) - (m10 * m10 : Nat)) ((m11 * m00 : Nat) - (m10 * m01 : Nat))
      ((m02 * m00 : Nat) - (m01 * m01 : Nat)),
    lane := lane,
    edge := xs.any (fun x => x == bits lw 0 13 || x == min (bits lw 16 13) (f.w - 1)) || ys.any fun y => y == 0 || y + 1 == f.lines,
    cluster := decide (f.amax < m00), reject := decide (bankThresh f.bank ≤ score) || hard, hard := hard, suspect := f.suspect,
    mv := { x := 0, y := 0, ok := false }, t := f.t, seq := f.seq }
/-- The blobs of a frame, all that are not too small (R282). -/
def blobsOf (f : BlobIn) (fg : List Nat) : List (List Nat) := (components f.w fg).filter fun c => decide (f.amin ≤ c.length)

end Sys2Proof.Machine
end

