-- ==== Sys2Proof/Machine/Vision.lean ====
section
/-!
DEFINITION. Vision pipelines (chapter 08) and the hand-off of frames to them (R245, R246): frame jobs, stages, the tracker, and
the vision opcodes.
-/
namespace Sys2Proof.Machine

def visFlag (s : State) (p mask : Nat) : State := flag s (visKey p 0x24) mask
/-- The tenant a pipeline belongs to (R266). -/
def State.visOwner (s : State) (p : Nat) : Nat := s.camOwner (p / 4)

/-! Settings (R303, Table 08-6). -/

/-- The register field of a VIS_PARAM number and its limits: register offset, lowest bit, width, smallest and largest value. -/
def visField (n : Nat) : Nat × Nat × Nat × Int × Int :=
  match n with
  | 1 => (0, 1, 2, 0, 2)
  | 2 => (0, 4, 4, 0, 15)
  | 3 => (0, 8, 8, 0, 255)
  | 4 => (0, 16, 8, 0, 255)
  | 5 => (4, 0, 16, 0, 0xFFFF)
  | 6 => (8, 0, 23, 1, 4194304)
  | 7 => (0xC, 0, 23, 1, 4194304)
  | 8 => (0x10, 16, 8, 1, 255)
  | 9 => (0x10, 24, 3, 0, 7)
  | 10 => (0x10, 27, 4, 1, 8)
  | _ => (0x14, 0, 16, -32768, 32767)
/-- A setting as a hand-off takes it: the override, or the register. -/
def State.visSet (s : State) (p n : Nat) : Nat :=
  let o := storeGet (fun _ => 0) (s.pipe p).ovr n
  let f := visField n
  if o = 0 then s.fld (visKey p f.1) f.2.1 f.2.2.1 else o - 1
/-- The settings of a hand-off by VIS_PARAM number, then ME_EN, QUOTA, QUEUE, BASE_IDX and PAGES. -/
def State.visSettings (s : State) (p : Nat) : List Nat :=
  0 :: (List.range 11).map (fun i => s.visSet p (i + 1)) ++
    [s.fld (visKey p 0) 0 1, s.fld (visKey p 0x10) 0 15, s.fld (visKey p 0x18) 0 6, s.fld (visKey p 0x1C) 0 12,
      s.fld (visKey p 0x1C) 16 8]

/-! Costs (Table 08-1). -/

/-- Deck traffic of a frame. -/
def dFrame (w h pitch : Nat) : Nat := ceilDiv (2 * pitch * h + 4 * w * h) 64000
/-- The number of lines of each band of at most n lines. -/
def bandsOf (h n : Nat) : List Nat := List.replicate (h / n) n ++ (if h % n = 0 then [] else [h % n])
def pyrSlices (w h pitch : Nat) : List (List Nat) :=
  (bandsOf h 16).map fun l => [0, ceilDiv (w * l) 384, 0, 0, 0, ceilDiv (dFrame w h pitch * l) h, 0]
def meRow (w : Nat) : Nat := ceilDiv (ceilDiv w 8 * 5) 16
def meSlices (w h : Nat) : List (List Nat) := List.replicate (ceilDiv h 8) [0, 0, meRow w, 0, 0, 0, 0]
def blobSlices (w h : Nat) : List (List Nat) := (bandsOf h 64).map fun l => [0, 0, 0, ceilDiv (w * l) 512, 0, 0, 0]
def trackSlices (b : Nat) : List (List Nat) := (bandsOf b 64).map fun n => [0, 0, 0, ceilDiv n 4, 0, 0, 0]
/-- The largest indivisible piece of a pipeline's work in each pool. -/
def State.visPiece (s : State) (p : Nat) : List Nat :=
  let w := s.vcW (p / 4) (p % 4)
  let h := s.vcH (p / 4) (p % 4)
  let me := s.bitAt (visKey p 0) 0 && decide (64 ≤ w) && decide (64 ≤ h)
  [0, ceilDiv (w * 16) 384, if me then meRow w else 0, max 16 (ceilDiv (w * 64) 512), 0,
    ceilDiv (dFrame w h (s.vcPitch (p / 4) (p % 4)) * 16) (max 1 h), 0]
/-- Work area pages a format needs. -/
def workPages (w h : Nat) : Nat := ceilDiv (w * h * 117) 2097152

/-! The tracker (R290 to R299). -/

/-- The rational value of a Q16.16 coordinate. -/
def q16 (x : Nat) : Rat := (x : Rat) / 65536
/-- A track's velocity (R290). -/
def Track.vel (k : Track) : Rat × Rat :=
  match k.obs with
  | a :: b :: _ =>
    if a.mv.ok then ((a.mv.x : Rat) / 4, (a.mv.y : Rat) / 4)
    else
      let n : Rat := (max 1 (a.seq - b.seq) : Nat)
      ((q16 a.x - q16 b.x) / n, (q16 a.y - q16 b.y) / n)
  | [a] => if a.mv.ok then ((a.mv.x : Rat) / 4, (a.mv.y : Rat) / 4) else (0, 0)
  | [] => (0, 0)
/-- A track's prediction for a frame (R290). -/
def Track.predict (k : Track) (accY : Int) (seq : Nat) : Rat × Rat :=
  let n : Rat := ((seq : Int) - k.lastSeq : Int)
  match k.obs with
  | a :: _ => (q16 a.x + k.vel.1 * n, q16 a.y + k.vel.2 * n + (accY : Rat) / 256 * n * n / 2)
  | [] => (0, 0)
def ratAbs0 (x : Rat) : Rat := if x < 0 then -x else x
/-- A pair of a track and an observation that may join: its distance, slot and blob number. -/
abbrev Pair := Rat × Nat × Nat
def pairLt (a b : Pair) : Bool :=
  if a.1 < b.1 then true else if b.1 < a.1 then false
  else if a.2.1 ≠ b.2.1 then decide (a.2.1 < b.2.1) else decide (a.2.2 < b.2.2)
def insPair (a : Pair) : List Pair → List Pair
  | [] => [a]
  | b :: l => if pairLt a b then a :: b :: l else b :: insPair a l
/-- The pairs that may join, in the order of R291. -/
def pairsOf (ts : List Track) (obs : List Obs) (accY : Int) (seq gate : Nat) : List Pair :=
  (ts.flatMap fun k =>
    let e := k.predict accY seq
    (List.range obs.length).filterMap fun i =>
      (obs[i]?).bind fun o =>
        let dx := ratAbs0 (q16 o.x - e.1)
        let dy := ratAbs0 (q16 o.y - e.2)
        if dx ≤ gate ∧ dy ≤ gate then some (dx + dy, k.slot, i) else none).foldl (fun l a => insPair a l) []
/-- The pairs accepted: track slot and blob number (R291). -/
def acceptPairs (l : List Pair) : List (Nat × Nat) :=
  l.foldl (fun acc a => if acc.any fun b => b.1 == a.2.1 || b.2 == a.2.2 then acc else acc ++ [(a.2.1, a.2.2)]) []
/-- The lowest number not in a list. -/
def lowestFree (l : List Nat) : Nat → Nat → Nat
  | 0, i => i
  | n + 1, i => if l.contains i then lowestFree l n (i + 1) else i
/-- The track slots in use. -/
def State.slotsUsed (s : State) : List Nat := s.pipes.flatMap fun e => e.2.tracks.map (·.slot)
def insTrack (k : Track) : List Track → List Track
  | [] => [k]
  | j :: l => if k.slot < j.slot then k :: j :: l else j :: insTrack k l

/-- The highest-scoring observation, the newest on equal scores; observations are listed newest first. -/
def bestObs : List Obs → Option Obs
  | [] => none
  | o :: l =>
    match bestObs l with
    | some b => if o.score < b.score then some b else some o
    | none => some o
/-- A particle record (Table 08-3, R299). -/
def recordOf (p : Nat) (k : Track) (closed : Bool) : List Byte :=
  let o := k.obs.head?
  let b := bestObs k.obs
  let has (f : Obs → Bool) := b2n (k.obs.any f)
  let tref := (o.map (·.t)).getD 0
  let mv := (o.map (·.mv)).getD { x := 0, y := 0, ok := false }
  let dt (x : Obs) : Nat := unsigned 32 (satS 32 ((x.t : Int) - tref))
  leBytes 4 (k.slot % 2 ^ 14 + 2 ^ 14 * (k.reuse % 2 ^ 18)) ++ leBytes 1 ((k.obs.getLast?.map (·.lane)).getD 0) ++
    leBytes 1 (p / 4 + 8 * (p % 4)) ++
    leBytes 1 (has (·.reject) + 2 * has (·.hard) + 4 * has (·.edge) + 8 * has (·.cluster) + 16 * b2n (!mv.ok) +
      32 * has (·.suspect) + 64 * b2n closed) ++
    leBytes 1 (min 8 k.count) ++ leBytes 2 ((b.map (·.score)).getD 0) ++ leBytes 1 ((b.map (·.top)).getD 0) ++
    leBytes 1 ((b.map (·.elong)).getD 0) ++ leBytes 4 (k.obs.foldl (fun m x => max m x.area) 0) ++ leBytes 8 tref ++
    (List.range 3).flatMap (fun i =>
      match k.obs[i]? with
      | some x => leBytes 4 (dt x) ++ leBytes 4 x.x ++ leBytes 4 x.y
      | none => leBytes 12 0) ++
    leBytes 2 (unsigned 16 mv.x) ++ leBytes 2 (unsigned 16 mv.y)
/-- A record is offered to the pipeline's particle queue (R298). -/
def offerRecord (s : State) (p q : Nat) (k : Track) (closed : Bool) : State :=
  let s := count s (visKey p 0x40)
  let pay := recordOf p k closed
  offer s (s.visOwner p) q 0
    { src := p, time := s.now, payload := pay, lane := (k.obs.getLast?.map (·.lane)).getD 0, done := true }

/-- New tracks for unmatched observations, in blob order, while the quota has room (R292). -/
def openTracks (p quota : Nat) (s : State) (ts : List Track) : List Obs → State × List Track
  | [] => (s, ts)
  | o :: l =>
    if quota ≤ ts.length then openTracks p quota (visFlag (count s (visKey p 0x3C)) p 4) ts l
    else
      let used := s.slotsUsed ++ ts.map (·.slot)
      let slot := lowestFree used (used.length + 1) 0
      let reuse := storeGet (fun _ => 0) s.trackReuse slot
      let s := { s with trackReuse := storePut (fun _ => 0) s.trackReuse slot ((reuse + 1) % 2 ^ 18) }
      let k : Track := { slot := slot, reuse := reuse, obs := [o], count := 1, misses := 0, emitted := false, lastSeq := o.seq }
      openTracks p quota s (insTrack k ts) l

/-- No observation. -/
def noObs : Obs :=
  { x := 0, y := 0, area := 0, score := 0, top := 0, elong := 0, lane := 0, edge := false, cluster := false, reject := false,
    hard := false, suspect := false, mv := { x := 0, y := 0, ok := false }, t := 0, seq := 0 }
/-- The tracker on one frame (R290 to R294). A missed frame has no observation. -/
def trackFrame (s : State) (p : Nat) (f : FrameJob) : State :=
  let x := s.pipe p
  let obs := if f.missed then [] else f.obs.getD []
  let par (i : Nat) := nth f.params i
  let accY := signed 16 (par 11)
  let acc := acceptPairs (pairsOf x.tracks obs accY f.seq (par 8))
  let ts := x.tracks.map fun k =>
    match acc.find? (·.1 == k.slot) with
    | some a =>
      let o := obs.getD a.2 noObs
      { k with
        obs := o :: (if k.emitted then k.obs.take 1 else k.obs)
        count := k.count + 1
        misses := 0
        lastSeq := f.seq }
    | none => { k with misses := k.misses + 1 }
  let free := (List.range obs.length).filter fun i => !acc.any (·.2 == i)
  let s := s.setPipe p { x with tracks := [] }
  let r := openTracks p (par 13) s ts (free.filterMap fun (i : Nat) => obs[i]?)
  let s := r.1
  let emit := r.2.filter fun k => !k.emitted && decide (par 10 ≤ k.count)
  let s := emit.foldl (fun s k => offerRecord s p (par 14) k false) s
  let ts := mapIf (fun k => decide (par 10 ≤ k.count)) (fun k => { k with emitted := true }) r.2
  let w : Nat := f.fmt.toNat % 2 ^ 13
  let h : Nat := bits f.fmt.toNat 13 13
  let gone (k : Track) : Bool :=
    let e := k.predict accY (f.seq + 1)
    decide (par 9 < k.misses) || decide (e.1 < 0) || decide ((w : Rat) ≤ e.1) || decide (e.2 < 0) || decide ((h : Rat) ≤ e.2)
  let s := (ts.filter fun k => gone k && !k.emitted).foldl (fun s k => offerRecord s p (par 14) k true) s
  s.updPipe p fun x => { x with tracks := ts.filter fun k => !gone k }

/-- Frames at the head that were missed are counted by the tracker in their turn (R270, R295). -/
def drainMissed (p : Nat) : Nat → State → State
  | 0, s => s
  | n + 1, s =>
    match (s.pipe p).frames with
    | f :: l =>
      if f.missed then
        let s := s.updPipe p fun x => { x with frames := l }
        drainMissed p n (if f.dead then s else trackFrame s p f)
      else s
    | [] => s

/-! Frame jobs (R267 to R271, R295). -/

/-- Change a frame of a pipeline. -/
def updFrame (s : State) (p job : Nat) (g : FrameJob → FrameJob) : State :=
  s.updPipe p fun x => { x with frames := mapIf (·.job == job) g x.frames }
/-- The slot of a frame job is unlocked (R268). -/
def frameUnlock (s : State) (p : Nat) (f : FrameJob) : State := slotLock s (p / 4) (p % 4) f.slot (· - 1)
/-- Whether a frame still holds its slot: blob/classify has not finished with it. -/
def FrameJob.locks (f : FrameJob) : Bool := f.obs.isNone && !f.missed
/-- A frame is missed: its job leaves Keystone and its slot is unlocked. -/
def missFrame (s : State) (p : Nat) (f : FrameJob) : State :=
  let s := if f.locks then frameUnlock s p f else s
  let s := updFrame (dropJob s f.job) p f.job fun g => { g with missed := true }
  drainMissed p ((s.pipe p).frames.length + 1) s
/-- A frame is skipped (R295). -/
def skipFrame (s : State) (p : Nat) (f : FrameJob) : State :=
  missFrame (visFlag (count s (visKey p 0x34)) p 0x10) p f
/-- Keystone sheds a frame job (R270). -/
def shedFrame (s : State) (p job : Nat) : State :=
  match (s.pipe p).frames.find? (·.job == job) with
  | some f => missFrame (visFlag (count s (visKey p 0x30)) p 8) p f
  | none => dropJob s job

/-- The loading bank becomes the active one: loads complete (R288). A load that was refused meanwhile (R81) is forgotten. -/
def swapBank (s : State) (p seq : Nat) : State :=
  let x := s.pipe p
  match x.loaded with
  | none => s
  | some id =>
    match s.job? id with
    | none => s.setPipe p { x with loaded := none, superseded := [] }
    | some j =>
      let s := s.setPipe p { x with bank := 1 - x.bank, loaded := none, superseded := [] }
      let s := x.superseded.foldl (fun s i => match s.job? i with
        | some j => complete s j 0 (2 ^ 64 - 1)
        | none => s) s
      complete s j 0 seq
/-- A frame is handed to its pipeline (R246, R267 to R269, R288, R301, R303). -/
def handOff (s : State) (c v slot : Nat) : State :=
  let p := 4 * c + v
  if !(s.pipe p).running then s
  else
    let seq := s.hdr c v slot 0 8
    let s := swapBank s p seq
    let s := s.updPipe p fun x => { x with cls := x.clsNext, deadline := x.deadlineNext }
    let x := s.pipe p
    let own := s.visOwner p
    let j := newJob s (noDesc own x.cls) .active s.tb.spanIx
    let dl := if x.deadline = 0 then s.clsDefault x.cls else x.deadline
    let w := s.vcW c v
    let h := s.vcH c v
    let j := { j with kind := .frame p, deadline := s.tb.spanIx + dl, slices := pyrSlices w h (s.vcPitch c v) }
    let f : FrameJob :=
      { job := j.id
        seq := seq
        slot := slot
        bank := x.banks.getD x.bank []
        fmt := BitVec.ofNat 32 (s.rd (vcKey c v 0))
        flags := s.hdr c v slot 38 2
        lines := s.hdr c v slot 34 2
        exp := s.hdr c v slot 8 8
        params := s.visSettings p
        lanes := (List.range 32).map fun i => s.rd (visKey p (0x80 + 4 * i))
        pyr := none
        ref := none
        mvs := none
        obs := none
        missed := false
        dead := false }
    let s := slotLock { s with nextId := s.nextId + 1 } c v slot (· + 1)
    let s := s.setPipe p { x with frames := x.frames ++ [f] }
    planNow (keep s j) j

/-- FRAME_START (R242, R245). -/
def frameStart (s : State) (c v : Nat) (h : HdrCheck) : State :=
  if !s.camListens c then s
  else
    let r := headerCheck s c h
    if !r.2 || !r.1.vcOn c v then r.1
    else
      let q := closeFrame r.1 c v
      let s := match q.2 with
        | some slot => handOff q.1 c v slot
        | none => q.1
      openFrame s c v
/-- FRAME_END (R244, R246). -/
def frameEnd (s : State) (c v : Nat) (h : HdrCheck) : State :=
  if !s.camListens c then s
  else
    let r := headerCheck s c h
    if !r.2 then r.1
    else
      let q := closeFrame r.1 c v
      match q.2 with
      | some slot => handOff q.1 c v slot
      | none => q.1

/-- The stored pixels of a frame's first lines. -/
def State.framePixels (s : State) (p : Nat) (f : FrameJob) : List Nat :=
  let w := f.fmt.toNat % 2 ^ 13
  let dt := bits f.fmt.toNat 26 3
  (List.range (min f.lines (bits f.fmt.toNat 13 13))).flatMap fun y =>
    (chunks (dtBytes dt) w (s.slotRead (p / 4) (p % 4) f.slot (64 + y * pitchOf w dt) (w * dtBytes dt))).map (pixelOf dt)
/-- The level-0 image: missing lines take the last stored line (R272, R274); with no line stored the spec gives no value. -/
def FrameJob.level0 (f : FrameJob) (px : List Nat) : Plane :=
  let w := f.fmt.toNat % 2 ^ 13
  let h := bits f.fmt.toNat 13 13
  let dt := bits f.fmt.toNat 26 3
  { w := w, h := h,
    px := (List.range (w * h)).map fun (i : Nat) =>
      if f.lines = 0 then (Config.openValue 274 [f.seq, i]).toNat % 256
      else lumaOf dt (nth px (min (i / w) (f.lines - 1) * w + i % w)) }
/-- The frame's slot has an uncorrectable error on record. -/
def State.frameUe (s : State) (p : Nat) (f : FrameJob) : Bool :=
  bit f.flags 5 || bit (s.hdr (p / 4) (p % 4) f.slot 38 1) 5

/-- PYRAMID_DONE (R273, R275, R281, R295). -/
def pyramidDone (s : State) (p : Nat) (errs : List DeckErr) : State :=
  match (s.pipe p).frames.find? fun f => f.pyr.isNone && !f.missed with
  | none => s
  | some f =>
    let s := slotErrs (deckErrs s errs) (p / 4) (p % 4) f.slot errs
    let img := f.level0 (s.framePixels p f)
    let pyr := pyramidOf img
    let x := s.pipe p
    let s := if x.bgJobs.isEmpty || f.dead then s else
      x.bgJobs.foldl (fun s i => match s.job? i with
        | some j => complete s j 0 0
        | none => s) (s.setPipe p { x with bgValid := true, bg := img.px, bgJobs := [] })
    if bit f.flags 1 || s.frameUe p f || errs.any (·.ue) then
      skipFrame (s.updPipe p fun x => { x with prev := none }) p f
    else
      let ref := x.prev.bind fun r =>
        if r.1 + 1 = f.seq ∧ (r.2.headD emptyPlane).w = img.w ∧ (r.2.headD emptyPlane).h = img.h then some r.2 else none
      let runs := nth f.params 12 == 1 && decide (64 ≤ img.w) && decide (64 ≤ img.h) && ref.isSome
      let s := s.updPipe p fun x => { x with prev := some (f.seq, pyr) }
      let s := updFrame s p f.job fun g =>
        { g with pyr := some pyr, ref := if runs then ref else none, mvs := if runs then none else some [] }
      let s := updJob s f.job fun j =>
        { j with slices := (if runs then meSlices img.w img.h else []) ++ blobSlices img.w img.h, planned := 0 }
      match s.job? f.job with
      | some j => planNow s j
      | none => s

/-- Once both parallel stages have finished, the tracker's slices wait (R267). -/
def joinStages (s : State) (p job : Nat) : State :=
  match (s.pipe p).frames.find? (·.job == job) with
  | some f =>
    if f.obs.isSome && f.mvs.isSome then
      let s := updJob s job fun j => { j with slices := trackSlices (s.pipe p).lastBlobs, planned := 0 }
      match s.job? job with
      | some j => planNow s j
      | none => s
    else s
  | none => s
/-- The slices of one engine leave a job whose stage has finished. -/
def dropEngine (e : Nat) (j : Job) : Job :=
  let f (c : List Nat) := engineOf c != e
  { j with slices := j.slices.filter f, planned := ((j.slices.take j.planned).filter f).length }
/-- MOTION_ESTIMATION_DONE (R276 to R278). -/
def motionDone (s : State) (p : Nat) : State :=
  match (s.pipe p).frames.find? fun f => f.pyr.isSome && f.mvs.isNone && !f.missed with
  | none => s
  | some f =>
    let mv := motionOf (nth f.params 4) (nth f.params 5) (f.pyr.getD []) (f.ref.getD [])
    let s := updFrame s p f.job fun g => { g with mvs := some mv, ref := none }
    joinStages (updJob s f.job (dropEngine 2)) p f.job
/-- BLOB_CLASSIFY_DONE (R279, R280, R282 to R287, R268). Vectors are added when the tracker runs. -/
def blobDone (s : State) (p : Nat) : State :=
  match (s.pipe p).frames.find? fun f => f.pyr.isSome && f.obs.isNone && !f.missed with
  | none => s
  | some f =>
    let x := s.pipe p
    let img := (f.pyr.getD []).headD emptyPlane
    let par (i : Nat) := nth f.params i
    let bg := if x.bgValid then x.bg else noBg (par 1) (img.w * img.h)
    let fg := foreground img f.lines (par 1) (par 3) f.lanes bg
    let dt := bits f.fmt.toNat 26 3
    let b : BlobIn :=
      { w := img.w
        lines := f.lines
        lanes := f.lanes
        amin := par 6
        amax := par 7
        bank := f.bank
        classes := (s.framePixels p f).map (classIx dt)
        mvs := []
        suspect := bits f.flags 2 3 != 0
        t := f.exp
        seq := f.seq }
    let all := blobsOf b fg
    let kept := all.take 4096
    let obs := kept.map (obsOf b)
    let hist := kept.foldl (fun h c => addL h (classCounts b c)) (List.replicate 16 0)
    let s := if 4096 < all.length then visFlag (count s (visKey p 0x38)) p 2 else s
    let s := s.updPipe p fun y =>
      { y with
        bg := if x.bgValid && par 2 != 0 then bgUpdate (par 2) img fg x.bg else y.bg
        lastBlobs := obs.length
        hist := hist }
    let s := frameUnlock (updFrame s p f.job fun g => { g with obs := some obs }) p f
    joinStages (updJob s f.job (dropEngine 3)) p f.job
/-- An observation with the vector of the block that holds its centroid (R284). -/
def withVec (w : Nat) (mvs : List MotionVec) (o : Obs) : Obs :=
  { o with mv := mvs.getD (o.y / 65536 / 8 * ceilDiv w 8 + o.x / 65536 / 8) { x := 0, y := 0, ok := false } }
/-- TRACKER_RUN (R267, R291 to R294). -/
def trackerRun (s : State) (p : Nat) : State :=
  match (s.pipe p).frames with
  | f :: l =>
    match f.obs, f.mvs with
    | some obs, some mvs =>
      let s := count (dropJob (s.updPipe p fun x => { x with frames := l }) f.job) (visKey p 0x2C)
      let s := if f.dead then s else trackFrame s p { f with obs := some (obs.map (withVec (f.fmt.toNat % 2 ^ 13) mvs)) }
      drainMissed p l.length s
    | _, _ => s
  | [] => s

/-! Stopping (R297, R302, R271). -/

/-- Open tracks are discarded without a record (R297). -/
def dropTracks (s : State) (p : Nat) : State := s.updPipe p fun x => { x with tracks := [] }
/-- A pipeline stops: jobs that have not started are dropped and their slots unlocked, those that have started run on and add
nothing (R302). -/
def stopPipe (s : State) (p : Nat) : State :=
  let x := s.pipe p
  if !x.running then s
  else
    let started (f : FrameJob) : Bool := !f.missed && ((s.job? f.job).map fun j => j.ran || j.planned != 0).getD false
    let gone := x.frames.filter fun f => !started f
    let s := gone.foldl (fun s f => dropJob (if f.locks then frameUnlock s p f else s) f.job) s
    let s := s.setPipe p
      { x with
        running := false
        ovr := []
        tracks := []
        frames := (x.frames.filter started).map fun f => { f with dead := true } }
    swapBank s p ((s.vc p).frameSeq + 1)
/-- A stop the device makes itself, with CFG_ERR (R271). -/
def stopPipeErr (s : State) (p : Nat) : State :=
  if (s.pipe p).running then visFlag (stopPipe s p) p 1 else s
/-- R271 at a boundary. -/
def visBoundary (s : State) (p : Nat) : State :=
  let x := s.pipe p
  if x.running && s.tooLarge (s.visOwner p) x.cls (s.visPiece p) then stopPipeErr s p else s
/-- VIS_STOP completes once no started job is left (R302). -/
def visStopDone (s : State) (p : Nat) : State :=
  let x := s.pipe p
  if x.frames.any (·.dead) then s
  else
    x.stopJobs.foldl (fun s i => match s.job? i with
      | some j => complete s j 0 (nth j.aux 0)
      | none => s) (s.setPipe p { x with stopJobs := [] })
/-- The camera port is lost (R252, R297). -/
def visPortLost (s : State) (c : Nat) : State :=
  let s' := camLost s c
  if (s'.cam c).portLost && !(s.cam c).portLost then (List.range 4).foldl (fun s v => dropTracks s (4 * c + v)) s' else s'

/-! The vision opcodes (Table 08-4). -/

def visPipeOf (d : Desc) : Nat := 4 * (d.p 0 1 % 8) + d.p 1 1 % 4
/-- Camera and VC in range, and the right to the pipeline. -/
def visCheck (named : Nat) (fmt : Desc → Bool) (more : State → Desc → List (Bool × Nat × Nat)) (s : State) (d : Desc) :
    Verdict :=
  firstFail ((badFormat d (pm 0 2 ||| named) false || decide (8 ≤ d.p 0 1) || decide (4 ≤ d.p 1 1) || fmt d, 0x14, 0) ::
    (!s.hasCam d.tenant (d.p 0 1), 0x11, 0) :: more s d)
def visStartCheck : State → Desc → Verdict :=
  visCheck (pb 2 3 ||| pm 4 2) (fun d => d.p 2 1 == 3) fun s d =>
    let p := visPipeOf d
    let c := d.p 0 1
    let v := d.p 1 1
    let base := s.fld (visKey p 0x1C) 0 12
    let pages := s.fld (visKey p 0x1C) 16 8
    [(s.noBudget d.tenant (d.p 2 1) (s.visPiece p), 0x11, 0),
      (decide (s.pageCount d.tenant < base + pages) || decide (pages < workPages (s.vcW c v) (s.vcH c v)), 0x11, 0),
      (s.tooLarge d.tenant (d.p 2 1) (s.visPiece p), 0x12, 0)]
/-- VIS_START (R301, R281, R303). -/
def doVisStart (s : State) (d : Desc) : State :=
  s.updPipe (visPipeOf d) fun x =>
    let y := { x with clsNext := d.p 2 1, deadlineNext := d.p 4 2, ovr := [] }
    if x.running then y
    else { y with running := true, cls := d.p 2 1, deadline := d.p 4 2, bgValid := false, bg := [], lastBlobs := 64 }
def visPlainCheck : State → Desc → Verdict := visCheck 0 (fun _ => false) fun _ _ => []
/-- VIS_STOP (R302). -/
def visStop (s : State) (j : Job) : State :=
  let p := visPipeOf j.d
  let n := (s.pipe p).tracks.length
  let s := stopPipe s p
  let j := { j with phase := .active, aux := [n] }
  let s := (keep s j).updPipe p fun x => { x with stopJobs := x.stopJobs ++ [j.id] }
  visStopDone s p
def classLoadCost : List Nat := [3, 0, 0, 0, 0, 0, 0]
def visClassLoadCheck : State → Desc → Verdict :=
  visCheck (pm 4 8) (fun d => d.p 4 8 % 64 != 0) fun s d =>
    [(s.noBudget d.tenant d.clsNo classLoadCost, 0x11, 0), (s.tooLarge d.tenant d.clsNo classLoadCost, 0x12, 0)]
/-- VIS_CLASS_LOAD waits for Keystone. -/
def visClassLoad (s : State) (j : Job) : State :=
  keep s { j with phase := .active, slices := [classLoadCost] }
/-- The bank image has been copied (R288). -/
def classLoadSlice (s : State) (j : Job) (r : SliceResult) : State :=
  let p := visPipeOf j.d
  let x := s.pipe p
  let s := keep s j
  let s := s.setPipe p
    { x with
      banks := x.banks.set (1 - x.bank) ((r.data ++ List.replicate 2112 0).take 2112)
      superseded := x.superseded ++ x.loaded.toList
      loaded := some j.id }
  if x.running then s else swapBank s p ((s.vc p).frameSeq + 1)
/-- VIS_BG_CAPTURE (R281). -/
def visBgCapture (s : State) (j : Job) : State :=
  (keep s { j with phase := .active }).updPipe (visPipeOf j.d) fun x => { x with bgJobs := x.bgJobs ++ [j.id] }
def visParamCheck : State → Desc → Verdict :=
  visCheck (pm 2 1 ||| pm 4 4) (fun d => d.p 2 1 == 0 || decide (12 ≤ d.p 2 1)) fun s d => [(!s.expert d.tenant, 0x15, 0)]
/-- VIS_PARAM (R303). -/
def visParam (s : State) (j : Job) : State :=
  let n := j.d.p 2 1
  let f := visField n
  let v : Int := if n = 11 then j.d.pS 4 4 else j.d.p 4 4
  let y := clampI v f.2.2.2.1 f.2.2.2.2
  let s := s.updPipe (visPipeOf j.d) fun x => { x with ovr := storePut (fun _ => 0) x.ovr n (unsigned f.2.2.1 y + 1) }
  if y = v then complete s j 0 0 else complete s j 3 (n + 2 ^ 32 * unsigned 32 y)

/-! The commands. -/

/-- FRAME_START (R242 to R245, R251). -/
def execFrameStart (t : Nat) (c : Fin 8) (v : Fin 4) (h : HdrCheck) (s : State) : Host.Outcome State Fault Refusal :=
  act s fun s => frameStart (advance s t) c v h
/-- FRAME_END (R246). -/
def execFrameEnd (t : Nat) (c : Fin 8) (v : Fin 4) (h : HdrCheck) (s : State) : Host.Outcome State Fault Refusal :=
  act s fun s => frameEnd (advance s t) c v h
/-- PORT_LOST (R252, R297). -/
def execPortLost (c : Fin 8) (s : State) : Host.Outcome State Fault Refusal := act s fun s => visPortLost s c
/-- PYRAMID_DONE (R273). -/
def execPyramidDone (t : Nat) (p : Fin 32) (errs : List DeckErr) (s : State) : Host.Outcome State Fault Refusal :=
  act s fun s => pyramidDone (advance s t) p errs
/-- MOTION_ESTIMATION_DONE (R276). -/
def execMotionEstimationDone (t : Nat) (p : Fin 32) (s : State) : Host.Outcome State Fault Refusal :=
  act s fun s => motionDone (advance s t) p
/-- BLOB_CLASSIFY_DONE (R284). -/
def execBlobClassifyDone (t : Nat) (p : Fin 32) (s : State) : Host.Outcome State Fault Refusal :=
  act s fun s => blobDone (advance s t) p
/-- TRACKER_RUN (R291). -/
def execTrackerRun (t : Nat) (p : Fin 32) (s : State) : Host.Outcome State Fault Refusal :=
  act s fun s => trackerRun (advance s t) p
/-- VIS_START (R301). -/
def execVisStart (t : Nat) (d : Desc) (s : State) : Host.Outcome State Fault Refusal :=
  act s fun s => runOp s t 0x58 d visStartCheck (andDone doVisStart)
/-- VIS_STOP (R302). -/
def execVisStop (t : Nat) (d : Desc) (s : State) : Host.Outcome State Fault Refusal :=
  act s fun s => runOp s t 0x59 d visPlainCheck visStop
/-- VIS_STOP_DONE (R302). -/
def execVisStopDone (t : Nat) (p : Fin 32) (s : State) : Host.Outcome State Fault Refusal :=
  act s fun s => visStopDone (advance s t) p
/-- VIS_CLASS_LOAD (R288). -/
def execVisClassLoad (t : Nat) (d : Desc) (s : State) : Host.Outcome State Fault Refusal :=
  act s fun s => runOp s t 0x5A d visClassLoadCheck visClassLoad
/-- VIS_BG_CAPTURE (R281). -/
def execVisBgCapture (t : Nat) (d : Desc) (s : State) : Host.Outcome State Fault Refusal :=
  act s fun s => runOp s t 0x5B d visPlainCheck visBgCapture
/-- VIS_PARAM (R303). -/
def execVisParam (t : Nat) (d : Desc) (s : State) : Host.Outcome State Fault Refusal :=
  act s fun s => runOp s t 0x5C d visParamCheck visParam

end Sys2Proof.Machine
end

