-- ==== Sys2Proof/Machine/Stops.lean ====
section
/-!
DEFINITION. What happens to all the work of one tenant at once: the ramp-stops, holds and closings of a detach, an orphan policy, a
tenant hold and a lost host path (R81, R100, R108, R112, R262, R459, R471, R515, R517, R538, R669).
-/
namespace Sys2Proof.Machine

/-- The axes of a tenant. -/
def State.axesOf (s : State) (tn : Nat) : List Nat := (List.range 48).filter (s.hasAxis tn)
/-- The groups and stays a tenant has claimed. -/
def State.groupsOf (s : State) (tn : Nat) : List Nat := (s.groups.filter fun x => x.2.owner == some tn).map (·.1)
def State.staysOf (s : State) (tn : Nat) : List Nat := (s.stays.filter fun x => x.2.owner == some tn).map (·.1)

/-- One axis ramp-stops by itself (R480, R538): what waits for it is refused, its motion is superseded. -/
def rampOne (s : State) (a : Nat) : State :=
  if !s.axisOn a then s
  else
    let s := supersede (dropNext s a 0x13 0) a
    if a < 32 then pierRamp s a else (rampAxis s a).updSg (a - 32) fun x => { x with raw := none, coil := none, holdAfter := true }
/-- RAMP and the end of CONTINUE (R108, R517, R538), and a detach (R100): groups slow along their paths, stays ramp-stop their
followers, other axes ramp-stop. -/
def rampStopTenant (s : State) (tn : Nat) : State :=
  let s := (s.groupsOf tn).foldl (fun s g => s.updGroup g fun y => { y with ctrl := y.ctrl ++ [(0, 0)] }) s
  let s := (s.staysOf tn).foldl (fun s y => if (s.stay y).state.drives then stayRelease0 s y else s) s
  (s.axesOf tn).foldl (fun s a => if (s.axis a).src == .own then rampOne s a else s) s
/-- Groups abort and stays are released with no motion (R515, R517). -/
def dropSources (s : State) (gs ys : List Nat) : State :=
  let s := gs.foldl (fun s g => groupDrop s g 0x13) s
  ys.foldl (fun s y => stayDrop s y 0x13) s
/-- A tenant hold, and the HOLD orphan policy: every axis holds (R112, R459, R515, R538). -/
def holdTenantAxes (s : State) (tn : Nat) : State :=
  let s := dropSources s (s.groupsOf tn) (s.staysOf tn)
  (s.axesOf tn).foldl (fun s a => if a < 32 then pierHold s a else sgHold s (a - 32)) s
/-- An axis stands still: it is off, or its reference and its steps rest. -/
def State.axisStill (s : State) (a : Nat) : Bool :=
  !s.axisOn a ||
    ((s.axis a).v == 0 && ((s.axis a).src != .own || (s.axis a).gen == .hold) && (decide (a < 32) || (s.sg (a - 32)).inc == 0))
def State.axesStill (s : State) (tn : Nat) : Bool := (s.axesOf tn).all s.axisStill
/-- A tenant's valves close, their events are removed and its rows stop (R100). -/
def closeTenantValves (s : State) (tn : Nat) : State :=
  let mine := (s.rows.filter fun x => x.2.bound && x.2.tenant == tn).map (·.1)
  let s := mine.foldl (fun s r => (rowStop s r).updRow r fun x => { x with taken := [] }) s
  let of (l : List FitEv) : Bool := l.any fun e => (e.kind.rowOf.map fun x => mine.contains x.1).getD false
  let s := { s with wheel := { s.wheel with fitted := s.wheel.fitted.filter fun l => !of l } }
  let s := removeEvents s (fun e => s.hasValve tn e.valve) 0x13
  (s.valves.filter fun x => s.hasValve tn x.1).foldl (fun s x => valveOff s x.1) s
/-- A tenant's pipelines stop (R100). -/
def stopTenantPipes (s : State) (tn : Nat) : State :=
  (s.pipes.map (·.1)).foldl (fun s p => if s.visOwner p = tn then stopPipe s p else s) s
/-- A tenant's CAN frames leave the transmit sets (R100). -/
def emptyTenantCan (s : State) (tn : Nat) : State :=
  (s.cans.map (·.1)).foldl (fun s c => canDropTenant s tn c 0x13) s
/-- Claims of groups, stays and cam tables end when a tenant becomes DETACHED (R471). -/
def dropClaims (s : State) (tn : Nat) : State :=
  let gs := s.groupsOf tn
  let ys := s.staysOf tn
  let s := dropSources s gs ys
  let s := gs.foldl (fun s g =>
    let s := (s.group g).axes.foldl (fun s a => s.updAxis a fun x => if x.src == .group g then { x.still with src := .own } else x) s
    s.setGroup g Group.reset) s
  let s := ys.foldl (fun s y => s.setStay y Stay.reset) s
  ((s.camTabs.filter fun x => x.2.owner == some tn).map (·.1)).foldl (fun s c => s.setCamTab c CamTab.reset) s
/-- A job whose data still comes from host memory, or whose copy to it still runs (R262, R669). -/
def Job.reading (j : Job) : Bool :=
  j.kind == .desc && j.phase == .active &&
    (j.d.op == 0x51#8 ||
      ([0x24#8, 0x2A#8, 0x5A#8, 0x81#8].contains j.d.op && (!j.slices.isEmpty || j.d.op == 0x81#8)))
/-- The host reads of a tenant are abandoned at the tick its host path is lost: no effect, and the completion is discarded. -/
def abandonReads (s : State) (tn : Nat) : State :=
  let l := s.jobs.filter fun j => j.reading && j.d.tenant.val == tn && !(s.cans.any fun c => c.2.set.any (·.job == j.id))
  l.foldl (fun s j =>
    let s := complete (frameReadUnlock s j) j 0x11 0
    if j.d.op = 0x81#8 then canRetry s (j.d.p 0 1) else s) s
/-- Load-all taken by an expert tenant at this tick (R24). -/
def takeLoadAll (s : State) (tn : Nat) : State := loadAll s tn false fun _ => false

end Sys2Proof.Machine
end

