-- ==== Sys2Proof/Machine/Tenants.lean ====
section
/-!
DEFINITION. Tenants, attach and detach, host-path loss, orphans, holds, and the tenant and admin opcodes (chapters 03 and
18).
-/
namespace Sys2Proof.Machine

/-! Host-path loss (R102, R669 to R671). -/

/-- The host path of a tenant is lost, to be applied at the boundary of span `due`. -/
def hostLoss (s : State) (tn due : Nat) : State :=
  let t := s.tn tn
  if t.st != .attached || t.pathLost then s
  else abandonReads (s.setTn tn { t with pathLost := true, lostDue := some due }) tn

/-- Every attached tenant of a set loses its host path. -/
def hostLossOf (s : State) (ns : List Nat) : State :=
  ns.foldl (fun s n => hostLoss s n (s.tb.spanIx + 1)) s

/-- All tenants, and those of the VFs. -/
def allTenants : List Nat := List.range 256
def vfTenants : List Nat := (List.range 255).map (· + 1)

/-- The configuration state of the VFs as reset. -/
def dropVfs (s : State) : State :=
  { s with link := { s.link with vfEnable := false, numVfs := 0 }, fns := s.fns.filter (·.1 == 0) }

/-- LINK_DOWN (R102, R669). -/
def doLinkDown (s : State) : State :=
  ptmLost (hostLossOf { s with link := { s.link with up := false } } allTenants)
/-- PERST_N low (R650). -/
def doPerstLow (s : State) : State :=
  let s := doLinkDown s
  { s with
    link := { s.link with up := false, perstHigh := false, vfEnable := false, numVfs := 0, aerErrors := 0 }
    fns := []
    refs := { s.refs with ptmCapable := false } }
/-- The link has trained: nothing while PERST_N is low (R665). -/
def doTrained (s : State) (w : LinkWidth) (r : LinkRate) : State :=
  if s.link.perstHigh then { s with link := { s.link with up := true, width := w, rate := r } } else s
/-- A change of width or rate: the DMA capacity and DMA_DEGRADED follow at the next boundary (R173, R199). -/
def doRetrain (s : State) (w : LinkWidth) (r : LinkRate) : State :=
  if s.link.up then { s with link := { s.link with width := w, rate := r } } else s
/-- VF Enable cleared (R102, R666). -/
def doVfClear (s : State) : State := dropVfs (hostLossOf s vfTenants)
/-- FLR (R104, R105). -/
def doFlr (s : State) (fn : Nat) : State :=
  if !s.fnExists fn then s
  else
    let s := hostLoss s fn (s.tb.spanIx + 1)
    let s := ringReset (s.setFn fn Fn.reset) fn
    if fn = 0 then
      let s := doVfClear (ptmLost s)
      { s with refs := { s.refs with ptmCapable := false }, link := { s.link with aerErrors := 0 } }
    else s
/-- Bus Master Enable cleared (R102). -/
def doBmeClear (s : State) (fn : Nat) : State :=
  if !s.fnExists fn then s
  else hostLoss (s.updFn fn fun f => { f with bme := false }) fn (s.tb.spanIx + 1)

/-! Attach and detach. -/

/-- What an attach needs of the function and the link (R667). -/
def State.canAttach (s : State) (tn : Nat) : Bool :=
  s.fnExists tn && (s.fn tn).bme && s.link.up && s.link.perstHigh
/-- A write of TN_CTRL.ATTACH (R95, R667). -/
def doAttach (s : State) (tn : Nat) : State :=
  if !s.fnExists tn then s
  else if s.canAttach tn then
    s.updTn tn fun t => { t with attachAt := some (t.attachAt.getD s.now) }
  else flagRaw s (tkey tn 8) 2
/-- A tenant becomes ATTACHED with its rings reset and a new lease (R96, R97, R103). -/
def becomeAttached (s : State) (tn : Nat) : State :=
  let s := ringReset s tn
  let s := s.updTn tn fun t =>
    { t with
      st := .attached
      pathLost := false
      lostDue := none
      lease := Config.lease s.freeCtr
      hbGap := 0
      hbSeen := false
      orphEnd := false
      orphLeft := 0 }
  { s with freeCtr := s.freeCtr + 1 }
/-- The lease a tenant has written (R97). -/
def State.leaseIn (s : State) (tn : Nat) : Nat := s.rd (tkey tn 0x18) + 2 ^ 32 * s.rd (tkey tn 0x1C)
/-- An attach is evaluated at its boundary (R95 to R98, R667, R674). -/
def doAttachEval (s : State) (tn : Nat) : State :=
  let t := s.tn tn
  match t.attachAt with
  | none => s
  | some w =>
    if s.tb.boundary < w + 64 then s
    else
      let s := s.setTn tn { t with attachAt := none }
      if t.st = .attached then s
      else if !s.canAttach tn then flagRaw s (tkey tn 8) 2
      else if t.st = .detached then becomeAttached s tn
      else if t.lease ≠ 0 ∧ s.leaseIn tn = t.lease then becomeAttached s tn
      else flagRaw (count s (tkey tn 0x44)) (tkey tn 8) 1

/-- What detaching starts (R100): axes ramp-stop, valves close, pipelines stop, CAN transmit slots empty. -/
def startDetach (s : State) (tn : Nat) : State :=
  let s := s.updTn tn fun t => { t with detaching := true }
  emptyTenantCan (stopTenantPipes (closeTenantValves (rampStopTenant s tn) tn) tn) tn
/-- A write of TN_CTRL.DETACH (R100). -/
def doDetach (s : State) (tn : Nat) : State :=
  if (s.tn tn).st = .attached ∧ s.fnExists tn then startDetach s tn else s
/-- The tenant becomes DETACHED once its axes stand still (R100). -/
def doDetachComplete (s : State) (tn : Nat) : State :=
  let t := s.tn tn
  if t.detaching && s.axesStill tn then
    (dropClaims s tn).setTn tn { t with st := .detached, detaching := false, lease := 0, lostDue := none, orphLeft := 0 }
  else s
/-- A write of a tenant table entry's TENANT_CFG (R101, R705, R707, R708, R753). -/
def writeTenantCfg (s : State) (tn w : Nat) : State :=
  let old := s.rd (ttKey tn 0)
  let changed := bits w 0 2 != bits old 0 2 || bit w 4 != bit old 4
  if bits w 0 2 = 3 || (bit w 4 && !s.expert tn) then flag s kGlobal 1
  else if s.mode = .run ∧ changed then s
  else if bit w 8 && (s.tn tn).st != .orphan then flag s kGlobal 1
  else
    let s := s.wr (ttKey tn 0) (bits w 0 2 + 16 * b2n (bit w 4))
    let s := if bit w 4 != bit old 4 then s.updTn tn fun t => { t with pubPend := some (bit w 4) } else s
    if bit w 8 then startDetach (s.updTn tn fun t => { t with lease := 0 }) tn else s

/-! Heartbeats and orphans. -/

/-- A heartbeat arrives (R103, R111). -/
def feedHeartbeat (s : State) (tn : Nat) : State :=
  if (s.tn tn).st = .attached then s.updTn tn fun t => { t with hbSeen := true } else s
/-- The gap count has reached HB_LIMIT at this boundary (R103). -/
def doHbExpiry (s : State) (tn : Nat) : State :=
  let t := s.tn tn
  if t.st = .attached ∧ t.hbLimit ≠ 0 ∧ t.hbLimit ≤ t.hbGap then hostLoss s tn s.tb.spanIx else s
/-- The tenant becomes ORPHAN and its policy starts (R102, R108, R114, R670). -/
def doOrphan (s : State) (tn : Nat) : State :=
  let t := s.tn tn
  match t.st, t.lostDue with
  | .attached, some due =>
    if s.tb.spanIx < due then s
    else
      let pol := s.fld (ttKey tn 0) 0 2
      let lim := s.rd (ttKey tn 4)
      let s := s.setTn tn
        { t with
          st := .orphan
          lostDue := none
          policy := pol
          orphLimit := lim
          orphSpan := s.tb.spanIx
          orphLeft := if pol = 0 then lim else 0
          orphEnd := false }
      let s := count s (tkey tn 0x38)
      if t.held then s
      else if pol = 1 then rampStopTenant s tn
      else if pol = 2 then holdTenantAxes s tn
      else s
  | _, _ => s
/-- ORPHAN_LIMIT has run out under CONTINUE (R108 to R110). -/
def doOrphanLimit (s : State) (tn : Nat) : State :=
  let t := s.tn tn
  if t.st = .orphan ∧ t.policy = 0 ∧ t.orphLimit ≠ 0 ∧ t.orphLeft = 0 ∧ t.orphEnd = false then
    let s := s.setTn tn { t with orphEnd := true }
    if t.held then s else rampStopTenant s tn
  else s

/-! Holds (R112 to R114). -/

/-- A hold admitted in an earlier span takes effect (R112). -/
def doHoldEffect (s : State) (tn : Nat) : State :=
  let t := s.tn tn
  match t.holdPend with
  | some (byT0, ix) =>
    if s.tb.spanIx ≤ ix then s
    else holdTenantAxes (s.setTn tn { t with held := true, heldByT0 := t.heldByT0 || byT0, holdPend := none }) tn
  | none => s
/-- TENANT_HOLD completes once every axis holds (R112). -/
def doHoldDone (s : State) (tn : Nat) : State :=
  if (s.tn tn).held && s.axesStill tn then
    (s.jobs.filter fun j => j.d.op == 0x02#8 && j.d.tenant.val == tn && j.phase == .active).foldl
      (fun s j => complete s j 0 0) s
  else s
/-- A hold is admitted for a tenant. -/
def admitHold (s : State) (tn : Nat) (byT0 : Bool) : State :=
  s.updTn tn fun t =>
    { t with holdPend := some (byT0 || (t.holdPend.map (·.1)).getD false, (t.holdPend.map (·.2)).getD s.tb.spanIx) }
/-- Every hold of a tenant ends (R113). -/
def endHold (s : State) (tn : Nat) : State := s.updTn tn fun t => { t with held := false, heldByT0 := false }

/-! The tenant and admin opcodes (Table 03-7). -/

def plainCheck (s : State) (d : Desc) : Verdict := firstFail [(badFormat d 0 false && s.power.porstHigh, 0x14, 0)]
def tenantReleaseCheck (s : State) (d : Desc) : Verdict :=
  firstFail [(badFormat d 0 false, 0x14, 0), (d.tenant.val != 0 && (s.tn d.tenant).heldByT0, 0x11, 0)]
/-- Whether a tenant owns a publishing source, and whether the source exists. -/
def State.ownsSource (s : State) (tn kind i : Nat) : Bool :=
  if kind = 0 then s.hasPier tn i else if kind = 1 then s.hasSg tn i else s.hasFb tn i
def sourceExists (kind i : Nat) : Bool :=
  (kind == 0 && decide (i < 32)) || (kind == 1 && decide (i < 16)) || (kind == 2 && decide (i < 40))
def publishCheck (s : State) (d : Desc) : Verdict :=
  firstFail [(badFormat d (pm 0 2 ||| pb 2 1) false || !sourceExists (d.p 0 1) (d.p 1 1), 0x14, 0),
    (!s.ownsSource d.tenant (d.p 0 1) (d.p 1 1), 0x11, 0)]
/-- PUBLISH: the record of a source whose publication ends keeps its last values, not VALID (R85, R86). -/
def doPublish (s : State) (d : Desc) : State :=
  let k := 64 * d.p 0 1 + d.p 1 1
  let on := d.p 2 1 == 1
  let s := { s with pubOn := storePut (fun _ => false) s.pubOn k on }
  if on then s
  else
    let r := storeGet (fun _ => PubRec.reset) s.pubRec k
    { s with pubRec := storePut (fun _ => PubRec.reset) s.pubRec k { r with valid := false } }
def loadAllCheck (s : State) (d : Desc) : Verdict :=
  firstFail [(badFormat d 0 false, 0x14, 0), (!s.expert d.tenant, 0x15, 0), (!(s.tn d.tenant).pubExpert, 0x13, 1)]
def holdOtherCheck (s : State) (d : Desc) : Verdict :=
  firstFail [(badFormat d (pm 0 1 ||| pb 1 1) false, 0x14, 0), (d.tenant.val != 0 && s.power.porstHigh, 0x11, 0)]
/-- TENANT_HOLD waits for the boundary (R112). -/
def tenantHoldStart (s : State) (j : Job) : State :=
  admitHold (keep s { j with phase := .active }) j.d.tenant false

/-! The commands. -/

def execAttach (t : Nat) (tn : Fin 256) (s : State) : Host.Outcome State Fault Refusal :=
  act s fun s => doAttach (advance s t) tn
def execAttachEvaluation (tn : Fin 256) (s : State) : Host.Outcome State Fault Refusal := act s fun s => doAttachEval s tn
def execDetach (t : Nat) (tn : Fin 256) (s : State) : Host.Outcome State Fault Refusal :=
  act s fun s => doDetach (advance s t) tn
def execDetachComplete (t : Nat) (tn : Fin 256) (s : State) : Host.Outcome State Fault Refusal :=
  act s fun s => doDetachComplete (advance s t) tn
/-- RELEASE (R101): a TENANT_CFG write with its RELEASE bit set. -/
def execRelease (t : Nat) (tn : Fin 256) (value : Word) (s : State) : Host.Outcome State Fault Refusal :=
  act s fun s => writeTenantCfg (advance s t) tn (value.toNat ||| 0x100)
def execPerstNRelease (t : Nat) (s : State) : Host.Outcome State Fault Refusal :=
  act s fun s => let s := advance s t; { s with link := { s.link with perstHigh := true } }
def execLinkTrained (t : Nat) (w : LinkWidth) (r : LinkRate) (s : State) : Host.Outcome State Fault Refusal :=
  act s fun s => doTrained (advance s t) w r
def execLinkRetrain (t : Nat) (w : LinkWidth) (r : LinkRate) (s : State) : Host.Outcome State Fault Refusal :=
  act s fun s => doRetrain (advance s t) w r
def execFlr (t : Nat) (fn : Fin 256) (s : State) : Host.Outcome State Fault Refusal :=
  act s fun s => doFlr (advance s t) fn
def execBusMasterEnableClear (t : Nat) (fn : Fin 256) (s : State) : Host.Outcome State Fault Refusal :=
  act s fun s => doBmeClear (advance s t) fn
def execVfEnableClear (t : Nat) (s : State) : Host.Outcome State Fault Refusal := act s fun s => doVfClear (advance s t)
/-- VF_ENABLE_SET (R666): not offered in recovery (R659). -/
def execVfEnableSet (t : Nat) (numVfs : Fin 256) (s : State) : Host.Outcome State Fault Refusal :=
  act s fun s =>
    let s := advance s t
    if s.fw.inRecovery then s else { s with link := { s.link with vfEnable := true, numVfs := numVfs } }
def execHeartbeatExpiry (tn : Fin 256) (s : State) : Host.Outcome State Fault Refusal := act s fun s => doHbExpiry s tn
def execOrphanEntry (tn : Fin 256) (s : State) : Host.Outcome State Fault Refusal := act s fun s => doOrphan s tn
def execOrphanLimitExpiry (tn : Fin 256) (s : State) : Host.Outcome State Fault Refusal :=
  act s fun s => doOrphanLimit s tn
def execTnHeartbeat (t : Nat) (tn : Fin 256) (s : State) : Host.Outcome State Fault Refusal :=
  act s fun s => feedHeartbeat (advance s t) tn
def execNop (t : Nat) (d : Desc) (s : State) : Host.Outcome State Fault Refusal :=
  act s fun s => runOp s t 0x00 d plainCheck (andDone fun s _ => s)
def execHeartbeat (t : Nat) (d : Desc) (s : State) : Host.Outcome State Fault Refusal :=
  act s fun s => runOp s t 0x01 d plainCheck (andDone fun s d => feedHeartbeat s d.tenant)
def execTenantHold (t : Nat) (d : Desc) (s : State) : Host.Outcome State Fault Refusal :=
  act s fun s => runOp s t 0x02 d plainCheck tenantHoldStart
def execHoldTakesEffect (tn : Fin 256) (s : State) : Host.Outcome State Fault Refusal := act s fun s => doHoldEffect s tn
def execTenantHoldDone (tn : Fin 256) (s : State) : Host.Outcome State Fault Refusal := act s fun s => doHoldDone s tn
def execTenantRelease (t : Nat) (d : Desc) (s : State) : Host.Outcome State Fault Refusal :=
  act s fun s => runOp s t 0x03 d tenantReleaseCheck (andDone fun s d => endHold s d.tenant)
def execPublish (t : Nat) (d : Desc) (s : State) : Host.Outcome State Fault Refusal :=
  act s fun s => runOp s t 0x04 d publishCheck (andDone doPublish)
def execLoadAll (t : Nat) (d : Desc) (s : State) : Host.Outcome State Fault Refusal :=
  act s fun s => runOp s t 0x05 d loadAllCheck (andDone fun s d => takeLoadAll s d.tenant)
def execHoldOtherHold (t : Nat) (d : Desc) (s : State) : Host.Outcome State Fault Refusal :=
  act s fun s => runOp s t 0x06 (d.setP 1 (d.p 1 1 ||| 1)) holdOtherCheck
    (andDone fun s d => admitHold s (d.p 0 1) true)
def execHoldOtherRelease (t : Nat) (d : Desc) (s : State) : Host.Outcome State Fault Refusal :=
  act s fun s => runOp s t 0x06 (d.setP 1 (d.p 1 1 / 2 * 2)) holdOtherCheck
    (andDone fun s d => endHold s (d.p 0 1))

end Sys2Proof.Machine
end

