-- ==== Sys2Proof/Machine/Parapet.lean ====
section
/-!
DEFINITION. Parapet and the four modes (chapter 17): entering a mode, the causes of SAFE HOLD, mode requests, temperatures, the
supplies, and the scrubber whose finds in the firmware's pages are a cause (R255).
-/
namespace Sys2Proof.Machine

def ppFlag (s : State) (mask : Nat) : State := flag s kPp mask
def updPp (s : State) (f : Parapet → Parapet) : State := { s with pp := f s.pp }
/-- Whether registers beyond the identity block and the mailbox answer (R659). -/
def State.answers (s : State) : Bool := !s.fw.inRecovery

/-! Entering a mode (R624, R626, R627, Table 17-3). -/

/-- No open that a sweep has not taken yet goes out any more (Table 17-5). -/
def dropOpens (s : State) : State := updRing s fun r => { r with frozen := r.frozen.filter fun e => !e.opening }
/-- The close-all frame on both ring ports (R640): nodes close every output and discard the edges they hold. -/
def closeAllFrame (s : State) : State :=
  if s.ring.up then updRing s fun r => { r with closeAllAt := some s.now, frozen := [], inFlight := [], lateCloses := [] } else s
/-- Outputs become safe (R460, R515, R537, R627, Table 17-3). -/
def outputsSafe (s : State) : State :=
  let s := dropSources s (s.groups.map (·.1)) (s.stays.map (·.1))
  let s := (List.range 32).foldl pierForced s
  let s := (List.range 16).foldl sgForced s
  dropOpens (valvesCloseAll s)
/-- A mode is entered at the present tick. -/
def enterMode (s : State) (m : Mode) : State :=
  let s := updPp s fun p => { p with mode := m, unsafeAck := false }
  let s := ppFlag (count s 0x48040) 2
  let s := if m = .standby ∨ m = .safeHold then outputsSafe s else s
  let s := if m = .safeHold then closeAllFrame s else s
  let s := pwmModeChange s
  if m = .standby ∧ s.fw.actPending.isSome then { s with fw := { s.fw with actDue := true } } else s

/-! Causes (R632 to R638, R751, Table 17-4). -/

/-- The bit of a cause code in `PP_CAUSE`. -/
def causeBit (code : Nat) : Nat := 2 ^ (code - 1)
def clearCause (s : State) (code : Nat) : State :=
  updPp s fun p => { p with causes := if bit p.causes (code - 1) then p.causes - causeBit code else p.causes }
/-- A filtered cause arrives: SAFE HOLD is entered, or in SAFE HOLD the bit alone is set (R632, R633, R751). -/
def raiseCause (s : State) (code : Nat) : State :=
  let s := updPp s fun p => { p with causes := p.causes ||| causeBit code }
  if s.mode = .safeHold then s
  else
    let s := updPp s fun p => { p with firstCause := code, entryTime := s.now, reqStale := p.req.isSome }
    enterMode (ppFlag (count s 0x48034) 1) .safeHold
/-- A cause that is gone at once after the entry. -/
def raiseOnce (s : State) (code : Nat) : State := clearCause (raiseCause s code) code
/-- The heartbeat of a boundary reaches Parapet (R637, Table 17-4). -/
def ppHeartbeat (s : State) : State :=
  let s := updPp s fun p => { p with hbArmed := true, hbRun := p.hbRun + 1 }
  if bit s.pp.causes 2 && decide (64 ≤ s.pp.hbRun) then clearCause s 3 else s
/-- No heartbeat in time. Parapet's oscillator lies within 3 % of nominal (R630). -/
def heartbeatMiss (s : State) : State :=
  if s.pp.hbArmed && decide (97 * 110 * (s.fld 0x48024 0 4 + 1) * s.tb.len ≤ 10000 * (s.now - s.tb.boundary)) then
    raiseCause (updPp s fun p => { p with hbRun := 0 }) 3
  else s
/-- Rails of Table 17-6 by number. -/
def railIx : Rail → Nat
  | .vcore => 0
  | .vdeck => 1
  | .vio18 => 2
  | .vio33 => 3
  | .pciePhy085 => 4
  | .pciePhy12 => 5
  | .mipiPhy12 => 6
def setRail (s : State) (r : Rail) (ok : Bool) : State :=
  { s with power := { s.power with railOk := s.power.railOk.set (railIx r) ok } }
/-- Supply numbers: VGD_A, VGD_B, VV_A, VV_B. -/
def setField (s : State) (r : FieldRail) (mv : Nat) : State :=
  let p := s.power
  let p := match r with
    | .vgdA => { p with vgdMv := p.vgdMv.set 0 mv }
    | .vgdB => { p with vgdMv := p.vgdMv.set 1 mv }
    | .vvA => { p with vvMv := p.vvMv.set 0 mv }
    | .vvB => { p with vvMv := p.vvMv.set 1 mv }
  { s with power := p }

/-! Mode requests (R621 to R625, R751). -/

/-- A request's outcome is written (R621, R624). -/
def modeResult (s : State) (res checks : Nat) : State :=
  let s := updPp s fun p => { p with req := none, reqStale := false, resDone := true, result := res, checks := checks }
  if 2 ≤ res then ppFlag (count s 0x48038) 4 else s
/-- A write of `PP_MODE_REQ` with TARGET = 3 (Table 17-1, Table 17-4): the cause acts at once, whether or not a request waits for its
boundary; with none waiting its result is OK, or SAME in SAFE HOLD (R623). -/
def safeHoldRequest (s : State) : State :=
  let u := raiseOnce s 8
  if s.pp.req.isSome then u else modeResult u (if s.mode = .safeHold then 1 else 0) 0
/-- A write of `PP_MODE_REQ`. -/
def modeRequest (s : State) (w : Nat) : State :=
  if !s.answers then s
  else if bits w 0 2 = 3 then safeHoldRequest s
  else if s.pp.req.isSome then ppFlag s 0x40
  else updPp s fun p => { p with req := some (bits w 0 2, s.now), reqStale := false, resDone := false }
/-- The modes a request can name. -/
def modeOf (t : Nat) : Mode := if t = 0 then .standby else if t = 1 then .commission else .run
/-- An enabled serial feedback channel fails the serial timing check (R391). -/
def State.serialBad (s : State) (n : Nat) : Bool := s.bitAt (fbKey n 0) 0 && !s.serOk n (s.rd (fbKey n 0))
/-- The RUN entry checks (Table 17-2). -/
def State.runChecks (s : State) : Nat :=
  b2n (s.bitAt 0x40000 0 && !s.ringFits) + 2 * b2n (!s.satMinsFit) + 4 * b2n ((List.range 40).any s.serialBad) + 8 * b2n s.haltActive
/-- The blocks set their own flags for the conditions of Table 17-2 (R370, R371, R391, R579). -/
def checkFlags (s : State) (c : Nat) : State :=
  let s := flagIf s (bit c 0 || bit c 1) kTr 4
  let s := (List.range 40).foldl (fun s n => flagIf s (bit c 2 && s.serialBad n) (fbKey n 0x44) 0x100) s
  flagIf s (bit c 3) 0x22204 1
/-- MODE_REQUEST_EVAL (Table 17-1). -/
def modeEval (s : State) : State :=
  match s.pp.req with
  | none => s
  | some (t, w) =>
    let m := modeOf t
    if s.tb.boundary < w + 64 then s
    else if s.pp.reqStale then modeResult s 3 0
    else if m = s.mode then modeResult s 1 0
    else if s.mode = .safeHold ∧ m = .run then modeResult s 4 0
    else if s.pp.causes ≠ 0 ∧ (s.mode = .safeHold ∨ (m ≠ .standby ∧ s.mode ≠ .run)) then modeResult s 3 0
    else if m = .run ∧ s.runChecks ≠ 0 then modeResult (checkFlags s s.runChecks) 2 s.runChecks
    else modeResult (enterMode s m) 0 0

/-! Sensors, the scrubber. -/

/-- Parapet reads the sensors (Table 17-7, `AGE_TJ_MAX`). -/
def sensorRead (s : State) (sp dk fa fb : Int) : State :=
  let s := updPp s fun p => { p with tSpan := sp, tDeck := dk, tFootA := fa, tFootB := fb }
  let s := { s with life := { s.life with tjMax := some (match s.life.tjMax with
    | some x => max x sp
    | none => sp) } }
  if 152 ≤ sp then raiseCause s 2 else if sp < 142 then clearCause s 2 else s
/-- An uncorrectable error in the device's own pages 0 to 127 is reported to Parapet (R254). -/
def deckDevice (s : State) (ue : Bool) (page : Nat) : State :=
  if ue ∧ page < 128 then raiseOnce (flag s kDeck 4) 6 else s
/-- The scrubber reads the next word: 8,192 words a page, 3,072 pages (R253 to R256). -/
def scrubRead (s : State) (e : Ecc) : State :=
  let page := s.scrub / 8192
  let s := deckEcc s true e page (s.scrub % 8192)
  let s := deckDevice s (e == .uncorrectable) page
  if s.scrub + 1 < 8192 * 3072 then { s with scrub := s.scrub + 1 }
  else count { s with scrub := 0 } 0x4C018

/-! The commands. -/

def execModeRequest (t : Nat) (value : Word) (s : State) : Host.Outcome State Fault Refusal :=
  act s fun s => modeRequest (advance s t) value.toNat
def execModeRequestEval (s : State) : Host.Outcome State Fault Refusal := act s modeEval
def execSoftwareSafeHold (t : Nat) (s : State) : Host.Outcome State Fault Refusal :=
  act s fun s => modeRequest (advance s t) 3
def execSafeNLow (t : Nat) (s : State) : Host.Outcome State Fault Refusal := act s fun s => raiseCause (advance s t) 1
def execSafeNGone (t : Nat) (s : State) : Host.Outcome State Fault Refusal := act s fun s => clearCause (advance s t) 1
def execHeartbeatMiss (t : Nat) (s : State) : Host.Outcome State Fault Refusal := act s fun s => heartbeatMiss (advance s t)
/-- CLOCK_FAULT (R638): the PLL holds its control value; device time goes on. -/
def execClockFault (t : Nat) (cause : ClockCause) (s : State) : Host.Outcome State Fault Refusal :=
  act s fun s => match cause with
    | .refclk => raiseCause (advance s t) 4
    | .pllLock => raiseCause (advance s t) 4
def execClockRestored (t : Nat) (s : State) : Host.Outcome State Fault Refusal := act s fun s => clearCause (advance s t) 4
def execSupplyFault (t : Nat) (rail : Rail) (s : State) : Host.Outcome State Fault Refusal :=
  act s fun s => raiseCause (setRail (advance s t) rail false) 5
def execSupplyRestored (t : Nat) (s : State) : Host.Outcome State Fault Refusal :=
  act s fun s =>
    let s := advance s t
    clearCause { s with power := { s.power with railOk := List.replicate 7 true } } 5
def execParapetSensorRead (t : Nat) (spanDie deck footA footB : Int) (s : State) : Host.Outcome State Fault Refusal :=
  act s fun s => sensorRead (advance s t) spanDie deck footA footB
/-- PP_UNSAFE_ACK (R642). -/
def execPpUnsafeAck (t : Nat) (value : Word) (s : State) : Host.Outcome State Fault Refusal :=
  act s fun s =>
    let s := advance s t
    if !s.answers then s
    else if value = 0x6A3C19E5#32 ∧ s.mode = .commission then updPp s fun p => { p with unsafeAck := true }
    else ppFlag s 0x10
/-- FIELD_SUPPLY_CHANGE (R649): field supplies move at any time, reset or not. -/
def execFieldSupplyChange (t : Nat) (rail : FieldRail) (mv : Nat) (s : State) : Host.Outcome State Fault Refusal :=
  .next (setField (if s.power.porstHigh then advance s t else s) rail mv)
/-- LOGIC_SUPPLY_CHANGE (R631, R652). -/
def execLogicSupplyChange (t : Nat) (rail : Rail) (inWindow : Bool) (s : State) : Host.Outcome State Fault Refusal :=
  .next (setRail (if s.power.porstHigh then advance s t else s) rail inWindow)
def execDeckScrubRead (t : Nat) (ecc : Ecc) (s : State) : Host.Outcome State Fault Refusal :=
  act s fun s => scrubRead (advance s t) ecc
/-- FOOTING_OVERTEMP (R338, R568): the groups of the footing trip and its valves fault. -/
def execFootingOvertemp (t : Nat) (f : Fin 2) (tempC : Int) (s : State) : Host.Outcome State Fault Refusal :=
  act s fun s =>
    let s := doFootOt (advance s t) f tempC
    if 160 ≤ tempC then valveFault s (32 * f.val) .overtemp else s

end Sys2Proof.Machine
end

