-- ==== Sys2Proof/Machine/Boot.lean ====
section
/-!
DEFINITION. The boot flash, the boot ROM, the management firmware, its mailbox and its updates (chapter 18, R653 to R685).
-/
namespace Sys2Proof.Machine

def setFw (s : State) (f : Firmware) : State := { s with fw := f }
def updFw (s : State) (f : Firmware → Firmware) : State := { s with fw := f s.fw }
def fwuFlag (s : State) (mask : Nat) : State := flag s kFwu mask

/-! Boot control and slots (R654 to R658). -/

/-- The governing copy (R656). -/
def Firmware.ctl (f : Firmware) : BootCtl :=
  if f.ctl0.valid && f.ctl1.valid then (if f.ctl1.seq < f.ctl0.seq then f.ctl0 else f.ctl1)
  else if f.ctl0.valid then f.ctl0
  else if f.ctl1.valid then f.ctl1
  else { valid := false, seq := 0, active := 0, stA := .new, stB := .new }
/-- Boot control is written: the other copy takes the higher SEQ. -/
def Firmware.writeCtl (f : Firmware) (g : BootCtl → BootCtl) : Firmware :=
  let c := f.ctl
  let n := { g c with valid := true, seq := c.seq + 1 }
  if f.ctl0.valid && (!f.ctl1.valid || decide (f.ctl1.seq < f.ctl0.seq)) then { f with ctl1 := n } else { f with ctl0 := n }
def BootCtl.st (c : BootCtl) (slot : Nat) : SlotState := if slot = 0 then c.stA else c.stB
def BootCtl.setSt (c : BootCtl) (slot : Nat) (x : SlotState) : BootCtl :=
  if slot = 0 then { c with stA := x } else { c with stB := x }
def Firmware.setSt (f : Firmware) (slot : Nat) (x : SlotState) : Firmware := f.writeCtl fun c => c.setSt slot x
def Firmware.img (f : Firmware) (slot : Nat) : Option Image := if slot = 0 then f.imgA else f.imgB
def Firmware.setImg (f : Firmware) (slot : Nat) (i : Option Image) : Firmware :=
  if slot = 0 then { f with imgA := i } else { f with imgB := i }
/-- The conditions of R655 an image fails, as the bits of `FWU_RESULT.CHECK`. The device is a B0. -/
def imageFailures (i : Image) (svnMin : Nat) : Nat :=
  b2n (!i.magicOk) + 2 * b2n (decide (i.bodyLen < 4) || decide (2096640 < i.bodyLen) || i.bodyLen % 4 != 0) +
    4 * b2n (!bit i.steppings 0) + 8 * b2n (decide (i.svn < svnMin)) + 16 * b2n (!i.sigOk)
def Firmware.valid (f : Firmware) (slot : Nat) : Bool :=
  match f.img slot with
  | some i => imageFailures i f.svnMin == 0
  | none => false
/-- The ROM tries a slot, and the other one when it may not boot it (R657, R658). -/
def Firmware.trySlot (f : Firmware) (slot tried : Nat) : Firmware :=
  let skip (f : Firmware) (o : Nat) : Firmware :=
    match f.ctl.st o with
    | .good => { f with phase := .verifying o 1 }
    | .new => { f.setSt o .trial with phase := .verifying o 1 }
    | .trial => { f.setSt o .bad with phase := .noSlot }
    | _ => { f with phase := .noSlot }
  match f.ctl.st slot with
  | .good => { f with phase := .verifying slot tried }
  | .new => { f.setSt slot .trial with phase := .verifying slot tried }
  | .trial => let f := f.setSt slot .bad; if tried = 0 then skip f (1 - slot) else { f with phase := .noSlot }
  | _ => if tried = 0 then skip f (1 - slot) else { f with phase := .noSlot }
/-- BOOT_IMAGE_SELECT. -/
def bootSelect (s : State) : State :=
  if s.fw.phase = .reading then setFw s (s.fw.trySlot s.fw.ctl.active 0) else s
/-- IMAGE_VERIFIED: the slot read is started, or written BAD and the other tried. -/
def imageVerified (s : State) : State :=
  match s.fw.phase with
  | .verifying slot tried =>
    let f := s.fw
    if f.valid slot then
      setFw s { (if f.ctl.active = slot then f else f.writeCtl fun c => { c with active := slot }) with phase := .starting slot }
    else
      let f := f.setSt slot .bad
      setFw s (if tried = 0 then f.trySlot (1 - slot) 1 else { f with phase := .noSlot })
  | _ => s
/-- FIRMWARE_READY (R660, R662, R684). -/
def firmwareReady (s : State) : State :=
  match s.fw.phase with
  | .starting slot =>
    let i := (s.fw.img slot).getD { magicOk := false, bodyLen := 0, svn := 0, version := 0, steppings := 0, sigOk := false }
    clearCause (updFw s fun f =>
      { f with
        phase := .running
        slot := slot
        ready := true
        everReady := true
        inRecovery := false
        trial := f.ctl.st slot == .trial
        version := i.version
        svn := i.svn
        restartAt := none }) 7
  | _ => s
/-- RECOVERY (R659). -/
def enterRecovery (s : State) : State :=
  if s.fw.phase = .noSlot then updFw s fun f => { f with phase := .recovery, inRecovery := true, ready := false, trial := false, restartAt := none }
  else s

/-! The mailbox (R660, R675 to R683, R685). -/

/-- Whether the cores restart (R680). -/
def State.coresRestart (s : State) : Bool := s.fw.phase != .running && s.fw.phase != .recovery
/-- A command ends with its result. -/
def fwuEnd (s : State) (cmd res check : Nat) : State :=
  fwuFlag (updFw s fun f => { f with busy := none, resDone := true, result := res, resCmd := cmd, check := check }) 1
/-- The slot STAGE fills: the one that does not run. -/
def Firmware.target (f : Firmware) : Nat := 1 - (if f.inRecovery then f.ctl.active else f.slot)
/-- STAGE starts (R675 to R677). -/
def stage (s : State) : State :=
  let len := s.fld 0x80014 0 22
  let f := s.fw
  if f.trial then fwuEnd s 1 9 0
  else if len < 516 ∨ 2097152 < len then fwuEnd s 1 2 0
  else if !f.inRecovery && !s.bEn 0 0 then fwuEnd s 1 6 0
  else
    let tgt := f.target
    let s := setFw s { (f.setSt tgt .empty).setImg tgt none with busy := some 1, resDone := false, stageTarget := tgt }
    if f.inRecovery then s
    else
      let j := newJob s (noDesc 0 2) .active s.tb.spanIx
      let j := { j with kind := .stage, shedAt := j.adm + 2 ^ 48, slices := List.replicate (ceilDiv len 1024) [1, 0, 0, 0, 0, 0, 0] }
      keep { s with nextId := s.nextId + 1 } j
/-- The reads of STAGE still to come. -/
def State.stageReads (s : State) : Bool := s.jobs.any fun j => j.kind == .stage && !j.slices.isEmpty
/-- STAGE ends with a result. -/
def stageEnd (s : State) (res check : Nat) : State :=
  fwuEnd { s with jobs := s.jobs.filter (·.kind != .stage) } 1 res check
/-- STAGE_DONE. -/
def stageDone (s : State) (r : StageOutcome) : State :=
  if s.fw.busy ≠ some 1 then s
  else
    match r with
    | .readFailed => stageEnd s 3 0
    | .flashFailed => stageEnd s 5 0
    | .copied img =>
      if s.stageReads then s
      else
        let f := s.fw.setImg s.fw.stageTarget (some img)
        let c := imageFailures img f.svnMin
        if c = 0 then stageEnd (setFw s (f.setSt s.fw.stageTarget .new)) 0 0 else stageEnd (setFw s f) 4 c
/-- The slot ACTIVATE takes: a NEW one that does not run. -/
def Firmware.newSlot (f : Firmware) : Option Nat :=
  if f.ctl.st f.target = .new then some f.target
  else if f.inRecovery ∧ f.ctl.st (1 - f.target) = .new then some (1 - f.target)
  else none
/-- A new image is activated: its slot becomes ACTIVE and TRIAL and the cores restart from it (R679). -/
def activateSlot (s : State) (slot : Nat) : State :=
  updFw s fun f =>
    { f.writeCtl (fun c => { c.setSt slot .trial with active := slot }) with
      phase := .verifying slot 0
      ready := false
      actPending := none
      actDue := false
      restartAt := some s.now }
/-- ACTIVATE (R660, R678). -/
def activate (s : State) : State :=
  match s.fw.newSlot with
  | none => fwuEnd s 2 7 0
  | some slot =>
    if s.fw.inRecovery then activateSlot (fwuEnd s 2 0 0) slot
    else fwuEnd (updFw s fun f => { f with actPending := some s.now, actDue := false }) 2 0 0
/-- CONFIRM (R682). -/
def confirm (s : State) : State :=
  if s.fw.trial && !s.fw.inRecovery then fwuEnd (updFw s fun f => { f.setSt f.slot .good with trial := false }) 4 0 0 else fwuEnd s 4 8 0
/-- SVN_COMMIT (R683). -/
def svnCommit (s : State) : State :=
  if !s.fw.inRecovery && s.fw.ctl.st s.fw.slot == .good then
    fwuEnd (updFw s fun f => { f with svnMin := max f.svnMin f.svn }) 5 0 0
  else fwuEnd s 5 8 0
/-- A write of `FWU_CMD` (R680, R685). -/
def fwuCmd (s : State) (cmd : Nat) : State :=
  if s.fw.busy.isSome then fwuFlag s 8
  else if cmd = 0 ∨ 5 < cmd then s
  else if s.coresRestart then fwuEnd s cmd 1 0
  else match cmd with
    | 1 => stage s
    | 2 => activate s
    | 3 => fwuEnd (if s.fw.inRecovery then s else updFw s fun f => { f with actPending := none, actDue := false }) 3 0 0
    | 4 => confirm s
    | _ => svnCommit s

/-- A link that goes down ends STAGE (R676). -/
def stageLost (s : State) : State := if s.fw.busy = some 1 then stageEnd s 3 0 else s

/-! Restarts (R679, R681, R684). -/

/-- FIRMWARE_ACTIVATION: at the entry to STANDBY, or at a boundary 64 ticks after ACTIVATE in STANDBY. -/
def firmwareActivation (s : State) : State :=
  match s.fw.actPending, s.fw.newSlot with
  | some w, some slot =>
    if s.fw.actDue || (s.mode == .standby && decide (w + 64 ≤ s.tb.boundary)) then activateSlot s slot else s
  | _, _ => s
/-- The trial slot is written BAD and the cores restart from the other slot, which becomes ACTIVE. -/
def fallBack (s : State) (slot : Nat) : State :=
  updFw s fun f =>
    { ((f.setSt slot .bad).writeCtl fun c => { c with active := 1 - slot }).trySlot (1 - slot) 1 with
      ready := false
      trial := false
      restartAt := none }
/-- TRIAL_READY_TIMEOUT (R681). -/
def trialTimeout (s : State) : State :=
  match s.fw.restartAt with
  | some a =>
    let slot := s.fw.ctl.active
    if s.fw.ready || decide (s.now < a + 40000000) || s.fw.ctl.st slot != .trial then s
    else fwuFlag (count (fallBack s slot) 0x80028) 2
  | none => s
/-- LOCKSTEP (R684). -/
def lockstep (s : State) : State :=
  let s := raiseCause s 7
  let restart (s : State) : State := fwuFlag (count s 0x80028) 4
  let again (s : State) (slot : Nat) : State :=
    restart (if s.fw.ctl.st slot = .trial then fallBack s slot
      else updFw s fun f => { f with phase := .starting slot, ready := false, restartAt := none })
  match s.fw.phase with
  | .running => again s s.fw.slot
  | .starting slot => again s slot
  | _ => s

/-! The commands. -/

def execLinkDown (t : Nat) (s : State) : Host.Outcome State Fault Refusal :=
  act s fun s => stageLost (doLinkDown (advance s t))
def execPerstNAssert (t : Nat) (s : State) : Host.Outcome State Fault Refusal :=
  act s fun s => stageLost (doPerstLow (advance s t))
def execBootImageSelect (t : Nat) (s : State) : Host.Outcome State Fault Refusal := act s fun s => bootSelect (advance s t)
def execImageVerified (t : Nat) (s : State) : Host.Outcome State Fault Refusal := act s fun s => imageVerified (advance s t)
def execFirmwareReady (t : Nat) (s : State) : Host.Outcome State Fault Refusal := act s fun s => firmwareReady (advance s t)
def execRecovery (t : Nat) (s : State) : Host.Outcome State Fault Refusal := act s fun s => enterRecovery (advance s t)
def execStage (t : Nat) (s : State) : Host.Outcome State Fault Refusal := act s fun s => fwuCmd (advance s t) 1
def execStageDone (t : Nat) (r : StageOutcome) (s : State) : Host.Outcome State Fault Refusal :=
  act s fun s => stageDone (advance s t) r
def execActivate (t : Nat) (s : State) : Host.Outcome State Fault Refusal := act s fun s => fwuCmd (advance s t) 2
def execCancel (t : Nat) (s : State) : Host.Outcome State Fault Refusal := act s fun s => fwuCmd (advance s t) 3
def execConfirm (t : Nat) (s : State) : Host.Outcome State Fault Refusal := act s fun s => fwuCmd (advance s t) 4
def execSvnCommit (t : Nat) (s : State) : Host.Outcome State Fault Refusal := act s fun s => fwuCmd (advance s t) 5
def execFirmwareActivation (t : Nat) (s : State) : Host.Outcome State Fault Refusal :=
  act s fun s => firmwareActivation (advance s t)
def execTrialReadyTimeout (t : Nat) (s : State) : Host.Outcome State Fault Refusal := act s fun s => trialTimeout (advance s t)
def execLockstep (t : Nat) (s : State) : Host.Outcome State Fault Refusal := act s fun s => lockstep (advance s t)

end Sys2Proof.Machine
end

