-- ==== Sys2Proof/Machine/Life.lean ====
section
/-!
DEFINITION. The adaptive core voltage and the aging monitors (chapter 20, R729 to R733, R745 to R748).
-/
namespace Sys2Proof.Machine

def updLife (s : State) (f : Life → Life) : State := { s with life := f s.life }
def ageFlag (s : State) (mask : Nat) : State := flag s kAge mask

/-! The core voltage. -/

/-- The regulator acknowledged a transaction, or did not (R732). -/
def avsAck (s : State) (ack : Bool) : State :=
  if ack then updLife s fun l => { l with avsLink := true, nackRun := 0 }
  else
    let s := updLife s fun l => { l with nackRun := l.nackRun + 1 }
    if s.life.nackRun = 3 then ageFlag (updLife s fun l => { l with avsLink := false }) 4 else s
/-- A new target is commanded; it counts, and is in force once acknowledged (R730). -/
def avsCommand (s : State) (mv : Nat) (ack : Bool) : State :=
  updLife (count s 0x120) fun l => { l with targetMv := if ack then mv else l.targetMv }
/-- AVS_EVALUATION (R730, R733): nothing while AVS is off or the link is down. -/
def avsEvaluate (s : State) (m : AvsIn) : State :=
  if !s.bitAt 0x100 0 || decide (3 ≤ s.life.nackRun) then s
  else
    let want := s.fld 0x100 8 8
    let short := decide (m.slack < want)
    let mv := s.life.targetMv
    let s := avsAck (updLife s fun l =>
      { l with
        slack := m.slack
        senseMv := m.senseMv
        okRun := if want + 4 ≤ m.slack then l.okRun + 1 else 0
        lowRun := if short && mv == 820 then l.lowRun + 1 else 0
        marginLow := l.marginLow && short }) m.ack
    if short then
      if mv < 820 then avsCommand s (min 820 (mv + 5)) m.ack
      else if s.life.lowRun = 16 then ageFlag (updLife s fun l => { l with marginLow := true }) 2
      else s
    else if s.life.okRun = 64 then
      let s := updLife s fun l => { l with okRun := 0 }
      if 680 < mv then avsCommand s (max 680 (mv - 5)) m.ack else s
    else s
/-- AVS_RETRY_READ (R732). -/
def avsRetry (s : State) (m : AvsIn) : State :=
  if s.life.nackRun < 3 then s
  else if m.ack then updLife s fun l => { l with avsLink := true, nackRun := 0, senseMv := m.senseMv }
  else s
/-- A write of `AVS_CFG` (R628, R731, R748). -/
def writeAvsCfg (s : State) (w : Nat) : State :=
  if s.mode = .run then s
  else if bits w 8 8 < 4 ∨ 20 < bits w 8 8 then ageFlag s 8
  else
    let off := s.bitAt 0x100 0 && !bit w 0
    let s := s.wr 0x100 (bits w 0 1 + 256 * bits w 8 8)
    if off then avsCommand (updLife s fun l => { l with okRun := 0, lowRun := 0 }) 750 true else s

/-! Aging. -/

/-- The equivalent hours an hour at a reading counts for. -/
def ageFactor (c : Int) : Rat :=
  let k : Rat := (c : Rat) + mkRat 27315 100
  if k ≤ 0 then 0 else ratExp (mkRat 81235 10 * (1 / mkRat 39815 100 - 1 / k))
/-- The stress of a span is added (R746). -/
def ageSpan (s : State) (len : Nat) : State :=
  let add := (ageFactor s.pp.tSpan * mkRat (len * 2 ^ 72) (400000000 * 3600)).floor.toNat
  updLife s fun l =>
    { l with ageHours := satInc l.ageHours ((l.ageAcc + add) / 2 ^ 64), ageAcc := (l.ageAcc + add) % 2 ^ 64 }
/-- AGE_MEASUREMENT (R747). -/
def ageMeasure (s : State) (slow : List Nat) : State :=
  let d := slow.foldl max 0
  let s := updLife s fun l => { l with degr := d }
  if s.fld 0x10C 0 16 ≤ d then ageFlag (updLife s fun l => { l with eol := true }) 1 else s

/-! The commands. -/

def execAvsEvaluation (t : Nat) (m : AvsIn) (s : State) : Host.Outcome State Fault Refusal :=
  act s fun s => avsEvaluate (advance s t) m
def execAvsRetryRead (t : Nat) (m : AvsIn) (s : State) : Host.Outcome State Fault Refusal :=
  act s fun s => avsRetry (advance s t) m
/-- AVS_DISABLE: a write of `AVS_CFG` with EN 0. -/
def execAvsDisable (t : Nat) (s : State) : Host.Outcome State Fault Refusal :=
  act s fun s => let s := advance s t; writeAvsCfg s (s.rd 0x100 / 2 * 2)
def execAgeMeasurement (t : Nat) (slowdowns : List Nat) (s : State) : Host.Outcome State Fault Refusal :=
  act s fun s => ageMeasure (advance s t) slowdowns

end Sys2Proof.Machine
end

