-- ==== Sys2Proof/Machine/Fetch.lean ====
section
/-!
DEFINITION. Submission and completion rings: doorbells, fetching descriptors and their checks, apply spans and fences, ring
enables, and interrupts (chapter 04).
-/
namespace Sys2Proof.Machine

/-! The checks of a descriptor (R139, R148). -/

/-- Opcodes 0x00 to 0x1F. -/
def checkOp01 (s : State) (d : Desc) (op : Nat) : Verdict :=
  match op with
  | 0x00 | 0x01 | 0x02 => plainCheck s d
  | 0x03 => tenantReleaseCheck s d
  | 0x04 => publishCheck s d
  | 0x05 => loadAllCheck s d
  | 0x06 => holdOtherCheck s d
  | 0x10 => pierEnableCheck s d
  | 0x11 => pierDisableCheck s d
  | 0x12 => pierAlignCheck s d
  | 0x13 => pierMoveCheck s d
  | 0x14 | 0x15 => pierJogCheck s d
  | 0x16 => pierStopCheck s d
  | 0x17 => pierCoefCheck s d
  | 0x18 => pierFilterCheck s d
  | 0x19 => pierVoltCheck s d
  | 0x1A => pierClearCheck s d
  | _ => some (0x14, 0)
/-- Opcodes 0x20 to 0x3F. -/
def checkOp23 (s : State) (d : Desc) (op : Nat) : Verdict :=
  match op with
  | 0x20 => profileMoveCheck s d
  | 0x21 => axisStopCheck s d
  | 0x22 => groupOpenCheck s d
  | 0x23 => groupCloseCheck s d
  | 0x24 => segAppendCheck s d
  | 0x25 => groupCtrlCheck s d
  | 0x26 => stayOpenCheck s d
  | 0x27 => stayEngageCheck s d
  | 0x28 => stayReleaseCheck s d
  | 0x29 => stayCloseCheck s d
  | 0x2A => camLoadCheck s d
  | 0x2B => latchArmCheck s d
  | 0x2C => latchDisarmCheck s d
  | 0x2D => linkInfoCheck s d
  | 0x30 => sgEnableCheck s d
  | 0x31 => sgDisableCheck s d
  | 0x32 => sgMoveCheck s d
  | 0x33 => sgJogCheck s d
  | 0x34 => sgStopCheck s d
  | 0x35 => sgSetPosCheck s d
  | 0x36 => sgRateCheck s d
  | 0x37 => sgCoilCheck s d
  | 0x38 => sgClearCheck s d
  | _ => some (0x14, 0)
/-- Opcodes 0x40 to 0x6F. -/
def checkOp46 (s : State) (d : Desc) (op : Nat) : Verdict :=
  match op with
  | 0x40 => pwmRawCheck s d
  | 0x41 => gateMaskCheck s d
  | 0x42 => haltCheck true s d
  | 0x43 => haltCheck false s d
  | 0x44 => auxDutyCheck s d
  | 0x45 => blockDutyCheck s d
  | 0x46 => groupInfoCheck s d
  | 0x50 => camTriggerCheck s d
  | 0x51 => frameReadCheck s d
  | 0x58 => visStartCheck s d
  | 0x59 | 0x5B => visPlainCheck s d
  | 0x5A => visClassLoadCheck s d
  | 0x5C => visParamCheck s d
  | 0x60 => ejectStartCheck s d
  | 0x61 => ejectStopCheck s d
  | 0x62 => ejectTrimCheck s d
  | 0x63 => valveTestCheck s d
  | 0x64 => ejectAtCheck s d
  | 0x65 => valveLatSetCheck s d
  | 0x66 => valveSigCheck s d
  | 0x67 => valveClearCheck s d
  | _ => some (0x14, 0)
/-- Opcodes 0x70 to 0xAF. -/
def checkOp7A (s : State) (d : Desc) (op : Nat) : Verdict :=
  match op with
  | 0x70 => trReportCheck s d
  | 0x71 => trNodeCheck (pm 0 1 ||| pm 2 2) false s d
  | 0x72 => trNodeCheck (pm 0 1 ||| pm 2 6) true s d
  | 0x73 => trRelinkCheck s d
  | 0x80 | 0x81 => canTxCheck s d
  | 0x82 => canFilterCheck s d
  | 0x83 => canTapCheck s d
  | 0x84 => canCtrlCheck s d
  | 0x85 => canConfigCheck s d
  | 0x86 => canInfoCheck s d
  | 0x90 => queueReadCheck s d
  | 0x91 | 0x92 | 0x93 => queueOpCheck true s d
  | 0x94 => queueOpCheck false s d
  | 0xA0 => fbSetPosCheck s d
  | 0xA1 => fbStreamCheck s d
  | 0xA2 => fbEssCheck (pm 0 2) false s d
  | 0xA3 => fbEssCheck (pm 0 2 ||| pm 4 4) true s d
  | 0xA4 => emuCheck (pm 0 1 ||| pm 4 8) s d
  | 0xA5 => emuCheck (pm 0 1) s d
  | _ => some (0x14, 0)
/-- The family checks of a descriptor, by its opcode; one that no chapter lists is refused (R139). -/
def descCheck (s : State) (d : Desc) : Verdict :=
  let op := d.op.toNat
  if op < 0x20 then checkOp01 s d op
  else if op < 0x40 then checkOp23 s d op
  else if op < 0x70 then checkOp46 s d op
  else checkOp7A s d op

/-! Fetching (R131 to R134, R140 to R146, R150, R152, R185). -/

/-- A field of a descriptor's bytes. -/
def leAt (bs : List Byte) (a n : Nat) : Nat := leNat ((bs.drop a).take n)
/-- The content of a descriptor (Tables 04-2, 04-3). -/
def parseDesc (tn : Fin 256) (n : Fin 16) (s2 : Bool) (bs : List Byte) : Desc :=
  let b (i : Nat) : Byte := BitVec.ofNat 8 (leAt bs i 1)
  let par (a n : Nat) : List Byte := (List.range n).map fun i => b (a + i)
  if s2 then
    { tenant := tn, sq := n, s2 := true, op := b 0, flags := b 1, tag := BitVec.ofNat 16 (leAt bs 2 2), cls := b 4,
      hdrRsvd := BitVec.ofNat 64 (leAt bs 5 3 + 2 ^ 24 * leAt bs 14 2 + 2 ^ 40 * leAt bs 22 2)
      deadline := BitVec.ofNat 48 (leAt bs 16 6), applySpan := BitVec.ofNat 48 (leAt bs 8 6),
      cookie := BitVec.ofNat 64 (leAt bs 24 8), params := par 32 32 }
  else
    { tenant := tn, sq := n, s2 := false, op := b 0, flags := b 1, tag := BitVec.ofNat 16 (leAt bs 2 2), cls := b 4,
      hdrRsvd := BitVec.ofNat 64 (leAt bs 5 1), deadline := BitVec.ofNat 48 (leAt bs 6 2),
      applySpan := BitVec.ofNat 48 (leAt bs 8 4), cookie := 0, params := par 12 20 }
def isFence (d : Desc) : Bool := bit d.flags.toNat 0 || d.op == 0x05#8
def isApply (d : Desc) : Bool := bit d.flags.toNat 1
def Job.isHeld (j : Job) : Bool :=
  match j.phase with
  | .held _ => true
  | _ => false
/-- A job from the same ring, fetched since the same ring reset, earlier than a number. -/
def Job.before (j : Job) (d : Desc) (gen id : Nat) : Bool :=
  j.kind == .desc && j.d.tenant == d.tenant && j.d.sq == d.sq && j.gen == gen && decide (j.id < id)
/-- Whether a descriptor waits for its turn in its ring (R150, R152): behind everything when it is fenced, else behind a fence
that waits itself. -/
def State.mustWait (s : State) (d : Desc) (gen id : Nat) : Bool :=
  s.jobs.any fun j => j.before d gen id && (isFence d || j.phase == .fenced || (j.isHeld && isFence j.d))
/-- The format checks of R141 and R146; `adm` is the admission span known at fetch. -/
def spanBad (s : State) (d : Desc) (apply : Option Int) (adm : Int) : Bool :=
  (apply.map fun a => decide ((s.tb.spanIx : Int) + 2 ^ 24 < a)).getD false ||
    (d.s2 && d.deadline != 0 && decide (nameSpan48 s.tb.spanIx d.deadline.toNat < adm))
/-- A fetched descriptor is checked, and then refused, held, or put in its place in the ring. -/
def takeFetched (s : State) (d : Desc) : State :=
  let now : Int := s.tb.spanIx
  let apply : Option Int :=
    if isApply d then some (if d.s2 then nameSpan48 s.tb.spanIx d.applySpan.toNat else nameSpan32 s.tb.spanIx d.applySpan.toNat)
    else none
  let later := (apply.map fun a => decide (now < a)).getD false
  let adm := if later then apply.getD now else now
  let j := newJob s d .admitted adm
  let s := { s with nextId := s.nextId + 1 }
  match (if spanBad s d apply adm then some (0x14, 0) else descCheck s d) with
  | some (st, res) => complete (refuseSide s d) j st res
  | none =>
    if later then keep s { j with phase := .held adm }
    else keep s { j with phase := if s.mustWait d j.gen j.id then .fenced else .admitted }
/-- How many descriptors of a tenant are held (R144), and how many E and B ones are admitted and unfinished (R185). -/
def State.heldCount (s : State) (tn : Nat) : Nat := (s.jobs.filter fun j => j.d.tenant.val == tn && j.isHeld).length
def State.ebCount (s : State) (tn : Nat) : Nat :=
  (s.jobs.filter fun j => j.kind == .desc && j.d.tenant.val == tn && (j.d.clsNo == 1 || j.d.clsNo == 2) && !j.isHeld && j.phase != .fenced).length
/-- Whether a ring has something to fetch. -/
def State.canFetch (s : State) (tn n : Nat) : Bool :=
  let q := s.sq (16 * tn + n)
  (s.tn tn).st == .attached && !(s.tn tn).pathLost && s.link.up && s.sqOn tn n && !q.stopped && q.head != q.tail
/-- DESCRIPTOR_FETCH. -/
def fetchDesc (s : State) (tn : Fin 256) (n : Fin 16) (got : Fetched) : State :=
  let k := 16 * tn.val + n.val
  let c := 16 * tn.val + s.boundCq tn n
  if !s.canFetch tn n then s
  else if !s.cqRoom tn (s.boundCq tn n) then
    if (s.cq c).stall then s else flagRaw (s.updCq c fun x => { x with stall := true }) (cqKey tn (s.boundCq tn n) 0x14) 2
  else
    match got with
    | .error =>
      let s := sqErr (s.updSq k fun q => { q with stopped := true }) tn n 5
      { s with link := { s.link with aerErrors := s.link.aerErrors + 1 } }
    | .data bs =>
      let d := parseDesc tn n (s.bitAt (sqKey tn n 8) 1) bs
      if (isApply d && decide (1024 ≤ s.heldCount tn)) || ((d.clsNo == 1 || d.clsNo == 2) && decide (4096 ≤ s.ebCount tn)) then
        if (s.sq k).stall then s else flagRaw (s.updSq k fun q => { q with stall := true }) (sqKey tn n 0x10) 2
      else
        let s := s.updCq c fun x => { x with reserved := x.reserved + 1, stall := false }
        let s := s.updSq k fun q => { q with head := (q.head + 1) % s.sqSize tn n, stall := false }
        takeFetched s d
/-- A job is admitted in the present span, behind those admitted before: its default deadlines count from it (R145). -/
def admitNow (s : State) (j : Job) : State :=
  keepLast s
    { j with
      phase := .admitted
      adm := s.tb.spanIx
      deadline := if j.d.s2 ∧ j.d.deadline ≠ 0 then j.deadline else deadlineOf s j.d s.tb.spanIx
      shedAt := (s.tb.spanIx : Int) + bits s.ks.cfg2.toNat 0 16 }
/-- APPLY_SPAN_ADMISSION: held descriptors of a span go in the order of SQ number and ring; the tenancy checks are repeated
(R143, R149). -/
def applyAdmit (s : State) (id : Nat) : State :=
  match s.job? id with
  | none => s
  | some j =>
    let due (j : Job) : Bool :=
      match j.phase with
      | .held a => decide (a ≤ s.tb.spanIx)
      | _ => false
    let first := !s.jobs.any fun i =>
      due i && i.d.tenant == j.d.tenant && (decide (i.d.sq.val < j.d.sq.val) || (i.d.sq == j.d.sq && decide (i.id < j.id)))
    if !due j || !first then s
    else
      match descCheck s j.d with
      | some (st, res) => if st = 0x11 ∨ st = 0x13 ∨ st = 0x15 then complete s j st res else admitNow s j
      | none => if s.mustWait j.d j.gen j.id then updJob s id fun j => { j with phase := .fenced } else admitNow s j
/-- FENCE_ADMISSION (R152). -/
def fenceAdmit (s : State) (id : Nat) : State :=
  match s.job? id with
  | none => s
  | some j => if j.phase = .fenced ∧ s.mustWait j.d j.gen j.id = false then admitNow s j else s

/-! Doorbells (R127 to R130, R162). -/

def dbIgnored (s : State) (tn : Nat) : State := count s (tkey tn 0x40)
/-- A tail doorbell (R129, R130). -/
def sqTail (s : State) (tn n v : Nat) : State :=
  let k := 16 * tn + n
  let q := s.sq k
  let size := s.sqSize tn n
  if (s.tn tn).st != .attached || !s.sqOn tn n then dbIgnored s tn
  else if v < size ∧ (v + size - q.tail) % size ≤ (q.head + size - 1 - q.tail + size) % size then s.setSq k { q with tail := v }
  else sqErr (s.setSq k { q with stopped := true }) tn n 4
/-- A head doorbell (R129, R162). -/
def cqHead (s : State) (tn n v : Nat) : State :=
  let k := 16 * tn + n
  let c := s.cq k
  let size := s.cqSize tn n
  if (s.tn tn).st != .attached || !s.cqOn tn n then dbIgnored s tn
  else if v < size ∧ (v + size - c.head) % size ≤ (c.tail + size - c.head) % size then s.setCq k { c with head := v }
  else cqErr s tn n 7
/-- The load-all doorbell (R24, R28, R129). -/
def loadAllBell (s : State) (tn : Nat) : State :=
  if (s.tn tn).st != .attached then dbIgnored s tn
  else if (s.tn tn).pubExpert then takeLoadAll s tn
  else count s (tkey tn 0x50)
/-- A write to a function's doorbell page: `width` bits at an offset (R127, R128). -/
def doorbell (s : State) (tn off width v : Nat) : State :=
  if !s.fnExists tn || !s.answers then s
  else if (width != 32 && width != 64) || off % (width / 8) != 0 then dbIgnored s tn
  else if off < 0x80 ∧ off % 8 = 0 then sqTail s tn (off / 8) (v % 2 ^ 16)
  else if 0x100 ≤ off ∧ off < 0x180 ∧ off % 8 = 0 then cqHead s tn (off / 8 - 32) (v % 2 ^ 16)
  else if off = 0x200 then loadAllBell s tn
  else dbIgnored s tn

/-! Ring registers (R118 to R124, R163). -/

/-- A ring's BASE or configuration may not change while it is enabled (R119). -/
def sqMoved (s : State) (k : Nat) : State := s.updSq k fun q => { q with head := 0, tail := 0 }
def cqMoved (s : State) (k : Nat) : State := s.updCq k fun c => { c with head := 0, tail := 0, phase := true }
/-- A write of `SQ_BASE`, half `h` (0 low, 4 high). -/
def writeSqBase (s : State) (tn n h w : Nat) : State :=
  let key := sqKey tn n h
  let w := if h = 0 then w / 4096 * 4096 else w
  if w = s.rd key then s
  else if s.sqOn tn n then sqErr s tn n 3
  else sqMoved (s.wr key w) (16 * tn + n)
/-- A write of `CQ_BASE`. -/
def writeCqBase (s : State) (tn n h w : Nat) : State :=
  let key := cqKey tn n h
  let w := if h = 0 then w / 4096 * 4096 else w
  if w = s.rd key then s
  else if s.cqOn tn n then cqErr s tn n 3
  else cqMoved (s.wr key w) (16 * tn + n)
/-- A write of `SQ_CFG` (R119, R121, R123). -/
def writeSqCfg (s : State) (tn n w : Nat) : State :=
  let key := sqKey tn n 8
  let k := 16 * tn + n
  let old := s.rd key
  let w := w % 8 + 16 * bits w 4 5 + 2 ^ 16 * bits w 16 4
  let held := bits w 1 1 == bits old 1 1 && bits w 4 5 == bits old 4 5 && bits w 16 4 == bits old 16 4
  if bit old 0 && !held then sqErr s tn n 3
  else if bit w 0 && !bit old 0 then
    if bits w 4 5 < 6 ∨ 16 < bits w 4 5 then sqErr s tn n 1
    else if !s.cqOn tn (bits w 16 4) then sqErr s tn n 2
    else
      let s := if bits w 4 5 = bits old 4 5 then s else sqMoved s k
      (s.wr key w).updSq k fun q => { q with stopped := false }
  else
    let s := if bits w 4 5 = bits old 4 5 then s else sqMoved s k
    s.wr key w
/-- A write of `CQ_CFG` (R119, R122, R124, R158, R163). -/
def writeCqCfg (s : State) (tn n w : Nat) : State :=
  let key := cqKey tn n 8
  let k := 16 * tn + n
  let old := s.rd key
  let w := w % 8 + 16 * bits w 4 5 + 2 ^ 16 * bits w 16 7
  let held := bits w 1 1 == bits old 1 1 && bits w 4 5 == bits old 4 5
  let badSize := decide (bits w 4 5 < 6) || decide (16 < bits w 4 5)
  let used := (List.range 16).any fun i => s.sqOn tn i && s.boundCq tn i == n
  if bit old 0 && !held then cqErr s tn n 3
  else if bit w 0 && !bit old 0 && badSize then cqErr s tn n 1
  else if msixSize tn ≤ bits w 16 7 then cqErr s tn n 6
  else if bit old 0 && !bit w 0 && used then cqErr s tn n 8
  else
    let s := if bits w 4 5 != bits old 4 5 || (bit w 0 && !bit old 0) then cqMoved s k else s
    let s := if bit w 2 && !bit old 2 then s.updCq k fun c => { c with unsig := 0, oldest := none } else s
    let s := if bit old 0 && !bit w 0 then
        { s with jobs := mapIf (fun j => j.kind == .desc && j.d.tenant.val == tn && j.cq == n) (fun j => { j with lost := true }) s.jobs }
      else s
    s.wr key w
/-- CQ_AGE_EXPIRY (R163). -/
def cqAge (s : State) (tn n : Nat) : State :=
  let a := s.fld (cqKey tn n 0xC) 8 8
  match (s.cq (16 * tn + n)).oldest with
  | some o => if a ≠ 0 ∧ o + a ≤ s.tb.spanIx ∧ s.bitAt (cqKey tn n 8) 2 ∧ s.cqOn tn n then signalCq s tn n else s
  | none => s

/-! MSI-X (R165, R754). -/

/-- A pending vector that is masked no more sends its message, or loses it under R754. -/
def sendPending (s : State) (fn v : Nat) : State :=
  let f := s.fn fn
  if (f.vec v).pend && !(f.vec v).masked && !f.msixMask then
    signal (s.setFn fn (f.setVec v { f.vec v with pend := false })) fn v
  else s
/-- MSIX_VECTOR_UNMASK. -/
def unmaskVec (s : State) (fn v : Nat) : State :=
  if !s.fnExists fn || decide (msixSize fn ≤ v) then s
  else sendPending (s.updFn fn fun f => f.setVec v { f.vec v with masked := false }) fn v

/-! The commands. -/

def execSqTailDoorbell (t : Nat) (tn : Fin 256) (off width value : Nat) (s : State) : Host.Outcome State Fault Refusal :=
  act s fun s => doorbell (advance s t) tn off width value
def execCqHeadDoorbell (t : Nat) (tn : Fin 256) (off width value : Nat) (s : State) : Host.Outcome State Fault Refusal :=
  act s fun s => doorbell (advance s t) tn off width value
/-- LOAD_ALL_DOORBELL: a write of `width` bits, `align` bytes beyond offset 0x200. -/
def execLoadAllDoorbell (t : Nat) (tn : Fin 256) (width align : Nat) (s : State) : Host.Outcome State Fault Refusal :=
  act s fun s => doorbell (advance s t) tn (0x200 + align) width 0
def execSqEnable (t : Nat) (tn : Fin 256) (n : Fin 16) (value : Word) (s : State) : Host.Outcome State Fault Refusal :=
  act s fun s => writeSqCfg (advance s t) tn n (value.toNat ||| 1)
def execSqDisable (t : Nat) (tn : Fin 256) (n : Fin 16) (value : Word) (s : State) : Host.Outcome State Fault Refusal :=
  act s fun s => writeSqCfg (advance s t) tn n (value.toNat / 2 * 2)
def execCqEnable (t : Nat) (tn : Fin 256) (n : Fin 16) (value : Word) (s : State) : Host.Outcome State Fault Refusal :=
  act s fun s => writeCqCfg (advance s t) tn n (value.toNat ||| 1)
def execCqDisable (t : Nat) (tn : Fin 256) (n : Fin 16) (value : Word) (s : State) : Host.Outcome State Fault Refusal :=
  act s fun s => writeCqCfg (advance s t) tn n (value.toNat / 2 * 2)
def execDescriptorFetch (t : Nat) (tn : Fin 256) (n : Fin 16) (got : Fetched) (s : State) : Host.Outcome State Fault Refusal :=
  act s fun s => fetchDesc (advance s t) tn n got
def execApplySpanAdmission (job : Nat) (s : State) : Host.Outcome State Fault Refusal := act s fun s => applyAdmit s job
def execFenceAdmission (t : Nat) (job : Nat) (s : State) : Host.Outcome State Fault Refusal :=
  act s fun s => fenceAdmit (advance s t) job
def execCqAgeExpiry (tn : Fin 256) (n : Fin 16) (s : State) : Host.Outcome State Fault Refusal := act s fun s => cqAge s tn n
def execMsixVectorUnmask (t : Nat) (fn : Fin 256) (v : Fin 128) (s : State) : Host.Outcome State Fault Refusal :=
  act s fun s => unmaskVec (advance s t) fn v

end Sys2Proof.Machine
end

