-- ==== Sys2Proof/Machine/Keystone.lean ====
section
/-!
DEFINITION. Keystone at work (chapter 05): slices that finish, work that is shed, and what a span boundary does besides the plan.
-/
namespace Sys2Proof.Machine

/-! Shedding (R192 to R194, R270). -/

/-- RESULT of work that ends before its own completion: a QUEUE_READ tells what it has delivered. -/
def Job.partResult (j : Job) : Nat := if j.d.op = 0x90#8 then readResult j.aux else 0
/-- A job leaves Keystone before its end; what it holds is freed. -/
def endEarly (s : State) (j : Job) (status : Nat) : State :=
  match j.kind with
  | .frame p => shedFrame s p j.id
  | .stage => s
  | .desc =>
    let s := complete (frameReadUnlock s j) j status j.partResult
    if j.d.op = 0x81#8 then canRetry s (j.d.p 0 1) else s
/-- Work with slices still to run. -/
def Job.hasWork (j : Job) : Bool := j.phase == .active && !j.slices.isEmpty
/-- SHED: E work that ran no slice by the end of its deadline span. -/
def shedE (s : State) (id : Nat) : State :=
  match s.job? id with
  | some j =>
    if j.hasWork && j.kind != .stage && j.d.clsNo == 1 && !j.lowE && !j.ran && decide (j.deadline < s.tb.spanIx) then
      endEarly s j 0x10
    else s
  | none => s
/-- B_SHED: B work that has not finished by the end of the span at its shed time. -/
def shedB (s : State) (id : Nat) : State :=
  match s.job? id with
  | some j =>
    if j.hasWork && j.kind != .stage && j.d.clsNo == 2 && !j.lowE && decide (j.shedAt < s.tb.spanIx) then endEarly s j 0x10 else s
  | none => s

/-! Slices (R177, R178, R200). -/

/-- Which of the planned slices finishes: the head, or in a frame job the first whose own engine has worked. -/
def Job.doneIx (j : Job) (tus : List Nat) : Nat :=
  if isFrame j.kind then ((j.slices.take j.planned).findIdx? fun c => nth tus (engineOf c) != 0).getD 0 else 0
/-- Toll units are charged to a tenant: the accounts of the span, and the tenant's counters, which wrap. -/
def chargeTu (s : State) (tn : Nat) (tus : List Nat) : State :=
  let s := { s with ks := { s.ks with used := addL s.ks.used ((List.range 7).map (nth tus)) } }
  (List.range 7).foldl (fun s p =>
    if nth tus p = 0 then s
    else s.wr (tkey tn (0x58 + 4 * p)) ((s.rd (tkey tn (0x58 + 4 * p)) + nth tus p) % 2 ^ 32)) s
/-- What a G slice did not use serves its owner's later G work (R178). -/
def giveBack (s : State) (j : Job) (est tus : List Nat) : State :=
  if j.d.clsNo = 0 ∧ j.lowE = false then
    let u := subL (s.gUsedOf j.d.tenant) (subL est tus)
    { s with
      ks := { s.ks with gUsed := storePut (fun _ => []) s.ks.gUsed j.d.tenant (if u.all (· == 0) then [] else u) } }
  else s
/-- What a family does with a finished slice. -/
def afterSlice (s : State) (j : Job) (r : SliceResult) : State :=
  match j.kind with
  | .desc =>
    match j.d.op.toNat with
    | 0x24 => segSlice s j r
    | 0x2A => camSlice s j r
    | 0x51 => frameReadSlice s j r
    | 0x5A => classLoadSlice s j r
    | 0x81 => canXlSlice s j
    | 0x90 => queueReadSlice s j r
    | _ => keep s j
  | _ => updJob s j.id fun _ => j
/-- SLICE_COMPLETE. -/
def sliceDone (s : State) (id : Nat) (tus : List Nat) (r : SliceResult) : State :=
  match s.job? id with
  | some j =>
    if j.planned = 0 then s
    else
      let i := j.doneIx tus
      let est := j.slices.getD i []
      let s := chargeTu s j.d.tenant tus
      let s := if r.items = 0 then giveBack s j est tus else s
      let j := { j with slices := j.slices.eraseIdx i, planned := j.planned - 1, ran := true, tu := j.tu + sumL tus }
      let s := afterSlice s j r
      let s := match s.job? id with
        | some j => planNow s j
        | none => s
      (r.errs.filter (·.ue)).foldl (fun s e => deckDevice s true e.page) (deckErrs s r.errs)
  | none => s

/-! The span boundary. -/

/-- Cutwater charges the owners of the ports (R257). -/
def cutwater (s : State) : State :=
  let own := (s.cams.filter fun c => c.2.inBytes != 0).map fun c => (s.camOwner c.1, c.2.inBytes)
  let s := (s.cams.map (·.1)).foldl (fun s c => s.updCam c fun x => { x with inBytes := 0 }) s
  (((own.map (·.1)).eraseDups).filter (· < 256)).foldl (fun s tn =>
    let tu := ceilDiv (sumL ((own.filter (·.1 == tn)).map (·.2))) 64000
    let c := [0, 0, 0, 0, 0, tu, 0]
    let s := chargeTu s tn c
    { s with ks := { s.ks with carryG := storePut (fun _ => []) s.ks.carryG tn (addL (s.carryOf tn) c) } }) s
/-- Thermal steps (R196 to R198). -/
def thermal (s : State) : State :=
  let t := s.pp.tSpan
  let e := if s.ks.eHalved then decide (130 ≤ t) else decide (135 ≤ t)
  let b := if s.ks.bStopped then decide (140 ≤ t) else decide (145 ≤ t)
  let changed := e != s.ks.eHalved || b != s.ks.bStopped
  flagIf { s with ks := { s.ks with eHalved := e, bStopped := b } } changed kKs 8
/-- The largest indivisible pieces of a descriptor. -/
def State.pieces (s : State) (j : Job) : List (List Nat) :=
  if j.d.op = 0x90#8 then [copyCost (16 * kindMax (s.qKind j.d.tenant (j.d.p 0 1 % 64)))]
  else if j.d.op = 0x51#8 then [copyCost 1024] else j.slices
/-- Unstarted work that no longer fits a new span length is refused (R184). -/
def recheck (s : State) : State :=
  (s.jobs.filter fun j => j.hasWork && j.kind == .desc && !j.ran && (s.pieces j).any (s.tooLarge j.d.tenant j.d.clsNo)).foldl
    (fun s j => endEarly s j 0x12) s
/-- QUEUE_READ and FRAME_READ are cut again to what their class can be given now (R184). -/
def recut (s : State) : State :=
  let waits (op : Byte) (j : Job) : Bool := j.hasWork && j.kind == .desc && j.d.op == op && j.planned == 0
  let s := { s with jobs := mapIf (waits 0x90#8) (fun j => { j with slices := [copyCost (s.nextRead j).2] }) s.jobs }
  let frame (j : Job) : Job :=
    let n := s.nextCopy j.d (nth j.aux 1 - nth j.aux 0)
    { j with slices := [copyCost n], aux := j.aux.set 3 n }
  { s with jobs := mapIf (waits 0x51#8) frame s.jobs }
/-- Keystone at a span boundary: the accounts of the closed span, Cutwater's charge, settings and capacities of the new one, the
refusals of a new length, and the plan (R35, R36, R172, R173, R184, R188, R196, R202, R257). -/
def keystoneBoundary (s : State) (changed : Bool) : State :=
  let s := cutwater (carryOver s)
  let s :=
    { s with
      ks :=
        { s.ks with
          usedLast := s.ks.used
          used := List.replicate 7 0
          cap := s.capsNow
          cfg := BitVec.ofNat 32 (s.rd 0x1000)
          cfg2 := BitVec.ofNat 32 (s.rd 0x1004) } }
  let s := thermal (dmaDegrade s)
  let s := if changed then recheck s else s
  planSpan (recut s)

/-! The commands. -/

def execShed (job : Nat) (s : State) : Host.Outcome State Fault Refusal := act s fun s => shedE s job
def execBShed (job : Nat) (s : State) : Host.Outcome State Fault Refusal := act s fun s => shedB s job
def execSliceComplete (t : Nat) (job : Nat) (tus : List Nat) (r : SliceResult) (s : State) :
    Host.Outcome State Fault Refusal :=
  act s fun s => sliceDone (advance s t) job tus r

end Sys2Proof.Machine
end

