-- ==== Sys2Proof/Machine/Grants.lean ====
section
/-!
DEFINITION. Grants: the staging image, the commit, its checks, and what a revocation does (chapters 03 and 19, R74 to R89, R182,
R707, R709 to R717).
-/
namespace Sys2Proof.Machine

/-- The 224 words of a grant image, by offset. -/
def imageOffsets : List Nat := (List.range 224).map (4 * ·)
/-- A word of the staging image. -/
def State.stg (s : State) (off : Nat) : Nat := s.rd (0x8000 + off)
/-- The bits Table 19-6 names in a word. -/
def grantMask (off : Nat) : Nat :=
  if off = 0xC then 0x1FFFF
  else if off = 0x14 ∨ off = 0xBC ∨ off = 0xC4 then 0xFF
  else if off = 0x1C ∨ off = 0xB4 ∨ off = 0xC8 then 0xFFFF
  else if off < 0xCC then 0xFFFFFFFF
  else if off = 0xCC then 0
  else if off < 0x110 then 0xFFF0FFF
  else if off < 0x12C then 0x1FF03FF
  else if off < 0x140 then 0
  else
    let r := (off - 0x140) % 0x48
    if r = 0 then 0x3FFF03 else if r = 4 then 0 else if r % 8 = 0 then 0xFFFFFFFF else 0x1FFFFFFF

/-! The checks (R79, R80, R88, R89, R713 to R715). -/

/-- The channel of a CAN word, and its place in the channel's words. -/
def canWord (off : Nat) : Nat × Nat := ((off - 0x140) / 0x48, (off - 0x140) % 0x48)
/-- Whether an image word is the low word of a CAN range. -/
def isRangeLo (off : Nat) : Bool := let r := (canWord off).2; decide (0x140 ≤ off) && decide (8 ≤ r) && r % 8 == 0
/-- Quotas of the tenants that share a channel, the staged image in place of its tenant's own (R89). -/
def State.quotaSum (s : State) (tn c lo n : Nat) : Nat :=
  sumL ((List.range 256).map fun t =>
    let w := if t = tn then s.stg (0x140 + 0x48 * c) else s.gw t (0x140 + 0x48 * c)
    if bits w 0 2 = 2 then bits w lo n else 0)
/-- Whether a word of the staging image breaks R714. -/
def State.rangeBad (s : State) (tn off : Nat) : Bool :=
  let w := s.stg off
  (w &&& grantMask off) != w || (decide (0x110 ≤ off) && decide (off < 0x12C) && decide (850 < bits w 0 10)) ||
    (decide (0x140 ≤ off) &&
      (let c := (canWord off).1
       let use := bits (s.stg (0x140 + 0x48 * c)) 0 2
       ((canWord off).2 == 0 && (use == 3 || (use == 2 && (decide (128 < s.quotaSum tn c 8 8) || decide (32 < s.quotaSum tn c 16 6))))) ||
         (isRangeLo off && bit w 31 &&
           (use != 2 || decide (bits (s.stg (off + 4)) 0 29 < bits w 0 29) ||
             (!bit w 29 && decide (0x7FF < bits (s.stg (off + 4)) 0 29))))))
/-- A Deck entry: its first page and its count. -/
def deckEntry (w : Nat) : Nat × Nat := (bits w 0 12, bits w 16 12)
/-- Whether an entry of the staging image breaks R715. -/
def State.deckBad (s : State) (tn k : Nat) : Bool :=
  let e := deckEntry (s.stg (0xD0 + 4 * k))
  let hits (x : Nat × Nat) : Bool := x.2 != 0 && overlaps e x
  e.2 != 0 &&
    (decide (e.1 < 128) || decide (3071 < e.1 + e.2 - 1) ||
      ((List.range 16).any fun i => i != k && hits (deckEntry (s.stg (0xD0 + 4 * i)))) ||
      ((List.range 256).any fun t => t != tn && (List.range 16).any fun i => hits (deckEntry (s.gw t (0xD0 + 4 * i)))))
/-- The bits of a word that name exclusive items (Table 03-1). -/
def exclusiveMask (off : Nat) : Nat :=
  if off < 0xC then 0xFFFFFFFF
  else if off = 0xC then 0xFFFF
  else if off = 0x10 then 0xFFFFFFFF
  else if off = 0x14 then 0xFF
  else if 0x20 ≤ off ∧ off < 0x68 then 0xFFFFFFFF
  else 0
/-- Whether a word of the staging image conflicts with a tenant's grant (R79, R88). -/
def State.conflictAt (s : State) (off t : Nat) : Bool :=
  let w := s.stg off
  if off < 0x140 then (w &&& s.gw t off &&& exclusiveMask off) != 0
  else
    let c := (canWord off).1
    let mine := bits (s.stg (0x140 + 0x48 * c)) 0 2
    let theirs := s.canUse t c
    if (canWord off).2 = 0 then (mine == 1 && theirs != 0) || (mine == 2 && theirs == 1)
    else
      isRangeLo off && mine == 2 && theirs == 2 && bit w 31 && bit w 30 &&
        (List.range 8).any fun r =>
          let lo := s.gw t (0x148 + 0x48 * c + 8 * r)
          let hi := s.gw t (0x14C + 0x48 * c + 8 * r)
          bit lo 31 && bit lo 30 && bit lo 29 == bit w 29 && decide (bits lo 0 29 ≤ bits (s.stg (off + 4)) 0 29) &&
            decide (bits w 0 29 ≤ bits hi 0 29)
/-- The other tenant with which a word conflicts. -/
def State.conflictWith (s : State) (tn off : Nat) : Option Nat := tenantFind fun t => t != tn && s.conflictAt off t
/-- Whether a pool's guaranteed total would pass the ceiling. -/
def State.ceilingBad (s : State) (tn p : Nat) : Bool :=
  decide (850 < bits (s.stg (0x110 + 4 * p)) 0 10 + sumL ((List.range 256).map fun t => if t = tn then 0 else s.gPermille t p))
/-- The result of a commit and its information word (R713, Table 03-3). -/
def State.commitVerdict (s : State) (tn : Nat) : Nat × Nat :=
  if s.mode = .run then (4, 0xFFF)
  else
    match imageOffsets.find? (s.rangeBad tn) with
    | some off => (5, off)
    | none =>
      match (List.range 16).find? (s.deckBad tn) with
      | some k => (3, 0xD0 + 4 * k)
      | none =>
        match imageOffsets.find? fun off => (s.conflictWith tn off).isSome with
        | some off => (1, off + 2 ^ 16 * (s.conflictWith tn off).getD 0)
        | none =>
          match (List.range 7).find? (s.ceilingBad tn) with
          | some p => (2, 0x110 + 4 * p + 2 ^ 24 * p)
          | none => (0, 0xFFF)

/-! Revocation (R81, R182, R707, R716). `s` is the state with the new grant, `o` the one before. -/

/-- An axis that left the grant, or whose bridge group did: groups abort, stays and descriptors end, the axis ramp-stops. -/
def revokeAxis (s : State) (a : Nat) : State :=
  let s := dropStayOf (abortGroupOf s a 0x11 0) a 0x11
  let s := axisEnd s a 0x11 0
  if !s.axisOn a then s
  else if a < 32 then pierRamp (alignEnd s a 0x11 0) a
  else (rampAxis s a).updSg (a - 32) fun x => { x with raw := none, coil := none, holdAfter := true }
/-- Whether a tenant has lost an axis or the bridge group it drives. -/
def State.lostAxis (s o : State) (tn a : Nat) : Bool :=
  o.hasAxis tn a &&
    (!s.hasAxis tn a ||
      (List.range 16).any fun g =>
        o.hasBg tn g && !s.hasBg tn g && (if a < 32 then s.pierOfGroup g == some a else s.sgOfGroup g == some (a - 32)))
def revokeAxes (s o : State) (tn : Nat) : State :=
  ((List.range 48).filter (s.lostAxis o tn)).foldl revokeAxis s
/-- Stays whose master may not be read any more. -/
def revokeStays (s : State) (tn : Nat) : State :=
  (s.staysOf tn).foldl (fun s y =>
    let x := s.stay y
    if s.masterNeed tn x.kind x.index then s
    else
      let s := engageDone s y 0x11 0
      if (s.stay y).state.drives then stayRelease0 s y else s) s
/-- Valves that left the grant close, their events go, signature requests without a right end, and a row that lost a valve stops. -/
def revokeValves (s o : State) (tn : Nat) : State :=
  let lost (v : Nat) : Bool := o.hasValve tn v && !s.hasValve tn v
  let s := (List.range 16).foldl (fun s r =>
    let x := s.row r
    if x.bound && x.tenant == tn && (List.range (s.rowCount' r)).any (fun i => lost (s.rowFirst r + i)) then rowStop s r else s) s
  let s := removeEvents s (fun e => lost e.valve) 0x11
  (s.valves.map (·.1)).foldl (fun s v =>
    let s := if lost v then valveOff s v else s
    s.updValve v fun x => { x with sigs := x.sigs.filter fun g => g.tenant != tn || s.hasSig tn v || s.hasValve tn v }) s
/-- Latches, streams, publications and divided outputs of resources that left the grant. -/
def revokeReads (s o : State) (tn : Nat) : State :=
  let s := (s.latches.filter fun x => x.2.armed && x.2.tenant == tn &&
      (!s.hasPier tn (x.1 / 8) || !s.latchNeed tn x.2.kind x.2.index)).foldl (fun s x =>
    let s := match x.2.job.bind s.job? with
      | some j => complete s j 0x11 0
      | none => s
    disarm s x.1) s
  let s := (s.fbs.map (·.1)).foldl (fun s n =>
    s.updFb n fun f => { f with streams := f.streams.filter fun x => x.tenant != tn || s.hasFb tn n || s.hasFbs tn n }) s
  let s := { s with pubOn := s.pubOn.filter fun e => !(o.ownsSource tn (e.1 / 64) (e.1 % 64)) || s.ownsSource tn (e.1 / 64) (e.1 % 64) }
  (s.emus.map (·.1)).foldl (fun s e => if o.hasEmu tn e && !s.hasEmu tn e then s.updEmu e fun x => { x with suspended := true } else s) s
/-- Pages behind an index range that have changed. -/
def State.moved (s o : State) (tn : Nat) (r : Nat × Nat) : Bool :=
  (List.range r.2).any fun i => s.pageOf tn (r.1 + i) != o.pageOf tn (r.1 + i)
/-- Items whose pages have changed are disabled (R716); so are rings and pipelines of a camera that left the grant. -/
def revokePages (s o : State) (tn : Nat) : State :=
  let s := (List.range 64).foldl (fun s q =>
    if s.qEnabled tn q && s.moved o tn (s.qPages tn q) then (flushQueue s tn q false).setFld (qKey tn q 0) 0 1 0 else s) s
  (List.range 32).foldl (fun s i =>
    let c := i / 4
    if !o.hasCam tn c then s
    else
      let gone := !s.hasCam tn c
      let work := s.rd (visKey i 0x1C)
      let s := if (s.pipe i).running && (gone || s.moved o tn (bits work 0 12, bits work 16 8)) then stopPipe s i else s
      if s.vcOn c (i % 4) && (gone || s.moved o tn (s.ringPages c (i % 4))) then
        (s.updVc i fun x => { x with opened := none }).setFld (vcKey c (i % 4) 4) 0 1 0
      else s) s
/-- EXPERT removed: basic publish from this boundary on (R707). -/
def revokeExpert (s : State) (tn : Nat) : State :=
  if s.expert tn then s
  else (s.setFld (ttKey tn 0) 4 1 0).updTn tn fun t => { t with pubExpert := false, pubPend := none }
/-- Frames that may not be sent any more leave the transmit sets. -/
def revokeCan (s : State) (tn : Nat) : State :=
  (s.cans.map (·.1)).foldl (fun s c =>
    let bad (x : CanSlot) : Bool := x.tenant == tn && ((s.job? x.job).bind fun j => canTxCheck s j.d).any (·.1 == 0x11)
    canRetry (canEndSlots s c bad 0x11 0) c) s
/-- The state with a tenant's budgets as they were before the commit. -/
def withBudgets (s o : State) (tn : Nat) : State :=
  let put (g : Store Word) (p : Nat) : Store Word :=
    storePut (fun _ => (0 : Word)) g (0x400 * tn + 0x110 + 4 * p) (BitVec.ofNat 32 (o.gw tn (0x110 + 4 * p)))
  { s with grants := (List.range 7).foldl put s.grants }
/-- Descriptors that name what left the grant complete REFUSED_NO_GRANT (R81). Held ones meet the tenancy checks again at
their apply span (R149). -/
def revokeJobs (s o : State) (tn : Nat) : State :=
  (s.jobs.filter fun j => j.kind == .desc && j.d.tenant.val == tn && !j.isHeld).foldl (fun s j =>
    match s.job? j.id with
    | some j => if (descCheck (withBudgets s o tn) j.d).any (·.1 == 0x11) then endEarly s j 0x11 else s
    | none => s) s
/-- Work whose class has lost a budget it needs (R182): refused when it has not run, else weight-1 elastic work. -/
def revokeBudgets (s : State) (tn : Nat) : State :=
  (s.jobs.filter fun j => j.kind != .stage && j.d.tenant.val == tn && !j.lowE && !j.isHeld).foldl (fun s j =>
    if !j.slices.any (s.noBudget tn j.d.clsNo) then s
    else if j.ran then updJob s j.id fun x => { x with lowE := true }
    else if j.kind = .desc then endEarly s j 0x11
    else s) s
/-- Everything a commit takes away. -/
def revoke (s o : State) (tn : Nat) : State :=
  let s := revokeStays (revokeAxes s o tn) tn
  let s := revokeReads (revokeValves s o tn) o tn
  let s := revokeJobs (revokeCan s tn) o tn
  let s := revokeBudgets (revokePages s o tn) tn
  (List.range 32).foldl visBoundary (revokeExpert s tn)

/-! The commit (R76 to R78, R82, R710 to R712, R717). -/

def stageBusy (s : State) : State := flag s kGlobal 2
/-- The staging image becomes the tenant's grant. -/
def applyGrant (s : State) (tn : Nat) : State :=
  let new := imageOffsets.foldl (fun g off =>
    storePut (fun _ => (0 : Word)) g (0x400 * tn + off) (BitVec.ofNat 32 (s.stg off))) s.grants
  let s' := count { s with grants := new } 0x8410
  if new = s.grants then s'
  else revoke (flagRaw (count s' (tkey tn 0x7C)) (tkey tn 8) 4) s tn
/-- A write of `GRANT_COMMIT`. -/
def grantCommit (s : State) (w : Nat) : State :=
  if s.commit.due.isSome then stageBusy s
  else { s with commit := { s.commit with tenant := w % 256, due := some s.now, done := false } }
/-- GRANT_COMMIT_CHECK. -/
def grantCheck (s : State) : State :=
  match s.commit.due with
  | none => s
  | some w =>
    if s.tb.boundary < w + 64 then s
    else
      let tn := s.commit.tenant
      let v := s.commitVerdict tn
      let s := { s with commit := { s.commit with due := none, done := true, result := v.1, info := v.2 } }
      if v.1 = 0 then applyGrant s tn else s
/-- A write of a staging word. -/
def writeStaging (s : State) (key w : Nat) : State := if s.commit.due.isSome then stageBusy s else s.wr key w
/-- A write of `GRANT_LOAD` (R712). -/
def grantLoad (s : State) (w : Nat) : State :=
  if s.commit.due.isSome then stageBusy s
  else imageOffsets.foldl (fun s off => s.wr (0x8000 + off) (if bit w 8 then 0 else s.gw (w % 256) off)) s

/-! The commands. -/

def execGrantCommitWrite (t : Nat) (value : Word) (s : State) : Host.Outcome State Fault Refusal :=
  act s fun s => grantCommit (advance s t) value.toNat
def execGrantCommitCheck (s : State) : Host.Outcome State Fault Refusal := act s grantCheck
def execGrantLoad (t : Nat) (tn : Fin 256) (s : State) : Host.Outcome State Fault Refusal :=
  act s fun s => grantLoad (advance s t) tn
def execGrantLoadClear (t : Nat) (tn : Fin 256) (s : State) : Host.Outcome State Fault Refusal :=
  act s fun s => grantLoad (advance s t) (tn + 256)

end Sys2Proof.Machine
end

