-- ==== Sys2Proof/Machine/Reads.lean ====
section
/-!
DEFINITION. What a register reads as: the words the device computes from its state, the _LO/_HI latches, the committed
grants and the published-record port (chapter 19, R689 to R691, R701, R709, R719, and the register tables of the other
chapters).
-/
namespace Sys2Proof.Machine

/-! _LO/_HI pairs (R11, R689 to R691). -/

/-- The offset of a key within its unit, for the blocks whose units repeat. -/
def unitOff (key base stride : Nat) : Nat := (key - base) % stride
/-- Whether a key is the _LO register of a latched pair. -/
def isLo (key : Nat) : Bool :=
  if 0x100000 ≤ key then [0x10, 0x28, 0x30].contains (key % 0x1000)
  else if 0x30000 ≤ key ∧ key < 0x32800 then [0x30, 0x38].contains (key % 0x100)
  else if 0x18000 ≤ key ∧ key < 0x19000 then key % 0x100 == 0x50
  else if 0x10000 ≤ key ∧ key < 0x18000 then key % 0x400 == 0x160
  else if 0x4000 ≤ key ∧ key < 0x8000 then key % 0x40 == 0x10
  else [0x14, 0x2000, 0x2008, 0x2064, 0x48014].contains key
/-- Whether a key is the _HI register of a latched pair. -/
def isHi (key : Nat) : Bool := decide (4 ≤ key) && isLo (key - 4)
/-- The value of a pair, by its _LO register. -/
def State.pairVal (s : State) (key : Nat) : Nat :=
  if 0x100000 ≤ key then
    let tn := (key - 0x100000) / 0x1000
    let o := key % 0x1000
    if o = 0x10 then (if (s.tn tn).st = .attached then (s.tn tn).lease else 0)
    else if o = 0x28 then s.now % 2 ^ 64
    else s.spanCount
  else if 0x30000 ≤ key ∧ key < 0x32800 then
    let f := s.fb ((key - 0x30000) / 0x100)
    unsigned 64 (if key % 0x100 = 0x30 then f.snapPos else f.snapVel)
  else if 0x18000 ≤ key ∧ key < 0x19000 then unsigned 64 (s.sgPos ((key - 0x18000) / 0x100))
  else if 0x10000 ≤ key ∧ key < 0x18000 then unsigned 64 (s.axis ((key - 0x10000) / 0x400)).p
  else if 0x4000 ≤ key ∧ key < 0x8000 then (s.tn ((key - 0x4000) / 0x40)).orphSpan % 2 ^ 48
  else if key = 0x14 then Config.uid
  else if key = 0x2000 then s.now % 2 ^ 64
  else if key = 0x2008 then s.spanCount
  else if key = 0x2064 then unsigned 64 s.refs.epoch
  else s.pp.entryTime
/-- Where a function's latch of a _HI register is kept (R691). -/
def hiKey (fn key : Nat) : Nat := fn * 2 ^ 24 + key
/-- What a function has latched for a _HI register; 0 before its first latch. -/
def State.latchedHi (s : State) (fn key : Nat) : Nat := (storeGet (fun _ => (0 : Word)) s.tb.hi (hiKey fn key)).toNat

/-! Computed words. -/

/-- Whether a register of PF0 BAR0 holds W1C flags. -/
def isW1c (key : Nat) : Bool :=
  match regAt key with
  | some (_, _, r) => r.flds.any (·.acc == .w1c)
  | none => false
/-- `GLOBAL_EVT` (R701): the tenant pages feed none of its bits. -/
def State.evtWord (s : State) : Nat :=
  sumL ((List.range 16).map fun b =>
    2 ^ b * b2n (s.regs.any fun e => decide (e.1 < 0x100000) && evtBlock e.1 == b && isW1c e.1))
/-- Identity block and monitors (Tables 19-4 and 20-8). -/
def State.idWord (s : State) (o : Nat) : Option Nat :=
  let l := s.life
  if o = 0x2C then some s.evtWord
  else if o = 0x104 then some (l.targetMv + 2 ^ 16 * l.senseMv + 2 ^ 28 * b2n l.avsLink + 2 ^ 29 * b2n l.marginLow)
  else if o = 0x108 then some (min 255 l.slack)
  else if o = 0x110 then some (min 65535 l.degr + 2 ^ 16 * b2n l.eol)
  else if o = 0x11C then some l.ageHours
  else if o = 0x124 then some (unsigned 8 (l.tjMax.getD 0))
  else none
/-- Keystone (Table 05-5). -/
def State.ksWord (s : State) (o : Nat) : Option Nat :=
  let k := s.ks
  let sel := s.fld 0x1014 0 8
  if o = 8 then some (b2n k.eHalved + 2 * b2n k.bStopped + 4 * b2n k.degraded)
  else if 0x20 ≤ o ∧ o < 0x3C then some (if o = 0x20 ∧ !s.link.up then 0 else nth k.cap ((o - 0x20) / 4))
  else if 0x40 ≤ o ∧ o < 0x5C then some (sumL ((List.range 256).map fun t => s.gPermille t ((o - 0x40) / 4)))
  else if 0x60 ≤ o ∧ o < 0x7C then some (min 65535 (nth k.usedLast ((o - 0x60) / 4)))
  else if 0x80 ≤ o ∧ o < 0x90 then some (s.rd (tkey sel (o - 0x80 + 0x48)))
  else if 0xA0 ≤ o ∧ o < 0xBC then some (s.rd (tkey sel (o - 0xA0 + 0x58)))
  else none
/-- Time and references (Tables 01-3 and 02-2). -/
def State.timeWord (s : State) (o : Nat) : Option Nat :=
  let r := s.refs
  if o = 0x28 then some s.tb.len
  else if o = 0x54 then some (r.target.code + 16 * b2n r.locked + 32 * b2n r.syncQual + 64 * b2n r.ptmQual)
  else if o = 0x58 then some (unsigned 32 r.phi)
  else if o = 0x5C then some (unsigned 32 r.y)
  else if o = 0x60 then some (unsigned 32 r.yT)
  else none
/-- The states of a tenant in TN_STATE. -/
def TnState.code : TnState → Nat
  | .detached => 0
  | .attached => 1
  | .orphan => 2
/-- A tenant table entry (Table 19-5). -/
def State.entryWord (s : State) (t o : Nat) : Option Nat :=
  let x := s.tn t
  if o = 0xC then some (x.st.code + 16 * b2n x.held + 32 * b2n x.heldByT0 + 64 * b2n (s.fnExists t))
  else if o = 0x18 then
    some (if x.st = .orphan ∧ x.policy = 0 then (if x.orphLimit = 0 then 0xFFFFFFFF else x.orphLeft) else 0)
  else none
/-- A word of a tenant's committed grant; reserved bits read 0 (R709). -/
def State.grantWord (s : State) (t o : Nat) : Nat := s.gw t o
/-- Grant control registers and the view (Table 19-6a). -/
def State.grantCtlWord (s : State) (key : Nat) : Option Nat :=
  let c := s.commit
  if key = 0x8400 then
    some (s.rd 0x8400 % 256 + 2 ^ 16 * c.result + 2 ^ 24 * b2n c.done + 2 ^ 25 * b2n c.due.isSome)
  else if key = 0x8404 then some c.info
  else if 0xC000 ≤ key ∧ key < 0xC380 then some (s.grantWord (s.fld 0x840C 0 8) (key - 0xC000))
  else none
/-- A pier (Table 12-3). -/
def State.pierWord (s : State) (p o : Nat) : Option Nat :=
  let x := s.pier p
  if 0xC0 ≤ o ∧ o < 0x110 then
    some (unsigned 32 ((x.bq.getD ((o - 0xC0) / 0x14) []).getD ((o - 0xC0) % 0x14 / 4) 0))
  else if o = 0x140 then
    some (x.mode.code + 8 * b2n x.aligned + 16 * x.cause + 2 ^ 7 * b2n x.isat + 2 ^ 8 * b2n x.vsat + 2 ^ 9 * b2n x.inpos)
  else if o = 0x168 then some (unsigned 32 x.ferr)
  else if o = 0x16C then some (unsigned 16 x.iqMeas + 2 ^ 16 * unsigned 16 x.idMeas)
  else if o = 0x170 then some (x.theta % 2 ^ 32)
  else none
/-- `SG_STATE` (Table 14-3). -/
def State.sgStateWord (s : State) (n : Nat) : Nat :=
  let x := s.sg n
  (if x.fault then 3 else b2n x.enabled) + 4 * b2n x.strong + 8 * b2n x.standstill + 16 * b2n x.rateSat + 32 * x.cause
/-- `BG_STATE` (Table 15-7). -/
def State.bgStateWord (s : State) (g : Nat) : Nat :=
  let x := s.stage g
  let src := match s.groupSrc g with
    | .pier _ => 1
    | .sg _ => 2
    | .raw => 3
    | _ => 0
  b2n x.fault + 2 * x.cause + 32 * src + 2 ^ 7 * b2n x.frozenAt.isSome + 2 ^ 8 * b2n (x.masks != 0) + 2 ^ 9 * x.sector +
    2 ^ 12 * b2n (!x.ginValid && !x.ginNone)
/-- PWM and gate registers (Table 15-7). -/
def State.pwmWord (s : State) (key : Nat) : Option Nat :=
  if key < 0x21000 then
    let g := (key - 0x20000) / 0x100
    let o := key % 0x100
    if o = 0x18 then some ((s.stage g).duty % 65536 + s.rd key / 65536 * 65536)
    else if o = 0x20 then some (s.bgStateWord g)
    else if o = 0x40 then some (min 65535 (s.stage g).vbus)
    else none
  else if key < 0x21800 then
    let x := s.stage (16 + (key - 0x21000) / 0x40)
    if key % 0x40 = 8 then
      some (b2n x.fault + 2 * x.cause + 2 ^ 7 * b2n x.frozenAt.isSome + 2 ^ 8 * b2n (x.masks != 0))
    else none
  else if key < 0x22000 then
    if key % 0x20 = 4 then some (b2n (s.aux ((key - 0x21800) / 0x20)).frozen) else none
  else if key < 0x22200 then
    let f := (key - 0x22000) / 0x100
    let x := s.footing f
    if key % 0x100 = 0 then
      some (b2n x.gdHigh + 2 * b2n (decide (10000 ≤ nth s.power.vgdMv f)) + 4 * b2n (decide (160 ≤ s.footTemp f)) + 256 * unsigned 8 (s.footTemp f))
    else if key % 0x100 = 4 then some (min 65535 (nth s.power.vgdMv f))
    else none
  else if key = 0x22200 then some (b2n s.haltActive)
  else none
/-- Valves, rows and the wheel (Tables 09-5 to 09-8). -/
def State.ejWord (s : State) (key : Nat) : Option Nat :=
  if key < 0x2C800 then
    let x := s.valve ((key - 0x28000) / 0x20)
    if key % 0x20 = 0x10 then
      some (x.lat % 2 ^ 24 + 2 ^ 24 * b2n x.wear + 2 ^ 25 * b2n x.noDip + 2 ^ 26 * b2n x.fault + 2 ^ 27 * x.cause)
    else if key % 0x20 = 0x1C then some (x.dipLast % 2 ^ 24)
    else none
  else if 0x2F000 ≤ key ∧ key < 0x2F400 then
    let x := s.row ((key - 0x2F000) / 0x40)
    if key % 0x40 = 0x3C then some (b2n x.running + 256 * x.queue) else none
  else if key = 0x2F410 then some s.wheel.events.length
  else if 0x2F480 ≤ key ∧ key < 0x2F4C0 then some (nth (s.row (s.fld 0x2F414 0 4)).cnts ((key - 0x2F480) / 4))
  else none
/-- A camera port (Table 07-3). -/
def State.camWord (s : State) (c o : Nat) : Option Nat :=
  let x := s.cam c
  if o = 0x1C then some (b2n x.linkUp + 2 * b2n x.deskewWait + 4 * b2n x.portLost)
  else if 0x80 ≤ o ∧ o < 0x100 ∧ o % 0x20 = 8 then some ((s.vc (4 * c + (o - 0x80) / 0x20)).frameSeq % 2 ^ 32)
  else none
/-- A vision pipeline (Table 08-6). -/
def State.visWord (s : State) (p o : Nat) : Option Nat :=
  let x := s.pipe p
  if o = 0x20 then some (b2n x.running + 2 * x.bank + 4 * b2n x.bgValid)
  else if o = 0x44 then some x.tracks.length
  else if 0x100 ≤ o ∧ o < 0x140 then some (nth x.hist ((o - 0x100) / 4) % 2 ^ 32)
  else none
/-- The ring (Table 10-4). -/
def State.trWord (s : State) (o : Nat) : Option Nat :=
  let r := s.ring
  if o = 4 then
    some (r.nodes.length + 32 * b2n r.rate2 + 64 * b2n r.sweeping + 128 * b2n r.split + 2 ^ 8 * r.breakW + 2 ^ 16 * r.breakE)
  else if o = 0x10 then some (r.rdMax / 5 % 2 ^ 20)
  else if o = 0x14 then some (min 65535 r.sweepTime)
  else if 0x100 ≤ o ∧ o < 0x200 then
    match r.nodes[(o - 0x100) / 0x10]? with
    | none => some 0
    | some n =>
      if o % 0x10 = 0 then some (1 + 2 * b2n n.version2 + 4 * b2n n.reach + 8 * b2n n.wrapE + 16 * b2n n.wrapW)
      else if o % 0x10 = 4 then some n.delayE
      else if o % 0x10 = 8 then some n.delayW
      else some n.miss
  else none
/-- Parapet (Table 17-7). -/
def State.ppWord (s : State) (o : Nat) : Option Nat :=
  let x := s.pp
  if o = 0 then some (x.mode.code + 16 * b2n x.unsafeAck + 32 * b2n x.hbArmed)
  else if o = 8 then some (b2n x.resDone + 2 * x.result + 256 * x.checks)
  else if o = 0xC then some x.causes
  else if o = 0x10 then some x.firstCause
  else if o = 0x28 then
    some (unsigned 8 x.tSpan + 2 ^ 8 * unsigned 8 x.tDeck + 2 ^ 16 * unsigned 8 x.tFootA + 2 ^ 24 * unsigned 8 x.tFootB)
  else none
/-- The firmware mailbox (Table 18-5). -/
def State.fwWord (s : State) (o : Nat) : Option Nat :=
  let f := s.fw
  if o = 0 then
    some (f.slot + 2 * b2n f.inRecovery + 4 * b2n f.ready + 8 * b2n f.trial + 16 * b2n f.actPending.isSome)
  else if o = 4 then some f.version
  else if o = 8 then some (f.svn % 65536 + 65536 * (f.svnMin % 65536))
  else if o = 0x1C then some (b2n f.resDone + 16 * f.result + 256 * f.resCmd + 2 ^ 11 * f.check)
  else none
/-- A tenant page (Table 19-7): state and mode, rings, queues, and the grant mirror. -/
def State.pageWord (s : State) (tn o : Nat) : Option Nat :=
  let t := s.tn tn
  if o = 0 then some (t.st.code + 16 * b2n t.held)
  else if o = 0x24 then some s.mode.code
  else if o = 0x74 then some (s.rd (tkey tn 0x74) % 256 + 2 ^ 16 * b2n t.pubDenied)
  else if o = 0x78 then some (nth t.pubBuf t.pubPtr)
  else if 0x80 ≤ o ∧ o < 0x400 then some (s.grantWord tn (o - 0x80))
  else if 0x400 ≤ o ∧ o < 0x600 ∧ o % 0x20 = 0xC then some (s.sq (16 * tn + (o - 0x400) / 0x20)).head
  else if 0x600 ≤ o ∧ o < 0x800 ∧ o % 0x20 = 0x10 then
    let c := s.cq (16 * tn + (o - 0x600) / 0x20)
    some (c.tail + 2 ^ 16 * b2n c.phase)
  else if 0x800 ≤ o ∧ o % 0x20 = 8 then
    let q := s.queue (64 * tn + (o - 0x800) / 0x20)
    some (q.fill + 2 ^ 31 * b2n q.markerOpen)
  else none
/-- The word a register computes from the state; none where the register file holds it. -/
def State.computed (s : State) (key : Nat) : Option Nat :=
  if 0x100000 ≤ key then s.pageWord ((key - 0x100000) / 0x1000) (key % 0x1000)
  else if key < 0x1000 then s.idWord key
  else if key < 0x2000 then s.ksWord (key - 0x1000)
  else if key < 0x4000 then s.timeWord (key - 0x2000)
  else if key < 0x8000 then s.entryWord ((key - 0x4000) / 0x40) (key % 0x40)
  else if key < 0x10000 then s.grantCtlWord key
  else if key < 0x18000 then s.pierWord ((key - 0x10000) / 0x400) (key % 0x400)
  else if key < 0x19000 then (if key % 0x100 = 0x40 then some (s.sgStateWord ((key - 0x18000) / 0x100)) else none)
  else if key < 0x20000 then none
  else if key < 0x28000 then s.pwmWord key
  else if key < 0x30000 then s.ejWord key
  else if key < 0x32800 then (if key % 0x100 = 0x40 then some (s.fb ((key - 0x30000) / 0x100)).stateWord else none)
  else if key < 0x34000 then none
  else if key < 0x38000 then s.camWord ((key - 0x34000) / 0x200) (key % 0x200)
  else if key < 0x3C000 then s.visWord ((key - 0x38000) / 0x200) (key % 0x200)
  else if key < 0x40000 then
    (if key = 0x3C000 then some (sumL ((List.range 32).map fun p => s.fld (visKey p 0x10) 0 15)) else none)
  else if key < 0x44000 then s.trWord (key - 0x40000)
  else if key < 0x48000 then (if key % 0x100 = 0x40 then some (s.canStateWord ((key - 0x44000) / 0x100)) else none)
  else if key < 0x4C000 then s.ppWord (key - 0x48000)
  else if 0x80000 ≤ key then s.fwWord (key - 0x80000)
  else none

/-- What a function reads at a key: 0 where no register stands (R692). -/
def State.readKey (s : State) (fn key : Nat) : Nat :=
  match regAt key with
  | none => 0
  | some _ =>
    if isLo key then s.pairVal key % 2 ^ 32
    else if isHi key then s.latchedHi fn key
    else (s.computed key).getD (s.rd key)

/-! Reads by a function. -/

/-- Whether a host access to a function's memory spaces reaches its registers: the link is up, the function exists and its
memory space is enabled (R666, R668). -/
def State.reach (s : State) (fn : Nat) : Bool := s.link.up && s.fnExists fn && (s.fn fn).memEn
/-- The key behind a BAR0 offset of a function (R686, R688). -/
def keyOf (fn off : Nat) : Option Nat :=
  if fn = 0 then
    (if 0x81000 ≤ off ∧ off < 0x82000 then some (0x100000 + (off - 0x81000)) else if off < 0x100000 then some off else none)
  else if off < 0x1000 then some (tkey fn off) else none
/-- Whether a key answers: in recovery only the identity block and the mailbox do (R659). -/
def State.keyAnswers (s : State) (key : Nat) : Bool :=
  s.answers || decide (key < 0x1000) || (decide (0x80000 ≤ key) && decide (key < 0x81000))
/-- One register is read: its word, with the latch of R691 and the data port of R719. -/
def readReg (s : State) (fn key : Nat) : State × Nat :=
  if !s.keyAnswers key then (s, 0)
  else
    let w := s.readKey fn key
    if isLo key then
      let hi := storePut (fun _ => (0 : Word)) s.tb.hi (hiKey fn (key + 4)) (BitVec.ofNat 32 (s.pairVal key / 2 ^ 32))
      ({ s with tb := { s.tb with hi := hi } }, w)
    else if 0x100000 ≤ key ∧ key % 0x1000 = 0x78 then
      (s.updTn ((key - 0x100000) / 0x1000) fun t => { t with pubPtr := (t.pubPtr + 1) % 6 }, w)
    else (s, w)
/-- `n` registers from a BAR0 offset on are read in ascending order: their words, four bytes each. -/
def readRegs (s : State) (fn off : Nat) : Nat → State × List Byte
  | 0 => (s, [])
  | n + 1 =>
    let r := match keyOf fn off with
      | some key => readReg s fn key
      | none => (s, 0)
    let rest := readRegs r.1 fn (off + 4) n
    (rest.1, leBytes 4 r.2 ++ rest.2)
/-- What a read returns is kept as plain data. -/
def setRead (s : State) (bs : List Byte) : State := { s with tb := { s.tb with lastRead := bs } }
/-- A read of `len` bytes at a BAR0 offset (R689). -/
def loRead (s : State) (fn off len : Nat) : State :=
  if !s.reach fn || len = 0 then s
  else
    let first := off / 4
    let n := (off + len - 1) / 4 - first + 1
    let r := readRegs s fn (4 * first) n
    setRead r.1 ((r.2.drop (off % 4)).take len)

/-! The published-record port (R85, R719). -/

/-- The six words of a record. -/
def PubRec.words (r : PubRec) : List Nat :=
  let p := unsigned 64 r.pos
  let v := unsigned 64 r.vel
  [p % 2 ^ 32, p / 2 ^ 32, v % 2 ^ 32, v / 2 ^ 32, r.span % 2 ^ 32,
    r.span / 2 ^ 32 % 2 ^ 16 + 2 ^ 16 * b2n r.valid + 2 ^ 17 * b2n r.suspect]
/-- A write of `TN_PUB_SEL`. -/
def pubSel (s : State) (tn w : Nat) : State :=
  let kind := bits w 0 2
  let i := bits w 2 6
  let src := 64 * kind + i
  let ok := decide (kind < 3) && s.hasPub tn kind i && storeGet (fun _ => false) s.pubOn src
  let words := if ok then (storeGet (fun _ => PubRec.reset) s.pubRec src).words else []
  (s.wr (tkey tn 0x74) (w % 256)).updTn tn fun t => { t with pubBuf := words, pubPtr := 0, pubDenied := !ok }

/-! The commands. -/

/-- LO_REGISTER_READ (R689 to R691). -/
def execLoRegisterRead (t : Nat) (fn : Fin 256) (off len : Nat) (s : State) : Host.Outcome State Fault Refusal :=
  act s fun s => loRead (advance s t) fn off len
/-- TN_PUB_SEL_WRITE (R719). -/
def execTnPubSelWrite (t : Nat) (tn : Fin 256) (value : Word) (s : State) : Host.Outcome State Fault Refusal :=
  act s fun s => if s.fnExists tn && s.answers then pubSel (advance s t) tn value.toNat else advance s t
/-- TN_PUB_DATA_READ (R719). -/
def execTnPubDataRead (t : Nat) (tn : Fin 256) (s : State) : Host.Outcome State Fault Refusal :=
  act s fun s =>
    let s := advance s t
    if s.fnExists tn && s.answers then
      let r := readReg s tn (tkey tn 0x78)
      setRead r.1 (leBytes 4 r.2)
    else s

end Sys2Proof.Machine
end

