-- ==== Sys2Proof/Machine/Regs.lean ====
section
/-!
DEFINITION. Host writes: registers of PF0 BAR0 and of the tenant pages, doorbells, the MSI-X tables and configuration space
(chapter 19, R689 to R700, R753, and the write rules of the register tables of the other chapters).
-/
namespace Sys2Proof.Machine

/-! One register by its fields. -/

/-- Whether a field of a register is written by software and kept. -/
def Fld.kept (f : Fld) : Bool := f.acc == .rw || f.acc == .rwl
/-- Whether a write would change a field that is read-only in RUN. -/
def Reg.movesLocked (r : Reg) (old w : Nat) : Bool :=
  r.flds.any fun f => f.acc == .rwl && bits old f.lo f.w != bits w f.lo f.w
/-- Whether a write carries a field outside its range. -/
def Reg.outOfRange (r : Reg) (w : Nat) : Bool :=
  r.flds.any fun f => f.kept && (decide (bits w f.lo f.w < f.mn) || decide (f.mx < bits w f.lo f.w))
/-- The bits of a register that hold W1C flags. -/
def Reg.flagMask (r : Reg) : Nat := sumL ((r.flds.filter (·.acc == .w1c)).map fun f => (2 ^ f.w - 1) * 2 ^ f.lo)
/-- The word after an accepted write: read-write fields take the value, W1C bits written as 1 become 0 (R700). -/
def Reg.after (r : Reg) (old w : Nat) : Nat :=
  r.flds.foldl (fun x f =>
    if f.kept then setBits x f.lo f.w (bits w f.lo f.w)
    else if f.acc == .w1c then setBits x f.lo f.w (bits x f.lo f.w - (bits x f.lo f.w &&& bits w f.lo f.w))
    else x) old
/-- A refused write sets the CFG_ERR flag of the block the register belongs to. The limit table uses the flag of the axis;
LIM_FILTER names none. -/
def cfgErrAt (s : State) (key : Nat) : State :=
  match regAt key with
  | some (unit, some (o, b), _) => if 0x100000 ≤ key then flagRaw s (unit + o) (2 ^ b) else flag s (unit + o) (2 ^ b)
  | some (_, none, _) =>
    if 0x28000 ≤ key ∧ key < 0x30000 then ejErr s
    else if 0x4000 ≤ key ∧ key < 0x8000 then flag s kGlobal 1
    else if 0x19000 ≤ key ∧ key < 0x19080 then pierFlag s ((key - 0x19000) / 4) 4
    else if 0x19080 ≤ key ∧ key < 0x190C0 then sgFlag s ((key - 0x19080) / 4) 2
    else s
  | none => s
/-- A write of a register with no behaviour of its own, with one more check (R628, R695, R753). A W1C bit that
hardware sets in this cycle stays 1 (R698). -/
def plainWrite (s : State) (key w : Nat) (bad : Bool) : State :=
  match regAt key with
  | none => s
  | some (_, _, r) =>
    if s.mode = .run ∧ r.movesLocked (s.rd key) w then s
    else if r.outOfRange w || bad then cfgErrAt s key
    else s.wr key (r.after (s.rd key) (w - (w &&& (r.flagMask &&& s.setNow key))))

/-! Registers with checks of their own. -/

/-- `SPAN_CFG` (R14 to R16, R19). -/
def writeSpanCfg (s : State) (w : Nat) : State :=
  let q := bits w 0 14
  let pct := bits w 16 7
  let newQ := q != s.fld 0x2010 0 14
  if newQ && s.mode != .standby then flag s kSpan 8
  else if s.mode = .run then s
  else if q < 1000 ∨ 10000 < q ∨ pct < 40 ∨ 85 < pct then flag s kSpan 4
  else
    let s := s.wr 0x2010 (q + 2 ^ 16 * pct)
    if newQ then { s with tb := { s.tb with lenWrite := s.tb.lenWrite ++ [(q, s.now)] } } else s
/-- `TENANT_HB` (R705, R706): a change waits for the boundary. -/
def writeTenantHb (s : State) (t w : Nat) : State :=
  let v := w % 2 ^ 20
  let old := s.rd (ttKey t 8)
  if s.mode = .run then s
  else if 1 ≤ v ∧ v ≤ 15 then flag s kGlobal 1
  else if v = old then s
  else (s.wr (ttKey t 8) v).updTn t fun x => { x with hbPend := some v }
/-- Whether a group already has a pier or step generator bound, or commutates on its own (R562). -/
def State.groupTaken (s : State) (g : Nat) : Bool :=
  (s.pierOfGroup g).isSome || (s.sgOfGroup g).isSome || s.bitAt (bgKey g 0) 0
/-- Whether a PIER_OUT or SG_OUT value binds its unit to a group it is not bound to (KIND in bit 0, the group in bits 4:1). -/
def bindsNew (old w : Nat) : Bool := !bit w 0 && (bit old 0 || bits old 1 4 != bits w 1 4)
/-- The checks of a pier register (R32, R423, R441, R562). -/
def State.pierRegBad (s : State) (p o w : Nat) : Bool :=
  if o = 0 then (!bit w 0 && decide (15 < p)) || (bindsNew (s.rd (pierKey p 0)) w && s.groupTaken (bits w 1 4))
  else if o = 0x40 then bits w 8 7 % max 1 (bits w 0 5) != 0
  else if 0x80 ≤ o ∧ o < 0xC0 ∧ o % 0x10 = 0 then decide (400000000 ≤ 2 * bits w 16 15 * s.tb.len)
  else false
/-- A pier register. A write that carries COMM_CH, POLE_PAIRS or CPR clears ALIGNED, one of PIER_COMM_OFF sets it (R432). -/
def writePierReg (s : State) (p o w : Nat) : State :=
  let key := pierKey p o
  let bad := s.pierRegBad p o w
  let refused := match regAt key with
    | some (_, _, r) => r.outOfRange w || bad
    | none => true
  let s' := plainWrite s key w bad
  if s.mode = .run || refused then s'
  else if o = 0x1C then s'.updPier p fun x => { x with aligned := true }
  else if o = 4 ∨ o = 0x14 ∨ o = 0x18 then s'.updPier p fun x => { x with aligned := false }
  else s'
/-- The checks of a step generator register (R522, R546, R562). -/
def State.sgRegBad (s : State) (n o w : Nat) : Bool :=
  let on := (s.sg n).enabled
  let old := s.rd (sgKey n 0)
  if o = 0 then
    (on && bits w 0 9 != bits old 0 9) || (bindsNew old w && s.groupTaken (bits w 1 4))
  else if o = 4 then on && s.sgTooFast n (s.rd (sgKey n 0x1C)) (bits w 0 12)
  else if o = 0x1C then on && s.sgTooFast n w (s.fld (sgKey n 4) 0 12)
  else false
/-- `BG_CFG` and `BG_DEAD` (R556, R562). -/
def State.bgRegBad (s : State) (g o w : Nat) : Bool :=
  if o = 0 then bit w 0 && !s.bitAt (bgKey g 0) 0 && ((s.pierOfGroup g).isSome || (s.sgOfGroup g).isSome)
  else if o = 4 then decide (bits w 0 12 < 4)
  else false
/-- A bridge group register. A change of MODE or DIR acts on the legs at once. -/
def writeBgReg (s : State) (g o w : Nat) : State :=
  let s' := plainWrite s (bgKey g o) w (s.bgRegBad g o w)
  if o = 0 then evalStage s' g else s'
/-- A limit-table entry: a limit it makes active, or inactive, counts as that change of the input (R533 to R535). -/
def writeLimAxis (s : State) (a w : Nat) : State :=
  let s' := plainWrite s (0x19000 + 4 * a) w false
  limitAxis s s' a
/-- A CAN timing or mode register: only while STOPPED, and only with a timing every phase in use meets (R589, R592). -/
def writeCanTiming (s : State) (c o w : Nat) : State :=
  let key := canKey c o
  let word (k : Nat) : Nat := if k = o then w else s.rd (canKey c k)
  let changed := match regAt key with
    | some (_, _, r) => r.movesLocked (s.rd key) w
    | none => false
  plainWrite s key w (changed && ((s.can c).state != .stopped || !canTimingOk (word 0) (word 4) (word 8) (word 0xC)))
/-- `CAN_CMD`: tenant 0 commands a channel no tenant holds whole. -/
def writeCanCmd (s : State) (c w : Nat) (busy : Bool) : State :=
  if (tenantFind fun t => s.canUse t c == 1).isSome then s else canAct s c (bits w 0 2) busy none
/-- The QUOTA total a write would make (R289). -/
def State.quotaWith (s : State) (p w : Nat) : Nat :=
  sumL ((List.range 32).map fun q => if q = p then bits w 0 15 else s.fld (visKey q 0x10) 0 15)
/-- Whether a VIS_LANE value is refused (R304): X_END below X_START, or an overlap of two enabled lanes. -/
def State.laneBad (s : State) (p i w : Nat) : Bool :=
  let a := bits w 0 13
  let b := bits w 16 13
  decide (b < a) || (bit w 31 && (List.range 32).any fun j =>
    let x := s.rd (visKey p (0x80 + 4 * j))
    j != i && bit x 31 && decide (bits x 0 13 ≤ b) && decide (a ≤ bits x 16 13))
/-- A vision register. -/
def writeVisReg (s : State) (p o w : Nat) : State :=
  let bad := if o = 0x10 then decide (16384 < s.quotaWith p w) && decide (s.fld (visKey p 0x10) 0 15 < bits w 0 15)
    else if 0x80 ≤ o ∧ o < 0x100 then s.laneBad p ((o - 0x80) / 4) w
    else false
  plainWrite s (visKey p o) w bad
/-- A feedback register other than FB_CFG: its range is judged when the channel is enabled (R375, R420). -/
def writeFbReg (s : State) (n o w : Nat) : State :=
  let key := fbKey n o
  match regAt key with
  | none => s
  | some (_, _, r) =>
    if s.mode = .run ∧ r.movesLocked (s.rd key) w then s
    else if s.fbOn n ∧ r.movesLocked (s.rd key) w then fbFlag s n 0x100
    else s.wr key (r.after (s.rd key) (w - (w &&& (r.flagMask &&& s.setNow key))))
/-- An EMU register other than EMU_CFG (R420). -/
def writeEmuReg (s : State) (e o w : Nat) : State :=
  let key := emuKey e o
  let moves := match regAt key with
    | some (_, _, r) => r.movesLocked (s.rd key) w
    | none => false
  plainWrite s key w (s.bitAt (emuKey e 0) 0 && moves)
/-- A camera register other than CAM_CFG and the rings (R264, R265). -/
def writeCamReg (s : State) (c o w : Nat) : State :=
  if o = 0 then writeCamCfg s c w
  else if 0x80 ≤ o ∧ o < 0x100 then
    let v := (o - 0x80) / 0x20
    if o % 0x20 = 0 then writeVcFmt s c v w else if o % 0x20 = 4 then writeVcRing s c v w else s
  else plainWrite s (camKey c o) w (o == 8 && decide (s.tb.len ≤ bits w 0 16))
/-- A peak-and-hold register: a satellite valve's settings are pushed to its node (R372). -/
def writePhReg (s : State) (v o w : Nat) : State :=
  let key := phKey v o
  let refused := match regAt key with
    | some (_, _, r) => r.outOfRange w
    | none => true
  let s' := plainWrite s key w false
  if s.mode = .run || refused then s' else phPush s' v key (s'.rd key)
/-- A register of a tenant page: state control, heartbeat, published records, rings and queues (Tables 19-7, 04-6, 06-6). -/
def writePageReg (s : State) (tn o w : Nat) : State :=
  if o = 4 then
    (if bits w 0 2 = 1 then doAttach s tn else if bits w 0 2 = 2 then doDetach s tn else s)
  else if o = 0x20 then feedHeartbeat s tn
  else if o = 0x74 then pubSel s tn w
  else if 0x400 ≤ o ∧ o < 0x600 then
    let n := (o - 0x400) / 0x20
    if o % 0x20 = 0 ∨ o % 0x20 = 4 then writeSqBase s tn n (o % 0x20) w
    else if o % 0x20 = 8 then writeSqCfg s tn n w
    else plainWrite s (tkey tn o) w false
  else if 0x600 ≤ o ∧ o < 0x800 then
    let n := (o - 0x600) / 0x20
    if o % 0x20 = 0 ∨ o % 0x20 = 4 then writeCqBase s tn n (o % 0x20) w
    else if o % 0x20 = 8 then writeCqCfg s tn n w
    else plainWrite s (tkey tn o) w false
  else if 0x800 ≤ o then
    let q := (o - 0x800) / 0x20
    if o % 0x20 = 0 then writeQCfg s tn q w
    else if o % 0x20 = 4 then (if bit w 0 && s.qEnabled tn q then flushQueue s tn q true else s)
    else plainWrite s (tkey tn o) w false
  else plainWrite s (tkey tn o) w false
/-- A valve or row register. -/
def writeEjReg (s : State) (key w : Nat) : State :=
  if key < 0x2C800 then
    let v := (key - 0x28000) / 0x20
    if key % 0x20 = 0 then writeValveCfg s v w
    else if key % 0x20 = 4 then writeValveMin s v w
    else plainWrite s key w false
  else if key < 0x2F000 then writePhReg s ((key - 0x2C800) / 0x10) (key % 0x10) w
  else if key < 0x2F400 then
    let r := (key - 0x2F000) / 0x40
    if key % 0x40 = 0 then writeNrCfg s r w
    else if key % 0x40 = 0xC then writeNrPitch s r w
    else plainWrite s key w false
  else if key = 0x2F400 then writeHorizon s w
  else plainWrite s key w false
/-- `PP_UNSAFE_ACK` (R642). -/
def unsafeAck (s : State) (w : Nat) : State :=
  if !s.answers then s
  else if w = 0x6A3C19E5 ∧ s.mode = .commission then updPp s fun p => { p with unsafeAck := true }
  else ppFlag s 0x10

/-- A write of a whole register at a key. -/
def writeReg (s : State) (key w : Nat) (busy : Bool) : State :=
  if 0x100000 ≤ key then writePageReg s ((key - 0x100000) / 0x1000) (key % 0x1000) w
  else if key < 0x1000 then (if key = 0x100 then writeAvsCfg s w else plainWrite s key w false)
  else if key < 0x4000 then
    (if key = 0x2010 then writeSpanCfg s w
    else plainWrite s key w (key == 0x2050 && decide (bits w 8 16 < 2 * bits w 0 8)))
  else if key < 0x8000 then
    let t := (key - 0x4000) / 0x40
    if key % 0x40 = 0 then writeTenantCfg s t w
    else if key % 0x40 = 8 then writeTenantHb s t w
    else plainWrite s key w false
  else if key < 0x10000 then
    (if key < 0x8380 then writeStaging s key w
    else if key = 0x8400 then grantCommit s w
    else if key = 0x8408 then grantLoad s w
    else plainWrite s key w false)
  else if key < 0x18000 then writePierReg s ((key - 0x10000) / 0x400) (key % 0x400) w
  else if key < 0x19000 then
    let n := (key - 0x18000) / 0x100
    plainWrite s key w (s.sgRegBad n (key % 0x100) w)
  else if key < 0x190C0 then writeLimAxis s ((key - 0x19000) / 4) w
  else if key < 0x20000 then plainWrite s key w false
  else if key < 0x21000 then writeBgReg s ((key - 0x20000) / 0x100) (key % 0x100) w
  else if key < 0x21800 then
    (if key % 0x40 = 0 then writePwmx s ((key - 0x21000) / 0x40) w else plainWrite s key w false)
  else if key < 0x28000 then plainWrite s key w false
  else if key < 0x30000 then writeEjReg s key w
  else if key < 0x32800 then
    let n := (key - 0x30000) / 0x100
    if key % 0x100 = 0 then writeFbCfg s n w else writeFbReg s n (key % 0x100) w
  else if key < 0x34000 then
    let e := (key - 0x32800) / 0x40
    if key % 0x40 = 0 then writeEmuCfg s e w else writeEmuReg s e (key % 0x40) w
  else if key < 0x38000 then writeCamReg s ((key - 0x34000) / 0x200) (key % 0x200) w
  else if key < 0x3C000 then writeVisReg s ((key - 0x38000) / 0x200) (key % 0x200) w
  else if key < 0x44000 then (if key = 0x40000 then writeTrCfg s w else plainWrite s key w false)
  else if key < 0x48000 then
    let c := (key - 0x44000) / 0x100
    let o := key % 0x100
    if o ≤ 0x10 then writeCanTiming s c o w
    else if o = 0x38 then writeCanCmd s c w busy
    else plainWrite s key w false
  else if key < 0x4C000 then
    (if key = 0x48004 then modeRequest s w
    else if key = 0x48020 then unsafeAck s w
    else plainWrite s key w false)
  else if key < 0x50000 then
    plainWrite s key w (key == 0x4C000 && (decide (bits w 0 10 < 60) || decide (600 < bits w 0 10)))
  else if key = 0x80018 then fwuCmd s (bits w 0 3)
  else plainWrite s key w false

/-! Host writes (R689, R690, R692). -/

/-- ACCESS_ERR of the page or of PF0 BAR0 (R689). -/
def accessErr (s : State) (key : Nat) : State :=
  if 0x100000 ≤ key then flagRaw s (tkey ((key - 0x100000) / 0x1000) 8) 8 else flag s kGlobal 8
/-- A write to an unimplemented offset (R692). -/
def badAddr (s : State) (key off : Nat) : State :=
  if 0x100000 ≤ key then s else flag (s.wr 0x28 (off % 2 ^ 20)) kGlobal 4
/-- The words of BAR0 a write of `len` bytes at `off` touches: each word's offset, and whether it is covered whole. -/
def touched (off len : Nat) : List (Nat × Bool) :=
  let first := off / 4
  (List.range ((off + len - 1) / 4 - first + 1)).map fun i =>
    let lo := 4 * (first + i)
    (lo, decide (off ≤ lo) && decide (lo + 4 ≤ off + len))
/-- One word of a write that breaks no rule of R689. -/
def writeWord (s : State) (fn off : Nat) (data : List Byte) (busy : Bool) (x : Nat × Bool) : State :=
  match keyOf fn x.1 with
  | none => s
  | some key =>
    if !s.keyAnswers key then s
    else if (regAt key).isSome then writeReg s key (leNat ((data.drop (x.1 - off)).take 4)) busy
    else badAddr s key (max off x.1)
/-- A write to BAR0. -/
def writeBar0 (s : State) (fn off : Nat) (data : List Byte) (busy : Bool) : State :=
  let ws := touched off data.length
  let part := ws.find? fun x => !x.2 && ((keyOf fn x.1).map fun k => (regAt k).isSome && s.keyAnswers k).getD false
  match data, part with
  | [], _ => s
  | _, some x => accessErr s ((keyOf fn x.1).getD 0)
  | _, none => ws.foldl (fun s x => writeWord s fn off data busy x) s

/-- One DWORD of an MSI-X table (R686). -/
def writeVecWord (s : State) (fn off v : Nat) : State :=
  let i := off / 16
  if msixSize fn ≤ i then s
  else
    let f := s.fn fn
    let x := f.vec i
    let y := match off % 16 / 4 with
      | 0 => { x with addr := setBits x.addr 0 32 v }
      | 1 => { x with addr := setBits x.addr 32 32 v }
      | 2 => { x with data := v }
      | _ => { x with masked := bit v 0 }
    sendPending (s.setFn fn (f.setVec i y)) fn i
/-- A write to BAR4: the table by aligned DWORDs and QWORDs, nothing else (R692). -/
def writeBar4 (s : State) (fn off : Nat) (data : List Byte) : State :=
  if !s.answers then s
  else if data.length = 4 ∧ off % 4 = 0 then writeVecWord s fn off (leNat data)
  else if data.length = 8 ∧ off % 8 = 0 then
    writeVecWord (writeVecWord s fn off (leNat (data.take 4))) fn (off + 4) (leNat (data.drop 4))
  else s

/-- The Command register: Memory Space Enable in bit 1, Bus Master Enable in bit 2 (R102, R650). -/
def writeCommand (s : State) (fn w : Nat) : State :=
  let s := s.updFn fn fun f => { f with memEn := bit w 1 }
  if bit w 2 then s.updFn fn fun f => { f with bme := true }
  else if (s.fn fn).bme then doBmeClear s fn
  else s
/-- The MSI-X Message Control word: Enable in bit 15, Function Mask in bit 14. Vectors it unmasks send what they hold (R165). -/
def writeMsixControl (s : State) (fn w : Nat) : State :=
  let s := s.updFn fn fun f => { f with msixEn := bit w 15, msixMask := bit w 14 }
  (List.range (msixSize fn)).foldl (fun s v => sendPending s fn v) s

/-- A host write reaches the device (R659, R660, R668, R690, R693). -/
def hostWrite (s : State) (fn : Nat) (target : Target) (data : List Byte) (busy : Bool) : State :=
  let cfg := s.link.up && s.fnExists fn && (s.fw.everReady || s.fw.inRecovery)
  match target with
  | .bar0 off => if s.reach fn then writeBar0 s fn off data busy else s
  | .bar2 off => if s.reach fn then doorbell s fn off (8 * data.length) (leNat data) else s
  | .bar4 off => if s.reach fn then writeBar4 s fn off data else s
  | .command => if cfg && !data.isEmpty then writeCommand s fn (leNat data) else s
  | .msixControl => if cfg && decide (2 ≤ data.length) then writeMsixControl s fn (leNat data) else s
  | .ptmControl =>
    if cfg && fn == 0 && !data.isEmpty then { s with refs := { s.refs with ptmCapable := bit (leNat data) 0 } } else s

/-- A clear of W1C bits that meets hardware sets in the same cycle (R698, R699). -/
def w1cClear (s : State) (key v hw : Nat) : State :=
  match regAt key with
  | none => s
  | some (_, _, r) =>
    let m := r.flagMask
    let old := s.rd key
    let v := v - (v &&& s.setNow key)
    let s := s.wr key (old - (old &&& (v &&& m)))
    let h := hw &&& m
    if h = 0 then s else if 0x100000 ≤ key then flagRaw s key h else flag s key h

/-! The commands. -/

/-- REGISTER_WRITE (R689, R690, R692, R753). -/
def execRegisterWrite (t : Nat) (fn : Fin 256) (target : Target) (data : List Byte) (busBusy : Bool) (s : State) :
    Host.Outcome State Fault Refusal :=
  act s fun s => hostWrite (advance s t) fn target data busBusy
/-- W1C_CLEAR (R698 to R700). -/
def execW1cClear (t : Nat) (fn : Fin 256) (off : Nat) (value hwSets : Word) (s : State) : Host.Outcome State Fault Refusal :=
  act s fun s =>
    let s := advance s t
    match keyOf fn off with
    | some key => if s.keyAnswers key then w1cClear s key value.toNat hwSets.toNat else s
    | none => s
/-- SPAN_CFG_WRITE (R14 to R19). -/
def execSpanCfgWrite (t : Nat) (value : Word) (s : State) : Host.Outcome State Fault Refusal :=
  act s fun s => if s.answers then writeSpanCfg (advance s t) value.toNat else advance s t
/-- PIER_COMM_OFF_WRITE (R432). -/
def execPierCommOffWrite (t : Nat) (p : Fin 32) (reg : CommReg) (value : Word) (s : State) : Host.Outcome State Fault Refusal :=
  act s fun s =>
    let s := advance s t
    let o := match reg with
      | .commOff => 0x1C
      | .motor => 0x14
      | .cpr => 0x18
      | .fb => 4
    if s.answers then writePierReg s p o value.toNat else s

end Sys2Proof.Machine
end

