-- ==== Sys2Proof/Machine/Span.lean ====
section
/-!
DEFINITION. PORST_N, the timebase PLL, and the instants of a span: the boundary, the sample instant and the compute deadline
(chapter 01, R8 to R38, R752, and the per-span work of the other chapters).
-/
namespace Sys2Proof.Machine

/-! PORST_N (R9, R631, R648, R694). -/

/-- PORST_N low: everything returns to its reset value but what stands outside the device or does not lose it: the supplies,
PERST_N, the boot flash and the fuses. -/
def porstLow (s : State) : State :=
  { State.reset with
    power := { Power.reset with porstHigh := false, railOk := s.power.railOk, vgdMv := s.power.vgdMv, vvMv := s.power.vvMv }
    link := { Link.reset with perstHigh := s.link.perstHigh }
    fw := { Firmware.reset with ctl0 := s.fw.ctl0, ctl1 := s.fw.ctl1, imgA := s.fw.imgA, imgB := s.fw.imgB, svnMin := s.fw.svnMin }
    out := s.out
    freeCtr := s.freeCtr
    nextId := s.nextId
    pending := s.pending }
/-- PORST_N_ASSERT. -/
def execPorstNAssert (s : State) : Host.Outcome State Fault Refusal := .next (porstLow s)
/-- PORST_N_RELEASE: Parapet and the boot ROM start; device time waits for the PLL. -/
def execPorstNRelease (s : State) : Host.Outcome State Fault Refusal :=
  .next { s with power := { s.power with porstHigh := true } }
/-- TIMEBASE_PLL_LOCK: device time counts from here. -/
def execTimebasePllLock (s : State) : Host.Outcome State Fault Refusal :=
  act s fun s => { s with power := { s.power with pll := true } }

/-! The span length and the instants (R14, R18, R20, R752). -/

/-- D of a length and a percentage (R18). -/
def computeTick (len pct : Nat) : Nat := len * pct / 100
/-- The LENGTH_Q value a boundary puts in force: the last write at least 64 ticks before it. -/
def TimeBase.dueLen (b : TimeBase) : Option Nat :=
  ((b.lenWrite.filter fun x => decide (x.2 + 64 ≤ b.boundary)).getLast?).map (·.1)
/-- Changes of LENGTH_Q, OFFSET and DEADLINE_PCT at a boundary: all take effect, or all that are due are refused and the
fields read back what is kept. -/
def spanSettings (s : State) : State :=
  let b := s.tb
  let len := (b.dueLen.map (4 * ·)).getD b.len
  let off := s.fld 0x2014 0 12
  let pct := s.fld 0x2010 16 7
  let later := b.lenWrite.filter fun x => !decide (x.2 + 64 ≤ b.boundary)
  let s := { s with tb := { b with lenWrite := later } }
  if len = b.len ∧ off = b.offset ∧ pct = b.pct then s
  else if off + 1000 ≤ computeTick len pct then { s with tb := { s.tb with len := len, offset := off, pct := pct } }
  else
    let s := (s.setFld 0x2014 0 12 b.offset).setFld 0x2010 16 7 b.pct
    let s := if later.isEmpty then s.setFld 0x2010 0 14 (b.len / 4) else s
    flag s kSpan 4

/-! Tenants at a boundary (R103, R109, R706, R707). -/

/-- The gap count, a new HB_LIMIT, a new publish mode and the spans left of one tenant. -/
def tenantBoundary (s : State) (tn : Nat) : State :=
  let t := s.tn tn
  let gap := if t.st = .attached ∧ t.hbLimit ≠ 0 ∧ !t.hbSeen then t.hbGap + 1 else 0
  let s := s.setTn tn
    { t with
      hbGap := gap
      hbSeen := false
      pubExpert := t.pubPend.getD t.pubExpert
      pubPend := none
      orphLeft := if t.st = .orphan ∧ t.policy = 0 then t.orphLeft - 1 else t.orphLeft }
  match t.hbPend with
  | none => s
  | some v => (doHbExpiry s tn).updTn tn fun x => { x with hbLimit := v, hbPend := none, hbGap := 0 }

/-! The boundary (R12, R13). -/

/-- The summary message of flags set since the last boundary (R702). -/
def summaryIrq (s : State) : State :=
  if s.irqPend then signal { s with irqPend := false } 0 (s.fld 0x30 0 7) else s
/-- The units whose settings and commands take effect at a boundary. `len` is the length of the closed span. -/
def unitsBoundary (s : State) (len : Nat) (changed : Bool) : State :=
  let s := refsBoundary s len changed
  let s := (List.range 32).foldl (pierBoundary · changed ·) s
  let s := (List.range 16).foldl sgBoundary s
  let s := (s.groups.map (·.1)).foldl groupBoundary s
  let s := (List.range 16).foldl sgOpen s
  let s := (List.range 16).foldl auxBoundary s
  (List.range 8).foldl camBoundary s
/-- Keystone and the engines it plans. -/
def workBoundary (s : State) (len : Nat) (changed : Bool) : State :=
  let s := keystoneBoundary s changed
  let s := (List.range 32).foldl visBoundary s
  arcBoundary (satBoundary (ringBoundary s len))
/-- A span boundary. -/
def spanBoundary (s : State) : State :=
  let len := s.tb.len
  let b := s.tb.boundary + len
  let s := { s with tb := { s.tb with now := max s.tb.now b, boundary := b, spanIx := s.tb.spanIx + 1, sampled := false, judged := false } }
  let s := spanSettings (summaryIrq s)
  let changed := s.tb.len != len
  let s := (s.tns.map (·.1)).foldl tenantBoundary (ppHeartbeat s)
  let s := if s.power.railOk.getD 0 false then { s with power := { s.power with gateHold := false } } else s
  let s := workBoundary (unitsBoundary s len changed) len changed
  ageSpan s len
/-- SPAN_BOUNDARY: none while device time is held (R9). -/
def execSpanBoundary (s : State) : Host.Outcome State Fault Refusal := act s fun s => if s.power.pll then spanBoundary s else s

/-! The sample instant (R17). -/

/-- What a source publishes: whether it is live, its position, velocity and POSITION_SUSPECT state (R85 to R87). -/
def State.pubSource (s : State) (kind i : Nat) : Bool × Int × Int × Bool :=
  if kind = 0 then
    let f := s.fb (s.posCh i)
    let m := (s.pier i).mode
    (m != .disabled && m != .fault, f.snapPos, f.snapVel, f.suspect)
  else if kind = 1 then ((s.sg i).enabled && !(s.sg i).fault, s.sgPos i, (s.axis (32 + i)).v, false)
  else
    let f := s.fb i
    (s.fbOn i && !f.fault, f.snapPos, f.snapVel, f.suspect)
/-- The published record of a source is written. -/
def pubWrite (s : State) (k : Nat) : State :=
  let r := storeGet (fun _ => PubRec.reset) s.pubRec k
  let x := s.pubSource (k / 64) (k % 64)
  let n : PubRec :=
    if x.1 then { pos := x.2.1, vel := x.2.2.1, span := s.spanCount, valid := true, suspect := x.2.2.2 }
    else { r with span := s.spanCount, valid := false, suspect := x.2.2.2 }
  { s with pubRec := storePut (fun _ => PubRec.reset) s.pubRec k n }
/-- The sample instant of a span: snapshots, published records, references, loops, step generator checks. -/
def sampleInstant (s : State) (m : Measured) : State :=
  let s := { s with tb := { s.tb with now := max s.tb.now (s.tb.boundary + s.tb.offset), sampled := true } }
  let s := busSense s m
  let s := (List.range 40).foldl fbSnapshot s
  let s := (s.pubOn.map (·.1)).foldl pubWrite s
  let s := (List.range 32).foldl pierLimit s
  let s := allRefs s
  let s := (List.range 32).foldl (pierSample · m ·) s
  (List.range 16).foldl (sgSample · m ·) s
/-- SAMPLE_INSTANT: once in a span. -/
def execSampleInstant (m : Measured) (s : State) : Host.Outcome State Fault Refusal :=
  act s fun s => if s.power.pll && !s.tb.sampled then sampleInstant s m else s

/-! The compute deadline (R18, R21, R37). -/

/-- The tenants a grant has been committed for. -/
def State.granted (s : State) : List Nat := (s.grants.map (·.1 / 0x400)).eraseDups
/-- The compute deadline: pier misses, then load-all for every tenant in basic mode, missed piers left out. -/
def computeDeadline (s : State) (missed : List Nat) : State :=
  let s := { s with tb := { s.tb with now := max s.tb.now (s.tb.boundary + computeTick s.tb.len s.tb.pct), judged := true } }
  let late := (List.range 32).filter fun p => missed.contains p && (s.pier p).mode != .disabled && (s.pier p).mode != .fault
  let s := flagIf (countN s 0x2024 late.length) (!late.isEmpty) kSpan 2
  let stages := late.map s.pierStage
  let s := (List.range 32).foldl (fun s p => pierDeadline s (late.contains p) p) s
  (s.granted.filter fun t => !(s.tn t).pubExpert).foldl
    (fun s t => loadAll s t true fun ch => decide (ch < 160) && stages.contains (stageOf ch)) s
/-- COMPUTE_DEADLINE: once in a span. -/
def execComputeDeadline (missed : List (Fin 32)) (s : State) : Host.Outcome State Fault Refusal :=
  act s fun s => if s.power.pll && !s.tb.judged then computeDeadline s (missed.map Fin.val) else s

end Sys2Proof.Machine
end

