-- ==== Sys2Proof/Machine/Dispatch.lean ====
section
/-!
DEFINITION. The effect of every command on everything but the queue: one arm per command, one call of its meaning.
-/
namespace Sys2Proof.Machine

/-- The effect of a command. -/
def exec (i : Instr) (s : State) : Host.Outcome State Fault Refusal :=
  match i with
  -- Device time and the span; register access; timing references (chapters 01, 19, 02)
  | .porstNAssert => Sys2Proof.Machine.execPorstNAssert s
  | .porstNRelease => Sys2Proof.Machine.execPorstNRelease s
  | .timebasePllLock => Sys2Proof.Machine.execTimebasePllLock s
  | .spanBoundary => Sys2Proof.Machine.execSpanBoundary s
  | .spanCfgWrite t value => Sys2Proof.Machine.execSpanCfgWrite t value s
  | .sampleInstant m => Sys2Proof.Machine.execSampleInstant m s
  | .computeDeadline missed => Sys2Proof.Machine.execComputeDeadline missed s
  | .pwmPeriodStart t ch => Sys2Proof.Machine.execPwmPeriodStart t ch s
  | .loadAllDoorbell t tn width align => Sys2Proof.Machine.execLoadAllDoorbell t tn width align s
  | .loRegisterRead t fn off len => Sys2Proof.Machine.execLoRegisterRead t fn off len s
  | .w1cClear t fn off value hwSets => Sys2Proof.Machine.execW1cClear t fn off value hwSets s
  | .registerWrite t fn target data busBusy => Sys2Proof.Machine.execRegisterWrite t fn target data busBusy s
  | .holdoverExpiry => Sys2Proof.Machine.execHoldoverExpiry s
  | .syncInEdge t64 yCand => Sys2Proof.Machine.execSyncInEdge t64 yCand s
  | .syncInLost => Sys2Proof.Machine.execSyncInLost s
  | .syncLenMismatch => Sys2Proof.Machine.execSyncLenMismatch s
  | .syncOutPulseEnd t => Sys2Proof.Machine.execSyncOutPulseEnd t s
  | .ptmRequest => Sys2Proof.Machine.execPtmRequest s
  | .ptmExchangeDone t hostNs residual64 yCand => Sys2Proof.Machine.execPtmExchangeDone t hostNs residual64 yCand s
  | .ptmTimeout => Sys2Proof.Machine.execPtmTimeout s
  -- Tenants, grants, attach and detach (chapters 03, 18, 19)
  | .grantCommitWrite t value => Sys2Proof.Machine.execGrantCommitWrite t value s
  | .grantCommitCheck => Sys2Proof.Machine.execGrantCommitCheck s
  | .grantLoad t tn => Sys2Proof.Machine.execGrantLoad t tn s
  | .grantLoadClear t tn => Sys2Proof.Machine.execGrantLoadClear t tn s
  | .attach t tn => Sys2Proof.Machine.execAttach t tn s
  | .attachEvaluation tn => Sys2Proof.Machine.execAttachEvaluation tn s
  | .detach t tn => Sys2Proof.Machine.execDetach t tn s
  | .detachComplete t tn => Sys2Proof.Machine.execDetachComplete t tn s
  | .release t tn value => Sys2Proof.Machine.execRelease t tn value s
  | .linkDown t => Sys2Proof.Machine.execLinkDown t s
  | .perstNAssert t => Sys2Proof.Machine.execPerstNAssert t s
  | .perstNRelease t => Sys2Proof.Machine.execPerstNRelease t s
  | .linkTrained t w r => Sys2Proof.Machine.execLinkTrained t w r s
  | .linkRetrain t w r => Sys2Proof.Machine.execLinkRetrain t w r s
  | .flr t fn => Sys2Proof.Machine.execFlr t fn s
  | .busMasterEnableClear t fn => Sys2Proof.Machine.execBusMasterEnableClear t fn s
  | .vfEnableClear t => Sys2Proof.Machine.execVfEnableClear t s
  | .heartbeatExpiry tn => Sys2Proof.Machine.execHeartbeatExpiry tn s
  | .orphanEntry tn => Sys2Proof.Machine.execOrphanEntry tn s
  | .orphanLimitExpiry tn => Sys2Proof.Machine.execOrphanLimitExpiry tn s
  | .tnHeartbeat t tn => Sys2Proof.Machine.execTnHeartbeat t tn s
  | .nop t d => Sys2Proof.Machine.execNop t d s
  | .heartbeat t d => Sys2Proof.Machine.execHeartbeat t d s
  | .tenantHold t d => Sys2Proof.Machine.execTenantHold t d s
  | .holdTakesEffect tn => Sys2Proof.Machine.execHoldTakesEffect tn s
  | .tenantHoldDone tn => Sys2Proof.Machine.execTenantHoldDone tn s
  | .tenantRelease t d => Sys2Proof.Machine.execTenantRelease t d s
  | .publish t d => Sys2Proof.Machine.execPublish t d s
  | .loadAll t d => Sys2Proof.Machine.execLoadAll t d s
  | .holdOtherHold t d => Sys2Proof.Machine.execHoldOtherHold t d s
  | .holdOtherRelease t d => Sys2Proof.Machine.execHoldOtherRelease t d s
  -- Soesk rings (chapter 04)
  | .sqTailDoorbell t tn off width value => Sys2Proof.Machine.execSqTailDoorbell t tn off width value s
  | .cqHeadDoorbell t tn off width value => Sys2Proof.Machine.execCqHeadDoorbell t tn off width value s
  | .sqEnable t tn n value => Sys2Proof.Machine.execSqEnable t tn n value s
  | .sqDisable t tn n value => Sys2Proof.Machine.execSqDisable t tn n value s
  | .cqEnable t tn n value => Sys2Proof.Machine.execCqEnable t tn n value s
  | .cqDisable t tn n value => Sys2Proof.Machine.execCqDisable t tn n value s
  | .descriptorFetch t tn n got => Sys2Proof.Machine.execDescriptorFetch t tn n got s
  | .applySpanAdmission job => Sys2Proof.Machine.execApplySpanAdmission job s
  | .fenceAdmission t job => Sys2Proof.Machine.execFenceAdmission t job s
  | .cqAgeExpiry tn n => Sys2Proof.Machine.execCqAgeExpiry tn n s
  | .msixVectorUnmask t fn v => Sys2Proof.Machine.execMsixVectorUnmask t fn v s
  -- Keystone (chapter 05)
  | .shed job => Sys2Proof.Machine.execShed job s
  | .bShed job => Sys2Proof.Machine.execBShed job s
  | .sliceComplete t job tus r => Sys2Proof.Machine.execSliceComplete t job tus r s
  -- Device queues (chapter 06)
  | .queueOffer t tn q it => Sys2Proof.Machine.execQueueOffer t tn q it s
  | .qEnable t tn q value => Sys2Proof.Machine.execQEnable t tn q value s
  | .qDisable t tn q value => Sys2Proof.Machine.execQDisable t tn q value s
  | .qCtrlFlush t tn q => Sys2Proof.Machine.execQCtrlFlush t tn q s
  | .queueRead t d => Sys2Proof.Machine.execQueueRead t d s
  | .queueMark t d => Sys2Proof.Machine.execQueueMark t d s
  | .queueRewind t d => Sys2Proof.Machine.execQueueRewind t d s
  | .queueRelease t d => Sys2Proof.Machine.execQueueRelease t d s
  | .queueFlush t d => Sys2Proof.Machine.execQueueFlush t d s
  -- Cameras and the Deck (chapter 07)
  | .camEnable t c value => Sys2Proof.Machine.execCamEnable t c value s
  | .camVcRingEnable t c v value => Sys2Proof.Machine.execCamVcRingEnable t c v value s
  | .deskewReceived t c => Sys2Proof.Machine.execDeskewReceived t c s
  | .frameStart t c v h => Sys2Proof.Machine.execFrameStart t c v h s
  | .longPacket t c v h dt pixels crcOk => Sys2Proof.Machine.execLongPacket t c v h dt pixels crcOk s
  | .frameEnd t c v h => Sys2Proof.Machine.execFrameEnd t c v h s
  | .camTrigRise t c => Sys2Proof.Machine.execCamTrigRise t c s
  | .camTrigPulseEnd t c => Sys2Proof.Machine.execCamTrigPulseEnd t c s
  | .exposureEvent t c => Sys2Proof.Machine.execExposureEvent t c s
  | .portLost c => Sys2Proof.Machine.execPortLost c s
  | .deckScrubRead t ecc => Sys2Proof.Machine.execDeckScrubRead t ecc s
  | .camTrigger t d => Sys2Proof.Machine.execCamTrigger t d s
  | .frameRead t d => Sys2Proof.Machine.execFrameRead t d s
  | .frameReadCopyDone t job => Sys2Proof.Machine.execFrameReadCopyDone t job s
  -- Vision engines (chapter 08)
  | .pyramidDone t p errs => Sys2Proof.Machine.execPyramidDone t p errs s
  | .motionEstimationDone t p => Sys2Proof.Machine.execMotionEstimationDone t p s
  | .blobClassifyDone t p => Sys2Proof.Machine.execBlobClassifyDone t p s
  | .trackerRun t p => Sys2Proof.Machine.execTrackerRun t p s
  | .visStart t d => Sys2Proof.Machine.execVisStart t d s
  | .visStop t d => Sys2Proof.Machine.execVisStop t d s
  | .visStopDone t p => Sys2Proof.Machine.execVisStopDone t p s
  | .visClassLoad t d => Sys2Proof.Machine.execVisClassLoad t d s
  | .visBgCapture t d => Sys2Proof.Machine.execVisBgCapture t d s
  | .visParam t d => Sys2Proof.Machine.execVisParam t d s
  -- Arc unit, event wheel and valves (chapter 09)
  | .nrEnable t r value => Sys2Proof.Machine.execNrEnable t r value s
  | .nrDisable t r value => Sys2Proof.Machine.execNrDisable t r value s
  | .ejectStart t d => Sys2Proof.Machine.execEjectStart t d s
  | .ejectStop t d => Sys2Proof.Machine.execEjectStop t d s
  | .ejectTrim t d => Sys2Proof.Machine.execEjectTrim t d s
  | .valveTest t d => Sys2Proof.Machine.execValveTest t d s
  | .ejectAt t d => Sys2Proof.Machine.execEjectAt t d s
  | .valveLatSet t d => Sys2Proof.Machine.execValveLatSet t d s
  | .valveSig t d => Sys2Proof.Machine.execValveSig t d s
  | .valveClear t d pathRestored => Sys2Proof.Machine.execValveClear t d pathRestored s
  | .arcFit t r => Sys2Proof.Machine.execArcFit t r s
  | .eventInsert t => Sys2Proof.Machine.execEventInsert t s
  | .valveOpen t v => Sys2Proof.Machine.execValveOpen t v s
  | .valvePeakEnd t v => Sys2Proof.Machine.execValvePeakEnd t v s
  | .valveClose t v samples => Sys2Proof.Machine.execValveClose t v samples s
  | .valveFault t v cause => Sys2Proof.Machine.execValveFault t v cause s
  | .valveEnable t v value => Sys2Proof.Machine.execValveEnable t v value s
  | .valveDisable t v value => Sys2Proof.Machine.execValveDisable t v value s
  -- The Trestle ring (chapter 10)
  | .trestleEnable t value => Sys2Proof.Machine.execTrestleEnable t value s
  | .linkUpDone t nodes hops closed => Sys2Proof.Machine.execLinkUpDone t nodes hops closed s
  | .linkUpTimeout => Sys2Proof.Machine.execLinkUpTimeout s
  | .edgeFreeze t => Sys2Proof.Machine.execEdgeFreeze t s
  | .sweepSend t => Sys2Proof.Machine.execSweepSend t s
  | .sweepReturn t half wrappedAt frameCrcOk replies => Sys2Proof.Machine.execSweepReturn t half wrappedAt frameCrcOk replies s
  | .westHalfSend t => Sys2Proof.Machine.execWestHalfSend t s
  | .hopBreak t hop => Sys2Proof.Machine.execHopBreak t hop s
  | .hopRejoin t hop nodes => Sys2Proof.Machine.execHopRejoin t hop nodes s
  | .trSweepReport t d => Sys2Proof.Machine.execTrSweepReport t d s
  | .trNodeRead t d => Sys2Proof.Machine.execTrNodeRead t d s
  | .trNodeWrite t d => Sys2Proof.Machine.execTrNodeWrite t d s
  | .trRelink t d => Sys2Proof.Machine.execTrRelink t d s
  -- Feedback channels and EMU outputs (chapter 11)
  | .fbEnable t n value => Sys2Proof.Machine.execFbEnable t n value s
  | .quadratureEdge t n a b => Sys2Proof.Machine.execQuadratureEdge t n a b s
  | .emuPulseEnd t e => Sys2Proof.Machine.execEmuPulseEnd t e s
  | .indexEdge t n => Sys2Proof.Machine.execIndexEdge t n s
  | .hallCodeChange t n code => Sys2Proof.Machine.execHallCodeChange t n code s
  | .hallFault t n => Sys2Proof.Machine.execHallFault t n s
  | .hallFaultClear t n => Sys2Proof.Machine.execHallFaultClear t n s
  | .serialTransactionStart t n => Sys2Proof.Machine.execSerialTransactionStart t n s
  | .serialTransactionDone t n rx => Sys2Proof.Machine.execSerialTransactionDone t n rx s
  | .startTimeout t n lineLow => Sys2Proof.Machine.execStartTimeout t n lineLow s
  | .still t n => Sys2Proof.Machine.execStill t n s
  | .fbSetPos t d => Sys2Proof.Machine.execFbSetPos t d s
  | .fbStream t d => Sys2Proof.Machine.execFbStream t d s
  | .fbEssRead t d => Sys2Proof.Machine.execFbEssRead t d s
  | .fbEssWrite t d => Sys2Proof.Machine.execFbEssWrite t d s
  | .emuEnable t e value => Sys2Proof.Machine.execEmuEnable t e value s
  | .emuStart t d => Sys2Proof.Machine.execEmuStart t d s
  | .emuStop t d => Sys2Proof.Machine.execEmuStop t d s
  -- Piers (chapter 12)
  | .pierEnable t d => Sys2Proof.Machine.execPierEnable t d s
  | .pierDisable t d => Sys2Proof.Machine.execPierDisable t d s
  | .pierAlign t d => Sys2Proof.Machine.execPierAlign t d s
  | .pierAlignDone t p => Sys2Proof.Machine.execPierAlignDone t p s
  | .pierMove t d => Sys2Proof.Machine.execPierMove t d s
  | .pierJog t d => Sys2Proof.Machine.execPierJog t d s
  | .pierTorque t d => Sys2Proof.Machine.execPierTorque t d s
  | .pierStop t d => Sys2Proof.Machine.execPierStop t d s
  | .pierCoef t d => Sys2Proof.Machine.execPierCoef t d s
  | .pierFilter t d => Sys2Proof.Machine.execPierFilter t d s
  | .pierVolt t d => Sys2Proof.Machine.execPierVolt t d s
  | .pierClear t d => Sys2Proof.Machine.execPierClear t d s
  | .pierCommOffWrite t p reg value => Sys2Proof.Machine.execPierCommOffWrite t p reg value s
  -- Paths, stays, cams and latches (chapter 13)
  | .profileMove t d => Sys2Proof.Machine.execProfileMove t d s
  | .axisStopCfg t d => Sys2Proof.Machine.execAxisStopCfg t d s
  | .groupOpen t d => Sys2Proof.Machine.execGroupOpen t d s
  | .groupClose t d => Sys2Proof.Machine.execGroupClose t d s
  | .segAppend t d => Sys2Proof.Machine.execSegAppend t d s
  | .groupCtrlStop t d => Sys2Proof.Machine.execGroupCtrlStop t d s
  | .groupCtrlHold t d => Sys2Proof.Machine.execGroupCtrlHold t d s
  | .groupCtrlResume t d => Sys2Proof.Machine.execGroupCtrlResume t d s
  | .groupCtrlOverride t d => Sys2Proof.Machine.execGroupCtrlOverride t d s
  | .stayOpen t d => Sys2Proof.Machine.execStayOpen t d s
  | .stayEngage t d => Sys2Proof.Machine.execStayEngage t d s
  | .stayRelease t d => Sys2Proof.Machine.execStayRelease t d s
  | .stayClose t d => Sys2Proof.Machine.execStayClose t d s
  | .stayCoastExpiry y => Sys2Proof.Machine.execStayCoastExpiry y s
  | .camLoad t d => Sys2Proof.Machine.execCamLoad t d s
  | .latchArm t d => Sys2Proof.Machine.execLatchArm t d s
  | .latchDisarm t d => Sys2Proof.Machine.execLatchDisarm t d s
  | .linkInfo t d => Sys2Proof.Machine.execLinkInfo t d s
  | .probeEdge t inp rising => Sys2Proof.Machine.execProbeEdge t inp rising s
  -- Step generators and limits (chapter 14)
  | .sgEnable t d => Sys2Proof.Machine.execSgEnable t d s
  | .sgDisable t d => Sys2Proof.Machine.execSgDisable t d s
  | .sgMove t d => Sys2Proof.Machine.execSgMove t d s
  | .sgJog t d => Sys2Proof.Machine.execSgJog t d s
  | .sgStop t d => Sys2Proof.Machine.execSgStop t d s
  | .sgSetPos t d => Sys2Proof.Machine.execSgSetPos t d s
  | .sgRate t d => Sys2Proof.Machine.execSgRate t d s
  | .sgCoil t d => Sys2Proof.Machine.execSgCoil t d s
  | .sgClear t d => Sys2Proof.Machine.execSgClear t d s
  | .stepEmit t n => Sys2Proof.Machine.execStepEmit t n s
  | .stepPulseEnd t n => Sys2Proof.Machine.execStepPulseEnd t n s
  | .sgStandstill n => Sys2Proof.Machine.execSgStandstill n s
  | .limitInput t inp high => Sys2Proof.Machine.execLimitInput t inp high s
  -- PWM and gate drive (chapter 15)
  | .pwmCompareEdge t64 ch bootMv sense => Sys2Proof.Machine.execPwmCompareEdge t64 ch bootMv sense s
  | .desat t g leg high mv => Sys2Proof.Machine.execDesat t g leg high mv s
  | .overcurrent t g leg current => Sys2Proof.Machine.execOvercurrent t g leg current s
  | .busOv t g mv => Sys2Proof.Machine.execBusOv t g mv s
  | .gateUv t f mv => Sys2Proof.Machine.execGateUv t f mv s
  | .footingOvertemp t f tempC => Sys2Proof.Machine.execFootingOvertemp t f tempC s
  | .xflt t n low => Sys2Proof.Machine.execXflt t n low s
  | .gdEnLow t f => Sys2Proof.Machine.execGdEnLow t f s
  | .gdEnHigh t f => Sys2Proof.Machine.execGdEnHigh t f s
  | .ginChange t g code => Sys2Proof.Machine.execGinChange t g code s
  | .pwmxDriveWrite t n value => Sys2Proof.Machine.execPwmxDriveWrite t n value s
  | .pwmRaw t d => Sys2Proof.Machine.execPwmRaw t d s
  | .gateMask t d => Sys2Proof.Machine.execGateMask t d s
  | .pwmHalt t d => Sys2Proof.Machine.execPwmHalt t d s
  | .pwmResume t d => Sys2Proof.Machine.execPwmResume t d s
  | .pwmRestart => Sys2Proof.Machine.execPwmRestart s
  | .auxDuty t d => Sys2Proof.Machine.execAuxDuty t d s
  | .blockDuty t d => Sys2Proof.Machine.execBlockDuty t d s
  | .groupInfo t d => Sys2Proof.Machine.execGroupInfo t d s
  | .frozenOnExpiry t x => Sys2Proof.Machine.execFrozenOnExpiry t x s
  -- CAN (chapter 16)
  | .canTx t d hostData => Sys2Proof.Machine.execCanTx t d hostData s
  | .canTxXl t d => Sys2Proof.Machine.execCanTxXl t d s
  | .canTxXlDataArrival t job data => Sys2Proof.Machine.execCanTxXlDataArrival t job data s
  | .canFilter t d => Sys2Proof.Machine.execCanFilter t d s
  | .canTap t d => Sys2Proof.Machine.execCanTap t d s
  | .canStart t d => Sys2Proof.Machine.execCanStart t d s
  | .canStop t d busy => Sys2Proof.Machine.execCanStop t d busy s
  | .canSleep t d busy => Sys2Proof.Machine.execCanSleep t d busy s
  | .canRecover t d => Sys2Proof.Machine.execCanRecover t d s
  | .canConfig t d => Sys2Proof.Machine.execCanConfig t d s
  | .canInfo t d => Sys2Proof.Machine.execCanInfo t d s
  | .canFrameReceived t c sof f => Sys2Proof.Machine.execCanFrameReceived t c sof f s
  | .canFrameTransmitted t c sof => Sys2Proof.Machine.execCanFrameTransmitted t c sof s
  | .oneShotArbLost t c sof winner index => Sys2Proof.Machine.execOneShotArbLost t c sof winner index s
  | .canBusError t c sof kind => Sys2Proof.Machine.execCanBusError t c sof kind s
  | .canRxError t c afterFlag => Sys2Proof.Machine.execCanRxError t c afterFlag s
  | .busOff t c => Sys2Proof.Machine.execBusOff t c s
  | .busOffRecovered t c => Sys2Proof.Machine.execBusOffRecovered t c s
  | .busStuck t c => Sys2Proof.Machine.execBusStuck t c s
  | .rxdRecessive t c => Sys2Proof.Machine.execRxdRecessive t c s
  | .canWake t c start frame => Sys2Proof.Machine.execCanWake t c start frame s
  -- Parapet and the modes (chapter 17)
  | .modeRequest t value => Sys2Proof.Machine.execModeRequest t value s
  | .modeRequestEval => Sys2Proof.Machine.execModeRequestEval s
  | .softwareSafeHold t => Sys2Proof.Machine.execSoftwareSafeHold t s
  | .safeNLow t => Sys2Proof.Machine.execSafeNLow t s
  | .safeNGone t => Sys2Proof.Machine.execSafeNGone t s
  | .heartbeatMiss t => Sys2Proof.Machine.execHeartbeatMiss t s
  | .clockFault t cause => Sys2Proof.Machine.execClockFault t cause s
  | .clockRestored t => Sys2Proof.Machine.execClockRestored t s
  | .supplyFault t rail => Sys2Proof.Machine.execSupplyFault t rail s
  | .supplyRestored t => Sys2Proof.Machine.execSupplyRestored t s
  | .lockstep t => Sys2Proof.Machine.execLockstep t s
  | .parapetSensorRead t spanDie deck footA footB => Sys2Proof.Machine.execParapetSensorRead t spanDie deck footA footB s
  | .ppUnsafeAck t value => Sys2Proof.Machine.execPpUnsafeAck t value s
  -- Power, boot and firmware (chapter 18)
  | .fieldSupplyChange t rail mv => Sys2Proof.Machine.execFieldSupplyChange t rail mv s
  | .logicSupplyChange t rail inWindow => Sys2Proof.Machine.execLogicSupplyChange t rail inWindow s
  | .bootImageSelect t => Sys2Proof.Machine.execBootImageSelect t s
  | .imageVerified t => Sys2Proof.Machine.execImageVerified t s
  | .firmwareReady t => Sys2Proof.Machine.execFirmwareReady t s
  | .recovery t => Sys2Proof.Machine.execRecovery t s
  | .stage t => Sys2Proof.Machine.execStage t s
  | .stageDone t r => Sys2Proof.Machine.execStageDone t r s
  | .activate t => Sys2Proof.Machine.execActivate t s
  | .cancel t => Sys2Proof.Machine.execCancel t s
  | .confirm t => Sys2Proof.Machine.execConfirm t s
  | .svnCommit t => Sys2Proof.Machine.execSvnCommit t s
  | .firmwareActivation t => Sys2Proof.Machine.execFirmwareActivation t s
  | .trialReadyTimeout t => Sys2Proof.Machine.execTrialReadyTimeout t s
  -- Published records, core voltage and aging, receivers and rings (chapters 19, 20, 07, 10)
  | .tnPubSelWrite t tn value => Sys2Proof.Machine.execTnPubSelWrite t tn value s
  | .tnPubDataRead t tn => Sys2Proof.Machine.execTnPubDataRead t tn s
  | .avsEvaluation t m => Sys2Proof.Machine.execAvsEvaluation t m s
  | .avsRetryRead t m => Sys2Proof.Machine.execAvsRetryRead t m s
  | .avsDisable t => Sys2Proof.Machine.execAvsDisable t s
  | .ageMeasurement t slowdowns => Sys2Proof.Machine.execAgeMeasurement t slowdowns s
  | .camReceiverLock t c locked => Sys2Proof.Machine.execCamReceiverLock t c locked s
  | .hopRestored t hop => Sys2Proof.Machine.execHopRestored t hop s
  | .satelliteWatchdog t node => Sys2Proof.Machine.execSatelliteWatchdog t node s
  | .vfEnableSet t numVfs => Sys2Proof.Machine.execVfEnableSet t numVfs s

end Sys2Proof.Machine
end

