-- ==== Sys2Proof/Machine/Idle.lean ====
section
/-!
DEFINITION. What a step does while no command waits: one clock of the timebase.
-/
namespace Sys2Proof.Machine

/-- One rising edge of the timebase clock: device time increases by one (R8), unless PORST_N or an unlocked PLL holds it (R9). -/
def clockTick (s : State) : State :=
  if s.power.porstHigh && s.power.pll then { s with tb := { s.tb with now := s.tb.now + 1 } } else s

end Sys2Proof.Machine
end

