-- ==== Sys2Proof/Safety.lean ====
section
/-!
DEFINITION. What counts as a safe run, and the facts about the state that every step keeps.
-/
namespace Sys2Proof
open Machine

/-- No command stops the block: a step always answers a next state. -/
def Safety.Live (s : State) : Prop := ∃ t, step s = .next t

/-- What an opcode command works on: the state at its tick, and the job of its descriptor, fetched before or admitted now. -/
def Safety.taken (s : State) (t op : Nat) (d : Desc) : State × Job := takeJob (advance s t) { d with op := BitVec.ofNat 8 op }

/-- How an opcode command whose work is done ends: the job completes with a status and a RESULT, and G work that waits is planned
where there is room. -/
def Safety.answer (s : State) (j : Job) (status res : Nat) : State := planNow (complete s j status res) j

/-- Every table is in its canonical form: keys strictly rising, no entry that reads as an unlisted one. -/
structure Safety.Tables (s : State) : Prop where
  regs : storeWf resetWord s.regs = true
  grants : storeWf (fun _ => (0 : Word)) s.grants = true
  deck : Memory.wf s.deck = true
  fns : storeWf (fun _ => Fn.reset) s.fns = true
  tns : storeWf (fun _ => Tenant.reset) s.tns = true
  sqs : storeWf (fun _ => Sq.reset) s.sqs = true
  cqs : storeWf (fun _ => Cq.reset) s.cqs = true
  queues : storeWf (fun _ => Queue.reset) s.queues = true
  cams : storeWf (fun _ => Cam.reset) s.cams = true
  vcs : storeWf (fun _ => Vc.reset) s.vcs = true
  pipes : storeWf (fun _ => Pipe.reset) s.pipes = true
  valves : storeWf (fun _ => Valve.reset) s.valves = true
  rows : storeWf (fun _ => NozzleRow.reset) s.rows = true
  fbs : storeWf (fun _ => Fb.reset) s.fbs = true
  emus : storeWf (fun _ => Emu.reset) s.emus = true
  axes : storeWf (fun _ => Axis.reset) s.axes = true
  piers : storeWf (fun _ => Pier.reset) s.piers = true
  groups : storeWf (fun _ => Group.reset) s.groups = true
  stays : storeWf (fun _ => Stay.reset) s.stays = true
  camTabs : storeWf (fun _ => CamTab.reset) s.camTabs = true
  latches : storeWf (fun _ => Latch.reset) s.latches = true
  sgs : storeWf (fun _ => Sg.reset) s.sgs = true
  pwms : storeWf (fun _ => Pwm.reset) s.pwms = true
  stages : storeWf (fun _ => Stage.reset) s.stages = true
  auxs : storeWf (fun _ => Aux.reset) s.auxs = true
  footings : storeWf (fun _ => Footing.reset) s.footings = true
  cans : storeWf (fun _ => Can.reset) s.cans = true
  trackReuse : storeWf (fun _ => (0 : Nat)) s.trackReuse = true
  pubOn : storeWf (fun _ => false) s.pubOn = true
  pubRec : storeWf (fun _ => PubRec.reset) s.pubRec = true
  probeCnts : storeWf (fun _ => (0 : Nat)) s.probeCnts = true

/-- Every change of LENGTH_Q still due is one that R16 accepts. -/
def Safety.LenWrites (b : TimeBase) : Prop := ∀ w ∈ b.lenWrite, 1000 ≤ w.1 ∧ w.1 ≤ 10000

/-- Device time stands at 0 until the timebase PLL has locked (R9), a boundary lies at or before the present, the span length
is one that SPAN_CFG can name, now and in every change still due (R16), and the sample instant lies at least 1,000 ticks
before the compute deadline (R20, R752). -/
structure Safety.Clock (s : State) : Prop where
  held : s.power.pll = false → s.tb.now = 0 ∧ s.tb.boundary = 0 ∧ s.tb.spanIx = 0
  boundary : s.tb.boundary ≤ s.tb.now
  length : 4000 ≤ s.tb.len ∧ s.tb.len ≤ 40000 ∧ s.tb.len % 4 = 0
  deadline : s.tb.offset + 1000 ≤ computeTick s.tb.len s.tb.pct
  writes : Safety.LenWrites s.tb

/-- No exclusive item is in two committed grants (R79). -/
def Safety.Exclusive (s : State) : Prop :=
  ∀ a b off : Nat, a < 256 → b < 256 → a ≠ b → off < 0x140 → off % 4 = 0 →
    s.gw a off &&& s.gw b off &&& exclusiveMask off = 0

/-- The invariant of the block. -/
structure Safety.Inv (s : State) : Prop where
  tables : Safety.Tables s
  clock : Safety.Clock s
  exclusive : Safety.Exclusive s

/-- What the planned slices of a list of jobs cost in a pool. -/
def Safety.plannedCost (jobs : List Job) (p : Nat) : Nat :=
  sumL (jobs.map fun j => sumL ((j.slices.take j.planned).map fun c => nth c p))

/-- A queue has room for what R209 to R212 keep free: two cells for the next marker, unless the newest item is one. -/
def Safety.QueueRoom (q : Queue) (cap : Nat) : Prop := q.fill + (if q.markerOpen then 0 else 2) ≤ cap

/-- Everything two states hold besides registers, device time, jobs, completion rings, Keystone's account, device queues and what has
left the device is the same: the bookkeeping of flags and completions touches nothing else. -/
structure Safety.SameUnits (s t : State) : Prop where
  power : t.power = s.power
  refs : t.refs = s.refs
  link : t.link = s.link
  grants : t.grants = s.grants
  commit : t.commit = s.commit
  tns : t.tns = s.tns
  sqs : t.sqs = s.sqs
  deck : t.deck = s.deck
  cams : t.cams = s.cams ∧ t.vcs = s.vcs
  vision : t.pipes = s.pipes ∧ t.trackReuse = s.trackReuse
  eject : t.valves = s.valves ∧ t.rows = s.rows ∧ t.wheel = s.wheel ∧ t.ring = s.ring
  feedback : t.fbs = s.fbs ∧ t.emus = s.emus ∧ t.pubOn = s.pubOn ∧ t.pubRec = s.pubRec
  motion : t.axes = s.axes ∧ t.piers = s.piers ∧ t.groups = s.groups ∧ t.stays = s.stays ∧ t.camTabs = s.camTabs
  latches : t.latches = s.latches ∧ t.probeCnts = s.probeCnts
  steps : t.sgs = s.sgs ∧ t.limLevels = s.limLevels
  pwm : t.pwms = s.pwms ∧ t.stages = s.stages ∧ t.auxs = s.auxs ∧ t.footings = s.footings
  cans : t.cans = s.cans
  device : t.pp = s.pp ∧ t.fw = s.fw ∧ t.life = s.life ∧ t.scrub = s.scrub
  pending : t.pending = s.pending

end Sys2Proof
end

