-- ==== Sys2Proof/Certificates/Slice0/Obligations.lean ====
section
/-!
DEFINITION. The statements for the provers. `a` stands for the state once device time has reached a command's tick, or for the state an opcode
command works on, with `j` its job (`Safety.taken`). A statement of several clauses has one clause for each command or case it names.
-/
open Sys2Proof Sys2Proof.Machine

/-! ## The block as a whole -/

/-- A step with command `c` in front of the queue is `exec` of `c` on the state with the queue's rest. -/
def Obligations.StepRunsFront : Prop :=
  ∀ (s : State) (c : Instr), step { s with pending := c :: s.pending } = exec c s

/-- With no command waiting a step is one rising edge of the timebase clock: device time increases by one, unless PORST_N is low or the PLL
has not locked. The idle step is the model's choice (log entry 2). -/
def Obligations.IdleStepIsOneClock : Prop :=
  ∀ s : State, s.pending = [] →
    (s.power.porstHigh = true → s.power.pll = true → step s = .next { s with tb := { s.tb with now := s.tb.now + 1 } }) ∧
    (s.power.porstHigh = false ∨ s.power.pll = false → step s = .next s)

/-- The state right after reset: device time 0 and not counting, mode STANDBY, every tenant DETACHED, every set-up register at its reset
value, nothing in memory, in rings, in queues or on the event wheel, no command waiting. PORST_N low returns everything to reset but the
supplies, PERST_N's level, the boot flash, the fuses and what has left the device; its release and the PLL's lock change one level each.
While PORST_N is low the device is held in reset: no command but those of the pin itself and of the supplies changes anything. -/
def Obligations.ResetState : Prop :=
  (State.reset.tb.now = 0 ∧ State.reset.power.pll = false ∧ State.reset.pp.mode = .standby ∧
  (∀ tn, (State.reset.tn tn).st = .detached) ∧ (∀ k, State.reset.rd k = (resetWord k).toNat) ∧
  (∀ a, State.reset.deckB a = 0) ∧ (∀ tn off, State.reset.gw tn off = 0) ∧ State.reset.jobs = [] ∧
  State.reset.wheel.events = [] ∧ State.reset.pending = []) ∧
  ((∀ s : State, exec .porstNAssert s = .next
    { State.reset with
      power := { Power.reset with porstHigh := false, railOk := s.power.railOk, vgdMv := s.power.vgdMv, vvMv := s.power.vvMv }
      link := { Link.reset with perstHigh := s.link.perstHigh }
      fw := { Firmware.reset with ctl0 := s.fw.ctl0, ctl1 := s.fw.ctl1, imgA := s.fw.imgA, imgB := s.fw.imgB, svnMin := s.fw.svnMin }
      out := s.out, freeCtr := s.freeCtr, nextId := s.nextId, pending := s.pending }) ∧
  (∀ s : State, exec .porstNRelease s = .next { s with power := { s.power with porstHigh := true } }) ∧
  (∀ s : State, s.power.porstHigh = true → exec .timebasePllLock s = .next { s with power := { s.power with pll := true } })) ∧
  (∀ (c : Instr) (s : State), s.power.porstHigh = false → c ≠ .porstNAssert → c ≠ .porstNRelease →
    (∀ t rail mv, c ≠ .fieldSupplyChange t rail mv) → (∀ t rail ok, c ≠ .logicSupplyChange t rail ok) → exec c s = .next s)

/-- After PORST_N every tenant is DETACHED, the mode is STANDBY, device time is 0 and no tenant holds a grant. -/
def Obligations.AfterPorst : Prop :=
  ∀ s t : State, exec .porstNAssert s = .next t →
    (∀ tn, (t.tn tn).st = .detached) ∧ t.pp.mode = .standby ∧ t.tb.now = 0 ∧ t.tb.spanIx = 0 ∧ ∀ tn off, t.gw tn off = 0

/-- The invariant holds right after reset. -/
def Obligations.ResetMeetsInv : Prop := Safety.Inv State.reset

/-- Every step keeps the invariant: every table canonical, device time at 0 until the PLL locks, a legal span length with its sample instant
well before its compute deadline, no exclusive item in two grants. -/
def Obligations.StepKeepsInv : Prop := ∀ s t : State, Safety.Inv s → step s = .next t → Safety.Inv t

/-- No exclusive item comes into two committed grants, whatever command runs. -/
def Obligations.ExecKeepsExclusive : Prop :=
  ∀ (c : Instr) (s t : State), Safety.Tables s → Safety.Exclusive s → exec c s = .next t → Safety.Exclusive t

/-- Device time never decreases but by PORST_N. The mode becomes RUN or COMMISSION only when a mode request is judged. A command other than
reset and the check of a grant commit leaves every committed grant as it is. No command touches the queue of waiting commands. -/
def Obligations.OnlyOneCommandChanges : Prop :=
  (∀ (c : Instr) (s t : State), c ≠ .porstNAssert → exec c s = .next t → s.tb.now ≤ t.tb.now) ∧
  (∀ (c : Instr) (s t : State), c ≠ .modeRequestEval → exec c s = .next t → t.pp.mode = .run ∨ t.pp.mode = .commission → t.pp.mode = s.pp.mode) ∧
  (∀ (c : Instr) (s t : State), c ≠ .porstNAssert → c ≠ .grantCommitCheck → exec c s = .next t → t.grants = s.grants) ∧
  (∀ (c : Instr) (s t : State), exec c s = .next t → t.pending = s.pending)

/-- The frame of every opcode command's bookkeeping, and of a flag: taking the descriptor, completing it with any status, planning what is
left and setting a flag change no unit, no grant, no byte of the Deck and no mode. Of the registers a completion changes only Keystone's
status and the tenant pages, a flag only its own word with its count and the tenant pages; device time stays at the command's tick. -/
def Obligations.BookkeepingFrame : Prop :=
  (∀ (s : State) (t op : Nat) (d : Desc), Safety.SameUnits s (Safety.taken s t op d).1 ∧ (Safety.taken s t op d).1.regs = s.regs ∧
    (Safety.taken s t op d).1.now = (advance s t).now) ∧
  (∀ (s : State) (j : Job) (st res : Nat), Safety.SameUnits s (Safety.answer s j st res) ∧ (Safety.answer s j st res).now = s.now ∧
    ∀ i, i ≠ j.id → (complete s j st res).job? i = s.job? i) ∧
  (∀ (s : State) (j : Job) (st res k : Nat), Safety.Tables s → k < 0x100000 → k ≠ kKs → k ≠ kKs + 4 →
    (complete s j st res).rd k = s.rd k) ∧
  (∀ (s : State) (j : Job), Safety.SameUnits s (planNow s j) ∧ (planNow s j).regs = s.regs ∧ Safety.SameUnits s (keep s j) ∧
    (keep s j).regs = s.regs) ∧
  (∀ (s : State) (k mask : Nat), Safety.SameUnits s (flag s k mask) ∧ (flag s k mask).now = s.now ∧ (flag s k mask).jobs = s.jobs) ∧
  (∀ (s : State) (k mask k' : Nat), Safety.Tables s → k' ≠ k → k' ≠ k + 4 → k' < 0x100000 → (flag s k mask).rd k' = s.rd k')

/-- A read of a Deck byte gives the value last written there, and a write leaves every other byte alone and the Deck in its canonical form. -/
def Obligations.DeckReadAfterWrite : Prop :=
  ∀ (s : State) (a : Nat) (b : Byte), Memory.wf s.deck = true →
    (deckPut s a b).deckB a = b ∧ (∀ a', a' ≠ a → (deckPut s a b).deckB a' = s.deckB a') ∧ Memory.wf (deckPut s a b).deck = true

/-! ## Time and the span (chapter 01) -/

/-- The first boundary after PORST_N falls one span length after device time 0, with the length LENGTH_Q resets to; every later boundary comes
one span length after the last, is stamped with that time and advances the span counter by one; the sample instant and the compute
deadline of the new span lie ahead; committed grants and reset levels stay. -/
def Obligations.SpanBoundary : Prop :=
  (State.reset.tb.boundary = 0 ∧ State.reset.tb.spanIx = 0 ∧ State.reset.tb.len = 4 * State.reset.fld 0x2010 0 14) ∧
  ∀ s : State, s.power.porstHigh = true → s.power.pll = true → ∃ t, exec .spanBoundary s = .next t ∧
    t.tb.boundary = s.tb.boundary + s.tb.len ∧ t.tb.spanIx = s.tb.spanIx + 1 ∧ t.spanCount = (s.tb.spanIx + 1) % 2 ^ 48 ∧
    t.tb.now = max s.tb.now (s.tb.boundary + s.tb.len) ∧ t.tb.sampled = false ∧ t.tb.judged = false ∧
    t.grants = s.grants ∧ t.pending = s.pending

/-- A write of SPAN_CFG: outside STANDBY one that would change the length is ignored whole and sets CFG_WRITE_IGNORED; in RUN no other has an
effect; one with a length outside 1,000 to 10,000 or a percentage outside 40 to 85 is ignored whole and sets CFG_ERR; any other is stored,
and a new length waits for its boundary. -/
def Obligations.SpanCfgWrite : Prop :=
  ∀ (s a : State) (t : Nat) (w : Word) (q pct : Nat), s.power.porstHigh = true → s.answers = true → a = advance s t →
    q = w.toNat % 2 ^ 14 → pct = w.toNat / 2 ^ 16 % 2 ^ 7 →
    (q ≠ s.fld 0x2010 0 14 → s.mode ≠ .standby → exec (.spanCfgWrite t w) s = .next (flag a kSpan 8)) ∧
    (q = s.fld 0x2010 0 14 → s.mode = .run → exec (.spanCfgWrite t w) s = .next a) ∧
    ((q ≠ s.fld 0x2010 0 14 → s.mode = .standby) → s.mode ≠ .run → (q < 1000 ∨ 10000 < q ∨ pct < 40 ∨ 85 < pct) →
      exec (.spanCfgWrite t w) s = .next (flag a kSpan 4)) ∧
    (q = s.fld 0x2010 0 14 → s.mode ≠ .run → 1000 ≤ q → q ≤ 10000 → 40 ≤ pct → pct ≤ 85 →
      exec (.spanCfgWrite t w) s = .next (a.wr 0x2010 (q + 2 ^ 16 * pct))) ∧
    (q ≠ s.fld 0x2010 0 14 → s.mode = .standby → 1000 ≤ q → q ≤ 10000 → 40 ≤ pct → pct ≤ 85 →
      exec (.spanCfgWrite t w) s = .next
        { a.wr 0x2010 (q + 2 ^ 16 * pct) with tb := { a.tb with lenWrite := a.tb.lenWrite ++ [(q, a.now)] } })

/-- The span length at a boundary: with no change due the values in force stay; a set of changes that keeps OFFSET + 1,000 within the compute
deadline takes effect whole; any other leaves length, offset and percentage as they were and sets CFG_ERR. The instants of a span happen
once in it, at their times; a second command of the kind in the span does nothing. -/
def Obligations.SpanInstants : Prop :=
  (∀ (s : State) (len off pct : Nat), len = (s.tb.dueLen.map (4 * ·)).getD s.tb.len → off = s.fld 0x2014 0 12 →
    pct = s.fld 0x2010 16 7 → ∃ u, spanSettings s = u ∧
      (off + 1000 ≤ computeTick len pct → len ≠ s.tb.len ∨ off ≠ s.tb.offset ∨ pct ≠ s.tb.pct →
        u.tb.len = len ∧ u.tb.offset = off ∧ u.tb.pct = pct ∧ u.regs = s.regs) ∧
      (computeTick len pct < off + 1000 → len ≠ s.tb.len ∨ off ≠ s.tb.offset ∨ pct ≠ s.tb.pct →
        u.tb.len = s.tb.len ∧ u.tb.offset = s.tb.offset ∧ u.tb.pct = s.tb.pct ∧ ∃ v, u = flag v kSpan 4)) ∧
  ((∀ (s : State) (m : Measured), s.power.porstHigh = true → s.power.pll = true → s.tb.sampled = false →
    ∃ t, exec (.sampleInstant m) s = .next t ∧ t.tb.sampled = true ∧ t.tb.now = max s.tb.now (s.tb.boundary + s.tb.offset) ∧
      t.tb.boundary = s.tb.boundary ∧ t.tb.spanIx = s.tb.spanIx ∧ t.tb.len = s.tb.len ∧ t.grants = s.grants) ∧
  (∀ (s : State) (m : List (Fin 32)), s.power.porstHigh = true → s.power.pll = true → s.tb.judged = false →
    ∃ t, exec (.computeDeadline m) s = .next t ∧ t.tb.judged = true ∧
      t.tb.now = max s.tb.now (s.tb.boundary + s.tb.len * s.tb.pct / 100) ∧
      t.tb.boundary = s.tb.boundary ∧ t.tb.spanIx = s.tb.spanIx ∧ t.tb.len = s.tb.len ∧ t.grants = s.grants) ∧
  (∀ (s : State) (m : Measured), s.tb.sampled = true → exec (.sampleInstant m) s = .next s) ∧
  (∀ (s : State) (m : List (Fin 32)), s.tb.judged = true → exec (.computeDeadline m) s = .next s))

/-! ## Registers (chapters 01 and 19) -/

/-- Flags that hardware sets: the bits become 1, the event sequence count advances by the number of bits not yet set in this cycle, and every
other register stays. A software clear leaves the count alone. A counter advances by the events counted and stays at 0xFFFF_FFFF once
there. -/
def Obligations.FlagSetsBitsAndCounts : Prop :=
  (∀ (s : State) (k mask : Nat), Safety.Tables s → mask < 2 ^ 32 →
    (flagRaw s k mask).rd k = s.rd k ||| mask ∧
    (flagRaw s k mask).rd (k + 4) = (s.rd (k + 4) + popcount 32 (mask - (mask &&& s.setNow k))) % 2 ^ 16 ∧
    (∀ k', k' ≠ k → k' ≠ k + 4 → (flagRaw s k mask).rd k' = s.rd k') ∧
    (∀ v, (w1cClear s k v 0).rd (k + 4) = s.rd (k + 4))) ∧
  (∀ (s : State) (k n : Nat), Safety.Tables s →
    (countN s k n).rd k = min (s.rd k + n) 0xFFFFFFFF ∧ (∀ k', k' ≠ k → (countN s k n).rd k' = s.rd k'))

/-- A write to a W1C register clears the bits written as 1, but for those that hardware sets in the same cycle, which stay 1 and count as
events. -/
def Obligations.W1cClear : Prop :=
  ∀ (s a : State) (t off key : Nat) (fn : Fin 256) (v hw : Word) (u : Nat) (e : Option (Nat × Nat)) (r : Reg), s.power.porstHigh = true → a = advance s t →
    keyOf fn off = some key → a.keyAnswers key = true → regAt key = some (u, e, r) →
    (hw.toNat &&& r.flagMask = 0 → exec (.w1cClear t fn off v hw) s = .next
      (a.wr key (a.rd key - (a.rd key &&& ((v.toNat - (v.toNat &&& a.setNow key)) &&& r.flagMask))))) ∧
    (hw.toNat &&& r.flagMask ≠ 0 → key < 0x100000 → exec (.w1cClear t fn off v hw) s = .next
      (flag (a.wr key (a.rd key - (a.rd key &&& ((v.toNat - (v.toNat &&& a.setNow key)) &&& r.flagMask)))) key (hw.toNat &&& r.flagMask))) ∧
    (Safety.Tables s → key < 0x100000 → ∃ b, exec (.w1cClear t fn off v hw) s = .next b ∧ ∀ i, i < 32 →
      (bit hw.toNat i = true → bit r.flagMask i = true → b.bitAt key i = true) ∧
      (bit v.toNat i = false → bit hw.toNat i = false → b.bitAt key i = a.bitAt key i) ∧
      (bit r.flagMask i = false → b.bitAt key i = a.bitAt key i) ∧
      (bit r.flagMask i = true → bit v.toNat i = true → bit hw.toNat i = false → bit (a.setNow key) i = false → b.bitAt key i = false))

/-- A read of one register that answers returns its word and changes nothing else; the low half of a 64-bit pair also latches the high half
for the reading function; the data port of the published record moves on. -/
def Obligations.RegisterRead : Prop :=
  ∀ (s a : State) (t off key : Nat) (fn : Fin 256), s.power.porstHigh = true → a = advance s t → a.reach fn = true → off % 4 = 0 →
    keyOf fn off = some key → a.keyAnswers key = true →
    (isLo key = false → ¬ (0x100000 ≤ key ∧ key % 0x1000 = 0x78) → exec (.loRegisterRead t fn off 4) s = .next
      { a with tb := { a.tb with lastRead := leBytes 4 (a.readKey fn key) } }) ∧
    (isLo key = true → exec (.loRegisterRead t fn off 4) s = .next
      { a with
        tb := { a.tb with
          hi := storePut (fun _ => (0 : Word)) a.tb.hi (hiKey fn (key + 4)) (BitVec.ofNat 32 (a.pairVal key / 2 ^ 32))
          lastRead := leBytes 4 (a.readKey fn key) } })

/-- A host write of one whole register reaches that register; one that covers a register only in part changes none and sets ACCESS_ERR; writes
to BAR2 are doorbells; the PTM control word sets the capability. A write is judged whole: in RUN one that would change a field locked
there changes nothing; one with a field outside its range, or that breaks a check of the register's own, changes nothing and raises
CFG_ERR of its block; any other stores its read-write fields and clears the flags written as 1 that hardware does not set in this cycle. -/
def Obligations.RegisterWrite : Prop :=
  (∀ (s a : State) (t : Nat) (fn : Fin 256) (data : List Byte) (busy : Bool), s.power.porstHigh = true → a = advance s t →
    (∀ off key, a.reach fn = true → data.length = 4 → off % 4 = 0 → keyOf fn off = some key → a.keyAnswers key = true →
      (regAt key).isSome = true →
      exec (.registerWrite t fn (.bar0 off) data busy) s = .next (writeReg a key (leNat data) busy)) ∧
    (∀ off key, a.reach fn = true → data.length = 2 → off % 4 = 0 → keyOf fn off = some key → a.keyAnswers key = true →
      (regAt key).isSome = true → exec (.registerWrite t fn (.bar0 off) data busy) s = .next (accessErr a key)) ∧
    (∀ off, a.reach fn = true →
      exec (.registerWrite t fn (.bar2 off) data busy) s = .next (doorbell a fn off (8 * data.length) (leNat data))) ∧
    (fn = 0 → a.link.up = true → a.fw.everReady = true → data ≠ [] → exec (.registerWrite t fn .ptmControl data busy) s = .next
      { a with refs := { a.refs with ptmCapable := bit (leNat data) 0 } }) ∧
    (∀ target, a.link.up = false → exec (.registerWrite t fn target data busy) s = .next a)) ∧
  (∀ (s : State) (key w : Nat) (bad : Bool) (u : Nat) (e : Option (Nat × Nat)) (r : Reg), regAt key = some (u, e, r) →
    (s.mode = .run → r.movesLocked (s.rd key) w = true → plainWrite s key w bad = s) ∧
    ((s.mode = .run → r.movesLocked (s.rd key) w = false) → (r.outOfRange w = true ∨ bad = true) → plainWrite s key w bad = cfgErrAt s key) ∧
    ((s.mode = .run → r.movesLocked (s.rd key) w = false) → r.outOfRange w = false → bad = false →
      plainWrite s key w bad = s.wr key (r.after (s.rd key) (w - (w &&& (r.flagMask &&& s.setNow key))))))

/-- The three writes with a command of their own in the chapters on piers and published records go to the registers they name: a pier's
commutation registers, and the record selector, which copies the record of a readable source that is published, or none and PUB_DENIED; a
read of the data port gives the next word. -/
def Obligations.NamedRegisterAccess : Prop :=
  (∀ (s a : State) (t : Nat) (p : Fin 32) (v : Word), s.power.porstHigh = true → a = advance s t → a.answers = true →
    exec (.pierCommOffWrite t p .commOff v) s = .next (writePierReg a p 0x1C v.toNat) ∧
    exec (.pierCommOffWrite t p .motor v) s = .next (writePierReg a p 0x14 v.toNat) ∧
    exec (.pierCommOffWrite t p .cpr v) s = .next (writePierReg a p 0x18 v.toNat) ∧
    exec (.pierCommOffWrite t p .fb v) s = .next (writePierReg a p 4 v.toNat)) ∧
  (∀ (s a : State) (t : Nat) (tn : Fin 256) (v : Word) (kind i : Nat), s.power.porstHigh = true → a = advance s t →
    s.fnExists tn = true → s.answers = true → kind = v.toNat % 4 → i = v.toNat / 4 % 64 → kind < 3 → a.hasPub tn kind i = true →
    storeGet (fun _ => false) a.pubOn (64 * kind + i) = true →
    exec (.tnPubSelWrite t tn v) s = .next ((a.wr (tkey tn 0x74) (v.toNat % 256)).updTn tn fun x =>
      { x with pubBuf := (storeGet (fun _ => PubRec.reset) a.pubRec (64 * kind + i)).words, pubPtr := 0, pubDenied := false })) ∧
  (∀ (s a : State) (t : Nat) (tn : Fin 256) (v : Word), s.power.porstHigh = true → a = advance s t →
    s.fnExists tn = true → s.answers = true → a.hasPub tn (v.toNat % 4) (v.toNat / 4 % 64) = false →
    exec (.tnPubSelWrite t tn v) s = .next ((a.wr (tkey tn 0x74) (v.toNat % 256)).updTn tn fun x =>
      { x with pubBuf := [], pubPtr := 0, pubDenied := true })) ∧
  (∀ (s a : State) (t : Nat) (tn : Fin 256), s.power.porstHigh = true → a = advance s t → a.fnExists tn = true → a.answers = true →
    exec (.tnPubDataRead t tn) s = .next
      { a.updTn tn fun x => { x with pubPtr := (x.pubPtr + 1) % 6 } with
        tb := { a.tb with lastRead := leBytes 4 (a.readKey tn (tkey tn 0x78)) } })

/-! ## Timing references (chapter 02) -/

/-- A SYNC_IN edge within an eighth of a span of a boundary is kept with its phase for the coming boundary; one farther off while the
reference qualifies sets the edge flag and is dropped; with the input disabled nothing happens. A reference that meets a loss criterion is
disqualified with its flag; when it was the target, the best reference left takes over, or holdover for the spans configured, and the
glide takes its step; HOLDOVER ends in FREE_RUN. A change of target keeps the frequency continuous: the new p makes up the difference to
the new target's frequency, to the rounding of p; LOCKED is cleared, the change is counted and flagged. SYNC_OUT returns low at the end of
its pulse; a PTM request goes out when one is due; a completed exchange gives host time. -/
def Obligations.References : Prop :=
  (∀ (s a : State) (t64 : Nat) (y e near : Int), s.power.porstHigh = true → a = advance s (t64 / 64) →
    e = (t64 : Int) - a.fld 0x204C 0 16 →
    near = (if 2 * (e - 64 * (a.tb.boundary : Int)) ≤ 64 * (a.tb.len : Int) then 64 * (a.tb.boundary : Int)
      else 64 * (a.tb.boundary : Int) + 64 * a.tb.len) →
    (a.refs.syncEn = false → exec (.syncInEdge t64 y) s = .next a) ∧
    (a.refs.syncEn = true → 64 * a.tb.len < 8 * (near - e).natAbs → a.refs.syncQual = true →
      exec (.syncInEdge t64 y) s = .next (flag a kRef 0x10)) ∧
    (a.refs.syncEn = true → 8 * (near - e).natAbs ≤ 64 * a.tb.len → exec (.syncInEdge t64 y) s = .next
      { a with refs := { a.refs with
          syncLast64 := some e
          syncIntervalOk := (a.refs.syncLast64.map fun l => decide ((e - l - 64 * a.tb.len).natAbs ≤ 4096)).getD false
          syncSeen := a.refs.syncLast64.isSome
          syncEdge := some (near - e)
          syncY := y } })) ∧
  ((∀ s : State, s.power.porstHigh = true → s.refs.syncQual = true → 4 ≤ s.refs.syncMiss →
    ∀ u, u = refFlag { s with refs := { s.refs with syncQual := false, syncRun := 0, syncPhi := none } } 1 →
      (s.refs.target ≠ .syncIn → exec .syncInLost s = .next u) ∧
      (s.refs.target = .syncIn → exec .syncInLost s = .next (glideStep (targetLost u)))) ∧
  (∀ s : State, s.power.porstHigh = true → s.refs.ptmQual = true → bits s.refs.ptmCfg.toNat 8 16 ≤ s.refs.ptmAge →
    ∀ u, u = refFlag { s with refs := { s.refs with ptmQual := false, ptmRun := 0, ptmBad := false } } 2 →
      (s.refs.target ≠ .ptm → exec .ptmTimeout s = .next u) ∧
      (s.refs.target = .ptm → exec .ptmTimeout s = .next (glideStep (targetLost u)))) ∧
  (∀ s : State, s.power.porstHigh = true → s.refs.target = .holdover → s.refs.holdLeft = 0 →
    exec .holdoverExpiry s = .next (glideStep (refFlag (retarget s .freeRun) 8))) ∧
  (∀ (s : State) (b : RefTarget), b = s.refs.afterLoss →
    targetLost s = { retarget s b with
      refs := { (retarget s b).refs with holdLeft := if b = .holdover then (retarget s b).refs.holdSpans.toNat % 2 ^ 20 else 0 } }) ∧
  (∀ s : State, s.power.porstHigh = true → s.refs.syncMismatch = 16 →
    exec .syncLenMismatch s = .next (refFlag { s with refs := { s.refs with syncMismatch := 17 } } 0x20))) ∧
  (∀ (s : State) (b : RefTarget), retarget s b = refFlag (count { s with refs := { s.refs with
      target := b, yT := s.refs.freqOf b, p := divRound ((s.refs.y - s.refs.freqOf b) * s.tb.len) 15625, lockRun := 0, locked := false } }
      0x2074) 4) ∧
  ((∀ (s a : State) (t : Nat), s.power.porstHigh = true → a = advance s t → a.refs.syncOutAt + 40 ≤ a.tb.now →
    exec (.syncOutPulseEnd t) s = .next { a with refs := { a.refs with syncOut := false } }) ∧
  (∀ s : State, s.power.porstHigh = true → s.refs.ptmEn = true → s.link.up = true → s.refs.ptmCfg.toNat % 256 ≤ s.refs.ptmCount →
    exec .ptmRequest s = .next { s with refs := { s.refs with ptmCount := 0 }, out := s.out ++ [.ptmRequest] }) ∧
  (∀ (s a : State) (t hostNs residual : Nat) (y : Int), s.power.porstHigh = true → a = advance s t → a.refs.ptmEn = true →
    a.link.up = true → exec (.ptmExchangeDone t hostNs residual y) s = .next
      { a with refs := { a.refs with
          ptmSeen := true, ptmAge := 0, ptmHost := divRound (hostNs * 2 * 65536) 5, ptmAt := a.tb.now, ptmDrift := 0,
          ptmResid := residual, ptmY := y, ptmBad := a.refs.ptmBad || decide (25600 < residual) } }))

/-! ## Tenants and grants (chapters 03 and 18) -/

/-- GRANT_COMMIT starts a commit of a tenant; while one is pending a further commit, a load or a staging write is refused with GLOBAL_STATUS
bit 1. GRANT_LOAD copies a tenant's grant into the staging image, or clears it. A commit is judged at a boundary at least 64 ticks after
its write. Refused, it leaves every grant as it was and reports the verdict; in RUN the verdict is 4. Accepted, every word of the tenant's
grant is the staged one, and no other tenant's grant changes. -/
def Obligations.Grants : Prop :=
  ((∀ (s a : State) (t : Nat) (v : Word), s.power.porstHigh = true → a = advance s t →
    (a.commit.due = none → exec (.grantCommitWrite t v) s = .next
      { a with commit := { a.commit with tenant := v.toNat % 256, due := some a.now, done := false } }) ∧
    (a.commit.due ≠ none → exec (.grantCommitWrite t v) s = .next (flag a kGlobal 2)) ∧
    (a.commit.due ≠ none → ∀ tn, exec (.grantLoad t tn) s = .next (flag a kGlobal 2) ∧ exec (.grantLoadClear t tn) s = .next (flag a kGlobal 2))) ∧
  (∀ (s a : State) (t : Nat) (tn : Fin 256), Safety.Tables s → s.power.porstHigh = true → a = advance s t → a.commit.due = none →
    (∃ u, exec (.grantLoad t tn) s = .next u ∧ (∀ off, off < 0x380 → off % 4 = 0 → u.stg off = a.gw tn off) ∧
      (∀ k, k < 0x8000 ∨ 0x8380 ≤ k → u.rd k = a.rd k) ∧ u.grants = s.grants) ∧
    (∃ u, exec (.grantLoadClear t tn) s = .next u ∧ (∀ off, off < 0x380 → off % 4 = 0 → u.stg off = 0) ∧
      (∀ k, k < 0x8000 ∨ 0x8380 ≤ k → u.rd k = a.rd k) ∧ u.grants = s.grants))) ∧
  ((∀ (s : State) (w : Nat), s.power.porstHigh = true → s.commit.due = some w → s.tb.boundary < w + 64 →
    exec .grantCommitCheck s = .next s) ∧
  (∀ (s : State) (w r i : Nat), s.power.porstHigh = true → s.commit.due = some w → w + 64 ≤ s.tb.boundary →
    s.commitVerdict s.commit.tenant = (r, i) → r ≠ 0 → exec .grantCommitCheck s = .next
      { s with commit := { s.commit with due := none, done := true, result := r, info := i } }) ∧
  (∀ (s : State) (w i : Nat), Safety.Tables s → s.power.porstHigh = true → s.commit.due = some w → w + 64 ≤ s.tb.boundary →
    s.commitVerdict s.commit.tenant = (0, i) → s.commit.tenant < 256 → ∃ u, exec .grantCommitCheck s = .next u ∧
      (∀ off, off < 0x380 → off % 4 = 0 → u.gw s.commit.tenant off = s.stg off) ∧
      (∀ tn off, tn < 256 → tn ≠ s.commit.tenant → off < 0x400 → u.gw tn off = s.gw tn off)) ∧
  (∀ (s : State) (tn : Nat), s.mode = .run → s.commitVerdict tn = (4, 0xFFF)))

/-- An attach waits for its boundary; it needs the function, Bus Master Enable and the link. Then a DETACHED tenant becomes ATTACHED with its
rings reset and a new lease; an ORPHAN only with its lease, and else the refusal is counted and flagged. DETACH and RELEASE start
detaching: the tenant's axes ramp-stop, its valves close, its pipelines stop and its CAN frames leave. Once its axes stand the tenant is
DETACHED, its claims end and its lease is gone. A heartbeat of an attached tenant is taken. A lease that runs out takes the host path at
once. A lost path makes the tenant ORPHAN at its boundary: counted, its policy and limit taken; CONTINUE lets the axes be until the limit
runs out, RAMP ramp-stops them, HOLD holds them, unless the tenant is held. -/
def Obligations.Attachment : Prop :=
  ((∀ (s a : State) (t : Nat) (tn : Fin 256), s.power.porstHigh = true → a = advance s t → a.fnExists tn = true →
    (a.canAttach tn = true → (a.tn tn).attachAt = none → exec (.attach t tn) s = .next
      (a.setTn tn { a.tn tn with attachAt := some a.now })) ∧
    (a.canAttach tn = false → exec (.attach t tn) s = .next (flagRaw a (tkey tn 8) 2))) ∧
  (∀ (s a : State) (t : Nat) (tn : Fin 256), s.power.porstHigh = true → a = advance s t → a.fnExists tn = false →
    exec (.attach t tn) s = .next a) ∧
  (∀ (s u : State) (w : Nat) (tn : Fin 256), s.power.porstHigh = true → (s.tn tn).attachAt = some w → w + 64 ≤ s.tb.boundary →
    u = s.setTn tn { s.tn tn with attachAt := none } →
    ((s.tn tn).st = .detached → s.canAttach tn = true → exec (.attachEvaluation tn) s = .next (becomeAttached u tn)) ∧
    ((s.tn tn).st = .orphan → s.canAttach tn = true → (s.tn tn).lease ≠ 0 → s.leaseIn tn = (s.tn tn).lease →
      exec (.attachEvaluation tn) s = .next (becomeAttached u tn)) ∧
    ((s.tn tn).st = .orphan → s.canAttach tn = true → s.leaseIn tn ≠ (s.tn tn).lease →
      exec (.attachEvaluation tn) s = .next (flagRaw (count u (tkey tn 0x44)) (tkey tn 8) 1)) ∧
    ((s.tn tn).st = .attached → exec (.attachEvaluation tn) s = .next u)) ∧
  (∀ (s : State) (tn : Nat), Safety.Tables s → ((becomeAttached s tn).tn tn).st = .attached ∧
    ((becomeAttached s tn).tn tn).lease = Config.lease s.freeCtr ∧ (becomeAttached s tn).grants = s.grants)) ∧
  ((∀ (s a u : State) (t : Nat) (tn : Fin 256), s.power.porstHigh = true → a = advance s t → a.fnExists tn = true →
    u = a.setTn tn { a.tn tn with detaching := true } →
    ((a.tn tn).st = .attached → exec (.detach t tn) s = .next
      (emptyTenantCan (stopTenantPipes (closeTenantValves (rampStopTenant u tn) tn) tn) tn)) ∧
    ((a.tn tn).st ≠ .attached → exec (.detach t tn) s = .next a)) ∧
  (∀ (s a : State) (t : Nat) (tn : Fin 256), s.power.porstHigh = true → a = advance s t →
    ((a.tn tn).detaching = true → (∀ x ∈ a.axesOf tn, a.axisStill x = true) → exec (.detachComplete t tn) s = .next
      ((dropClaims a tn).setTn tn { a.tn tn with st := .detached, detaching := false, lease := 0, lostDue := none, orphLeft := 0 })) ∧
    ((a.tn tn).detaching = false → exec (.detachComplete t tn) s = .next a)) ∧
  (∀ (s a : State) (t : Nat) (tn : Fin 256) (v : Word), s.power.porstHigh = true → a = advance s t →
    v.toNat % 4 ≠ 3 → v.toNat / 16 % 2 = 0 → a.rd (ttKey tn 0) = v.toNat % 4 →
    ((a.tn tn).st = .orphan → exec (.release t tn v) s = .next
      (startDetach ((a.wr (ttKey tn 0) (v.toNat % 4)).updTn tn fun x => { x with lease := 0 }) tn)) ∧
    ((a.tn tn).st ≠ .orphan → exec (.release t tn v) s = .next (flag a kGlobal 1))) ∧
  (∀ (s a : State) (t : Nat) (tn : Fin 256), s.power.porstHigh = true → a = advance s t →
    ((a.tn tn).st = .attached → exec (.tnHeartbeat t tn) s = .next (a.setTn tn { a.tn tn with hbSeen := true })) ∧
    ((a.tn tn).st ≠ .attached → exec (.tnHeartbeat t tn) s = .next a))) ∧
  ((∀ (s : State) (tn : Fin 256), s.power.porstHigh = true →
    ((s.tn tn).st = .attached → (s.tn tn).hbLimit ≠ 0 → (s.tn tn).hbLimit ≤ (s.tn tn).hbGap →
      exec (.heartbeatExpiry tn) s = .next (hostLoss s tn s.tb.spanIx)) ∧
    ((s.tn tn).hbGap < (s.tn tn).hbLimit → exec (.heartbeatExpiry tn) s = .next s)) ∧
  (∀ (s u : State) (tn : Fin 256) (due pol : Nat), s.power.porstHigh = true → (s.tn tn).st = .attached → (s.tn tn).lostDue = some due →
    pol = s.fld (ttKey tn 0) 0 2 → u = count (s.setTn tn { s.tn tn with
      st := .orphan, lostDue := none, policy := pol, orphLimit := s.rd (ttKey tn 4), orphSpan := s.tb.spanIx,
      orphLeft := if pol = 0 then s.rd (ttKey tn 4) else 0, orphEnd := false }) (tkey tn 0x38) →
    (s.tb.spanIx < due → exec (.orphanEntry tn) s = .next s) ∧
    (due ≤ s.tb.spanIx → (s.tn tn).held = false → pol = 0 → exec (.orphanEntry tn) s = .next u) ∧
    (due ≤ s.tb.spanIx → (s.tn tn).held = false → pol = 1 → exec (.orphanEntry tn) s = .next (rampStopTenant u tn)) ∧
    (due ≤ s.tb.spanIx → (s.tn tn).held = false → pol = 2 → exec (.orphanEntry tn) s = .next (holdTenantAxes u tn)) ∧
    (due ≤ s.tb.spanIx → (s.tn tn).held = true → exec (.orphanEntry tn) s = .next u)) ∧
  (∀ (s : State) (tn : Fin 256), s.power.porstHigh = true → (s.tn tn).st = .orphan → (s.tn tn).policy = 0 → (s.tn tn).orphLimit ≠ 0 →
    (s.tn tn).orphLeft = 0 → (s.tn tn).orphEnd = false →
    ((s.tn tn).held = false → exec (.orphanLimitExpiry tn) s = .next (rampStopTenant (s.setTn tn { s.tn tn with orphEnd := true }) tn)) ∧
    ((s.tn tn).held = true → exec (.orphanLimitExpiry tn) s = .next (s.setTn tn { s.tn tn with orphEnd := true }))))

/-- The link and the functions. A loss of the link, a VF disable, an FLR or Bus Master Enable cleared takes the host path of the attached
tenants concerned from the next boundary on; training and the pins change only the link. -/
def Obligations.LinkAndFunctions : Prop :=
  (∀ (s a : State) (t : Nat), s.power.porstHigh = true → a = advance s t →
    exec (.linkDown t) s = .next (ptmLost (hostLossOf { a with link := { a.link with up := false } } allTenants)) ∧
    exec (.perstNRelease t) s = .next { a with link := { a.link with perstHigh := true } } ∧
    exec (.vfEnableClear t) s = .next (dropVfs (hostLossOf a vfTenants)) ∧
    (∀ n, a.fw.inRecovery = false → exec (.vfEnableSet t n) s = .next { a with link := { a.link with vfEnable := true, numVfs := n } }) ∧
    (∀ n, a.fw.inRecovery = true → exec (.vfEnableSet t n) s = .next a) ∧
    (∀ w r, a.link.perstHigh = true → exec (.linkTrained t w r) s = .next
      { a with link := { a.link with up := true, width := w, rate := r } }) ∧
    (∀ w r, a.link.perstHigh = false → exec (.linkTrained t w r) s = .next a) ∧
    (∀ w r, a.link.up = true → exec (.linkRetrain t w r) s = .next { a with link := { a.link with width := w, rate := r } })) ∧
  (∀ (s a : State) (t : Nat), s.power.porstHigh = true → a = advance s t → ∃ u, exec (.perstNAssert t) s = .next u ∧
    u.link.up = false ∧ u.link.perstHigh = false ∧ u.link.vfEnable = false ∧ u.link.numVfs = 0 ∧ u.fns = [] ∧ u.refs.ptmCapable = false ∧
    u.grants = s.grants) ∧
  (∀ (s a : State) (t : Nat) (fn : Fin 256), s.power.porstHigh = true → a = advance s t → a.fnExists fn = true →
    (exec (.busMasterEnableClear t fn) s = .next (hostLoss (a.setFn fn { a.fn fn with bme := false }) fn (a.tb.spanIx + 1))) ∧
    (fn ≠ 0 → exec (.flr t fn) s = .next
      (ringReset ((hostLoss a fn (a.tb.spanIx + 1)).setFn fn Fn.reset) fn))) ∧
  (∀ (s : State) (tn due : Nat),
    ((s.tn tn).st = .attached → (s.tn tn).pathLost = false → hostLoss s tn due =
      abandonReads (s.setTn tn { s.tn tn with pathLost := true, lostDue := some due }) tn) ∧
    ((s.tn tn).st ≠ .attached ∨ (s.tn tn).pathLost = true → hostLoss s tn due = s))

/-- The opcodes of a tenant: NOP does nothing; HEARTBEAT is one; TENANT_HOLD waits for the boundary, then every axis holds, and completes when
they do; a release ends every hold but, for a tenant, one of tenant 0; PUBLISH turns the publication of an owned source on or off;
LOAD_ALL needs expert publish; HOLD_OTHER is tenant 0's alone. -/
def Obligations.TenantOpcodes : Prop :=
  (∀ (s a : State) (t : Nat) (d : Desc) (j : Job), s.power.porstHigh = true →
    (Safety.taken s t 0x00 d = (a, j) → badFormat j.d 0 false = false → exec (.nop t d) s = .next (Safety.answer a j 0 0)) ∧
    (Safety.taken s t 0x00 d = (a, j) → badFormat j.d 0 false = true → a.power.porstHigh = true →
      exec (.nop t d) s = .next (complete a j 0x14 0)) ∧
    (Safety.taken s t 0x01 d = (a, j) → badFormat j.d 0 false = false → (a.tn j.d.tenant).st = .attached → exec (.heartbeat t d) s = .next
      (Safety.answer (a.setTn j.d.tenant { a.tn j.d.tenant with hbSeen := true }) j 0 0)) ∧
    (Safety.taken s t 0x02 d = (a, j) → badFormat j.d 0 false = false → (a.tn j.d.tenant).holdPend = none → exec (.tenantHold t d) s = .next
      (planNow ((keep a { j with phase := .active }).updTn j.d.tenant fun x => { x with holdPend := some (false, a.tb.spanIx) }) j)) ∧
    (Safety.taken s t 0x03 d = (a, j) → badFormat j.d 0 false = false → j.d.tenant = 0 ∨ (a.tn j.d.tenant).heldByT0 = false →
      exec (.tenantRelease t d) s = .next (Safety.answer (a.setTn j.d.tenant { a.tn j.d.tenant with held := false, heldByT0 := false }) j 0 0)) ∧
    (Safety.taken s t 0x03 d = (a, j) → badFormat j.d 0 false = false → j.d.tenant ≠ 0 → (a.tn j.d.tenant).heldByT0 = true →
      exec (.tenantRelease t d) s = .next (complete a j 0x11 0)) ∧
    (Safety.taken s t 0x04 d = (a, j) → badFormat j.d (pm 0 2 ||| pb 2 1) false = false → sourceExists (j.d.p 0 1) (j.d.p 1 1) = true →
      a.ownsSource j.d.tenant (j.d.p 0 1) (j.d.p 1 1) = true → j.d.p 2 1 = 1 → exec (.publish t d) s = .next (Safety.answer
        { a with pubOn := storePut (fun _ => false) a.pubOn (64 * j.d.p 0 1 + j.d.p 1 1) true } j 0 0)) ∧
    (Safety.taken s t 0x04 d = (a, j) → badFormat j.d (pm 0 2 ||| pb 2 1) false = false → sourceExists (j.d.p 0 1) (j.d.p 1 1) = true →
      a.ownsSource j.d.tenant (j.d.p 0 1) (j.d.p 1 1) = false → exec (.publish t d) s = .next (complete a j 0x11 0)) ∧
    (Safety.taken s t 0x05 d = (a, j) → badFormat j.d 0 false = false → a.expert j.d.tenant = true →
      (a.tn j.d.tenant).pubExpert = true → exec (.loadAll t d) s = .next (Safety.answer (takeLoadAll a j.d.tenant) j 0 0)) ∧
    (Safety.taken s t 0x05 d = (a, j) → badFormat j.d 0 false = false → a.expert j.d.tenant = true →
      (a.tn j.d.tenant).pubExpert = false → exec (.loadAll t d) s = .next (complete a j 0x13 1))) ∧
  (∀ (s a : State) (t : Nat) (d : Desc) (j : Job), s.power.porstHigh = true → badFormat j.d (pm 0 1 ||| pb 1 1) false = false → j.d.tenant = 0 →
    (Safety.taken s t 0x06 (d.setP 1 (d.p 1 1 ||| 1)) = (a, j) → exec (.holdOtherHold t d) s = .next
      (Safety.answer (admitHold a (j.d.p 0 1) true) j 0 0)) ∧
    (Safety.taken s t 0x06 (d.setP 1 (d.p 1 1 / 2 * 2)) = (a, j) → exec (.holdOtherRelease t d) s = .next
      (Safety.answer (endHold a (j.d.p 0 1)) j 0 0))) ∧
  (∀ (s : State) (tn : Fin 256) (b : Bool) (ix : Nat), s.power.porstHigh = true → (s.tn tn).holdPend = some (b, ix) →
    (s.tb.spanIx ≤ ix → exec (.holdTakesEffect tn) s = .next s) ∧
    (ix < s.tb.spanIx → exec (.holdTakesEffect tn) s = .next (holdTenantAxes
      (s.setTn tn { s.tn tn with held := true, heldByT0 := (s.tn tn).heldByT0 || b, holdPend := none }) tn))) ∧
  (∀ (s : State) (tn : Fin 256), s.power.porstHigh = true → (s.tn tn).held = true →
    (∀ j ∈ s.jobs, j.d.op ≠ 0x02#8 ∨ j.d.tenant ≠ tn ∨ j.phase ≠ .active) → exec (.tenantHoldDone tn) s = .next s) ∧
  (∀ (s : State) (tn : Fin 256) (j : Job), s.power.porstHigh = true → (s.tn tn).held = true → (∀ x ∈ s.axesOf tn, s.axisStill x = true) →
    s.jobs = [j] → j.d.op = 0x02#8 → j.d.tenant = tn → j.phase = .active → exec (.tenantHoldDone tn) s = .next (complete s j 0 0))

/-! ## Rings and descriptors (chapter 04) -/

/-- A tail doorbell of an attached tenant's enabled ring stores a tail that lies in the ring and does not pass the head; any other value stops
the ring with its error; of a tenant not attached or a ring not enabled it is ignored and counted. A head doorbell alike. The load-all
doorbell takes the shadow sets of a tenant in expert mode; of a tenant in basic mode it counts a refusal, and a write of another width or
place is ignored and counted. -/
def Obligations.Doorbells : Prop :=
  (∀ (s a : State) (t : Nat) (tn : Fin 256) (n : Fin 16) (v : Nat), s.power.porstHigh = true → a = advance s t →
    a.fnExists tn = true → a.answers = true → v < 2 ^ 16 →
    ((a.tn tn).st = .attached → a.sqOn tn n = true → v < a.sqSize tn n →
      (v + a.sqSize tn n - (a.sq (16 * tn + n)).tail) % a.sqSize tn n ≤
        ((a.sq (16 * tn + n)).head + a.sqSize tn n - 1 - (a.sq (16 * tn + n)).tail + a.sqSize tn n) % a.sqSize tn n →
      exec (.sqTailDoorbell t tn (8 * n) 32 v) s = .next (a.setSq (16 * tn + n) { a.sq (16 * tn + n) with tail := v })) ∧
    ((a.tn tn).st = .attached → a.sqOn tn n = true → a.sqSize tn n ≤ v →
      exec (.sqTailDoorbell t tn (8 * n) 32 v) s = .next
        (sqErr (a.setSq (16 * tn + n) { a.sq (16 * tn + n) with stopped := true }) tn n 4)) ∧
    ((a.tn tn).st ≠ .attached ∨ a.sqOn tn n = false →
      exec (.sqTailDoorbell t tn (8 * n) 32 v) s = .next (count a (tkey tn 0x40))) ∧
    ((a.tn tn).st = .attached → a.cqOn tn n = true → v < a.cqSize tn n →
      (v + a.cqSize tn n - (a.cq (16 * tn + n)).head) % a.cqSize tn n ≤
        ((a.cq (16 * tn + n)).tail + a.cqSize tn n - (a.cq (16 * tn + n)).head) % a.cqSize tn n →
      exec (.cqHeadDoorbell t tn (0x100 + 8 * n) 32 v) s = .next (a.setCq (16 * tn + n) { a.cq (16 * tn + n) with head := v })) ∧
    ((a.tn tn).st = .attached → a.cqOn tn n = true → a.cqSize tn n ≤ v →
      exec (.cqHeadDoorbell t tn (0x100 + 8 * n) 32 v) s = .next (cqErr a tn n 7)) ∧
    ((a.tn tn).st ≠ .attached ∨ a.cqOn tn n = false →
      exec (.cqHeadDoorbell t tn (0x100 + 8 * n) 32 v) s = .next (count a (tkey tn 0x40)))) ∧
  (∀ (s a : State) (t : Nat) (tn : Fin 256), s.power.porstHigh = true → a = advance s t → a.fnExists tn = true → a.answers = true →
    ((a.tn tn).st = .attached → (a.tn tn).pubExpert = true → exec (.loadAllDoorbell t tn 32 0) s = .next (takeLoadAll a tn)) ∧
    ((a.tn tn).st = .attached → (a.tn tn).pubExpert = false → exec (.loadAllDoorbell t tn 32 0) s = .next (count a (tkey tn 0x50))) ∧
    ((a.tn tn).st ≠ .attached → exec (.loadAllDoorbell t tn 32 0) s = .next (count a (tkey tn 0x40))) ∧
    (∀ width align, width ≠ 32 → width ≠ 64 → exec (.loadAllDoorbell t tn width align) s = .next (count a (tkey tn 0x40))))

/-- Enabling a submission ring needs a legal size and an enabled CQ and starts the ring again; a change of an enabled ring's settings is
refused with its error; a disable stores the bit. Enabling a completion ring needs a legal size and a vector of the function and starts
the ring empty with phase 1; a CQ that an enabled SQ names cannot be disabled; a disable marks the work that owes it a completion. -/
def Obligations.RingEnables : Prop :=
  (∀ (s a : State) (t w : Nat) (tn : Fin 256) (n : Fin 16) (v : Word), s.power.porstHigh = true → a = advance s t →
    (w = v.toNat ||| 1 → a.sqOn tn n = false → 6 ≤ bits w 4 5 → bits w 4 5 ≤ 16 → a.cqOn tn (bits w 16 4) = true →
      bits w 4 5 = a.fld (sqKey tn n 8) 4 5 → exec (.sqEnable t tn n v) s = .next
        ((a.wr (sqKey tn n 8) (w % 8 + 16 * bits w 4 5 + 2 ^ 16 * bits w 16 4)).updSq (16 * tn + n) fun q => { q with stopped := false })) ∧
    (w = v.toNat ||| 1 → a.sqOn tn n = false → (bits w 4 5 < 6 ∨ 16 < bits w 4 5) →
      exec (.sqEnable t tn n v) s = .next (sqErr a tn n 1)) ∧
    (w = v.toNat ||| 1 → a.sqOn tn n = false → 6 ≤ bits w 4 5 → bits w 4 5 ≤ 16 → a.cqOn tn (bits w 16 4) = false →
      exec (.sqEnable t tn n v) s = .next (sqErr a tn n 2)) ∧
    (w = v.toNat / 2 * 2 → a.sqOn tn n = true → bits w 1 1 = a.fld (sqKey tn n 8) 1 1 → bits w 4 5 = a.fld (sqKey tn n 8) 4 5 →
      bits w 16 4 = a.fld (sqKey tn n 8) 16 4 → exec (.sqDisable t tn n v) s = .next
        (a.wr (sqKey tn n 8) (w % 8 + 16 * bits w 4 5 + 2 ^ 16 * bits w 16 4))) ∧
    (w = v.toNat / 2 * 2 → a.sqOn tn n = true → bits w 4 5 ≠ a.fld (sqKey tn n 8) 4 5 →
      exec (.sqDisable t tn n v) s = .next (sqErr a tn n 3))) ∧
  (∀ (s a : State) (t w : Nat) (tn : Fin 256) (n : Fin 16) (v : Word), s.power.porstHigh = true → a = advance s t →
    (w = v.toNat ||| 1 → a.cqOn tn n = false → 6 ≤ bits w 4 5 → bits w 4 5 ≤ 16 → bits w 16 7 < msixSize tn → bit w 2 = false →
      exec (.cqEnable t tn n v) s = .next
        ((a.updCq (16 * tn + n) fun c => { c with head := 0, tail := 0, phase := true }).wr (cqKey tn n 8)
          (w % 8 + 16 * bits w 4 5 + 2 ^ 16 * bits w 16 7))) ∧
    (w = v.toNat ||| 1 → a.cqOn tn n = false → (bits w 4 5 < 6 ∨ 16 < bits w 4 5) →
      exec (.cqEnable t tn n v) s = .next (cqErr a tn n 1)) ∧
    (w = v.toNat / 2 * 2 → a.cqOn tn n = true → bits w 1 1 = a.fld (cqKey tn n 8) 1 1 → bits w 4 5 = a.fld (cqKey tn n 8) 4 5 →
      bits w 16 7 < msixSize tn → (∃ i, i < 16 ∧ a.sqOn tn i = true ∧ a.boundCq tn i = n.val) →
      exec (.cqDisable t tn n v) s = .next (cqErr a tn n 8)) ∧
    (w = v.toNat / 2 * 2 → a.cqOn tn n = true → bits w 1 1 = a.fld (cqKey tn n 8) 1 1 → bits w 4 5 = a.fld (cqKey tn n 8) 4 5 →
      bits w 16 7 < msixSize tn → (∀ i, i < 16 → a.sqOn tn i = true → a.boundCq tn i ≠ n.val) → bit w 2 = false →
      exec (.cqDisable t tn n v) s = .next
        ({ a with jobs := mapIf (fun j : Job => j.kind == JobKind.desc && j.d.tenant.val == tn.val && j.cq == n.val) (fun j => { j with lost := true }) a.jobs }.wr
          (cqKey tn n 8) (w % 8 + 16 * bits w 4 5 + 2 ^ 16 * bits w 16 7))))

/-- A descriptor is fetched from a ring that has one, with room in its CQ: an entry is reserved, the head moves on by one slot, and the
descriptor its bytes spell is taken. Without room the stall is flagged once and nothing is fetched; a read that fails stops the ring with
its error. A fetched descriptor that a check refuses completes with that status; one for a later span is held; any other is admitted, or
waits its turn behind a fence. A fenced descriptor is admitted once nothing before it is left; a held one at its span when it is first in
turn and its checks still pass. Both are admitted in the present span. -/
def Obligations.DescriptorFetch : Prop :=
  (∀ (s a : State) (t k c : Nat) (tn : Fin 256) (n : Fin 16) (bs : List Byte) (d : Desc), s.power.porstHigh = true → a = advance s t →
    a.canFetch tn n = true → k = 16 * tn.val + n.val → c = 16 * tn.val + a.boundCq tn n →
    d = parseDesc tn n (a.bitAt (sqKey tn n 8) 1) bs →
    (a.cqRoom tn (a.boundCq tn n) = true → (isApply d = true → a.heldCount tn < 1024) →
      (d.clsNo = 1 ∨ d.clsNo = 2 → a.ebCount tn < 4096) → exec (.descriptorFetch t tn n (.data bs)) s = .next
        (takeFetched ((a.updCq c fun x => { x with reserved := x.reserved + 1, stall := false }).updSq k fun q =>
          { q with head := (q.head + 1) % a.sqSize tn n, stall := false }) d)) ∧
    (a.cqRoom tn (a.boundCq tn n) = false → (a.cq c).stall = true → exec (.descriptorFetch t tn n (.data bs)) s = .next a) ∧
    (a.cqRoom tn (a.boundCq tn n) = false → (a.cq c).stall = false → exec (.descriptorFetch t tn n (.data bs)) s = .next
      (flagRaw (a.updCq c fun x => { x with stall := true }) (cqKey tn (a.boundCq tn n) 0x14) 2)) ∧
    (∀ u, u = sqErr (a.updSq k fun q => { q with stopped := true }) tn n 5 → a.cqRoom tn (a.boundCq tn n) = true →
      exec (.descriptorFetch t tn n .error) s = .next { u with link := { u.link with aerErrors := u.link.aerErrors + 1 } })) ∧
  (∀ (s u : State) (d : Desc), u = { s with nextId := s.nextId + 1 } → isApply d = false →
    (∀ st res, spanBad s d none s.tb.spanIx = false → descCheck u d = some (st, res) →
      takeFetched s d = complete (refuseSide u d) (newJob s d .admitted s.tb.spanIx) st res) ∧
    (spanBad s d none s.tb.spanIx = false → descCheck u d = none → u.mustWait d (s.tn d.tenant).ringGen s.nextId = false →
      takeFetched s d = keep u (newJob s d .admitted s.tb.spanIx)) ∧
    (spanBad s d none s.tb.spanIx = false → descCheck u d = none → u.mustWait d (s.tn d.tenant).ringGen s.nextId = true →
      takeFetched s d = keep u { newJob s d .admitted s.tb.spanIx with phase := .fenced })) ∧
  ((∀ (s a : State) (t id : Nat) (j : Job), s.power.porstHigh = true → a = advance s t → a.job? id = some j → j.phase = .fenced →
    a.mustWait j.d j.gen j.id = false → exec (.fenceAdmission t id) s = .next (admitNow a j)) ∧
  (∀ (s : State) (id : Nat) (j : Job) (b : Int), s.power.porstHigh = true → s.job? id = some j → j.phase = .held b → b ≤ s.tb.spanIx →
    (∀ i ∈ s.jobs, ∀ b', i.phase = .held b' → b' ≤ s.tb.spanIx → i.d.tenant = j.d.tenant →
      j.d.sq.val ≤ i.d.sq.val ∧ (i.d.sq = j.d.sq → j.id ≤ i.id)) →
    descCheck s j.d = none → s.mustWait j.d j.gen j.id = false → exec (.applySpanAdmission id) s = .next (admitNow s j)))

/-- The vector of a CQ with entries older than its age limit is signalled, and its unsignalled count starts again; an unmask sends a pending
message, and leaves a vector with none pending alone. -/
def Obligations.Interrupts : Prop :=
  (∀ (s : State) (tn : Fin 256) (n : Fin 16) (o : Nat), s.power.porstHigh = true → (s.cq (16 * tn + n)).oldest = some o →
    s.fld (cqKey tn n 0xC) 8 8 ≠ 0 → o + s.fld (cqKey tn n 0xC) 8 8 ≤ s.tb.spanIx → s.bitAt (cqKey tn n 8) 2 = true →
    s.cqOn tn n = true → exec (.cqAgeExpiry tn n) s = .next
      (signal (s.updCq (16 * tn + n) fun c => { c with unsig := 0, oldest := none }) tn (s.fld (cqKey tn n 8) 16 7))) ∧
  (∀ (s a : State) (t : Nat) (fn : Fin 256) (v : Fin 128) (f : Fn), Safety.Tables s → s.power.porstHigh = true → a = advance s t →
    a.fnExists fn = true → v.val < msixSize fn → f = (a.fn fn).setVec v { (a.fn fn).vec v with masked := false } →
    ((f.vec v).pend = false → exec (.msixVectorUnmask t fn v) s = .next (a.setFn fn f))) ∧
  (∀ (s : State) (fn v : Nat), (s.tn fn).pathLost = false → (s.tn fn).st ≠ .orphan → s.link.up = true → (s.fn fn).msixEn = true →
    (s.fn fn).bme = true → v < msixSize fn → (s.fn fn).msixMask = false → ((s.fn fn).vec v).masked = false →
    signal s fn v = { s with out := s.out ++ [.msix fn v] })

/-- A completion is written where its CQ's tail stands, as one packet whose PHASE is that of the ring's pass: 1 on the first after enable or
reset, inverted at each wrap; a QUIET completion DONE writes none; one whose tenant, path, rings or CQ are gone is counted and not
written. In every case the job has left and its reserved entry is given back. -/
def Obligations.Completion : Prop :=
  (∀ (s : State) (j : Job) (i : Bool) (status res tu late k : Nat) (c : Cq), Safety.Tables s → k = 16 * j.d.tenant.val + j.cq → c = s.cq k →
    (writeEntry s j i status res tu late).out.take (s.out.length + 1) = s.out ++ [.memWrite j.d.tenant
      (s.base (cqKey j.d.tenant j.cq 0) + c.tail * (if s.bitAt (cqKey j.d.tenant j.cq 8) 1 then 32 else 16))
      (entryBytes (s.bitAt (cqKey j.d.tenant j.cq 8) 1) c.phase i j.d status (s.sq (16 * j.d.tenant + j.d.sq)).head res tu late) false] ∧
    ((writeEntry s j i status res tu late).cq k).phase = (c.phase != decide (s.cqSize j.d.tenant j.cq ≤ c.tail + 1)) ∧
    ((writeEntry s j i status res tu late).cq k).tail = if s.cqSize j.d.tenant j.cq ≤ c.tail + 1 then 0 else c.tail + 1) ∧
  (∀ (s : State) (k : Nat), Safety.Tables s → ((cqMoved s k).cq k).phase = true ∧ ((cqMoved s k).cq k).tail = 0 ∧ Cq.reset.phase = true ∧
    Cq.reset.tail = 0) ∧
  ∀ (s : State) (j : Job) (status res fin : Nat) (u : State), j.kind = .desc → fin = finalStatus (dropJob s j.id) j status →
    u = countStatus (dropJob s j.id) j.d.tenant fin →
    (fin = 0 → bit j.d.flags.toNat 3 = true → complete s j status res = unreserve u j) ∧
    ((fin = 0 → bit j.d.flags.toNat 3 = false) → u.discards j = true → complete s j status res = count (unreserve u j) (tkey j.d.tenant 0x3C)) ∧
    ((fin = 0 → bit j.d.flags.toNat 3 = false) → u.discards j = false → ¬ (0x11 ≤ fin ∧ fin ≤ 0x15) →
      complete s j status res = writeEntry (unreserve u j) j false fin res j.tu (u.tb.spanIx - j.deadline).toNat) ∧
    ((fin = 0 → bit j.d.flags.toNat 3 = false) → u.discards j = false → 0x11 ≤ fin → fin ≤ 0x15 →
      complete s j status res = writeEntry (unreserve u j) j false fin res 0 0)

/-! ## Keystone and queues (chapters 05 and 06) -/

/-- A planning pass takes from every limit exactly what the slices it plans cost: no pass plans beyond its budget. -/
def Obligations.PlanWithinBudget : Prop :=
  ∀ (sel : Job → Bool) (lims : List (List Nat)) (bal : List Nat) (blocked : List Nat) (jobs : List Job) (i p : Nat), i < lims.length →
    Safety.plannedCost (planPass sel (lims, bal) blocked jobs).1 p + nth ((planPass sel (lims, bal) blocked jobs).2.1.getD i []) p =
      Safety.plannedCost jobs p + nth (lims.getD i []) p

/-- Work is shed with status 0x10: E work that ran no slice by the end of its deadline span, B work not finished at its shed time; any other
stays. A slice that finishes charges its toll units to the tenant, and a job with none planned is left alone. -/
def Obligations.ShedAndSlices : Prop :=
  (∀ (s : State) (id : Nat) (j : Job), s.power.porstHigh = true → s.job? id = some j → j.kind = .desc → j.phase = .active →
    j.slices ≠ [] → j.d.op ≠ 0x90#8 → j.d.op ≠ 0x51#8 → j.d.op ≠ 0x81#8 → j.lowE = false →
    (j.d.clsNo = 1 → j.ran = false → j.deadline < s.tb.spanIx → exec (.shed id) s = .next (complete s j 0x10 0)) ∧
    (j.d.clsNo = 1 → j.ran = true → exec (.shed id) s = .next s) ∧
    (j.d.clsNo = 2 → j.shedAt < s.tb.spanIx → exec (.bShed id) s = .next (complete s j 0x10 0)) ∧
    (j.d.clsNo = 2 → s.tb.spanIx ≤ j.shedAt → exec (.bShed id) s = .next s)) ∧
  (∀ (s a : State) (t id : Nat) (tus : List Nat) (r : SliceResult) (j k : Job), s.power.porstHigh = true → a = advance s t →
    a.job? id = some j → r.errs = [] → j.d.clsNo ≠ 0 →
    k = { j with slices := j.slices.eraseIdx 0, planned := j.planned - 1, ran := true, tu := j.tu + sumL tus } →
    (j.planned = 0 → exec (.sliceComplete t id tus r) s = .next a) ∧
    (0 < j.planned → j.kind = .stage → exec (.sliceComplete t id tus r) s = .next
      (updJob (chargeTu a j.d.tenant tus) id fun _ => k)) ∧
    (0 < j.planned → j.kind = .desc → j.d.op = 0x90#8 → exec (.sliceComplete t id tus r) s = .next
      (queueReadSlice (chargeTu a j.d.tenant tus) k r))) ∧
  (∀ (s : State) (tn p : Nat) (tus : List Nat), Safety.Tables s → p < 7 →
    (chargeTu s tn tus).rd (tkey tn (0x58 + 4 * p)) = (s.rd (tkey tn (0x58 + 4 * p)) + nth tus p) % 2 ^ 32 ∧
    (chargeTu s tn tus).ks.used = addL s.ks.used ((List.range 7).map (nth tus)))

/-- An item offered to an enabled queue never takes the cells kept for a gap marker: where the room was there before it is there after,
whether the item is stored, begun, finished, or dropped into a marker. -/
def Obligations.OfferKeepsRoom : Prop :=
  ∀ (s : State) (tn q kind : Nat) (it : Offer), Safety.Tables s → tn < 256 → s.qEnabled tn q = true → s.qKind tn q = kind →
    Safety.QueueRoom (s.queue (64 * tn + q)) (s.qCap tn q) →
    (0 < (s.queue (64 * tn + q)).part → it.done = true → (s.queue (64 * tn + q)).part = 1 + ceilDiv it.payload.length 16) →
    (offer s tn q kind it).qCap tn q = s.qCap tn q ∧
    Safety.QueueRoom ((offer s tn q kind it).queue (64 * tn + q)) (s.qCap tn q)

/-- A data item offered to a queue: stored whole with its sequence number where it fits beside the marker's two cells; else dropped, counted,
and recorded in the open marker or a new one; counted as dropped by a queue that is not enabled. Q_CFG: a value that no queue may have,
pages the tenant does not hold or that another queue or ring uses, and a change of an enabled queue's fields are refused with CFG_ERR; an
enable stores the fields; a disable discards what the queue holds. A flush of an enabled queue discards what is unread, writes its marker,
counts it and sets FLUSH_DONE. The queue opcodes: QUEUE_READ of a queue with items left waits for Keystone with the cost of its next
slice, and of an empty one completes at once; MARK keeps the read position, REWIND goes back to it, RELEASE frees what lies before it;
FLUSH flushes. -/
def Obligations.Queues : Prop :=
  (∀ (s a : State) (t k : Nat) (tn : Fin 256) (q : Fin 64) (it : Offer), s.power.porstHigh = true → a = advance s t →
    k = 64 * tn.val + q.val → it.done = true → (a.queue k).skip = false → (a.queue k).part = 0 →
    (a.qEnabled tn q = true → 1 + ceilDiv it.payload.length 16 + 2 ≤ a.qCap tn q - (a.queue k).fill →
      exec (.queueOffer t tn q it) s = .next (a.setQueue k { a.queue k with
        items := (a.queue k).items ++ [{ src := it.src, seq := (a.queue k).seq % 2 ^ 32, time := it.time, body := .data it.payload }]
        seq := (a.queue k).seq % 2 ^ 32 + 1
        markerOpen := false })) ∧
    (a.qEnabled tn q = true → a.qCap tn q - (a.queue k).fill < 1 + ceilDiv it.payload.length 16 + 2 →
      exec (.queueOffer t tn q it) s = .next (dropItem (a.setQueue k { a.queue k with seq := (a.queue k).seq % 2 ^ 32 + 1 })
        tn q it.src ((a.queue k).seq % 2 ^ 32) it.time (if a.qKind tn q = 0 then 2 ^ (it.lane % 32) else 0))) ∧
    (a.qEnabled tn q = false → exec (.queueOffer t tn q it) s = .next
      (count (a.setQueue k { a.queue k with seq := (a.queue k).seq % 2 ^ 32 + 1 }) (qKey tn q 0x14)))) ∧
  (∀ (s a : State) (t k w : Nat) (tn : Fin 256) (q : Fin 64) (v : Word), s.power.porstHigh = true → a = advance s t → k = qKey tn q 0 →
    (w = v.toNat ||| 1 → qCfgBad w = true → exec (.qEnable t tn q v) s = .next (flagRaw a (qKey tn q 0xC) 4)) ∧
    (w = v.toNat ||| 1 → qCfgBad w = false → a.qEnabled tn q = false → bits w 8 12 + bits w 20 9 ≤ a.pageCount tn →
      a.usedByQueue tn q (bits w 8 12, bits w 20 9) = false → a.usedByRing tn 32 (bits w 8 12, bits w 20 9) = false →
      exec (.qEnable t tn q v) s = .next (a.wr k (qCfgMask w))) ∧
    (w = v.toNat ||| 1 → qCfgBad w = false → a.qEnabled tn q = false → a.pageCount tn < bits w 8 12 + bits w 20 9 →
      exec (.qEnable t tn q v) s = .next (flagRaw a (qKey tn q 0xC) 4)) ∧
    (w = v.toNat / 2 * 2 → qCfgBad w = false → a.qEnabled tn q = true → qCfgFields w ≠ qCfgFields (a.rd k) →
      exec (.qDisable t tn q v) s = .next (flagRaw a (qKey tn q 0xC) 4)) ∧
    (w = v.toNat / 2 * 2 → qCfgBad w = false → a.qEnabled tn q = true → qCfgFields w = qCfgFields (a.rd k) →
      exec (.qDisable t tn q v) s = .next ((flushQueue a tn q false).wr k (qCfgMask w))) ∧
    (a.qEnabled tn q = true → (∀ j ∈ a.jobs, j.midItem tn q = false) → exec (.qCtrlFlush t tn q) s = .next
      (flagRaw (count (a.setQueue (64 * tn + q) { a.queue (64 * tn + q) with
          items := [{ src := 0, seq := (a.queue (64 * tn + q)).seq % 2 ^ 32, time := a.now
                      body := .flush (((a.queue (64 * tn + q)).items.drop (a.queue (64 * tn + q)).readIx).length +
                          (if 0 < (a.queue (64 * tn + q)).part then 1 else 0))
                        (sumL (((a.queue (64 * tn + q)).items.drop (a.queue (64 * tn + q)).readIx).map Item.cells) +
                          (a.queue (64 * tn + q)).part)
                        (sumL ((a.queue (64 * tn + q)).items.map Item.drops)) }]
          readIx := 0
          markIx := 0
          markerOpen := false
          skip := (a.queue (64 * tn + q)).skip || decide (0 < (a.queue (64 * tn + q)).part)
          part := 0 }) (qKey tn q 0x18)) (qKey tn q 0xC) 2)) ∧
    (a.qEnabled tn q = false → exec (.qCtrlFlush t tn q) s = .next a)) ∧
  ((∀ (s a : State) (t n b : Nat) (d : Desc) (j : Job), s.power.porstHigh = true → Safety.taken s t 0x90 d = (a, j) →
    queueReadCheck a j.d = none → a.nextRead { j with aux := [0, 0, 0] } = (n, b) →
    (n ≠ 0 → exec (.queueRead t d) s = .next
      (planNow (keep a { j with aux := [0, 0, 0], phase := .active, slices := [copyCost b] }) j)) ∧
    (n = 0 → exec (.queueRead t d) s = .next (planNow (complete a { j with aux := [0, 0, 0] } 0 0) j))) ∧
  (∀ (s a : State) (t k : Nat) (d : Desc) (j : Job), s.power.porstHigh = true → badFormat j.d (pm 0 1) false = false → j.d.p 0 1 < 64 →
    k = 64 * j.d.tenant.val + j.d.p 0 1 →
    (Safety.taken s t 0x91 d = (a, j) → a.qKind j.d.tenant (j.d.p 0 1) = 1 → exec (.queueMark t d) s = .next
      (Safety.answer (a.setQueue k { a.queue k with markIx := (a.queue k).readIx }) j 0 0)) ∧
    (Safety.taken s t 0x91 d = (a, j) → a.qKind j.d.tenant (j.d.p 0 1) ≠ 1 → exec (.queueMark t d) s = .next (complete a j 0x14 0)) ∧
    (Safety.taken s t 0x92 d = (a, j) → a.qKind j.d.tenant (j.d.p 0 1) = 1 → exec (.queueRewind t d) s = .next
      (Safety.answer (a.setQueue k { a.queue k with readIx := (a.queue k).markIx }) j 0 0)) ∧
    (Safety.taken s t 0x93 d = (a, j) → a.qKind j.d.tenant (j.d.p 0 1) = 1 → exec (.queueRelease t d) s = .next
      (Safety.answer (a.setQueue k { a.queue k with
        items := (a.queue k).items.drop (a.queue k).readIx, readIx := 0, markIx := 0 }) j 0 0)) ∧
    (Safety.taken s t 0x94 d = (a, j) → exec (.queueFlush t d) s = .next
      (Safety.answer (flushQueue a j.d.tenant (j.d.p 0 1) true) j 0 0))))

/-! ## Cameras and vision (chapters 07 and 08) -/

/-- CAM_CFG and CAM_VC_RING enables: nothing in RUN; a change of an enabled port's or ring's other fields is refused with CFG_ERR; a port
needs a legal PHY and its peak ingest within the guarantee, a ring a legal format and free pages; then the value is stored. Packets. A
port that does not listen takes nothing; a header beyond correction is counted and flagged. A frame start opens a frame with the next
sequence number; a line goes to its place in the slot; a frame end writes the header with COMPLETE and closes it. Triggers and copies. A
due trigger edge rises unless the gap since the last is too short, which is counted and flagged; its pulse ends after its width; an
exposure event reaches the latches armed on it; CAM_TRIGGER schedules an edge at least 64 ticks ahead; FRAME_READ locks the slot that
holds the frame, or answers at once that none does; the end of the copy unlocks it. -/
def Obligations.Cameras : Prop :=
  ((∀ (s a : State) (t w : Nat) (c : Fin 8) (v : Word), s.power.porstHigh = true → a = advance s t → w = camCfgMask (v.toNat ||| 1) →
    (a.mode = .run → exec (.camEnable t c v) s = .next a) ∧
    (a.mode ≠ .run → a.bitAt (camKey c 0) 0 = true → w / 2 ≠ a.rd (camKey c 0) / 2 → exec (.camEnable t c v) s = .next (camErr a c)) ∧
    (a.mode ≠ .run → a.bitAt (camKey c 0) 0 = true → w / 2 = a.rd (camKey c 0) / 2 → exec (.camEnable t c v) s = .next a) ∧
    (a.mode ≠ .run → a.bitAt (camKey c 0) 0 = false → a.camOk c w = true → exec (.camEnable t c v) s = .next
      ((a.wr (camKey c 0) w).updCam c fun x => { x with linkUp := false, deskewWait := needsDeskew w })) ∧
    (a.mode ≠ .run → a.bitAt (camKey c 0) 0 = false → a.camOk c w = false → exec (.camEnable t c v) s = .next (camErr a c))) ∧
  (∀ (s a : State) (t w : Nat) (c : Fin 8) (n : Fin 4) (v : Word), s.power.porstHigh = true → a = advance s t →
    w = (v.toNat ||| 1) % 2 ^ 28 →
    (a.mode = .run → exec (.camVcRingEnable t c n v) s = .next a) ∧
    (a.mode ≠ .run → a.vcOn c n = false → a.vcOk c n w = true → exec (.camVcRingEnable t c n v) s = .next (a.wr (vcKey c n 4) w)) ∧
    (a.mode ≠ .run → a.vcOn c n = false → a.vcOk c n w = false → exec (.camVcRingEnable t c n v) s = .next (camErr a c)) ∧
    (a.mode ≠ .run → a.vcOn c n = true → w / 2 ≠ a.rd (vcKey c n 4) / 2 →
      exec (.camVcRingEnable t c n v) s = .next (camErr a c))) ∧
  (∀ (s a : State) (t : Nat) (c : Fin 8), s.power.porstHigh = true → a = advance s t →
    ((a.cam c).deskewWait = true → exec (.deskewReceived t c) s = .next
      (a.setCam c { a.cam c with deskewWait := false, linkUp := true })) ∧
    ((a.cam c).deskewWait = false → exec (.deskewReceived t c) s = .next a) ∧
    exec (.camReceiverLock t c false) s = .next (a.setCam c { a.cam c with linkUp := false }) ∧
    (a.bitAt (camKey c 0) 0 = true → (a.cam c).deskewWait = false → exec (.camReceiverLock t c true) s = .next
      (a.setCam c { a.cam c with linkUp := true })))) ∧
  ((∀ (s a : State) (t : Nat) (c : Fin 8) (v : Fin 4) (dt : Nat) (px : List Nat) (ok : Bool), s.power.porstHigh = true → a = advance s t →
    (a.camListens c = false → ∀ h, exec (.frameStart t c v h) s = .next a ∧ exec (.frameEnd t c v h) s = .next a ∧
      exec (.longPacket t c v h dt px ok) s = .next a) ∧
    (a.camListens c = true → ∀ u, u = flag (count a (camKey c 0x2C)) (camKey c 0x20) 8 →
      exec (.frameStart t c v .bad) s = .next u ∧ exec (.frameEnd t c v .bad) s = .next u ∧
      exec (.longPacket t c v .bad dt px ok) s = .next u)) ∧
  (∀ (s a : State) (t k : Nat) (c : Fin 8) (v : Fin 4), Safety.Tables s → s.power.porstHigh = true → a = advance s t →
    k = 4 * c.val + v.val → a.camListens c = true → a.vcOn c v = true → (a.vc k).opened = none →
    ∃ u f, exec (.frameStart t c v .good) s = .next u ∧ (u.vc k).frameSeq = (a.vc k).frameSeq + 1 ∧ (u.vc k).opened = some f ∧
      f.slot = ((a.vc k).frameSeq + 1) % max 1 (a.vcSlots c v) ∧ f.drop = (a.slotLocks c v f.slot != 0) ∧ f.fs = a.now ∧ f.got = 0) ∧
  (∀ (s a : State) (t k : Nat) (c : Fin 8) (v : Fin 4) (dt : Nat) (px : List Nat) (ok : Bool) (f : OpenFrame), s.power.porstHigh = true →
    a = advance s t → k = 4 * c.val + v.val → a.camListens c = true → a.vcOn c v = true → dt < 4 → (a.vc k).opened = some f →
    (f.drop = true → exec (.longPacket t c v .good dt px ok) s = .next a) ∧
    (f.drop = false → a.vcH c v ≤ f.got → exec (.longPacket t c v .good dt px ok) s = .next
      (a.setVc k { a.vc k with opened := some { f with long := true } })) ∧
    (f.drop = false → f.got < a.vcH c v → a.vcDt c v ≠ 3 → px.length ≤ a.vcW c v → exec (.longPacket t c v .good dt px ok) s = .next
      ((slotWrite (a.setVc k { a.vc k with opened := some { f with
          got := f.got + 1, lines := f.lines + 1, bad := f.bad + b2n !ok, crc := f.crc || !ok } })
        c v f.slot (64 + f.got * a.vcPitch c v) (lineBytes (a.vcDt c v) px)).updCam c fun y =>
          { y with inBytes := y.inBytes + (lineBytes (a.vcDt c v) px).length }))) ∧
  (∀ (s a : State) (t k : Nat) (c : Fin 8) (v : Fin 4) (f : OpenFrame), s.power.porstHigh = true → a = advance s t →
    k = 4 * c.val + v.val → a.camListens c = true →
    ((a.vc k).opened = none → exec (.frameEnd t c v .good) s = .next a) ∧
    ((a.vc k).opened = some f → f.drop = true → exec (.frameEnd t c v .good) s = .next (a.setVc k { a.vc k with opened := none })) ∧
    ((a.vc k).opened = some f → f.drop = false → (a.pipe k).running = false → exec (.frameEnd t c v .good) s = .next
      (slotWrite (a.setVc k { a.vc k with opened := none }) c v f.slot 0
        (headerBytes a c v (a.vc k).frameSeq f a.now (openFlags f + 1 + 4 * b2n (decide (f.lines < a.vcH c v)))))))) ∧
  ((∀ (s a : State) (t : Nat) (c : Fin 8) (x : Cam), s.power.porstHigh = true → a = advance s t → x = a.cam c →
    (a.trigDue c = false → exec (.camTrigRise t c) s = .next a) ∧
    (∀ e, a.trigDue c = true → x.lastEdge = some e → a.now - e < x.cfgGap.toNat % 2 ^ 24 → exec (.camTrigRise t c) s = .next
      (flag (count (a.setCam c { x with sched := x.sched.erase a.now }) (camKey c 0x30)) (camKey c 0x20) 0x10)) ∧
    (a.trigDue c = true → x.lastEdge = none → x.quietSpans = none → exec (.camTrigRise t c) s = .next (a.setCam c { x with
      sched := x.sched.erase a.now
      lastEdge := some a.now
      pin := true
      trigCount := x.trigCount + 1
      trigs := x.trigs ++ [{ seq := (x.trigCount + 1) % 2 ^ 32, edge := a.now, exp := a.now + x.cfgDelay.toNat % 2 ^ 20, matched := 0 }]
      expDue := x.expDue ++ [(a.now + x.cfgDelay.toNat % 2 ^ 20, (x.trigCount + 1) % 2 ^ 32)]
      quietSpans := some 0 })) ∧
    (∀ e, x.lastEdge = some e → e + x.cfgTime.toNat / 2 ^ 16 ≤ a.now → exec (.camTrigPulseEnd t c) s = .next
      (a.setCam c { x with pin := false })) ∧
    (∀ e, x.lastEdge = some e → a.now < e + x.cfgTime.toNat / 2 ^ 16 → exec (.camTrigPulseEnd t c) s = .next a) ∧
    (∀ n, x.expDue = [(a.now, n)] → exec (.exposureEvent t c) s = .next
      (latchEvent (a.setCam c { x with expDue := [] }) [3] c a.now n))) ∧
  (∀ (s a : State) (t c : Nat) (d : Desc) (j : Job), s.power.porstHigh = true → Safety.taken s t 0x50 d = (a, j) → c = j.d.p 0 1 →
    badFormat j.d (pm 0 1 ||| pm 4 8) false = false → c < 8 → a.hasCam j.d.tenant c = true → a.expert j.d.tenant = true →
    (a.cam c).mode = 3 →
    (a.now + 64 ≤ j.d.p 4 8 → exec (.camTrigger t d) s = .next (Safety.answer
      (a.setCam c { a.cam c with sched := (a.cam c).sched ++ [j.d.p 4 8] }) j 0 (j.d.p 4 8))) ∧
    (j.d.p 4 8 < a.now + 64 → exec (.camTrigger t d) s = .next (Safety.answer
      (a.setCam c { a.cam c with sched := (a.cam c).sched ++ [a.now + 64] }) j 3 (a.now + 64)))) ∧
  (∀ (s a : State) (t c v n : Nat) (d : Desc) (j : Job), s.power.porstHigh = true → Safety.taken s t 0x51 d = (a, j) → c = j.d.p 0 1 →
    v = j.d.p 1 1 → frameReadCheck a j.d = none → n = j.d.p 4 8 % max 1 (a.vcSlots c v) →
    (a.vcOn c v = true → a.hdr c v n 0 8 = j.d.p 4 8 → bit (a.hdr c v n 38 2) 0 = true → ∀ b, b = 64 + a.vcPitch c v * a.hdr c v n 34 2 →
      exec (.frameRead t d) s = .next (planNow (keep (slotLock a c v n (· + 1)) { j with
        phase := .active, slices := [copyCost (a.nextCopy j.d b)], aux := [0, b, n, a.nextCopy j.d b] }) j)) ∧
    (a.vcOn c v = false → exec (.frameRead t d) s = .next (Safety.answer a j 0 0))) ∧
  (∀ (s a : State) (t id : Nat) (j : Job), s.power.porstHigh = true → a = advance s t → a.job? id = some j → j.d.op = 0x51#8 →
    j.phase = .active →
    (j.slices = [] → exec (.frameReadCopyDone t id) s = .next
      (complete (slotLock a (j.d.p 0 1) (j.d.p 1 1) (nth j.aux 2) (· - 1)) j 0 (1 + 2 ^ 32 * nth j.aux 0))) ∧
    (j.slices ≠ [] → exec (.frameReadCopyDone t id) s = .next a)))

/-- The stages of a frame. The pyramid is built of the level-0 image, motion vectors and observations follow, and the tracker takes a frame
that has both; a pipeline with no frame at the stage is left as it is. A port with no frame start for its time-out is lost, and the open
tracks of its pipelines are discarded. The vision opcodes. VIS_START starts the pipeline with its class and deadline, or changes them;
VIS_STOP stops it and completes when no started frame is left; a class load waits for Keystone; a background capture waits for the next
pyramid; VIS_PARAM stores the setting, clamped to its limits. -/
def Obligations.Vision : Prop :=
  ((∀ (s a : State) (t : Nat) (p : Fin 32) (f : FrameJob), Safety.Tables s → s.power.porstHigh = true → a = advance s t →
    (a.pipe p).frames = [f] → f.missed = false →
    (f.pyr = none → (a.pipe p).bgJobs = [] → bit f.flags 1 = false → a.frameUe p f = false → ∃ u, exec (.pyramidDone t p []) s = .next u ∧
      (u.pipe p).prev = some (f.seq, pyramidOf (f.level0 (a.framePixels p f))) ∧
      ∃ g, (u.pipe p).frames = [g] ∧ g.job = f.job ∧ g.pyr = some (pyramidOf (f.level0 (a.framePixels p f)))) ∧
    (f.pyr ≠ none → f.mvs = none → ∃ u, exec (.motionEstimationDone t p) s = .next u ∧ (u.pipe p).frames =
      [{ f with mvs := some (motionOf (nth f.params 4) (nth f.params 5) (f.pyr.getD []) (f.ref.getD [])), ref := none }]) ∧
    (f.pyr ≠ none → f.obs = none → ∃ u obs, exec (.blobClassifyDone t p) s = .next u ∧
      (u.pipe p).frames = [{ f with obs := some obs }] ∧ obs.length ≤ 4096 ∧ (u.pipe p).lastBlobs = obs.length) ∧
    (∀ obs mvs u, f.obs = some obs → f.mvs = some mvs →
      u = count (dropJob (a.setPipe p { a.pipe p with frames := [] }) f.job) (visKey p 0x2C) →
      (f.dead = true → exec (.trackerRun t p) s = .next u) ∧
      (f.dead = false → exec (.trackerRun t p) s = .next
        (trackFrame u p { f with obs := some (obs.map (withVec (f.fmt.toNat % 2 ^ 13) mvs)) })))) ∧
  (∀ (s a : State) (t : Nat) (p : Fin 32), s.power.porstHigh = true → a = advance s t → (a.pipe p).frames = [] →
    (∀ e, exec (.pyramidDone t p e) s = .next a) ∧ exec (.motionEstimationDone t p) s = .next a ∧
    exec (.blobClassifyDone t p) s = .next a ∧ exec (.trackerRun t p) s = .next a) ∧
  (∀ (s : State) (c : Fin 8) (n : Nat), Safety.Tables s → s.power.porstHigh = true →
    ((s.cam c).mode ≠ 0 → (s.cam c).portLost = false → (s.cam c).quietSpans = some n → (s.cam c).cfgTimeout.toNat % 2 ^ 16 ≤ n →
      exec (.portLost c) s = .next ([0, 1, 2, 3].foldl (fun u v => u.updPipe (4 * c.val + v) fun x => { x with tracks := [] })
        (flag (s.setCam c { s.cam c with portLost := true, quietSpans := none }) (camKey c 0x20) 2))) ∧
    ((s.cam c).mode = 0 → exec (.portLost c) s = .next s))) ∧
  ((∀ (s a : State) (t p : Nat) (d : Desc) (j : Job), s.power.porstHigh = true → Safety.taken s t 0x58 d = (a, j) →
    p = 4 * (j.d.p 0 1 % 8) + j.d.p 1 1 % 4 → visStartCheck a j.d = none →
    ((a.pipe p).running = false → exec (.visStart t d) s = .next (Safety.answer (a.setPipe p { a.pipe p with
      clsNext := j.d.p 2 1, deadlineNext := j.d.p 4 2, ovr := [], running := true, cls := j.d.p 2 1, deadline := j.d.p 4 2
      bgValid := false, bg := [], lastBlobs := 64 }) j 0 0)) ∧
    ((a.pipe p).running = true → exec (.visStart t d) s = .next (Safety.answer (a.setPipe p { a.pipe p with
      clsNext := j.d.p 2 1, deadlineNext := j.d.p 4 2, ovr := [] }) j 0 0))) ∧
  (∀ (s a : State) (t p : Nat) (d : Desc) (j : Job), s.power.porstHigh = true → p = 4 * (j.d.p 0 1 % 8) + j.d.p 1 1 % 4 →
    badFormat j.d (pm 0 2) false = false → j.d.p 0 1 < 8 → j.d.p 1 1 < 4 → a.hasCam j.d.tenant (j.d.p 0 1) = true →
    (Safety.taken s t 0x59 d = (a, j) → exec (.visStop t d) s = .next (planNow (visStopDone
      ((keep (stopPipe a p) { j with phase := .active, aux := [(a.pipe p).tracks.length] }).updPipe p fun x =>
        { x with stopJobs := x.stopJobs ++ [j.id] }) p) j)) ∧
    (Safety.taken s t 0x5B d = (a, j) → exec (.visBgCapture t d) s = .next
      (planNow ((keep a { j with phase := .active }).setPipe p { a.pipe p with bgJobs := (a.pipe p).bgJobs ++ [j.id] }) j))) ∧
  (∀ (s a : State) (t : Nat) (d : Desc) (j : Job), s.power.porstHigh = true → Safety.taken s t 0x5A d = (a, j) →
    visClassLoadCheck a j.d = none → exec (.visClassLoad t d) s = .next
      (planNow (keep a { j with phase := .active, slices := [[3, 0, 0, 0, 0, 0, 0]] }) j)) ∧
  (∀ (s a : State) (t : Nat) (d : Desc) (j : Job), s.power.porstHigh = true → Safety.taken s t 0x5C d = (a, j) →
    visParamCheck a j.d = none → j.d.p 2 1 ≠ 11 → ∀ (p n y : Nat) (f : Nat × Nat × Nat × Int × Int), p = 4 * (j.d.p 0 1 % 8) + j.d.p 1 1 % 4 →
      n = j.d.p 2 1 → f = visField n → (y : Int) = clampI (j.d.p 4 4) f.2.2.2.1 f.2.2.2.2 → ∀ u, u = a.setPipe p { a.pipe p with
        ovr := storePut (fun _ => 0) (a.pipe p).ovr n (y % 2 ^ f.2.2.1 + 1) } →
      (y = j.d.p 4 4 → exec (.visParam t d) s = .next (Safety.answer u j 0 0)) ∧
      (y ≠ j.d.p 4 4 → exec (.visParam t d) s = .next (Safety.answer u j 3 (n + 2 ^ 32 * (y % 2 ^ 32))))) ∧
  (∀ (s a : State) (t : Nat) (p : Fin 32), s.power.porstHigh = true → a = advance s t →
    ((∃ f ∈ (a.pipe p).frames, f.dead = true) → exec (.visStopDone t p) s = .next a) ∧
    (∀ j, (a.pipe p).frames = [] → (a.pipe p).stopJobs = [j.id] → a.job? j.id = some j → exec (.visStopDone t p) s = .next
      (complete (a.setPipe p { a.pipe p with stopJobs := [] }) j 0 (nth j.aux 0))) ∧
    ((a.pipe p).frames = [] → (a.pipe p).stopJobs = [] → exec (.visStopDone t p) s = .next (a.setPipe p (a.pipe p)))))

/-! ## Ejection and the ring (chapters 09 and 10) -/

/-- NR_CFG and the opcodes of rows. A write does nothing in RUN and needs MAX_VALVES and, to enable, a pitch and valves of its own; a disable
stops the row at the next boundary. EJECT_START binds a queue from the next boundary; EJECT_STOP lets it go; EJECT_TRIM stores a trim
clamped to 400,000 ticks either way. The Arc unit takes a row's items in order: a record the policy does not select is counted in counter
1, one that never crosses the line in counter 2, one with no valve in counter 3, and of any other the events of the chosen valves go on to
the wheel; a marker acts only under BLANKET. Computed events reach the wheel at one tick, or are counted outside COMMISSION and RUN. -/
def Obligations.NozzleRows : Prop :=
  ((∀ (s a : State) (t w : Nat) (r : Fin 16) (v : Word), s.power.porstHigh = true → a = advance s t →
    (a.mode = .run → exec (.nrEnable t r v) s = .next a ∧ exec (.nrDisable t r v) s = .next a) ∧
    (w = (v.toNat ||| 1) % 2 ^ 29 → a.mode ≠ .run → bits w 21 3 = 0 → exec (.nrEnable t r v) s = .next (flag a kEj 4)) ∧
    (w = (v.toNat ||| 1) % 2 ^ 29 → a.mode ≠ .run → bits w 21 3 ≠ 0 → a.rowOk r w (a.rd (rowKey r 0xC)) = true →
      exec (.nrEnable t r v) s = .next (a.wr (rowKey r 0) w)) ∧
    (w = (v.toNat ||| 1) % 2 ^ 29 → a.mode ≠ .run → bits w 21 3 ≠ 0 → a.rowOk r w (a.rd (rowKey r 0xC)) = false →
      exec (.nrEnable t r v) s = .next (flag a kEj 4)) ∧
    (w = v.toNat / 2 * 2 % 2 ^ 29 → a.mode ≠ .run → bits w 21 3 ≠ 0 → a.rowOn r = true → exec (.nrDisable t r v) s = .next
      ((a.wr (rowKey r 0) w).setRow r { a.row r with
        stopping := (a.row r).running, starting := (a.row r).starting && (a.row r).running })) ∧
    (w = v.toNat / 2 * 2 % 2 ^ 29 → a.mode ≠ .run → bits w 21 3 ≠ 0 → a.rowOn r = false →
      exec (.nrDisable t r v) s = .next (a.wr (rowKey r 0) w))) ∧
  (∀ (s a : State) (t r : Nat) (d : Desc) (j : Job), s.power.porstHigh = true → r = j.d.p 0 1 →
    (Safety.taken s t 0x60 d = (a, j) → ejectStartCheck a j.d = none → exec (.ejectStart t d) s = .next (Safety.answer
      (a.setRow r { a.row r with
        tenant := j.d.tenant, queue := j.d.p 1 1, policy := j.d.p 2 1, starting := (a.row r).starting || !(a.row r).running }) j 0 0)) ∧
    (Safety.taken s t 0x61 d = (a, j) → badFormat j.d (pm 0 1) false = false → r < 16 → a.mayRow j.d.tenant r = true →
      exec (.ejectStop t d) s = .next (Safety.answer
        (a.setRow r { a.row r with running := false, starting := false, stopping := false }) j 0 0)) ∧
    (Safety.taken s t 0x61 d = (a, j) → badFormat j.d (pm 0 1) false = false → r < 16 → a.mayRow j.d.tenant r = false →
      exec (.ejectStop t d) s = .next (complete a j 0x11 0)) ∧
    (Safety.taken s t 0x62 d = (a, j) → badFormat j.d (pm 0 1 ||| pm 4 4) false = false → r < 16 → a.mayRow j.d.tenant r = true →
      (-400000 ≤ j.d.pS 4 4 → j.d.pS 4 4 ≤ 400000 → exec (.ejectTrim t d) s = .next (Safety.answer
        (a.wr (rowKey r 0x1C) (unsigned 32 (j.d.pS 4 4))) j 0 0)) ∧
      (400000 < j.d.pS 4 4 → exec (.ejectTrim t d) s = .next (Safety.answer
        (a.wr (rowKey r 0x1C) 400000) j 3 (2 ^ 32 * 400000)))))) ∧
  ((∀ (s a u : State) (t : Nat) (r : Fin 16) (i : Item) (rest : List Item), s.power.porstHigh = true → a = advance s t →
    ((a.row r).taken = [] → exec (.arcFit t r) s = .next a) ∧
    ((a.row r).taken = i :: rest → u = a.setRow r { a.row r with taken := rest } →
      (∀ p, i.body = .data p → exec (.arcFit t r) s = .next (arcRecord u r p)) ∧
      (∀ l n c, i.body = .gap l n c → a.bitAt (qKey (a.row r).tenant (a.row r).queue 0) 4 = false → exec (.arcFit t r) s = .next u) ∧
      (∀ l n c, i.body = .gap l n c → a.bitAt (qKey (a.row r).tenant (a.row r).queue 0) 4 = true →
        exec (.arcFit t r) s = .next (arcMarker u r i.time l c)) ∧
      (∀ l n c, i.body = .flush l n c → exec (.arcFit t r) s = .next u))) ∧
  (∀ (s : State) (r : Nat) (p : List Byte) (f : Fit) (tc : Rat) (l : List Nat),
    (recU p 6 1 % 2 = 0 → (s.row r).policy % 8 = 0 → arcRecord s r p = rowCount s r 1) ∧
    (recU p 6 1 % 2 = 1 → s.checkPrior r (s.fitOf r p) = (f, false) →
      crossTime f.y0 f.vy (mkRat (signed 32 (s.rd (rowKey r 0x10))) 256) (mkRat (signed 32 (s.rd (rowKey r 4))) 65536) = none →
      arcRecord s r p = rowCount s r 2) ∧
    (recU p 6 1 % 2 = 1 → s.checkPrior r (s.fitOf r p) = (f, false) →
      crossTime f.y0 f.vy (mkRat (signed 32 (s.rd (rowKey r 0x10))) 256) (mkRat (signed 32 (s.rd (rowKey r 4))) 65536) = some tc →
      l = s.chosen r (f.x0 + f.vx * tc) (ratSqrt ((recU p 12 4 : Nat) / ratPi) * (s.fld (rowKey r 0x2C) 8 8 : Nat) / 100) →
      (l = [] → arcRecord s r p = rowCount s r 3) ∧
      (l ≠ [] → s.motionMode = false → arcRecord s r p = rowCount s r 15) ∧
      (l ≠ [] → s.motionMode = true → ∃ evs, arcRecord s r p = { s with wheel := { s.wheel with fitted := s.wheel.fitted ++ [evs] } } ∧
        evs.map (·.valve) = l.map (s.rowFirst r + ·)))) ∧
  (∀ (s a : State) (t : Nat) (l : List FitEv) (rest : List (List FitEv)), s.power.porstHigh = true → a = advance s t →
    (a.wheel.fitted = [] → exec (.eventInsert t) s = .next a) ∧
    (a.wheel.fitted = l :: rest → a.motionMode = true → exec (.eventInsert t) s = .next
      (l.foldl insertFit { a with wheel := { a.wheel with fitted := rest } })) ∧
    (∀ e r k, a.wheel.fitted = (e :: l) :: rest → a.motionMode = false → e.kind.rowOf = some (r, k) → exec (.eventInsert t) s = .next
      (rowCount { a with wheel := { a.wheel with fitted := rest } } r 15))))

/-- An event by descriptor that reaches the wheel: of no width it ends 0x20, inverted 0x21, too late for its shortest shot 0x25; in time, with
no other event of its valve near and the air limit kept, it joins the wheel as asked, lengthened to MIN_ON. VALVE_CFG: nothing in RUN; an
enable of an idle valve needs the wheel's bound and seeds its latency; a disable closes it and removes its events. A fault of a valve
closes it and removes its events, one of the supply or of the temperature those of its footing; a valve that holds a fault takes no other.
A shot of a local valve: it opens when its event's time has come, falls to hold current after its peak time, and closes at the event's
end, when the event leaves the wheel, is counted, learned from, sampled and reported. -/
def Obligations.ValveShots : Prop :=
  (∀ (s : State) (v score id : Nat) (opn cls : Int) (j : Job), s.job? id = some j → j.d.op = 0x64#8 →
    (cls = opn → insertEvent s v opn cls score (.desc id) = complete s j 0x20 0) ∧
    (cls < opn → insertEvent s v opn cls score (.desc id) = complete s j 0x21 0) ∧
    (opn < cls → opn < s.now + s.cmdLead v → cls - (s.now + s.cmdLead v) ≤ s.minOn v →
      insertEvent s v opn cls score (.desc id) = complete s j 0x25 0) ∧
    (∀ e, s.now + s.cmdLead v ≤ opn → opn < cls → (∀ x ∈ s.wheel.events, x.valve = v → s.isPending x = false) →
      e = { valve := v, opn := opn, cls := if cls - opn < s.minOn v then opn + s.minOn v else cls, score := score,
            arr := s.wheel.nextArr, opened := false, sentOpen := false, sentClose := false
            srcs := [{ kind := .desc id, mask := b2n (decide (cls - opn < s.minOn v)), asked := opn }] } →
      ∀ u, u = { s with wheel := { s.wheel with nextArr := s.wheel.nextArr + 1, events := s.wheel.events ++ [e] } } →
      u.overLimit (s.manifold v) e.opn e.cls = none → insertEvent s v opn cls score (.desc id) = u)) ∧
  ((∀ (s a : State) (t w : Nat) (v : Fin 576) (x : Word), s.power.porstHigh = true → a = advance s t →
    (a.mode = .run → exec (.valveEnable t v x) s = .next a ∧ exec (.valveDisable t v x) s = .next a) ∧
    (w = (x.toNat ||| 1) % 64 → a.mode ≠ .run → a.valveOn v = true → exec (.valveEnable t v x) s = .next (a.wr (valveKey v 0) w)) ∧
    (w = (x.toNat ||| 1) % 64 → a.mode ≠ .run → a.valveOn v = false → a.wheelFits a.horizon v (a.minOn v) (a.minOff v) = true →
      exec (.valveEnable t v x) s = .next (seedLat (a.wr (valveKey v 0) w) v (a.rd (valveKey v 0xC) % 2 ^ 24))) ∧
    (w = (x.toNat ||| 1) % 64 → a.mode ≠ .run → a.valveOn v = false → a.wheelFits a.horizon v (a.minOn v) (a.minOff v) = false →
      exec (.valveEnable t v x) s = .next (flag a kEj 4)) ∧
    (w = x.toNat / 2 * 2 % 64 → a.mode ≠ .run → a.valveOn v = true →
      exec (.valveDisable t v x) s = .next (valveStop (a.wr (valveKey v 0) w) v 0x13)) ∧
    (w = x.toNat / 2 * 2 % 64 → a.mode ≠ .run → a.valveOn v = false →
      exec (.valveDisable t v x) s = .next (a.wr (valveKey v 0) w))) ∧
  (∀ (s a : State) (t : Nat) (v : Fin 64), s.power.porstHigh = true → a = advance s t →
    ((a.valve v).fault = false → exec (.valveFault t v .short) s = .next
      (flag (valveStop (a.setValve v { a.valve v with fault := true, cause := 1 }) v 0x13) kEj 2)) ∧
    ((a.valve v).fault = false → exec (.valveFault t v .openLoad) s = .next
      (flag (valveStop (a.setValve v { a.valve v with fault := true, cause := 2 }) v 0x13) kEj 2)) ∧
    ((a.valve v).fault = true → exec (.valveFault t v .short) s = .next a) ∧
    ((∃ i, i < 32 ∧ (a.valve (v.val / 32 * 32 + i)).fault = false) → exec (.valveFault t v .undervoltage) s = .next
      (flag ((List.range 32).foldl (fun u i => valveFaulted u (v.val / 32 * 32 + i) 3 0x13) a) kEj 2)))) ∧
  (∀ (s a : State) (t : Nat) (v : Fin 64) (e : Event), s.power.porstHigh = true → a = advance s t →
    (a.wheel.events = [e] → e.valve = v → e.opened = false → e.opn ≤ (a.now : Int) → (a.now : Int) < e.cls → a.valveOn v = true →
      (a.valve v).fault = false → exec (.valveOpen t v) s = .next
        ({ a with wheel := { a.wheel with events := [{ e with opened := true }] } }.setValve v
          { a.valve v with drive := .peak, openAt := a.now })) ∧
    (a.wheel.events = [] → exec (.valveOpen t v) s = .next a ∧ ∀ l, exec (.valveClose t v l) s = .next a) ∧
    ((a.valve v).drive = .peak → (a.valve v).openAt + 16 * a.fld (phKey v 4) 0 16 ≤ a.now → exec (.valvePeakEnd t v) s = .next
      (a.setValve v { a.valve v with drive := .hold })) ∧
    ((a.valve v).drive ≠ .peak → exec (.valvePeakEnd t v) s = .next a) ∧
    (∀ l d, a.wheel.events = [e] → e.valve = v → e.opened = true → e.cls ≤ (a.now : Int) → (a.valve v).drive ≠ .off →
      d = a.dipOf v (a.now - (a.valve v).openAt) l → exec (.valveClose t v l) s = .next
        (e.srcs.foldl (srcShot v (a.now - (a.valve v).openAt) d)
          (sigShot (shotDip (count ({ a with wheel := { a.wheel with events := [] } }.updValve v fun x => { x with drive := .off })
            (valveKey v 0x14)) v d) v e d (a.valve v).openAt l))))

/-- The valve opcodes: VALVE_TEST and EJECT_AT put an event on the wheel and wait for it; VALVE_LAT_SET seeds the latency; VALVE_SIG sets the
tenant's signature requests; VALVE_CLEAR ends a fault whose cause is gone and says so. -/
def Obligations.ValveOpcodes : Prop :=
  ∀ (s a : State) (t v : Nat) (d : Desc) (j : Job), s.power.porstHigh = true → v = j.d.p 0 2 →
    (Safety.taken s t 0x63 d = (a, j) → valveTestCheck a j.d = none → exec (.valveTest t d) s = .next
      (planNow (insertEvent (keep a { j with phase := .active }) v (a.boundaryAfter (a.cmdLead v + 64))
        (a.boundaryAfter (a.cmdLead v + 64) + j.d.p 4 4) 65535 (.desc j.id)) j)) ∧
    (Safety.taken s t 0x64 d = (a, j) → ejectAtCheck a j.d = none → exec (.ejectAt t d) s = .next
      (planNow (insertEvent (keep a { j with phase := .active }) v (j.d.p 4 8) (j.d.p 12 8) (j.d.p 2 2) (.desc j.id)) j)) ∧
    (Safety.taken s t 0x64 d = (a, j) → badFormat j.d (pm 0 20) false = false → v < 576 → a.hasValve j.d.tenant v = true →
      a.expert j.d.tenant = false → exec (.ejectAt t d) s = .next (complete a j 0x15 0)) ∧
    (Safety.taken s t 0x65 d = (a, j) → badFormat j.d (pm 0 2 ||| pm 4 4) false = false → v < 576 → a.hasValve j.d.tenant v = true →
      a.expert j.d.tenant = true → exec (.valveLatSet t d) s = .next (Safety.answer
        (judgeLat (a.setValve v { a.valve v with est := 16 * j.d.p 4 4 }) v) j 0 0)) ∧
    (Safety.taken s t 0x66 d = (a, j) → valveSigCheck a j.d = none → j.d.p 2 2 = 1 → j.d.p 5 1 = 0 → exec (.valveSig t d) s = .next
      (Safety.answer (a.setValve v { a.valve v with sigs := (a.valve v).sigs.filter (·.tenant != j.d.tenant.val) }) j 0 0)) ∧
    (∀ b, Safety.taken s t 0x67 d = (a, j) → badFormat j.d (pm 0 2) false = false → v < 576 → a.hasValve j.d.tenant v = true →
      ((a.valve v).fault = true → a.valveCauseGone v b = true → exec (.valveClear t d b) s = .next (Safety.answer
        (a.setValve v { a.valve v with fault := false, cause := 0 }) j 0 1)) ∧
      ((a.valve v).fault = false → exec (.valveClear t d b) s = .next (Safety.answer a j 0 0)))

/-- Link-up. TR_CFG acts outside RUN with a sweep offset of 64 ticks or more; ENABLE rising starts a link-up. One that finds its nodes in time
with every hop short enough brings the ring up and completes the relinks that wait; a hop too long ends it with the flag; a link-up that
takes 4,096 spans ends. Breaks. A port that sees its own hop break records the break, an inner hop only that it is broken; a restored hop
is timed and rejoins after 64 spans, with the delays measured again. A node whose watchdog expired is noted. -/
def Obligations.TrestleLink : Prop :=
  ((∀ (s a : State) (t w : Nat) (v : Word), s.power.porstHigh = true → a = advance s t →
    w = (v.toNat ||| 1) % 2 ^ 24 - bits (v.toNat ||| 1) 2 2 * 4 → bit w 0 = true →
    (a.mode = .run → exec (.trestleEnable t v) s = .next a) ∧
    (a.mode ≠ .run → bits w 4 12 < 64 → exec (.trestleEnable t v) s = .next (flag a kTr 0x20)) ∧
    (a.mode ≠ .run → 64 ≤ bits w 4 12 → a.bitAt 0x40000 0 = true → exec (.trestleEnable t v) s = .next (a.wr 0x40000 w)) ∧
    (a.mode ≠ .run → 64 ≤ bits w 4 12 → a.bitAt 0x40000 0 = false →
      exec (.trestleEnable t v) s = .next (startLink (a.wr 0x40000 w)))) ∧
  (∀ (s a : State) (t : Nat) (ns : List NodeInfo) (hops : List Nat) (c : Bool), s.power.porstHigh = true → a = advance s t →
    (a.ring.linking = false → exec (.linkUpDone t ns hops c) s = .next a) ∧
    (a.ring.linking = true → a.tb.spanIx < a.ring.linkStart + 4096 → (∃ h ∈ hops, 16 * a.fld 0x40000 16 8 < h) →
      exec (.linkUpDone t ns hops c) s = .next (flag { a with ring := { a.ring with linking := false } } kTr 4)) ∧
    (a.ring.linking = true → a.tb.spanIx < a.ring.linkStart + 4096 → (∀ h ∈ hops, h ≤ 16 * a.fld 0x40000 16 8) → a.ring.relinkJobs = [] →
      ∃ u, exec (.linkUpDone t ns hops c) s = .next u ∧ u.ring.up = true ∧ u.ring.linking = false ∧ u.ring.closed = c ∧
        u.ring.nodes.length = min 16 ns.length ∧ (∀ n ∈ u.ring.nodes, n.reach = true) ∧ u.regs = a.regs ∧ u.tb = a.tb)) ∧
  (∀ s : State, s.power.porstHigh = true → s.ring.linking = true →
    (s.ring.linkStart + 4096 ≤ s.tb.spanIx → exec .linkUpTimeout s = .next { s with ring := { s.ring with linking := false } }) ∧
    (s.tb.spanIx < s.ring.linkStart + 4096 → exec .linkUpTimeout s = .next s))) ∧
  (∀ (s a : State) (t : Nat) (hop : Fin 17), s.power.porstHigh = true → a = advance s t →
    (a.ring.up = false → exec (.hopBreak t hop) s = .next a) ∧
    (a.ring.up = true → a.ring.closed = true → hop.val < a.ring.nodes.length → hop ≠ 0 → hop.val ∉ a.ring.broken →
      exec (.hopBreak t hop) s = .next { a with ring := { a.ring with broken := a.ring.broken ++ [hop.val] } }) ∧
    (a.ring.up = true → a.ring.closed = true → hop = 0 → 0 ∉ a.ring.broken → a.ring.split = false → exec (.hopBreak t hop) s = .next
      (count (flag { a with ring := { a.ring with
        broken := a.ring.broken ++ [0], breakW := 0xFF, breakE := 0, splitNext := true } } kTr 1) 0x40018)) ∧
    (hop.val ∈ a.ring.broken → exec (.hopRestored t hop) s = .next
      { a with ring := { a.ring with restored := storeIns a.ring.restored hop a.tb.spanIx } }) ∧
    (hop.val ∉ a.ring.broken → exec (.hopRestored t hop) s = .next a) ∧
    (a.ring.restored = [] → ∀ l, exec (.hopRejoin t hop l) s = .next a) ∧
    (∀ ix l, a.ring.restored = [(hop.val, ix)] → a.tb.spanIx < ix + 64 → exec (.hopRejoin t hop l) s = .next a) ∧
    (∀ ix r, a.ring.restored = [(hop.val, ix)] → ix + 64 ≤ a.tb.spanIx → a.ring.broken = [hop.val] → r = { a.ring with
        broken := [], restored := [], splitNext := false, nodes := a.ring.nodes.mapIdx fun _ n => n } →
      exec (.hopRejoin t hop []) s = .next (flag { a with ring := { r with rdMax := r.roundTrip } } kTr 0x40)) ∧
    (∀ k, exec (.satelliteWatchdog t k) s = .next { a with ring := { a.ring with
      nodes := a.ring.nodes.mapIdx fun i n => if i = k.val then { n with closedHeld := true } else n } }))

/-- Sweeps. The edges of the next span leave the wheel 64 ticks before the sweep, which takes them when its time has come; a sweep that
returns whole ends, with its time; one that returns wrapped records the break and sends its west half when the ring is closed and the time
allows. Late closes go out first. -/
def Obligations.Sweeps : Prop :=
  (∀ (s a : State) (t : Nat), s.power.porstHigh = true → a = advance s t →
    (a.ring.sweeping = false → exec (.edgeFreeze t) s = .next a ∧ exec (.sweepSend t) s = .next a) ∧
    (a.ring.sweeping = true → a.tb.boundary + a.sweepOff ≤ a.now + 64 → a.wheel.events = [] → exec (.edgeFreeze t) s = .next
      { a with ring := { a.ring with frozen := a.ring.frozen ++ a.ring.lateCloses, lateCloses := [] } }) ∧
    (∀ e, a.ring.sweeping = true → a.tb.boundary + a.sweepOff ≤ a.now + 64 → a.wheel.events = [e] → 64 ≤ e.valve →
      nodeOf e.valve < a.ring.nodes.length → e.sentOpen = false → e.opn < (a.tb.boundary + 2 * a.tb.len : Nat) →
      (a.tb.boundary + 2 * a.tb.len : Nat) ≤ e.cls → a.motionMode = true → e.sentClose = false → exec (.edgeFreeze t) s = .next
        { a with
          wheel := { a.wheel with events := [{ e with sentOpen := true }] }
          ring := { a.ring with
            frozen := a.ring.frozen ++ a.ring.lateCloses ++
              [{ valve := e.valve, opening := true, time := e.opn.toNat, late := false, arr := e.arr }]
            lateCloses := [] } }) ∧
    (a.ring.sweeping = true → a.ring.eastOut = false → a.ring.westOut = false → a.tb.boundary + a.sweepOff ≤ a.now → a.ring.split = false →
      exec (.sweepSend t) s = .next { a with ring := { a.ring with
        inFlight := a.ring.frozen, frozen := [], eastOut := true, westOut := false, westDue := none
        nodes := a.ring.nodes.map fun n => { n with served := false }
        mgmt := pickMgmt a.ring.mgmt, reportNow := a.ring.reportJobs, reportJobs := [] } }) ∧
    (∀ w, a.ring.westDue = some w → w ≤ a.now → exec (.westHalfSend t) s = .next
      { a with ring := { a.ring with westDue := none, westOut := true } }) ∧
    (a.ring.westDue = none → exec (.westHalfSend t) s = .next a)) ∧
  (∀ (s a : State) (t : Nat), s.power.porstHigh = true → a = advance s t →
    (a.ring.eastOut = false → ∀ x ok l, exec (.sweepReturn t .east x ok l) s = .next a) ∧
    (a.ring.eastOut = true → a.ring.westOut = false → a.ring.westDue = none → a.ring.split = false → exec (.sweepReturn t .east none true []) s =
      .next (finishSweep { a with ring := { a.ring with eastOut := false } } 0 (a.now - a.tb.boundary))) ∧
    (a.ring.eastOut = true → a.ring.westOut = false → a.ring.westDue = none → a.ring.split = false →
      exec (.sweepReturn t .east none false []) s = .next (finishSweep { flag (count a 0x40024) kTr 0x10 with
        ring := { (flag (count a 0x40024) kTr 0x10).ring with eastOut := false } } 0 (a.now - a.tb.boundary))))

/-- The opcodes of the ring: a sweep report waits for the next sweep's end; node reads and writes, of a tenant that holds the node's 32 valves
and is expert, a write not in RUN, wait for their answer; tenant 0 alone starts a new link-up. -/
def Obligations.TrestleOpcodes : Prop :=
  ∀ (s a : State) (t : Nat) (d : Desc) (j : Job), s.power.porstHigh = true →
    (Safety.taken s t 0x70 d = (a, j) → trReportCheck a j.d = none → ∀ u, u = keep a { j with phase := .active } →
      exec (.trSweepReport t d) s = .next (planNow { u with ring := { u.ring with reportJobs := u.ring.reportJobs ++ [j.id] } } j)) ∧
    (Safety.taken s t 0x71 d = (a, j) → trNodeCheck (pm 0 1 ||| pm 2 2) false a j.d = none → ∀ u, u = keep a { j with phase := .active } →
      exec (.trNodeRead t d) s = .next (planNow { u with ring := { u.ring with mgmt := u.ring.mgmt ++
        [{ job := some j.id, node := j.d.p 0 1, write := false, addr := j.d.p 2 2, value := 0, left := 4, sent := false }] } } j)) ∧
    (Safety.taken s t 0x72 d = (a, j) → trNodeCheck (pm 0 1 ||| pm 2 6) true a j.d = none → ∀ u, u = keep a { j with phase := .active } →
      exec (.trNodeWrite t d) s = .next (planNow { u with ring := { u.ring with mgmt := u.ring.mgmt ++
        [{ job := some j.id, node := j.d.p 0 1, write := true, addr := j.d.p 2 2, value := j.d.p 4 4, left := 4, sent := false }] } } j)) ∧
    (Safety.taken s t 0x72 d = (a, j) → badFormat j.d (pm 0 1 ||| pm 2 6) false = false → j.d.p 0 1 < 16 →
      (∀ o, o < 32 → a.hasValve j.d.tenant (64 + 32 * j.d.p 0 1 + o) = true) → a.expert j.d.tenant = true → a.mode = .run →
      exec (.trNodeWrite t d) s = .next (complete a j 0x13 0)) ∧
    (Safety.taken s t 0x73 d = (a, j) → badFormat j.d 0 false = false → j.d.tenant = 0 → a.mode ≠ .run → ∀ u, u = keep a { j with phase := .active } →
      exec (.trRelink t d) s = .next (planNow (startLink { u with ring := { u.ring with relinkJobs := u.ring.relinkJobs ++ [j.id] } }) j)) ∧
    (Safety.taken s t 0x73 d = (a, j) → badFormat j.d 0 false = false → j.d.tenant ≠ 0 → exec (.trRelink t d) s = .next (complete a j 0x11 0))

/-! ## Feedback, EMU outputs and latches (chapters 11 and 13) -/

/-- Enabling a feedback channel or an EMU output. In RUN nothing happens; a disabled unit with an owner and every field in range starts, any
other sets CFG_ERR; on an enabled one a write that changes another field is refused whole with CFG_ERR. Edges of a quadrature channel. A
legal edge moves the position by one count in its direction; one that comes too soon, or with both lines changed, is counted as illegal
and makes the channel suspect. An index edge re-references the position where INDEX_MODE asks for it. Hall: an impossible code counts, a
step to a neighbour moves one count, a jump makes the channel suspect; eight impossible samples in a row are a fault, eight good ones end
it; a channel that becomes suspect flags the EMU outputs that follow it. A channel at rest for STILL ticks stands. -/
def Obligations.FeedbackChannels : Prop :=
  ((∀ (s a : State) (t w : Nat) (n : Fin 40) (v : Word), s.power.porstHigh = true → a = advance s t → w = (v.toNat ||| 1) % 256 →
    (a.mode = .run → exec (.fbEnable t n v) s = .next a) ∧
    (a.mode ≠ .run → a.bitAt (fbKey n 0) 0 = false → a.fbOwner n < 256 → a.fbRanges n w = true → a.serOk n w = true →
      exec (.fbEnable t n v) s = .next ((a.wr (fbKey n 0) w).updFb n (·.start a.now))) ∧
    (a.mode ≠ .run → a.bitAt (fbKey n 0) 0 = false → (256 ≤ a.fbOwner n ∨ a.fbRanges n w = false ∨ a.serOk n w = false) →
      exec (.fbEnable t n v) s = .next (flag a (fbKey n 0x44) 0x100)) ∧
    (a.mode ≠ .run → a.bitAt (fbKey n 0) 0 = true → w / 2 ≠ a.rd (fbKey n 0) / 2 →
      exec (.fbEnable t n v) s = .next (flag a (fbKey n 0x44) 0x100)) ∧
    (a.mode ≠ .run → a.bitAt (fbKey n 0) 0 = true → w / 2 = a.rd (fbKey n 0) / 2 →
      exec (.fbEnable t n v) s = .next (a.wr (fbKey n 0) w))) ∧
  (∀ (s a : State) (t w src own : Nat) (e : Fin 8) (v : Word), s.power.porstHigh = true → a = advance s t →
    w = (v.toNat ||| 1) % 512 → src = bits w 1 6 → own = ownerBy (a.hasEmu · e) →
    (a.mode = .run → exec (.emuEnable t e v) s = .next a) ∧
    (a.mode ≠ .run → a.bitAt (emuKey e 0) 0 = false → src < 40 → a.fbMode src < 2 → 65536 ≤ a.rd (emuKey e 4) → own < 256 →
      (a.hasFb own src = true ∨ a.hasFbs own src = true) →
      ((a.fb src).suspect = false → (a.fb src).fault = false →
        exec (.emuEnable t e v) s = .next ((a.wr (emuKey e 0) w).setEmu e Emu.reset)) ∧
      ((a.fb src).suspect = true → a.bitAt (emuKey e 0xC) 1 = false →
        exec (.emuEnable t e v) s = .next (flag ((a.wr (emuKey e 0) w).setEmu e Emu.reset) (emuKey e 0xC) 2))) ∧
    (a.mode ≠ .run → a.bitAt (emuKey e 0) 0 = false → (40 ≤ src ∨ 2 ≤ a.fbMode src ∨ a.rd (emuKey e 4) < 65536 ∨ 256 ≤ own) →
      exec (.emuEnable t e v) s = .next (flag a (emuKey e 0xC) 4)) ∧
    (a.mode ≠ .run → a.bitAt (emuKey e 0) 0 = true → w / 2 ≠ a.rd (emuKey e 0) / 2 →
      exec (.emuEnable t e v) s = .next (flag a (emuKey e 0xC) 4)) ∧
    (a.mode ≠ .run → a.bitAt (emuKey e 0) 0 = true → w / 2 = a.rd (emuKey e 0) / 2 → exec (.emuEnable t e v) s = .next a))) ∧
  ((∀ (s a : State) (t : Nat) (n : Fin 40) (la lb up : Bool) (f : Fb), s.power.porstHigh = true → a = advance s t → f = a.fb n →
    up = (((quadIx la lb + 4 - quadIx f.a f.b) % 4 == 1) != a.bitAt (fbKey n 0) 3) →
    (la = f.a → lb = f.b → exec (.quadratureEdge t n la lb) s = .next a) ∧
    (la ≠ f.a ∨ lb ≠ f.b → a.bitAt (fbKey n 0) 0 = false → exec (.quadratureEdge t n la lb) s = .next (a.setFb n { f with a := la, b := lb })) ∧
    (a.bitAt (fbKey n 0) 0 = true → a.fbMode n = 0 → (∀ e, e < 8 → a.bitAt (emuKey e 0) 0 = false) →
      ((la ≠ f.a ∧ lb = f.b) ∨ (la = f.a ∧ lb ≠ f.b)) → (∀ p, f.lastAB = some p → p + a.fld (fbKey n 4) 0 12 ≤ a.now) →
      exec (.quadratureEdge t n la lb) s = .next (fbCount (a.setFb n { f with a := la, b := lb, lastAB := some a.now }) n up)) ∧
    (a.bitAt (fbKey n 0) 0 = true → a.fbMode n = 0 → ((la ≠ f.a ∧ lb ≠ f.b) ∨ ((la ≠ f.a ∨ lb ≠ f.b) ∧
        ∃ p, f.lastAB = some p ∧ p ≤ a.now ∧ a.now < p + a.fld (fbKey n 4) 0 12)) → exec (.quadratureEdge t n la lb) s = .next
      (emuSuspects ((flag (count (a.setFb n { f with a := la, b := lb, lastAB := some a.now }) (fbKey n 0x4C)) (fbKey n 0x44) 1).updFb n
        fun x => { x with suspect := true }) n))) ∧
  (∀ (s : State) (n : Nat) (up : Bool) (f : Fb), f = s.fb n → (∀ e, e < 8 → s.bitAt (emuKey e 0) 0 = false) →
    fbCount s n up = s.setFb n { f with
      pos := wrap64 (if up then f.pos + 65536 else f.pos - 65536)
      pts := (s.now, wrap64 (if up then f.pos + 65536 else f.pos - 65536)) :: f.pts
      edges := ((s.now, up) :: f.edges).take 8
      still := f.still && f.stillDir != some up
      stillDir := some up
      lastMove := s.now }) ∧
  (∀ (s a : State) (t : Nat) (n : Fin 40) (f : Fb), s.power.porstHigh = true → a = advance s t → f = a.fb n →
    (a.bitAt (fbKey n 0) 0 = false → exec (.indexEdge t n) s = .next a) ∧
    (∀ p, a.bitAt (fbKey n 0) 0 = true → a.fbMode n = 0 → f.lastZ = some p → a.now < p + a.fld (fbKey n 4) 0 12 →
      exec (.indexEdge t n) s = .next (count (a.setFb n { f with lastZ := some a.now }) (fbKey n 0x4C))) ∧
    (a.bitAt (fbKey n 0) 0 = true → a.fbMode n = 0 → f.lastZ = none → a.fld (fbKey n 0) 4 2 = 0 →
      exec (.indexEdge t n) s = .next (a.setFb n { f with lastZ := some a.now, indexSeen := true })) ∧
    (a.bitAt (fbKey n 0) 0 = true → a.fbMode n = 0 → f.lastZ = none → a.fld (fbKey n 0) 4 2 = 2 →
      exec (.indexEdge t n) s = .next (reReference (a.setFb n { f with lastZ := some a.now, indexSeen := true }) n))) ∧
  (∀ (s : State) (n : Nat) (f : Fb) (e : Int), f = s.fb n → e = idxErr (s.rd (fbKey n 0xC)) (s.rd (fbKey n 8)) (f.pos / 65536) →
    e.natAbs ≤ s.fld (fbKey n 0x10) 0 16 → reReference s n =
      (s.setFb n { f with
        pos := wrap64 (f.pos + e * 65536)
        pts := (s.now, wrap64 (f.pos + e * 65536)) :: f.pts
        suspect := false
        homed := true }).wr (fbKey n 0x50) (unsigned 32 e)) ∧
  (∀ (s a : State) (t : Nat) (n : Fin 40) (code : Fin 8) (f : Fb), s.power.porstHigh = true → a = advance s t → f = a.fb n →
    (a.bitAt (fbKey n 0) 0 = false → exec (.hallCodeChange t n code) s = .next a) ∧
    (a.bitAt (fbKey n 0) 0 = true → a.fbMode n = 1 → hallSector code = none → f.sector = none → Safety.Tables a →
      exec (.hallCodeChange t n code) s = .next
        (flag (count (a.setFb n { f with impRun := f.impRun + 1, okRun := 0 }) (fbKey n 0x5C)) (fbKey n 0x44) 4)) ∧
    (∀ x, a.bitAt (fbKey n 0) 0 = true → a.fbMode n = 1 → hallSector code = some x → f.sector = none →
      exec (.hallCodeChange t n code) s = .next (a.setFb n { f with impRun := 0, okRun := f.okRun + 1, sector := some x })) ∧
    (∀ x o, a.bitAt (fbKey n 0) 0 = true → a.fbMode n = 1 → hallSector code = some x → f.sector = some o →
      (x + 6 - o) % 6 ∈ [1, 5] → (∀ p, p < 32 → (a.pier p).aligned = true) → (∀ e, e < 8 → a.bitAt (emuKey e 0) 0 = false) →
      Safety.Tables a → exec (.hallCodeChange t n code) s = .next
        (fbCount (a.setFb n { f with impRun := 0, okRun := f.okRun + 1, sector := some x }) n
          (((x + 6 - o) % 6 == 1) != a.bitAt (fbKey n 0) 3))) ∧
    (∀ x o u, a.bitAt (fbKey n 0) 0 = true → a.fbMode n = 1 → hallSector code = some x → f.sector = some o →
      u = a.setFb n { f with impRun := 0, okRun := f.okRun + 1, sector := some x } → (∀ p, p < 32 → (a.pier p).aligned = true) →
      ((x + 6 - o) % 6 = 0 → exec (.hallCodeChange t n code) s = .next u) ∧
      ((x + 6 - o) % 6 ∉ [0, 1, 5] → exec (.hallCodeChange t n code) s = .next
        (emuSuspects ((flag u (fbKey n 0x44) 16).updFb n fun x => { x with suspect := true }) n)))) ∧
  (∀ (s a : State) (t : Nat) (n : Fin 40) (f : Fb), s.power.porstHigh = true → a = advance s t → f = a.fb n →
    (a.bitAt (fbKey n 0) 0 = true → a.fbMode n = 1 → 8 ≤ f.impRun → f.fault = false → exec (.hallFault t n) s = .next
      (emuSuspects (flag (a.setFb n { f with fault := true, suspect := true }) (fbKey n 0x44) 8) n)) ∧
    ((∀ e, e < 8 → a.bitAt (emuKey e 0) 0 = false ∨ a.fld (emuKey e 0) 1 6 ≠ n) → emuSuspects a n = a) ∧
    (f.impRun < 8 → exec (.hallFault t n) s = .next a) ∧
    (f.fault = true → 8 ≤ f.okRun → exec (.hallFaultClear t n) s = .next (a.setFb n { f with fault := false })) ∧
    (f.okRun < 8 → exec (.hallFaultClear t n) s = .next a) ∧
    (a.bitAt (fbKey n 0) 0 = true → f.lastMove + a.fld (fbKey n 0x2C) 0 24 ≤ a.now → exec (.still t n) s = .next
      (a.setFb n { f with still := true, stillDir := none })) ∧
    (a.now < f.lastMove + a.fld (fbKey n 0x2C) 0 24 → exec (.still t n) s = .next a)))

/-- Serial channels. A transaction starts and latches after its delay; a slot that finds one running is skipped and counted. The first valid
word gives the position; a line found low, or no start bit in time, makes the transaction invalid. -/
def Obligations.SerialTransactions : Prop :=
  (∀ (s a : State) (t : Nat) (n : Fin 40) (f : Fb), s.power.porstHigh = true → a = advance s t → f = a.fb n →
    (a.bitAt (fbKey n 0) 0 = false → exec (.serialTransactionStart t n) s = .next a) ∧
    (a.bitAt (fbKey n 0) 0 = true → 2 ≤ a.fbMode n → f.run.isSome = true →
      exec (.serialTransactionStart t n) s = .next (count a (fbKey n 0x58))) ∧
    (a.bitAt (fbKey n 0) 0 = true → a.fbMode n = 2 → f.run = none → exec (.serialTransactionStart t n) s = .next
      (a.setFb n { f with run := some { start := a.now, latch := a.now + a.fld (fbKey n 0x24) 0 12, code := 0, job := none } })) ∧
    (a.bitAt (fbKey n 0) 0 = true → a.fbMode n = 3 → f.run = none → f.essStatus = true →
      exec (.serialTransactionStart t n) s = .next (a.setFb n { f with
        run := some { start := a.now, latch := a.now + 32 + a.fld (fbKey n 0x24) 0 12, code := 2, job := none }
        essStatus := false }))) ∧
  (∀ (s a : State) (t : Nat) (n : Fin 40) (f : Fb) (r : SerRun), s.power.porstHigh = true → a = advance s t → f = a.fb n →
    (f.run = none → (∀ rx, exec (.serialTransactionDone t n rx) s = .next a) ∧ ∀ low, exec (.startTimeout t n low) s = .next a) ∧
    (∀ w p, f.run = some r → r.code = 0 → exec (.serialTransactionDone t n (.ssi true w p)) s = .next (serInvalid a n true)) ∧
    (∀ w p b, f.run = some r → r.code = 0 → a.fbMode n = 2 → b = a.fld (fbKey n 0x18) 0 6 → a.bitAt (fbKey n 0x18) 7 = false →
      a.bitAt (fbKey n 0x18) 6 = false → f.raw = none → Safety.Tables a →
      ∃ u, exec (.serialTransactionDone t n (.ssi false w p)) s = .next u ∧ (u.fb n).raw = some (w % 2 ^ b) ∧
        (u.fb n).pos = wrap64 ((w % 2 ^ b) * 2 ^ (16 - a.fld (fbKey n 0x18) 8 5) : Nat) ∧ (u.fb n).run = none ∧
        (u.fb n).invalid = false ∧ (u.fb n).validRun = f.validRun + 1 ∧ u.regs = a.regs ∧ ∀ k, k ≠ n.val → u.fb k = a.fb k) ∧
    (∀ bs fe la, f.run = some r → r.code ≠ 0 → fe = true ∨ la = true ∨ bs.length ≠ essLen r.code →
      exec (.serialTransactionDone t n (.ess bs fe la)) s = .next (serInvalid a n false)) ∧
    (∀ low, f.run = some r → r.code ≠ 0 → exec (.startTimeout t n low) s = .next (serInvalid (flag a (fbKey n 0x44) 0x40) n low))) ∧
  (∀ (s : State) (n : Nat) (fail : Bool) (f : Fb), f = s.fb n → f.run.bind (·.job) = none → serInvalid s n fail =
    flag (count (s.setFb n { f with
      run := none
      invalid := true
      prevValid := false
      validRun := 0
      errRun := f.errRun + 1
      suspect := f.suspect || fail || decide (s.fld (fbKey n 0x18) 16 4 ≤ f.errRun + 1) }) (fbKey n 0x58)) (fbKey n 0x44)
        (if fail then 0xA0 else 0x20))

/-- The opcodes of a feedback channel and the EMU outputs. FB_SET_POS waits for the sample instant; FB_STREAM sets or ends the tenant's
stream; the ESS memory opcodes wait for a slot; EMU_START sets the distance to the next pulse, EMU_STOP suspends. -/
def Obligations.FeedbackOpcodes : Prop :=
  (∀ (s a : State) (t : Nat) (d : Desc) (j : Job), s.power.porstHigh = true → Safety.taken s t 0xA0 d = (a, j) →
    badFormat j.d (pm 0 1 ||| pb 1 1 ||| pm 4 8) false = false → j.d.p 0 1 < 40 →
    (a.hasFb j.d.tenant (j.d.p 0 1) = false → exec (.fbSetPos t d) s = .next (complete a j 0x11 0)) ∧
    (a.hasFb j.d.tenant (j.d.p 0 1) = true → bit (j.d.p 1 1) 0 = false → a.fbOfLivePier (j.d.p 0 1) = true →
      exec (.fbSetPos t d) s = .next (complete a j 0x13 0)) ∧
    (a.hasFb j.d.tenant (j.d.p 0 1) = true → (bit (j.d.p 1 1) 0 = true ∨ a.fbOfLivePier (j.d.p 0 1) = false) →
      exec (.fbSetPos t d) s = .next (Safety.answer
        (a.updFb (j.d.p 0 1) fun f => { f with setPos := f.setPos ++ [(bit (j.d.p 1 1) 0, j.d.pS 4 8)] }) j 0 0))) ∧
  (∀ (s a : State) (t : Nat) (d : Desc) (j : Job), s.power.porstHigh = true → Safety.taken s t 0xA1 d = (a, j) →
    badFormat j.d (pm 0 3) false = false → j.d.p 0 1 < 40 → j.d.p 1 1 < 64 → a.qKind j.d.tenant (j.d.p 1 1) = 3 →
    (a.hasFb j.d.tenant (j.d.p 0 1) = true ∨ a.hasFbs j.d.tenant (j.d.p 0 1) = true) →
    (j.d.p 2 1 = 0 → exec (.fbStream t d) s = .next (Safety.answer (a.updFb (j.d.p 0 1) fun f =>
      { f with streams := f.streams.filter (·.tenant != j.d.tenant.val) }) j 0 0)) ∧
    (j.d.p 2 1 ≠ 0 → a.tb.boundary + a.tb.offset ≤ a.now → exec (.fbStream t d) s = .next (Safety.answer (a.updFb (j.d.p 0 1) fun f =>
      { f with streams := f.streams.filter (·.tenant != j.d.tenant.val) ++
          [{ tenant := j.d.tenant, queue := j.d.p 1 1, every := j.d.p 2 1, first := a.tb.spanIx + 1 }] }) j 0 0))) ∧
  (∀ (s a : State) (t : Nat) (d : Desc) (j : Job), s.power.porstHigh = true →
    (Safety.taken s t 0xA2 d = (a, j) → badFormat j.d (pm 0 2) false = false → j.d.p 0 1 < 40 → a.fbMode (j.d.p 0 1) = 3 →
      a.hasFb j.d.tenant (j.d.p 0 1) = true → a.expert j.d.tenant = true → exec (.fbEssRead t d) s = .next
        (planNow ((keep a { j with phase := .active }).updFb (j.d.p 0 1) fun f => { f with mems := f.mems ++ [(j.id, 0)] }) j)) ∧
    (Safety.taken s t 0xA3 d = (a, j) → badFormat j.d (pm 0 2 ||| pm 4 4) false = false → j.d.p 0 1 < 40 → a.fbMode (j.d.p 0 1) = 3 →
      a.hasFb j.d.tenant (j.d.p 0 1) = true → a.expert j.d.tenant = true →
      (a.mode ≠ .run → exec (.fbEssWrite t d) s = .next
        (planNow ((keep a { j with phase := .active }).updFb (j.d.p 0 1) fun f => { f with mems := f.mems ++ [(j.id, 0)] }) j)) ∧
      (a.mode = .run → exec (.fbEssWrite t d) s = .next (complete a j 0x13 0)))) ∧
  (∀ (s a : State) (t : Nat) (d : Desc) (j : Job) (f : Fb) (diff : Int), s.power.porstHigh = true → Safety.taken s t 0xA4 d = (a, j) →
    badFormat j.d (pm 0 1 ||| pm 4 8) false = false → j.d.p 0 1 < 8 → a.hasEmu j.d.tenant (j.d.p 0 1) = true →
    f = a.fb (a.fld (emuKey (j.d.p 0 1) 0) 1 6) → diff = posDiff f.pos (j.d.pS 4 8) →
    (f.suspect = true → exec (.emuStart t d) s = .next (Safety.answer (flag a (emuKey (j.d.p 0 1) 0xC) 2) j 0x52 0)) ∧
    (f.suspect = false → f.fault = false → a.bitAt (emuKey (j.d.p 0 1) 0) 7 = false → 0 ≤ diff → a.rd (emuKey (j.d.p 0 1) 4) ≠ 0 →
      exec (.emuStart t d) s = .next (Safety.answer
        (a.updEmu (j.d.p 0 1) fun x => { x with e := diff % a.rd (emuKey (j.d.p 0 1) 4), suspended := false }) j 0 0)) ∧
    (f.suspect = false → f.fault = false → a.bitAt (emuKey (j.d.p 0 1) 0) 7 = false → diff < 0 →
      exec (.emuStart t d) s = .next (Safety.answer
        (a.updEmu (j.d.p 0 1) fun x => { x with e := diff + a.rd (emuKey (j.d.p 0 1) 4), suspended := false }) j 0 0))) ∧
  (∀ (s a : State) (t : Nat) (d : Desc) (j : Job), s.power.porstHigh = true → Safety.taken s t 0xA5 d = (a, j) →
    badFormat j.d (pm 0 1) false = false → j.d.p 0 1 < 8 → a.hasEmu j.d.tenant (j.d.p 0 1) = true → exec (.emuStop t d) s = .next
      (Safety.answer (a.updEmu (j.d.p 0 1) fun x => { x with suspended := true }) j 0 0)) ∧
  (∀ (s a : State) (t r : Nat) (e : Fin 8), s.power.porstHigh = true → a = advance s t → (a.emu e).rise = some r →
    (r + a.fld (emuKey e 8) 0 16 ≤ a.now → exec (.emuPulseEnd t e) s = .next (a.setEmu e { a.emu e with high := false })) ∧
    (a.now < r + a.fld (emuKey e 8) 0 16 → exec (.emuPulseEnd t e) s = .next a)) ∧
  (∀ (s : State) (e n : Nat) (up : Bool), s.bitAt (emuKey e 0) 0 = true → s.fld (emuKey e 0) 1 6 = n → (s.fb n).suspect = false →
    (s.fb n).fault = false → (s.emu e).suspended = false → up = !s.bitAt (emuKey e 0) 7 →
    ((s.emu e).e + 65536 < s.rd (emuKey e 4) → emuEdge s e n up = s.setEmu e { s.emu e with e := (s.emu e).e + 65536 }) ∧
    ((s.rd (emuKey e 4) : Int) ≤ (s.emu e).e + 65536 →
      emuEdge s e n up = emuPulse (s.setEmu e { s.emu e with e := (s.emu e).e + 65536 - s.rd (emuKey e 4) }) e))

/-- Latches. LATCH_ARM fills the slot, disarming what was there, and its descriptor waits; LATCH_DISARM ends the slot and completes what armed
it with its capture count; a PROBE edge counts and reaches every armed slot of its pin. -/
def Obligations.Latches : Prop :=
  (∀ (s a : State) (t k : Nat) (d : Desc) (j : Job), s.power.porstHigh = true → Safety.taken s t 0x2B d = (a, j) → k = 8 * j.d.p 0 1 + j.d.p 1 1 →
    badFormat j.d (pm 0 4 ||| pb 4 1 ||| pm 5 2 ||| pm 8 8) false = false → j.d.p 0 1 < 32 → j.d.p 1 1 < 8 → j.d.p 2 1 < 3 →
    j.d.p 3 1 < 16 → j.d.p 5 1 < 64 → j.d.p 6 1 < 40 → a.hasPier j.d.tenant (j.d.p 0 1) = true →
    a.hasProbe j.d.tenant (j.d.p 3 1) = true → (a.hasFb j.d.tenant (j.d.p 6 1) = true ∨ a.hasFbs j.d.tenant (j.d.p 6 1) = true) →
    exec (.latchArm t d) s = .next (planNow ((keep (disarm a k) { j with phase := .active }).setLatch k
      { armed := true, job := some j.id, tenant := j.d.tenant, cont := bit (j.d.p 4 1) 0, kind := j.d.p 2 1, index := j.d.p 3 1
        queue := some (j.d.p 5 1), chan := j.d.p 6 1, since := (keep (disarm a k) { j with phase := .active }).now, events := []
        inSpan := 0, spanOf := (keep (disarm a k) { j with phase := .active }).tb.spanIx, lost := 0, captures := 0 }) j)) ∧
  (∀ (s a : State) (t k : Nat) (d : Desc) (j : Job), s.power.porstHigh = true → Safety.taken s t 0x2C d = (a, j) → k = 8 * j.d.p 0 1 + j.d.p 1 1 →
    badFormat j.d (pm 0 2) false = false → j.d.p 0 1 < 32 → j.d.p 1 1 < 8 → a.hasPier j.d.tenant (j.d.p 0 1) = true →
    ((a.latch k).job = none → exec (.latchDisarm t d) s = .next
      (Safety.answer (a.setLatch k { a.latch k with armed := false, events := [], job := none }) j 0 0)) ∧
    (∀ i q, (a.latch k).job = some i → a.job? i = some q → exec (.latchDisarm t d) s = .next (Safety.answer
      (complete (a.setLatch k { a.latch k with armed := false, events := [], job := none }) q 0 ((a.latch k).captures % 2 ^ 32)) j 0 0))) ∧
  (∀ (s a : State) (t : Nat) (i : Fin 16) (r : Bool), s.power.porstHigh = true → a = advance s t → Safety.Tables a →
    ∃ u, exec (.probeEdge t i r) s = .next u ∧ storeGet (fun _ => 0) u.probeCnts i = storeGet (fun _ => 0) a.probeCnts i + 1 ∧
      (∀ x ∈ a.latches, x.2.index = i.val → (x.2.kind = 2 ∨ x.2.kind = (if r then 0 else 1)) →
        (x.1, x.2.take a.tb.spanIx a.now ((storeGet (fun _ => 0) a.probeCnts i + 1) % 2 ^ 32)) ∈ u.latches) ∧
      (∀ x ∈ a.latches, x.2.index ≠ i.val → x ∈ u.latches) ∧ u.regs = a.regs ∧ u.fbs = a.fbs ∧ u.jobs = a.jobs) ∧
  (∀ (l : Latch) (ix time seq : Nat), l.armed = true → l.since ≤ time →
    (l.cont = false → l.take ix time seq = { l with
      spanOf := ix, inSpan := (if l.spanOf = ix then l.inSpan else 0) + 1, events := l.events ++ [(time, seq, 0)], armed := false }) ∧
    (l.cont = true → l.spanOf = ix → 8 ≤ l.inSpan → l.take ix time seq = { l with lost := min (l.lost + 1) 0xFFFF }))

/-! ## Piers, paths and step generators (chapters 12 to 14) -/

/-- The motion opcodes of a pier. Each is checked and then waits for the span boundary, its motion last among those that wait; PIER_ENABLE
needs a motion mode, a DISABLED pier and a commutation angle; a move, jog or torque needs a live pier whose reference is its own, and a
limit already active in its direction stops a move or jog at admission. The set-up opcodes of a pier. PIER_ALIGN starts the alignment and
PIER_ALIGN_DONE ends it once its spans are over, with COMM_OFF such that the electrical angle is zero here; PIER_COEF keeps a value within
its range for the boundary and says so when it clamped; PIER_FILTER waits for the boundary; PIER_VOLT sets the voltage of a live pier
outside RUN; PIER_CLEAR ends a fault whose cause is gone. -/
def Obligations.Piers : Prop :=
  ((∀ (s a : State) (t p : Nat) (d : Desc) (j : Job), s.power.porstHigh = true → Safety.taken s t 0x10 d = (a, j) → p = j.d.p 0 1 →
    badFormat j.d (pm 0 2) false = false → p < 32 → 2 ≤ j.d.p 1 1 → j.d.p 1 1 ≤ 4 → a.hasPier j.d.tenant p = true →
    a.pierLacks j.d.tenant p = false →
    (a.motionMode = false → exec (.pierEnable t d) s = .next (complete a j 0x13 1)) ∧
    (a.motionMode = true → (a.pier p).mode ≠ .disabled → exec (.pierEnable t d) s = .next (complete a j 0x13 2)) ∧
    (a.motionMode = true → (a.pier p).mode = .disabled → (a.pier p).aligned = false → a.bitAt (pierKey p 4) 14 = false →
      exec (.pierEnable t d) s = .next (complete a j 0x13 3)) ∧
    (a.motionMode = true → (a.pier p).mode = .disabled → ((a.pier p).aligned = true ∨ a.bitAt (pierKey p 4) 14 = true) →
      exec (.pierEnable t d) s = .next (planNow ((keep a { j with phase := .active }).updAxis p fun x =>
        { x with next := x.next ++ [(.enable (j.d.p 1 1), some j.id)] }) j))) ∧
  (∀ (s a : State) (t p : Nat) (d : Desc) (j : Job), s.power.porstHigh = true → Safety.taken s t 0x11 d = (a, j) → p = j.d.p 0 1 →
    badFormat j.d (pm 0 1 ||| pb 1 1) false = false → p < 32 → a.hasPier j.d.tenant p = true → exec (.pierDisable t d) s = .next
      (planNow ((keep a { j with phase := .active }).updAxis p fun x =>
        { x with next := x.next ++ [(.disable (bit (j.d.p 1 1) 0), some j.id)] }) j)) ∧
  (∀ (s a : State) (t p v : Nat) (d : Desc) (j : Job) (dir : Int), s.power.porstHigh = true → Safety.taken s t 0x13 d = (a, j) → p = j.d.p 0 1 →
    badFormat j.d (pm 0 1 ||| pm 4 16) false = false → p < 32 → a.hasPier j.d.tenant p = true → a.noMotion j.d.tenant = false →
    (a.pier p).mode.live = true → a.axisFree p = true → v = j.d.p 12 4 → dir = ratSign (ofQ 16 (posDiff (j.d.pS 4 8) (a.axis p).p)) →
    (a.blocked p dir = true → exec (.pierMove t d) s = .next (Safety.answer a j 0x50 0)) ∧
    (a.blocked p dir = false → exec (.pierMove t d) s = .next (planNow ((keep a { j with phase := .active }).updAxis p fun x =>
      { x with next := x.next ++ [(.move (j.d.pS 4 8) (min v (a.maxSpeed p)) (j.d.p 16 4) (j.d.p 16 4) 0
        (decide (a.maxSpeed p < v)), some j.id)] }) j))) ∧
  (∀ (s a : State) (t p : Nat) (d : Desc) (j : Job) (dir : Int), s.power.porstHigh = true → Safety.taken s t 0x14 d = (a, j) → p = j.d.p 0 1 →
    badFormat j.d (pm 0 1 ||| pm 4 8) false = false → p < 32 → a.hasPier j.d.tenant p = true → a.noMotion j.d.tenant = false →
    (a.pier p).mode.live = true → a.axisFree p = true → dir = ratSign (ofQ 16 (j.d.pS 4 4)) →
    (a.blocked p dir = true → exec (.pierJog t d) s = .next (Safety.answer a j 0x50 0)) ∧
    (a.blocked p dir = false → exec (.pierJog t d) s = .next (planNow ((keep a { j with phase := .active }).updAxis p fun x =>
      { x with next := x.next ++ [(.jog (j.d.pS 4 4) (j.d.p 8 4), some j.id)] }) j))) ∧
  (∀ (s a : State) (t p : Nat) (d : Desc) (j : Job), s.power.porstHigh = true → Safety.taken s t 0x15 d = (a, j) → p = j.d.p 0 1 →
    badFormat j.d (pm 0 1 ||| pm 4 8) false = false → p < 32 → a.hasPier j.d.tenant p = true → a.noMotion j.d.tenant = false →
    (a.pier p).mode.live = true → a.axisFree p = true → exec (.pierTorque t d) s = .next
      (planNow ((keep a { j with phase := .active }).updAxis p fun x =>
        { x with next := x.next ++ [(.torque (a.toShare p (j.d.pS 4 4)) (a.toShare p (j.d.pS 8 4)), some j.id)] }) j)) ∧
  (∀ (s a : State) (t p : Nat) (d : Desc) (j : Job), s.power.porstHigh = true → Safety.taken s t 0x16 d = (a, j) → p = j.d.p 0 1 →
    badFormat j.d (pm 0 1) false = false → p < 32 → a.hasPier j.d.tenant p = true →
    (a.noMotion j.d.tenant = false → (a.pier p).mode.live = true → exec (.pierStop t d) s = .next
      (planNow ((keep a { j with phase := .active }).updAxis p fun x => { x with next := x.next ++ [(.stop, some j.id)] }) j)) ∧
    (a.noMotion j.d.tenant = true ∨ (a.pier p).mode.live = false → exec (.pierStop t d) s = .next (complete a j 0x13 0)))) ∧
  ((∀ (s a : State) (t p : Nat) (d : Desc) (j : Job), s.power.porstHigh = true → Safety.taken s t 0x12 d = (a, j) → p = j.d.p 0 1 →
    badFormat j.d (pm 0 1 ||| pm 4 6) false = false → p < 32 → j.d.p 8 2 ≠ 0 → a.hasPier j.d.tenant p = true →
    a.pierLacks j.d.tenant p = false → a.noMotion j.d.tenant = false →
    ((a.pier p).mode = .disabled → exec (.pierAlign t d) s = .next (planNow (takeCoefs
      ((keep a { j with phase := .active }).updPier p fun x => { x with
        mode := .aligning
        cause := 0
        alignLeft := j.d.p 8 2
        alignJob := some j.id
        idCmd := a.toShare p (j.d.pS 4 4)
        iqCmd := 0
        intD := 0
        intQ := 0 }) p) j)) ∧
    ((a.pier p).mode ≠ .disabled → exec (.pierAlign t d) s = .next (complete a j 0x13 0))) ∧
  (∀ (s a : State) (t off : Nat) (p : Fin 32), s.power.porstHigh = true → a = advance s t →
    off = unsigned 32 (-(a.thetaP p (a.fb (a.commCh p)).snapPos : Int)) →
    ((a.pier p).mode ≠ .aligning ∨ (a.pier p).alignLeft ≠ 0 → exec (.pierAlignDone t p) s = .next a) ∧
    ((a.pier p).mode = .aligning → (a.pier p).alignLeft = 0 → exec (.pierAlignDone t p) s = .next
      (alignEnd ((pierDisabled (a.wr (pierKey p 0x1C) off) p).updPier p fun x => { x with aligned := true }) p 0 off))) ∧
  (∀ (s a : State) (t i v w : Nat) (d : Desc) (j : Job), s.power.porstHigh = true → Safety.taken s t 0x17 d = (a, j) →
    badFormat j.d (pm 0 2 ||| pm 4 4) false = false → j.d.p 0 1 < 32 → i = j.d.p 1 1 → 1 ≤ i → i ≤ 12 → v = j.d.p 4 4 →
    w = max (coefRange i).1 (min v (coefRange i).2) → a.hasPier j.d.tenant (j.d.p 0 1) = true →
    (a.expert j.d.tenant = false → exec (.pierCoef t d) s = .next (complete a j 0x15 0)) ∧
    (a.expert j.d.tenant = true → exec (.pierCoef t d) s = .next (Safety.answer
      (a.updPier (j.d.p 0 1) fun x => { x with overPend := storePut (fun _ => 0) x.overPend i (w + 1) }) j
        (if w = v then 0 else 3) (if w = v then 0 else i + 2 ^ 32 * w)))) ∧
  (∀ (s a : State) (t : Nat) (d : Desc) (j : Job), s.power.porstHigh = true → Safety.taken s t 0x18 d = (a, j) →
    badFormat j.d (pm 0 2 ||| pm 4 20) true = false → j.d.p 0 1 < 32 → j.d.p 1 1 < 4 → a.hasPier j.d.tenant (j.d.p 0 1) = true →
    a.expert j.d.tenant = true → exec (.pierFilter t d) s = .next (Safety.answer (a.updPier (j.d.p 0 1) fun x =>
      { x with bqPend := x.bqPend ++
          [(j.d.p 1 1, [j.d.pS 4 4, j.d.pS 8 4, j.d.pS 12 4, j.d.pS 16 4, j.d.pS 20 4])] }) j 0 0)) ∧
  (∀ (s a : State) (t p : Nat) (d : Desc) (j : Job), s.power.porstHigh = true → Safety.taken s t 0x19 d = (a, j) → p = j.d.p 0 1 →
    badFormat j.d (pm 0 1 ||| pm 4 12) false = false → p < 32 → a.hasPier j.d.tenant p = true → a.expert j.d.tenant = true →
    (a.mode = .run → exec (.pierVolt t d) s = .next (complete a j 0x13 0)) ∧
    (a.mode ≠ .run → a.noMotion j.d.tenant = false → (a.pier p).mode.live = true → (a.axis p).job = none →
      exec (.pierVolt t d) s = .next
        (Safety.answer (a.updPier p fun x => { x with volt := some (j.d.pS 4 4, j.d.pS 8 4, j.d.p 12 4) }) j 0 0))) ∧
  (∀ (s a : State) (t p : Nat) (d : Desc) (j : Job), s.power.porstHigh = true → Safety.taken s t 0x1A d = (a, j) → p = j.d.p 0 1 →
    badFormat j.d (pm 0 1) false = false → p < 32 → a.hasPier j.d.tenant p = true →
    ((a.pier p).mode = .fault → a.pierGone p = true → exec (.pierClear t d) s = .next
      (Safety.answer (disableDone (a.updPier p fun x => { x with mode := .disabled, cause := 0 }) p 0) j 0 1)) ∧
    ((a.pier p).mode ≠ .fault ∨ a.pierGone p = false → exec (.pierClear t d) s = .next (Safety.answer a j 0 0))))

/-- What a pier's loops can ask of its outputs. The duties of a pier lie in 0 to 1 whatever the voltages, the angle and the bus; the velocity
the position loop asks for lies within the speed limit; a disabled pier's legs are off and a pier that faults leaves its loops. -/
def Obligations.PierOutputsBounded : Prop :=
  (∀ (vd vq : Int) (turns : Rat) (bus : Nat), ∀ x ∈ legDuties vd vq turns bus, 0 ≤ x ∧ x ≤ 1) ∧
  (∀ (s : State) (p : Nat), Safety.Tables s → (s.pier p).feRun + 1 < max 1 (s.fld (pierKey p 0x78) 4 8) →
    -(((s.pier p).k 11 : Int) * 256) ≤ ((positionLoop s p).pier p).vCmd ∧
    ((positionLoop s p).pier p).vCmd ≤ ((s.pier p).k 11 : Int) * 256) ∧
  (∀ (x lo hi : Int), lo ≤ hi → lo ≤ (limitTo x lo hi).1 ∧ (limitTo x lo hi).1 ≤ hi ∧ ((limitTo x lo hi).2 = false → (limitTo x lo hi).1 = x)) ∧
  (∀ (s : State) (p cause : Nat), Safety.Tables s → (s.pier p).mode ≠ .disabled → (s.pier p).mode ≠ .fault →
    ((pierFault s p cause).pier p).mode = .fault ∧ ((pierFault s p cause).pier p).cause = cause ∧ ((pierFault s p cause).pier p).ovr = []) ∧
  (∀ (s : State) (p cause : Nat), (s.pier p).mode = .fault ∨ (s.pier p).mode = .disabled → pierFault s p cause = s)

/-- PROFILE_MOVE and AXIS_STOP_CFG. A profile move on a free axis that runs waits for the boundary with its speed no higher than the axis
allows, or ends at admission at an active limit; a stop deceleration waits for the boundary. Interpolation groups. GROUP_OPEN claims a
free group for its tenant with its axes, which join it at the boundary; GROUP_CLOSE frees an idle one; SEG_APPEND waits for its segments;
GROUP_CTRL acts at the boundary, an override above 200 % clamped and reported. At the boundary STOP, HOLD and RESUME act only from the
states they fit. -/
def Obligations.PathsAndGroups : Prop :=
  ((∀ (s a : State) (t x v : Nat) (d : Desc) (j : Job) (dir : Int), s.power.porstHigh = true → Safety.taken s t 0x20 d = (a, j) →
    x = axisOfCode (j.d.p 0 1) → badFormat j.d (pm 0 1 ||| pm 4 24) true = false → x < 48 → a.hasAxis j.d.tenant x = true →
    v = j.d.p 12 4 → dir = ratSign (ofQ 16 (posDiff (j.d.pS 4 8) (a.axis x).p)) →
    (a.noMotion j.d.tenant = true ∨ a.axisOn x = false ∨ a.axisFree x = false →
      exec (.profileMove t d) s = .next (complete a j 0x13 0)) ∧
    (a.noMotion j.d.tenant = false → a.axisOn x = true → a.axisFree x = true →
      (a.blocked x dir = true → exec (.profileMove t d) s = .next (Safety.answer a j 0x50 0)) ∧
      (a.blocked x dir = false → exec (.profileMove t d) s = .next (planNow ((keep a { j with phase := .active }).updAxis x fun y =>
        { y with next := y.next ++ [(.move (j.d.pS 4 8) (min v (a.maxSpeed x)) (j.d.p 16 4) (j.d.p 20 4) (j.d.p 24 4)
          (decide (a.maxSpeed x < v)), some j.id)] }) j)))) ∧
  (∀ (s a : State) (t : Nat) (d : Desc) (j : Job), s.power.porstHigh = true → Safety.taken s t 0x21 d = (a, j) →
    badFormat j.d (pm 0 1 ||| pm 4 4) false = false → j.d.p 0 1 < 32 →
    (j.d.p 4 4 = 0 → exec (.axisStopCfg t d) s = .next (complete a j 0x14 0)) ∧
    (j.d.p 4 4 ≠ 0 → a.hasPier j.d.tenant (j.d.p 0 1) = true → exec (.axisStopCfg t d) s = .next
      (Safety.answer (a.updAxis (j.d.p 0 1) fun x => { x with stopNext := some (j.d.p 4 4) }) j 0 0)))) ∧
  ((∀ (s a : State) (t g : Nat) (d : Desc) (j : Job), s.power.porstHigh = true → Safety.taken s t 0x22 d = (a, j) → g = j.d.p 0 1 →
    badFormat j.d (pm 0 2 ||| pm 4 16) false = false → g < 8 → 1 ≤ j.d.p 1 1 → j.d.p 1 1 ≤ 8 → (∀ x ∈ groupAxes j.d, x ≠ 48) →
    distinct (groupAxes j.d) = true → j.d.p 12 4 ≠ 0 → (∀ x ∈ groupAxes j.d, a.hasAxis j.d.tenant x = true) →
    ((a.group g).owner = none → (∀ x ∈ groupAxes j.d, a.axisFree x = true ∧ a.axisDead x = false) → exec (.groupOpen t d) s = .next
      (Safety.answer (a.setGroup g { Group.reset with
        owner := some j.d.tenant, axes := groupAxes j.d, aPath := j.d.p 12 4, blend := j.d.p 16 4, state := .idle, opening := true }) j 0 0)) ∧
    (∀ o, (a.group g).owner = some o → o ≠ j.d.tenant.val → exec (.groupOpen t d) s = .next (complete a j 0x11 0)) ∧
    ((a.group g).owner = some j.d.tenant.val → exec (.groupOpen t d) s = .next (complete a j 0x13 0))) ∧
  (∀ (s a : State) (t g : Nat) (d : Desc) (j : Job), s.power.porstHigh = true → Safety.taken s t 0x23 d = (a, j) → g = j.d.p 0 1 →
    badFormat j.d (pm 0 1) false = false → g < 8 → (a.group g).owner = some j.d.tenant.val →
    ((a.group g).state = .idle → exec (.groupClose t d) s = .next (Safety.answer
      (((a.group g).axes.foldl (fun u x => u.updAxis x fun y => if y.src == .group g then { y.still with src := .own } else y) a).setGroup g
        Group.reset) j 0 0)) ∧
    ((a.group g).state ≠ .idle → exec (.groupClose t d) s = .next (complete a j 0x13 0))) ∧
  (∀ (s a : State) (t g : Nat) (d : Desc) (j : Job), s.power.porstHigh = true → Safety.taken s t 0x24 d = (a, j) → g = j.d.p 0 1 →
    badFormat j.d (pm 0 2 ||| pm 4 8) false = false → g < 8 → 1 ≤ j.d.p 1 1 → j.d.p 1 1 ≤ 32 → j.d.p 4 8 % 64 = 0 →
    (a.group g).owner = some j.d.tenant.val → a.noBudget j.d.tenant j.d.clsNo [1, 0, 0, 0, 0, 0, 0] = false →
    a.noMotion j.d.tenant = false → a.tooLarge j.d.tenant j.d.clsNo [1, 0, 0, 0, 0, 0, 0] = false → exec (.segAppend t d) s = .next
      (planNow (keep a { j with phase := .active, slices := List.replicate (j.d.p 1 1) [1, 0, 0, 0, 0, 0, 0], aux := [] }) j)) ∧
  (∀ (s a : State) (t : Nat) (d : Desc) (j : Job) (c : Instr) (n : Nat), s.power.porstHigh = true →
    (c, n) ∈ [(.groupCtrlStop t d, 0), (.groupCtrlHold t d, 1), (.groupCtrlResume t d, 2), (.groupCtrlOverride t d, 3)] →
    Safety.taken s t 0x25 (d.setP 1 n) = (a, j) → badFormat j.d (pm 0 2 ||| pm 4 2) false = false → j.d.p 0 1 < 8 → j.d.p 1 1 = n →
    (a.group (j.d.p 0 1)).owner = some j.d.tenant.val → exec c s = .next (Safety.answer
      (a.updGroup (j.d.p 0 1) fun g => { g with ctrl := g.ctrl ++ [(n, j.d.p 4 2)] }) j (if n = 3 ∧ 200 < j.d.p 4 2 then 3 else 0) 0)) ∧
  (∀ (g : Group) (v : Nat),
    ((groupCtrl g (0, v)).state = if g.state = .running ∨ g.state = .held then .stopping else g.state) ∧
    ((groupCtrl g (1, v)).state = if g.state = .running ∨ g.state = .idle then .held else g.state) ∧
    ((groupCtrl g (2, v)).state = if g.state = .held then (if g.queue = [] then .idle else .running) else g.state) ∧
    (groupCtrl g (3, v) = { g with ovr := min v 200 }) ∧ ∀ n, (groupCtrl g (n, v)).queue = g.queue))

/-- Stays. STAY_OPEN claims a free stay, released; STAY_ENGAGE of one whose follower is free and stands makes it wait for its master;
STAY_RELEASE on a released stay completes, on a driving one in mode 1 waits for the master; STAY_CLOSE frees a released one; a coast that
is used up with the master still invalid ramps the follower down. Cam tables and LINK_INFO. CAM_LOAD with points claims the table and
waits for its data in pieces of 1 KiB; without points it frees it; a table in use is refused. LINK_INFO reports a group, a stay, a cam
table or a latch slot and changes none. -/
def Obligations.StaysAndCams : Prop :=
  ((∀ (s a : State) (t y : Nat) (d : Desc) (j : Job), s.power.porstHigh = true → Safety.taken s t 0x26 d = (a, j) → y = j.d.p 0 1 →
    badFormat j.d (pm 0 4 ||| pb 4 3 ||| pm 5 11) false = false → y < 64 → axisOfCode (j.d.p 1 1) < 48 → j.d.p 2 1 ≤ 6 →
    j.d.p 3 1 < masterCount (j.d.p 2 1) → j.d.p 12 4 ≠ 0 → bit (j.d.p 4 1) 0 = false → j.d.p 8 4 ≠ 0 →
    a.hasAxis j.d.tenant (axisOfCode (j.d.p 1 1)) = true → a.masterNeed j.d.tenant (j.d.p 2 1) (j.d.p 3 1) = true →
    ((a.stay y).owner = none → exec (.stayOpen t d) s = .next (Safety.answer (a.setStay y { Stay.reset with
      owner := some j.d.tenant, follower := axisOfCode (j.d.p 1 1), kind := j.d.p 2 1, index := j.d.p 3 1, cam := false
      coast := bit (j.d.p 4 1) 1, table := j.d.p 5 1, coastSpans := j.d.p 6 2, num := j.d.pS 8 4, den := j.d.p 12 4
      state := .released }) j 0 0)) ∧
    ((a.stay y).owner = some j.d.tenant.val → exec (.stayOpen t d) s = .next (complete a j 0x13 0))) ∧
  (∀ (s a : State) (t y x : Nat) (d : Desc) (j : Job), s.power.porstHigh = true → Safety.taken s t 0x27 d = (a, j) → y = j.d.p 0 1 →
    badFormat j.d (pm 0 2 ||| pb 2 1 ||| pm 4 16) false = false → y < 64 → j.d.p 1 1 = 1 → (a.stay y).cam = false → 65536 ≤ j.d.p 12 8 →
    (a.stay y).owner = some j.d.tenant.val → x = (a.stay y).follower → a.hasAxis j.d.tenant x = true →
    ((a.stay y).state = .released → a.noMotion j.d.tenant = false → a.axisDead x = false → a.axisFree x = true →
      (a.axis x).stands = true → (a.axis x).p = (a.axis x).lastP → (a.axis x).next = [] → (a.axis x).job = none → a.axisPos x = true →
      Safety.Tables a → ∃ u, exec (.stayEngage t d) s = .next (planNow u j) ∧ (u.stay y).state = .waiting ∧ (u.stay y).mode = 1 ∧
        (u.stay y).m = j.d.pS 4 8 ∧ (u.stay y).dm = j.d.p 12 8 ∧ (u.stay y).pf0 = (a.axis x).p ∧ (u.stay y).engJob = some j.id ∧
        (u.axis x).src = .stay y ∧ (u.axis x).p = (a.axis x).p ∧ u.regs = a.regs ∧ ∀ z, z ≠ y → u.stay z = a.stay z) ∧
    ((a.stay y).state ≠ .released ∨ a.noMotion j.d.tenant = true ∨ a.axisFree x = false ∨ (a.axis x).stands = false →
      exec (.stayEngage t d) s = .next (complete a j 0x13 0))) ∧
  (∀ (s a : State) (t y : Nat) (d : Desc) (j : Job), s.power.porstHigh = true → Safety.taken s t 0x28 d = (a, j) → y = j.d.p 0 1 →
    badFormat j.d (pm 0 2 ||| pb 2 1 ||| pm 4 16) false = false → y < 64 → j.d.p 1 1 ≤ 1 →
    ((a.stay y).owner = none → exec (.stayRelease t d) s = .next (complete a j 0x13 0)) ∧
    ((a.stay y).owner = some j.d.tenant.val → (a.stay y).state.drives = true → j.d.p 1 1 = 1 → Safety.Tables a →
      ∃ u, exec (.stayRelease t d) s = .next (planNow u j) ∧ u.stay y = { a.stay y with
        relJobs := (a.stay y).relJobs ++ [j.id], relWait := true, relM := j.d.pS 4 8, relDm := j.d.p 12 8
        relFalling := j.d.p 2 1 == 1 } ∧ u.axes = a.axes ∧ u.regs = a.regs) ∧
    ((a.stay y).owner = some j.d.tenant.val → (a.stay y).state.drives = false → (a.axis (a.stay y).follower).stands = false →
      exec (.stayRelease t d) s = .next (planNow ((keep a { j with phase := .active }).updStay y fun x =>
        { x with relJobs := x.relJobs ++ [j.id] }) j))) ∧
  (∀ (s a : State) (t y : Nat) (d : Desc) (j : Job), s.power.porstHigh = true → Safety.taken s t 0x29 d = (a, j) → y = j.d.p 0 1 →
    badFormat j.d (pm 0 1) false = false → y < 64 → (a.stay y).owner = some j.d.tenant.val →
    ((a.stay y).state = .released → exec (.stayClose t d) s = .next (Safety.answer (a.setStay y Stay.reset) j 0 0)) ∧
    ((a.stay y).state ≠ .released → exec (.stayClose t d) s = .next (complete a j 0x13 0))) ∧
  (∀ (s : State) (y : Fin 64), s.power.porstHigh = true →
    ((s.stay y).state = .coasting → (s.stay y).coastLeft = 0 → (s.master (s.stay y)).2.2 = true →
      exec (.stayCoastExpiry y) s = .next (engageDone (stayRamp s y .released) y 0x52 0)) ∧
    ((s.stay y).state ≠ .coasting ∨ (s.stay y).coastLeft ≠ 0 ∨ (s.master (s.stay y)).2.2 = false →
      exec (.stayCoastExpiry y) s = .next s))) ∧
  ((∀ (s a : State) (t x n : Nat) (d : Desc) (j : Job), s.power.porstHigh = true → Safety.taken s t 0x2A d = (a, j) → x = j.d.p 0 1 → n = j.d.p 2 2 →
    badFormat j.d (pm 0 1 ||| pb 1 3 ||| pm 2 22) true = false → x < 16 → n ≤ 4096 → j.d.p 12 8 ≠ 0 →
    ((a.camTab x).owner = none ∨ (a.camTab x).owner = some j.d.tenant.val) →
    (n = 0 → a.tableUsed x = false → exec (.camLoad t d) s = .next (Safety.answer (a.setCamTab x CamTab.reset) j 0 0)) ∧
    (2 ≤ n → a.tableUsed x = false → a.noBudget j.d.tenant j.d.clsNo [1, 0, 0, 0, 0, 0, 0] = false →
      a.tooLarge j.d.tenant j.d.clsNo [1, 0, 0, 0, 0, 0, 0] = false → exec (.camLoad t d) s = .next
        (planNow (keep (a.updCamTab x fun c => { c with owner := some j.d.tenant }) { j with
          phase := .active, slices := List.replicate ((4 * n + 1023) / 1024) [1, 0, 0, 0, 0, 0, 0], aux := [] }) j)) ∧
    (n = 0 → a.tableUsed x = true → exec (.camLoad t d) s = .next (complete a j 0x13 0))) ∧
  (∀ (s a : State) (t i : Nat) (d : Desc) (j : Job), s.power.porstHigh = true → Safety.taken s t 0x2D d = (a, j) → i = j.d.p 1 1 →
    badFormat j.d (pm 0 3) false = false →
    (∀ g, g = a.group i → j.d.p 0 1 = 0 → i < 8 → claimedByOther g.owner j.d.tenant = false → exec (.linkInfo t d) s = .next
      (Safety.answer a j 0 (g.state.code + 256 * b2n g.starved + 65536 * g.queue.length +
        2 ^ 32 * ((g.queue.head?.map (·.tag)).getD 0)))) ∧
    (∀ y, y = a.stay i → j.d.p 0 1 = 1 → i < 64 → claimedByOther y.owner j.d.tenant = false → exec (.linkInfo t d) s = .next
      (Safety.answer a j 0 (y.state.code + 2 ^ 32 * (y.invalid % 2 ^ 32)))) ∧
    (j.d.p 0 1 = 2 → i < 16 → claimedByOther (a.camTab i).owner j.d.tenant = false → exec (.linkInfo t d) s = .next
      (Safety.answer a j 0 (b2n (a.camTab i).owner.isSome))) ∧
    (∀ l, l = a.latch (8 * j.d.p 2 1 + i) → j.d.p 0 1 = 3 → i < 8 → j.d.p 2 1 < 32 → a.hasPier j.d.tenant (j.d.p 2 1) = true →
      exec (.linkInfo t d) s = .next (Safety.answer a j 0 (b2n l.armed + 2 ^ 32 * (l.captures % 2 ^ 32)))) ∧
    (∀ o, j.d.p 0 1 = 0 → i < 8 → (a.group i).owner = some o → o ≠ j.d.tenant.val →
      exec (.linkInfo t d) s = .next (complete a j 0x11 0))))

/-- The motion opcodes of a step generator: each is checked and waits for the boundary. SG_ENABLE refuses a speed the outputs cannot give; a
move or jog is held to the maximum speed and ends at admission at an active limit. The other opcodes of a step generator: SG_SET_POS takes
whole output steps and says so; SG_RATE and SG_COIL ask for an expert grant and act from the boundary; SG_CLEAR ends a fault. A generator
comes to a standstill after its spans without a step. -/
def Obligations.StepGenerators : Prop :=
  ((∀ (s a : State) (t n : Nat) (d : Desc) (j : Job), s.power.porstHigh = true → Safety.taken s t 0x30 d = (a, j) → n = j.d.p 0 1 →
    badFormat j.d (pm 0 1) false = false → n < 16 → a.hasSg j.d.tenant n = true → a.sgLacks j.d.tenant n = false →
    (a.motionMode = false → exec (.sgEnable t d) s = .next (complete a j 0x13 1)) ∧
    (a.motionMode = true → ((a.sg n).enabled = true ∨ (a.sg n).fault = true) → exec (.sgEnable t d) s = .next (complete a j 0x13 2)) ∧
    (a.motionMode = true → (a.sg n).enabled = false → (a.sg n).fault = false →
      (a.sgTooFast n (a.rd (sgKey n 0x1C)) (a.fld (sgKey n 4) 0 12) = true → exec (.sgEnable t d) s = .next
        (Safety.answer (flag a (sgKey n 0x44) 2) j 0x13 4)) ∧
      (a.sgTooFast n (a.rd (sgKey n 0x1C)) (a.fld (sgKey n 4) 0 12) = false → exec (.sgEnable t d) s = .next
        (planNow ((keep a { j with phase := .active }).updAxis (32 + n) fun x => { x with next := x.next ++ [(.enable 0, some j.id)] }) j)))) ∧
  (∀ (s a : State) (t n : Nat) (d : Desc) (j : Job), s.power.porstHigh = true → Safety.taken s t 0x31 d = (a, j) → n = j.d.p 0 1 →
    badFormat j.d (pm 0 1 ||| pb 1 1) false = false → n < 16 → a.hasSg j.d.tenant n = true → exec (.sgDisable t d) s = .next
      (planNow ((keep a { j with phase := .active }).updAxis (32 + n) fun x =>
        { x with next := x.next ++ [(.disable (bit (j.d.p 1 1) 0), some j.id)] }) j)) ∧
  (∀ (s a : State) (t n v mx : Nat) (d : Desc) (j : Job) (dir : Int), s.power.porstHigh = true → Safety.taken s t 0x32 d = (a, j) →
    n = j.d.p 0 1 → badFormat j.d (pm 0 1 ||| pm 4 16) false = false → n < 16 → a.hasSg j.d.tenant n = true →
    a.noMotion j.d.tenant = false → (a.sg n).enabled = true → a.axisFree (32 + n) = true → v = j.d.p 12 4 → mx = a.rd (sgKey n 0x1C) →
    dir = ratSign (ofQ 16 (posDiff (j.d.pS 4 8) (a.axis (32 + n)).p)) →
    (a.blocked (32 + n) dir = true → exec (.sgMove t d) s = .next (Safety.answer a j 0x50 0)) ∧
    (a.blocked (32 + n) dir = false → exec (.sgMove t d) s = .next (planNow ((keep a { j with phase := .active }).updAxis (32 + n) fun x =>
      { x with next := x.next ++ [(.move (j.d.pS 4 8) (min v mx) (j.d.p 16 4) (j.d.p 16 4) 0 (decide (mx < v)), some j.id)] }) j))) ∧
  (∀ (s a : State) (t n : Nat) (mx : Int) (d : Desc) (j : Job) (dir : Int), s.power.porstHigh = true → Safety.taken s t 0x33 d = (a, j) →
    n = j.d.p 0 1 → badFormat j.d (pm 0 1 ||| pm 4 8) false = false → n < 16 → a.hasSg j.d.tenant n = true →
    a.noMotion j.d.tenant = false → (a.sg n).enabled = true → a.axisFree (32 + n) = true → mx = a.rd (sgKey n 0x1C) →
    dir = ratSign (ofQ 16 (j.d.pS 4 4)) → a.blocked (32 + n) dir = false → exec (.sgJog t d) s = .next
      (planNow ((keep a { j with phase := .active }).updAxis (32 + n) fun x =>
        { x with next := x.next ++ [(.jog (clampI (j.d.pS 4 4) (-mx) mx) (j.d.p 8 4), some j.id)] }) j)) ∧
  (∀ (s a : State) (t n : Nat) (d : Desc) (j : Job), s.power.porstHigh = true → Safety.taken s t 0x34 d = (a, j) → n = j.d.p 0 1 →
    badFormat j.d (pm 0 1) false = false → n < 16 → a.hasSg j.d.tenant n = true →
    (a.noMotion j.d.tenant = false → (a.sg n).enabled = true → exec (.sgStop t d) s = .next
      (planNow ((keep a { j with phase := .active }).updAxis (32 + n) fun x => { x with next := x.next ++ [(.stop, some j.id)] }) j)) ∧
    ((a.sg n).enabled = false → exec (.sgStop t d) s = .next (complete a j 0x13 0)))) ∧
  ((∀ (s a : State) (t n : Nat) (d : Desc) (j : Job) (q : Int), s.power.porstHigh = true → Safety.taken s t 0x35 d = (a, j) → n = j.d.p 0 1 →
    badFormat j.d (pm 0 1 ||| pm 4 8) false = false → n < 16 → a.hasSg j.d.tenant n = true →
    q = j.d.pS 4 8 / (a.sgStep n : Int) * (a.sgStep n : Int) →
    ((a.sg n).standstill = true ∨ ((a.sg n).enabled = false ∧ (a.sg n).fault = false) → exec (.sgSetPos t d) s = .next (Safety.answer
      (a.updAxis (32 + n) fun x => { x with next := x.next ++ [(.setPos q, none)] }) j (if q = j.d.pS 4 8 then 0 else 3) 0)) ∧
    ((a.sg n).standstill = false → (a.sg n).enabled = true → exec (.sgSetPos t d) s = .next (complete a j 0x13 0))) ∧
  (∀ (s a : State) (t n : Nat) (d : Desc) (j : Job), s.power.porstHigh = true → Safety.taken s t 0x36 d = (a, j) → n = j.d.p 0 1 →
    badFormat j.d (pm 0 1 ||| pm 4 6 ||| pb 10 1) false = false → n < 16 → a.hasSg j.d.tenant n = true →
    (a.expert j.d.tenant = false → exec (.sgRate t d) s = .next (complete a j 0x15 0)) ∧
    (a.expert j.d.tenant = true → a.noMotion j.d.tenant = false → (a.sg n).enabled = true → a.axisFree (32 + n) = true →
      exec (.sgRate t d) s = .next (Safety.answer (a.updAxis (32 + n) fun x =>
        { x with next := x.next ++ [(.rate (j.d.p 4 6) (bit (j.d.p 10 1) 0), none)] }) j 0 0))) ∧
  (∀ (s a : State) (t n : Nat) (d : Desc) (j : Job), s.power.porstHigh = true → Safety.taken s t 0x37 d = (a, j) → n = j.d.p 0 1 →
    badFormat j.d (pm 0 1 ||| pm 4 4) false = false → n < 16 → a.hasSg j.d.tenant n = true → a.expert j.d.tenant = true →
    (a.mode = .run → exec (.sgCoil t d) s = .next (complete a j 0x13 0)) ∧
    (a.mode ≠ .run → a.sgPins n = false → a.noMotion j.d.tenant = false → (a.sg n).enabled = true → a.axisFree (32 + n) = true →
      exec (.sgCoil t d) s = .next (Safety.answer (a.updAxis (32 + n) fun x =>
        { x with next := x.next ++ [(.coil (j.d.pS 4 2) (j.d.pS 6 2), none)] }) j 0 0))) ∧
  (∀ (s a : State) (t n : Nat) (d : Desc) (j : Job), s.power.porstHigh = true → Safety.taken s t 0x38 d = (a, j) → n = j.d.p 0 1 →
    badFormat j.d (pm 0 1) false = false → n < 16 → a.hasSg j.d.tenant n = true →
    ((a.sg n).fault = true → ((a.sg n).cause = 2 ∨ a.sgPins n = true ∨ (a.stage (a.sgGroup n)).fault = false) →
      exec (.sgClear t d) s = .next
        (Safety.answer (disableDone (a.setSg n { a.sg n with fault := false, cause := 0 }) (32 + n) 0) j 0 1)) ∧
    ((a.sg n).fault = false → exec (.sgClear t d) s = .next (Safety.answer a j 0 0))) ∧
  (∀ (s : State) (n : Fin 16) (x : Sg), s.power.porstHigh = true → x = s.sg n →
    (x.enabled = true → x.standstill = false → x.inc = 0 → s.fld (sgKey n 0x10) 0 16 ≤ s.tb.spanIx - x.lastStep →
      exec (.sgStandstill n) s = .next (s.setSg n { x with standstill := true, ramp := 0 })) ∧
    (x.enabled = false ∨ x.standstill = true ∨ x.inc ≠ 0 ∨ s.tb.spanIx - x.lastStep < s.fld (sgKey n 0x10) 0 16 →
      exec (.sgStandstill n) s = .next s)))

/-- Steps and limits. A step is emitted once the phase has carried, one output step in the direction of the carry, and in pin mode only after
setup and low time; the pulse ends after its width. A limit input that becomes active against the motion of an axis stops it; one that
changes no axis's limits only changes its level. The increment never exceeds one step in 80 ticks. -/
def Obligations.StepsAndLimits : Prop :=
  (∀ (s a : State) (t : Nat) (n : Fin 16) (x : Sg), s.power.porstHigh = true → a = advance s t → x = a.sg n →
    (x.enabled = false ∨ x.halted = true ∨ stepsOf (x.phase a.now) = x.steps → exec (.stepEmit t n) s = .next a) ∧
    (x.enabled = true → x.halted = false → stepsOf (x.phase a.now) ≠ x.steps → x.stopAt = none → a.sgPins n = false →
      exec (.stepEmit t n) s = .next (a.setSg n { x with
        steps := if x.steps < stepsOf (x.phase a.now) then x.steps + 1 else x.steps - 1
        lastStep := a.tb.spanIx
        stepHigh := false })) ∧
    (x.enabled = true → x.halted = false → stepsOf (x.phase a.now) ≠ x.steps → x.stopAt = none → a.sgPins n = true →
      (x.stepHigh = true → exec (.stepEmit t n) s = .next a) ∧
      (∀ w, x.fallAt = some w → a.now < w + a.fld (sgKey n 4) 0 12 → exec (.stepEmit t n) s = .next a) ∧
      (∀ w, x.dirAt = some w → a.now < w + a.fld (sgKey n 4) 16 12 → exec (.stepEmit t n) s = .next a) ∧
      (x.stepHigh = false → x.dirAt = none → x.fallAt = none → exec (.stepEmit t n) s = .next (a.setSg n { x with
        steps := if x.steps < stepsOf (x.phase a.now) then x.steps + 1 else x.steps - 1
        lastStep := a.tb.spanIx
        stepHigh := true
        riseAt := some a.now })))) ∧
  (∀ (s a : State) (t r : Nat) (n : Fin 16) (x : Sg), s.power.porstHigh = true → a = advance s t → x = a.sg n → x.riseAt = some r →
    (x.stepHigh = true → r + a.fld (sgKey n 4) 0 12 ≤ a.now → exec (.stepPulseEnd t n) s = .next
      (a.setSg n { x with stepHigh := false, fallAt := some a.now })) ∧
    (x.stepHigh = false ∨ a.now < r + a.fld (sgKey n 4) 0 12 → exec (.stepPulseEnd t n) s = .next a)) ∧
  (∀ (s a b : State) (t : Nat) (i : Fin 48) (high : Bool), s.power.porstHigh = true → a = advance s t →
    b = { a with limLevels := setBits a.limLevels i 1 (b2n high) } → Safety.Tables a →
    (∀ x, x < 48 → a.bitAt (0x19000 + 4 * x) 14 = false ∧ a.bitAt (0x19000 + 4 * x) 15 = false) →
    (∀ x, x < 48 → a.bitAt (0x190C4 + 4 * (x / 32)) (x % 32) = false) → exec (.limitInput t i high) s = .next b) ∧
  (∀ (before s : State) (x : Nat), (s.limActive x true = true ∧ before.limActive x true = false ∧ 0 < s.axisDir x) →
    limitAxis before s x = limitStop (setLimState s x true) x) ∧
  (∀ (s : State) (n : Nat), Safety.Tables s → (s.sg n).inc ≤ 2 ^ 48 / 80 → ((sgRate s n).sg n).inc ≤ 2 ^ 48 / 80)

/-! ## PWM (chapter 15) -/

/-- A trip condition latches a fault of the stage: its cause, its time, the legs off, the trip counted and flagged, the axis it drives
faulted. A further condition of a faulted stage only adds its cause. A clear attempt succeeds when every cause is gone; else it is counted
and flagged, and the fault stays. The analogue trip conditions trip their stage when their threshold is passed beyond the blanking time,
and otherwise only record what was measured; an undervoltage of a footing's gate supply trips all its groups; XFLT trips its set while
low. GD_EN, GIN codes and PWMX drive writes. GD_EN low trips every bound group and every PWMX set of its footing; high again after 800
ticks or more it clears what can be cleared, sooner it clears nothing. A Hall code sets the sector; one that is no position of a rotor
holds the last sector and is counted and flagged while the block drives. PWMX_CFG takes a dead time of 4 ticks or more outside RUN. -/
def Obligations.TripsAndGates : Prop :=
  ((∀ (s : State) (st cause : Nat), (s.stage st).fault = false → trip s st cause =
    stageFlag (count (tripAxis (legsOff (s.setStage st { s.stage st with
      fault := true, cause := cause, faultAt := s.now, latched := [cause], masks := 0, shoots := [] }) st) st) (stTripCnt st)) st 1) ∧
  (∀ (s : State) (st cause : Nat), (s.stage st).fault = true → (s.stage st).faultAt ≠ s.now → trip s st cause =
    s.setStage st { s.stage st with latched := insCode cause (s.stage st).latched }) ∧
  (∀ (s : State) (st cause : Nat), (s.stage st).fault = true → (s.stage st).faultAt = s.now → trip s st cause =
    s.setStage st { s.stage st with latched := insCode cause (s.stage st).latched, cause := min (s.stage st).cause cause }) ∧
  (∀ (s : State) (st : Nat), (s.stage st).fault = true → (∀ c ∈ (s.stage st).latched, s.causeGone st c = true) → clearStage s st =
    s.setStage st { s.stage st with fault := false, cause := 0, latched := [] }) ∧
  (∀ (s : State) (st c : Nat), (s.stage st).fault = true → c ∈ (s.stage st).latched → s.causeGone st c = false →
    clearStage s st = stageFlag (count s (stDeniedCnt st)) st 8) ∧
  (∀ (s : State) (st : Nat), (s.stage st).fault = false → clearStage s st = s)) ∧
  ((∀ (s a : State) (t mv : Nat) (g : Fin 16) (leg : Fin 4), s.power.porstHigh = true → a = advance s t →
    ((a.pwm (4 * g + leg)).hSw = true → a.rd (bgKey g 8) % 2 ^ 14 < mv →
      (a.pwm (4 * g + leg)).hOnAt + a.rd (bgKey g 8) / 2 ^ 16 % 2 ^ 12 + 8 ≤ a.now →
      exec (.desat t g leg true mv) s = .next (trip a g 1)) ∧
    ((a.pwm (4 * g + leg)).lSw = true → a.rd (bgKey g 8) % 2 ^ 14 < mv →
      (a.pwm (4 * g + leg)).lOnAt + a.rd (bgKey g 8) / 2 ^ 16 % 2 ^ 12 + 8 ≤ a.now →
      exec (.desat t g leg false mv) s = .next (trip a g 1)) ∧
    (mv ≤ a.rd (bgKey g 8) % 2 ^ 14 → ∀ high, exec (.desat t g leg high mv) s = .next a)) ∧
  (∀ (s a : State) (t : Nat) (i : Int) (g : Fin 16) (leg : Fin 4), s.power.porstHigh = true → a = advance s t →
    (a.rd (bgKey g 0xC) % 2 ^ 16 < i.natAbs → (a.pwm (4 * g + leg)).edgeAt + a.rd (bgKey g 0xC) / 2 ^ 16 % 2 ^ 12 + 8 ≤ a.now →
      exec (.overcurrent t g leg i) s = .next (trip a g 2)) ∧
    (i.natAbs ≤ a.rd (bgKey g 0xC) % 2 ^ 16 → exec (.overcurrent t g leg i) s = .next a)) ∧
  (∀ (s a u : State) (t mv : Nat) (g : Fin 16), s.power.porstHigh = true → a = advance s t →
    u = a.setStage g { a.stage g with busMv := mv } →
    (a.fld (bgKey g 0x10) 0 16 < mv → exec (.busOv t g mv) s = .next (trip u g 3)) ∧
    (mv ≤ a.fld (bgKey g 0x10) 0 16 → exec (.busOv t g mv) s = .next u)) ∧
  (∀ (s a u : State) (t mv : Nat) (f : Fin 2), s.power.porstHigh = true → a = advance s t →
    u = { a with power := { a.power with vgdMv := a.power.vgdMv.set f mv } } →
    (mv < 10000 → exec (.gateUv t f mv) s = .next
      ((List.range 8).foldl (fun x i => trip x (8 * f.val + i) 4) (flag u (ftKey f 8) 2))) ∧
    (10000 ≤ mv → exec (.gateUv t f mv) s = .next u)) ∧
  (∀ (s a : State) (t : Nat) (n : Fin 32), s.power.porstHigh = true → a = advance s t →
    exec (.xflt t n true) s = .next (trip (a.setStage (16 + n) { a.stage (16 + n) with xfltLow := true }) (16 + n) 9) ∧
    exec (.xflt t n false) s = .next (a.setStage (16 + n) { a.stage (16 + n) with xfltLow := false }))) ∧
  ((∀ (s a u : State) (t : Nat) (f : Fin 2), s.power.porstHigh = true → a = advance s t →
    (u = flag (a.setFooting f { a.footing f with gdHigh := false, lowAt := a.now }) (ftKey f 8) 1 →
      (a.footing f).gdHigh = true → exec (.gdEnLow t f) s = .next
        ((footSets f).foldl (fun x st => trip x st 8)
          ((footGroups f).foldl (fun x g => if x.groupSrc g = .none then legsOff x g else legsOff (trip x g 8) g) u))) ∧
    ((a.footing f).gdHigh = false → exec (.gdEnLow t f) s = .next a) ∧
    (u = a.setFooting f { a.footing f with gdHigh := true } → (a.footing f).gdHigh = false → a.now < (a.footing f).lowAt + 800 →
      exec (.gdEnHigh t f) s = .next u) ∧
    (u = a.setFooting f { a.footing f with gdHigh := true } → (a.footing f).gdHigh = false → (a.footing f).lowAt + 800 ≤ a.now →
      exec (.gdEnHigh t f) s = .next
        ((footGroups f ++ footSets f).foldl clearStage (flag (count u (ftKey f 0x10)) (ftKey f 8) 8)))) ∧
  (∀ (s a : State) (t : Nat) (g : Fin 16) (code : Fin 8), s.power.porstHigh = true → a = advance s t →
    (∀ sec, hallSector code = some sec → a.bitAt (bgKey g 0) 0 = false → exec (.ginChange t g code) s = .next
      (a.setStage g { a.stage g with gin := code, ginValid := true, ginNone := false, sector := sec })) ∧
    (code = 0 ∨ code = 7 → a.bitAt (bgKey g 0) 0 = false → exec (.ginChange t g code) s = .next
      (a.setStage g { a.stage g with gin := code, ginValid := false, ginNone := false }))) ∧
  (∀ (s a : State) (t : Nat) (n : Fin 32) (v : Word), s.power.porstHigh = true → a = advance s t →
    (a.mode = .run → exec (.pwmxDriveWrite t n v) s = .next a) ∧
    (a.mode ≠ .run → v.toNat / 16 % 4096 < 4 → exec (.pwmxDriveWrite t n v) s = .next (flag a (pxKey n 0xC) 32)) ∧
    (a.mode ≠ .run → 4 ≤ v.toNat / 16 % 4096 → exec (.pwmxDriveWrite t n v) s = .next
      (evalStage ((a.wr (pxKey n 0) (v.toNat % 4 + 16 * (v.toNat / 16 % 4096))).updStage (16 + n) fun x => { x with pinsDriven := bit v.toNat 1 }) (16 + n)))))

/-- A period of a channel starts when the one before it ends within the span; its length is the span length divided by the channel's ratio,
the first periods taking the rest; the compare set waiting is published. A compare edge of an AUX channel sets its pin by the pulse; one
of a stage that is off turns its leg off; one of a PWMX leg drives its switches by the active compares. The PWM opcodes. Raw compares go
to the shadow set of the leg or AUX channel; a gate mask is stored for a stage without a fault and judged at once; halt freezes the stages
and AUX channels named; resume asks for a restart and waits; AUX_DUTY and BLOCK_DUTY set the next duty; GROUP_INFO reports the state, the
cause and the count of shoot-throughs. -/
def Obligations.PwmChannels : Prop :=
  ((∀ (s a : State) (t k st : Nat) (ch : PwmChan) (x : Pwm), s.power.porstHigh = true → a = advance s t → k = chanKey ch → x = a.pwm k →
    64 ≤ k → k < 160 → st = stageOf k → a.stopped st = false → a.now ≠ a.tb.boundary → a.now = x.start + x.len → x.j + 1 < x.k →
    exec (.pwmPeriodStart t ch) s = .next (evalLeg (a.setPwm k
      ({ x with j := x.j + 1, start := a.now, len := periodLen a.tb.len x.k (x.j + 1), block := false, bootBlock := false }.publish a.now false))
      k (64 * a.now) true 0)) ∧
  (∀ (s a : State) (t k : Nat) (ch : PwmChan) (x : Pwm), s.power.porstHigh = true → a = advance s t → k = chanKey ch → x = a.pwm k →
    a.now ≠ a.tb.boundary → a.now ≠ x.start + x.len → exec (.pwmPeriodStart t ch) s = .next a) ∧
  (∀ len k j : Nat, 1 ≤ k → periodLen len k j = len / k + if j < len % k then 1 else 0) ∧
  (∀ (s a : State) (t64 mv : Nat) (i : Int) (x : Fin 16) (u : Pwm), s.power.porstHigh = true → a = advance s (t64 / 64) →
    u = a.pwm (160 + x) → (a.aux x).frozen = false → (a.aux x).restart = none →
    exec (.pwmCompareEdge t64 (.aux x) mv i) s = .next (a.setPwm (160 + x) { u with
      hSw := (a.aux x).enabled && ((a.motionMode && inside (t64 - 64 * u.start) (u.active.high (64 * u.len) 64)) != (a.aux x).pol) })) ∧
  (∀ (s a : State) (t64 mv k : Nat) (i : Int) (ch : PwmChan) (x : Pwm), s.power.porstHigh = true → a = advance s (t64 / 64) →
    k = chanKey ch → k < 160 → x = a.pwm k → a.stopped (stageOf k) = false → a.stageOff (stageOf k) = true → x.h = false → x.l = false →
    x.hSw = false → x.lSw = false → exec (.pwmCompareEdge t64 ch mv i) s = .next (a.setPwm k x)) ∧
  (∀ (s a : State) (t64 mv k st : Nat) (i : Int) (ch : PwmChan) (x : Pwm) (h l : Bool), s.power.porstHigh = true →
    a = advance s (t64 / 64) → k = chanKey ch → 64 ≤ k → k < 160 → x = a.pwm k → st = stageOf k → a.stopped st = false →
    a.stageOff st = false → (a.stage st).masks = 0 → x.block = false →
    (h, l) = x.active.commands (64 * x.len) (a.chanStep k) (t64 - 64 * x.start) → (h = true → l = false) →
    exec (.pwmCompareEdge t64 ch mv i) s = .next (a.setPwm k
      (x.drive t64 (64 * a.deadOf st) (a.chanStep k) (64 * x.len) x.active h l (decide (8000 ≤ mv))).1))) ∧
  ((∀ (s a : State) (t : Nat) (d : Desc) (j : Job), s.power.porstHigh = true → Safety.taken s t 0x40 d = (a, j) →
    badFormat j.d (pm 0 2 ||| pb 2 1 ||| pm 4 16) false = false →
    (j.d.p 0 1 < 16 → j.d.p 1 1 < 4 → a.hasBg j.d.tenant (j.d.p 0 1) = true → a.expert j.d.tenant = true → a.isRaw (j.d.p 0 1) = true →
      j.d.p 2 1 % 2 = 0 → exec (.pwmRaw t d) s = .next (Safety.answer
        (setShadow a (4 * j.d.p 0 1 + j.d.p 1 1) (.pair (j.d.p 4 4) (j.d.p 8 4))) j 0 0)) ∧
    (j.d.p 0 1 < 16 → j.d.p 1 1 < 4 → a.hasBg j.d.tenant (j.d.p 0 1) = true → a.expert j.d.tenant = true → a.isRaw (j.d.p 0 1) = true →
      j.d.p 2 1 % 2 = 1 → exec (.pwmRaw t d) s = .next (Safety.answer
        (setShadow a (4 * j.d.p 0 1 + j.d.p 1 1) (.two (j.d.p 4 4) (j.d.p 8 4) (j.d.p 12 4) (j.d.p 16 4))) j 0 0)) ∧
    (0x40 ≤ j.d.p 0 1 → j.d.p 0 1 < 0x50 → j.d.p 1 1 = 0 → j.d.p 2 1 = 0 → j.d.p 12 8 = 0 →
      a.hasAux j.d.tenant (j.d.p 0 1 - 0x40) = true → a.expert j.d.tenant = true → exec (.pwmRaw t d) s = .next (Safety.answer
        (setShadow a (160 + (j.d.p 0 1 - 0x40)) (.pair (j.d.p 4 4) (j.d.p 8 4))) j 0 0))) ∧
  (∀ (s a : State) (t st : Nat) (d : Desc) (j : Job), s.power.porstHigh = true → Safety.taken s t 0x41 d = (a, j) → Safety.Tables a →
    badFormat j.d (pm 0 1 ||| pm 4 2) false = false → stageTarget (j.d.p 0 1) = some st →
    (∀ i, i < 8 → bits (j.d.p 4 2) (2 * i) 2 ≠ 3) → a.hasStage j.d.tenant st = true → a.expert j.d.tenant = true →
    a.mode = .commission → (a.stage st).fault = false → exec (.gateMask t d) s = .next
      (Safety.answer (evalStage (a.updStage st fun x => { x with masks := j.d.p 4 2 }) st) j 0 0)) ∧
  (∀ (s a : State) (t : Nat) (d : Desc) (j : Job), s.power.porstHigh = true → Safety.taken s t 0x42 d = (a, j) →
    badFormat j.d (pm 4 2 ||| pm 8 6) false = false → (∀ st ∈ haltStages j.d, a.hasStage j.d.tenant st = true) →
    (∀ x ∈ haltAux j.d, a.hasAux j.d.tenant x = true) → a.expert j.d.tenant = true → a.mode = .commission →
    exec (.pwmHalt t d) s = .next (Safety.answer
      ((haltAux j.d).foldl (fun u x => u.updAux x fun y => { y with frozen := true }) ((haltStages j.d).foldl freezeStage a)) j 0 0)) ∧
  (∀ (s a : State) (t : Nat) (d : Desc) (j : Job), s.power.porstHigh = true → Safety.taken s t 0x43 d = (a, j) →
    badFormat j.d (pm 4 2 ||| pm 8 6) false = false → (∀ st ∈ haltStages j.d, a.hasStage j.d.tenant st = true) →
    (∀ x ∈ haltAux j.d, a.hasAux j.d.tenant x = true) → a.expert j.d.tenant = true →
    exec (.pwmResume t d) s = .next (planNow (pwmResume a j) j)) ∧
  (∀ s : State, s.power.porstHigh = true → (∀ st, (s.stage st).restart = none) → (∀ j ∈ s.jobs, j.d.op ≠ 0x43#8) →
    ((∀ x, (s.aux x).restart = none) → exec .pwmRestart s = .next s) ∧
    (∀ (x : Fin 16) (r : Nat), (s.aux x).restart = some r → r < s.tb.boundary → (∀ y, y ≠ x.val → (s.aux y).restart = none) →
      exec .pwmRestart s = .next
        (evalAux (newest (s.updAux x fun u => { u with frozen := false, restart := none }) (160 + x)) x (64 * s.tb.now)))) ∧
  (∀ (s a : State) (t : Nat) (d : Desc) (j : Job), s.power.porstHigh = true → Safety.taken s t 0x44 d = (a, j) →
    badFormat j.d (pm 0 1 ||| pm 4 2) false = false → 0x40 ≤ j.d.p 0 1 → j.d.p 0 1 < 0x50 →
    a.hasAux j.d.tenant (j.d.p 0 1 - 0x40) = true → exec (.auxDuty t d) s = .next (Safety.answer
      (setShadow a (160 + (j.d.p 0 1 - 0x40)) (.fill (j.d.p 4 2))) j 0 0)) ∧
  (∀ (s a : State) (t : Nat) (d : Desc) (j : Job), s.power.porstHigh = true → Safety.taken s t 0x45 d = (a, j) →
    badFormat j.d (pm 0 1 ||| pb 2 1 ||| pm 4 2) false = false → j.d.p 0 1 < 16 → a.hasBg j.d.tenant (j.d.p 0 1) = true →
    a.bitAt (bgKey (j.d.p 0 1) 0) 0 = true → exec (.blockDuty t d) s = .next (Safety.answer
      (a.updStage (j.d.p 0 1) fun x => { x with dutyNext := some (j.d.p 4 2, bit (j.d.p 2 1) 0) }) j 0 0)) ∧
  (∀ (s a : State) (t st : Nat) (d : Desc) (j : Job), s.power.porstHigh = true → Safety.taken s t 0x46 d = (a, j) →
    badFormat j.d (pm 0 1) false = false → stageTarget (j.d.p 0 1) = some st → a.hasStage j.d.tenant st = true →
    (a.stage st).fault = true → exec (.groupInfo t d) s = .next
      (Safety.answer a j 0 (3 + 256 * (a.stage st).cause + 2 ^ 32 * a.rd (stShootCnt st)))) ∧
  (∀ (s a : State) (t k f : Nat) (x : StageId), s.power.porstHigh = true → a = advance s t → k = stageKey x →
    (a.stage k).frozenAt = some f → (∃ ch ∈ chansOf k, (a.pwm ch).hSw = true ∨ (a.pwm ch).lSw = true) →
    a.pp.unsafeAck = false → (a.stage k).frozenTmo * 3880 ≤ a.now - f →
    exec (.frozenOnExpiry t x) s = .next (flag (count (trip a k 7) 0x4803C) kPp 8)))

/-! ## CAN (chapter 16) -/

/-- Sending on CAN. A frame within the tenant's ranges enters the transmit set of an open channel when a slot is free, and waits for one
otherwise; an XL frame's data is fetched first and enters with it; a closed channel refuses with the reason. -/
def Obligations.CanSending : Prop :=
  (∀ (s a : State) (t c : Nat) (d : Desc) (j : Job) (host : List Byte), s.power.porstHigh = true → Safety.taken s t 0x80 d = (a, j) → c = j.d.p 0 1 →
    badFormat j.d (pm 0 1 ||| pb 1 0xBF ||| pm 2 14) false = false → c < 8 → canFrameBad a j.d = false → a.canUse j.d.tenant c = 1 →
    (a.canClosed c ≠ 0 → exec (.canTx t d host) s = .next (complete a j 0x13 (a.canClosed c))) ∧
    (∀ data y, a.canClosed c = 0 → a.canTaken j.d.tenant c < 32 → j.phase = .admitted → (a.can c).state ≠ .stuck →
      data = (if bit (j.d.p 1 1) 3 then [] else if bit (j.d.p 1 1) 7 then takeBytes (j.d.p 2 2) host
        else takeBytes (j.d.p 2 2) ((j.d.params.drop 8).take 8)) →
      y = { job := j.id, tenant := j.d.tenant, frame := canFrameOf j.d data, oneShot := bit (j.d.p 1 1) 5, adm := a.now, since := a.now } →
      exec (.canTx t d host) s = .next (planNow
        ((keep a { j with aux := data.map (·.toNat), phase := .active }).setCan c { a.can c with set := canInsert y (a.can c).set }) j)) ∧
    (∀ data, a.canClosed c = 0 → 32 ≤ a.canTaken j.d.tenant c →
      data = (if bit (j.d.p 1 1) 3 then [] else if bit (j.d.p 1 1) 7 then takeBytes (j.d.p 2 2) host
        else takeBytes (j.d.p 2 2) ((j.d.params.drop 8).take 8)) →
      exec (.canTx t d host) s = .next (planNow (keep a { j with aux := data.map (·.toNat), phase := .waitSlot }) j))) ∧
  (∀ (s a : State) (t c : Nat) (cost : List Nat) (d : Desc) (j : Job), s.power.porstHigh = true → Safety.taken s t 0x81 d = (a, j) → c = j.d.p 0 1 →
    badFormat j.d (pm 0 1 ||| pb 1 0x21 ||| pm 2 10 ||| pm 16 8) true = false → c < 8 → canFrameBad a j.d = false →
    a.canUse j.d.tenant c = 1 → cost = [ceilDiv (j.d.p 2 2) 1024, 0, 0, 0, 0, 0, 0] → a.noBudget j.d.tenant j.d.clsNo cost = false →
    a.canClosed c = 0 → a.tooLarge j.d.tenant j.d.clsNo cost = false → a.canTaken j.d.tenant c < 32 → j.phase = .admitted →
    exec (.canTxXl t d) s = .next (planNow (keep a { j with phase := .active, slices := [cost], aux := [a.now] }) j)) ∧
  (∀ (s a : State) (t c id : Nat) (data : List Byte) (j : Job), s.power.porstHigh = true → a = advance s t → a.job? id = some j → c = j.d.p 0 1 →
    j.kind = .desc → j.d.op = 0x81#8 → j.phase = .active → j.slices = [] → (∀ x ∈ (a.can c).set, x.job ≠ id) →
    (a.canClosed c ≠ 0 → exec (.canTxXlDataArrival t id data) s = .next (complete a j 0x13 (a.canClosed c))) ∧
    (∀ y, a.canClosed c = 0 → (a.can c).state ≠ .stuck →
      y = { job := j.id, tenant := j.d.tenant, frame := canFrameOf j.d (takeBytes (j.d.p 2 2) data), oneShot := bit (j.d.p 1 1) 5,
            adm := j.aux.headD 0, since := a.now } →
      exec (.canTxXlDataArrival t id data) s = .next
        ((keep a j).setCan c { a.can c with set := canInsert y (a.can c).set }))) ∧
  (∀ (s a : State) (t id : Nat) (data : List Byte), s.power.porstHigh = true → a = advance s t → a.job? id = none →
    exec (.canTxXlDataArrival t id data) s = .next a)

/-- The other CAN opcodes. A filter replaces the slot from the next frame on; a tap is set or ended; START starts a stopped channel with its
counters at zero, STOP and SLEEP wait for a frame in progress, RECOVER starts the recovery of a channel that is off; CAN_CONFIG writes the
timing of a stopped channel outside RUN; CAN_INFO reports. -/
def Obligations.CanOpcodes : Prop :=
  (∀ (s a : State) (t c k : Nat) (d : Desc) (j : Job) (f : CanFilt), s.power.porstHigh = true → Safety.taken s t 0x82 d = (a, j) → c = j.d.p 0 1 →
    badFormat j.d (pm 0 2 ||| pb 2 7 ||| pb 3 0x3F ||| pm 4 1 ||| pm 8 8) false = false → c < 8 → j.d.p 4 1 < 64 →
    a.qKind j.d.tenant (j.d.p 4 1) = 2 → k = 128 * j.d.tenant.val + j.d.p 1 1 →
    f = { enabled := bit (j.d.p 2 1) 0, range := bit (j.d.p 2 1) 1, reject := bit (j.d.p 2 1) 2, formats := j.d.p 3 1,
          queue := j.d.p 4 1, id1 := j.d.p 8 4, id2 := j.d.p 12 4, since := a.now } →
    (a.canFilterQuota j.d.tenant c ≤ j.d.p 1 1 → exec (.canFilter t d) s = .next (complete a j 0x11 0)) ∧
    (j.d.p 1 1 < a.canFilterQuota j.d.tenant c → exec (.canFilter t d) s = .next (Safety.answer (a.updCan c fun x =>
      { x with filters := storePut (fun _ => []) x.filters k (f :: storeGet (fun _ => []) x.filters k) }) j 0 0))) ∧
  (∀ (s a : State) (t c : Nat) (d : Desc) (j : Job), s.power.porstHigh = true → Safety.taken s t 0x83 d = (a, j) → c = j.d.p 0 1 →
    badFormat j.d (pm 0 2 ||| pb 2 1) false = false → c < 8 → j.d.p 1 1 < 64 → a.qKind j.d.tenant (j.d.p 1 1) = 2 →
    (a.canUse j.d.tenant c = 1 ∨ a.hasListen j.d.tenant c = true) → exec (.canTap t d) s = .next (Safety.answer (a.updCan c fun x =>
      { x with taps := x.taps.filter (fun (e : Nat × Nat) => e.1 != j.d.tenant.val) ++
                         (if bit (j.d.p 2 1) 0 then [(j.d.tenant.val, j.d.p 1 1)] else []) }) j 0 0)) ∧
  (∀ (s a b : State) (t c : Nat) (d : Desc) (j q : Job) (x : Can), s.power.porstHigh = true → Safety.taken s t 0x84 (d.setP 1 0) = (a, j) →
    c = j.d.p 0 1 → badFormat j.d (pm 0 2) false = false → c < 8 → j.d.p 1 1 = 0 → a.canUse j.d.tenant c = 1 →
    b = keep a { j with phase := .active } → x = b.can c → b.job? j.id = some q →
    (x.state = .stopped → exec (.canStart t d) s = .next (planNow (complete
      (b.setCan c { x with state := .active, txErr := 0, rxErr := 0, recovering := false }) q 0 0) j)) ∧
    (x.state ≠ .stopped → exec (.canStart t d) s = .next (planNow (complete b q 0 0) j))) ∧
  (∀ (s a b : State) (t c : Nat) (d : Desc) (j : Job) (x : Can) (busy : Bool), s.power.porstHigh = true →
    Safety.taken s t 0x84 (d.setP 1 1) = (a, j) → c = j.d.p 0 1 → badFormat j.d (pm 0 2) false = false → c < 8 → j.d.p 1 1 = 1 →
    a.canUse j.d.tenant c = 1 → b = keep a { j with phase := .active } → x = b.can c →
    (busy = true → x.sends = true → exec (.canStop t d busy) s = .next
      (planNow (b.setCan c { x with stop := x.stop ++ [(false, some j.id)] }) j)) ∧
    (busy = false ∨ x.sends = false → exec (.canStop t d busy) s = .next (planNow (canStopDo b c (some j.id)) j))) ∧
  (∀ (s a b : State) (t c : Nat) (d : Desc) (j : Job) (x : Can) (busy : Bool), s.power.porstHigh = true →
    Safety.taken s t 0x84 (d.setP 1 2) = (a, j) → c = j.d.p 0 1 → badFormat j.d (pm 0 2) false = false → c < 8 → j.d.p 1 1 = 2 →
    a.canUse j.d.tenant c = 1 → b = keep a { j with phase := .active } → x = b.can c →
    ((a.can c).state = .stopped → exec (.canSleep t d busy) s = .next (complete a j 0x13 1)) ∧
    ((a.can c).state = .sleep → exec (.canSleep t d busy) s = .next (complete a j 0x13 2)) ∧
    (busy = true → x.sends = true → exec (.canSleep t d busy) s = .next
      (planNow (b.setCan c { x with stop := x.stop ++ [(true, some j.id)] }) j)) ∧
    (busy = false → x.sends = true → exec (.canSleep t d busy) s = .next (planNow (canSleepNow b c (some j.id)) j))) ∧
  (∀ (s a b : State) (t c : Nat) (d : Desc) (j q : Job) (x : Can), s.power.porstHigh = true → Safety.taken s t 0x84 (d.setP 1 3) = (a, j) →
    c = j.d.p 0 1 → badFormat j.d (pm 0 2) false = false → c < 8 → j.d.p 1 1 = 3 → a.canUse j.d.tenant c = 1 →
    b = keep a { j with phase := .active } → x = b.can c → b.job? j.id = some q →
    (x.state = .busOff → exec (.canRecover t d) s = .next (planNow (complete (b.setCan c { x with recovering := true }) q 0 0) j)) ∧
    (x.state ≠ .busOff → exec (.canRecover t d) s = .next (planNow (complete b q 0 0) j))) ∧
  (∀ (s a : State) (t c cfg n dd x stuck : Nat) (d : Desc) (j : Job), s.power.porstHigh = true → Safety.taken s t 0x85 d = (a, j) →
    c = j.d.p 0 1 → canConfigWords a j.d = some (cfg, n, dd, x, stuck) → canConfigWords (advance s t) { d with op := 0x85#8 } ≠ none →
    bit (j.d.p 1 1) 0 = false → badFormat j.d (pm 0 1 ||| pb 1 0x3F ||| pm 28 2 ||| (pm 4 5 ||| pm 12 5 ||| pm 20 5)) true = false → c < 8 →
    a.canUse j.d.tenant c = 1 →
    (a.mode ≠ .run → (a.can c).state = .stopped → exec (.canConfig t d) s = .next (Safety.answer
      (((((a.wr (canKey c 0) cfg).wr (canKey c 4) n).wr (canKey c 8) dd).wr (canKey c 0xC) x).wr (canKey c 0x14) stuck) j 0 0)) ∧
    (a.mode = .run → exec (.canConfig t d) s = .next (complete a j 0x13 0))) ∧
  (∀ (s a : State) (t c : Nat) (d : Desc) (j : Job) (x : Can), s.power.porstHigh = true → Safety.taken s t 0x86 d = (a, j) → c = j.d.p 0 1 →
    badFormat j.d (pm 0 1) false = false → c < 8 → (a.canUse j.d.tenant c ≠ 0 ∨ a.hasListen j.d.tenant c = true) → x = a.can c →
    exec (.canInfo t d) s = .next (Safety.answer a j 0 (x.state.code + 256 * min 255 x.txErr + 2 ^ 16 * min 255 x.rxErr +
      2 ^ 24 * (b2n x.masked + 2 * b2n x.rxdStuck) + 2 ^ 32 * (a.canSlotQuota j.d.tenant c - a.canTaken j.d.tenant c))))

/-- Events on a CAN channel that sends. A received frame is counted and delivered, or counted as not taken; a sent frame leaves the set DONE
with its start of frame; a one-shot frame that loses arbitration or meets an error ends with its status, a retried one stays; errors raise
the counters. -/
def Obligations.CanFrameEvents : Prop :=
  (∀ (s a : State) (t sof : Nat) (c : Fin 8) (f : CanFrame), s.power.porstHigh = true → a = advance s t →
    ((a.can c).sends = false ∨ a.canFmtOn c f.fmt = false → exec (.canFrameReceived t c sof f) s = .next a) ∧
    ((a.can c).sends = true → a.canFmtOn c f.fmt = true → a.canTenants c = [] → (a.can c).taps = [] → (a.can c).rxErr < 128 →
      (a.can c).txErr < 128 → (a.can c).state = .active → (a.can c).stop = [] → (a.can c).filters = [] → Safety.Tables a →
      ∃ u, exec (.canFrameReceived t c sof f) s = .next u ∧ u.can c = { a.can c with rxErr := (a.can c).rxErr - 1 } ∧
        u.rd (canKey c 0x4C) = min (a.rd (canKey c 0x4C) + 1) 0xFFFFFFFF ∧ u.rd (canKey c 0x68) = min (a.rd (canKey c 0x68) + 1) 0xFFFFFFFF ∧
        u.queues = a.queues ∧ u.jobs = a.jobs)) ∧
  (∀ (s a : State) (t sof : Nat) (c : Fin 8), s.power.porstHigh = true → a = advance s t →
    ((a.can c).sends = false ∨ a.canListenOnly c = true ∨ canWinner sof (a.can c).set = none →
      exec (.canFrameTransmitted t c sof) s = .next a ∧ (∀ w i, exec (.oneShotArbLost t c sof w i) s = .next a) ∧
        ∀ k, exec (.canBusError t c sof k) s = .next a) ∧
    (∀ y, (a.can c).sends = true → a.canListenOnly c = false → canWinner sof (a.can c).set = some y →
      (∃ u, exec (.canFrameTransmitted t c sof) s = .next (canFrameEnd (canRetry u c) c) ∧ ∃ v, v = (canDeliver (count a (canKey c 0x50)) c sof
        (some y.tenant) { y.frame with esi := y.frame.fmt == 1 && (a.can c).state == .passive }).1 ∧
        u = canErrState ((canEndSlots v c (·.job == y.job) 0 sof).updCan c fun x => { x with txErr := x.txErr - 1 }) c) ∧
      (∀ w i, y.oneShot = false → exec (.oneShotArbLost t c sof w i) s = .next (count a (canKey c 0x58))) ∧
      (∀ w i, y.oneShot = true → exec (.oneShotArbLost t c sof w i) s = .next
        (canRetry (canEndSlots (count a (canKey c 0x58)) c (·.job == y.job) 0x30 (arbResult w i)) c)) ∧
      (∀ k, y.oneShot = false → k ≠ .ack → exec (.canBusError t c sof k) s = .next (canFrameEnd (canRetry (canErrState
        ((count a (canKey c 0x54)).updCan c fun x => { x with txErr := min 256 (x.txErr + 8) }) c) c) c)) ∧
      (∀ k, y.oneShot = true → k ≠ .ack → exec (.canBusError t c sof k) s = .next (canFrameEnd (canRetry (canErrState
        (canEndSlots ((count a (canKey c 0x54)).updCan c fun x => { x with txErr := min 256 (x.txErr + 8) }) c (·.job == y.job) 0x31
          (canErrCode k)) c) c) c)))) ∧
  (∀ (s a : State) (t : Nat) (c : Fin 8) (after : Bool), s.power.porstHigh = true → a = advance s t →
    ((a.can c).sends = false ∨ a.canListenOnly c = true → exec (.canRxError t c after) s = .next a) ∧
    ((a.can c).sends = true → a.canListenOnly c = false → exec (.canRxError t c after) s = .next (canFrameEnd (canErrState
      ((count a (canKey c 0x54)).updCan c fun x => { x with rxErr := min 255 (x.rxErr + if after then 8 else 1) }) c) c)))

/-- The states of a CAN channel. BUS_OFF empties the set with its status, counts and flags; the recovery ends with both counters at zero; a
bus found stuck is flagged, and a channel that sends becomes stuck; a recessive level ends that; a frame takes its place in the set by
admission; a wake event brings a sleeping channel back, counts, flags and completes the SLEEP with the time of the event. -/
def Obligations.CanChannelStates : Prop :=
  (∀ (s a : State) (t : Nat) (c : Fin 8) (x : Can), s.power.porstHigh = true → a = advance s t → x = a.can c →
    (x.sends = false → exec (.busOff t c) s = .next a) ∧
    (x.sends = true → exec (.busOff t c) s = .next (canFrameEnd (canRetry (flag (count
      ((canEndSlots a c (fun _ => true) 0x33 0).updCan c fun y => { y with
        state := .busOff, recovering := (canEndSlots a c (fun _ => true) 0x33 0).bitAt (canKey c 0) 3 })
      (canKey c 0x60)) (canKey c 0x44) 2) c) c)) ∧
    (x.state = .busOff → x.recovering = true → exec (.busOffRecovered t c) s = .next
      (a.setCan c { x with state := .active, recovering := false, txErr := 0, rxErr := 0 })) ∧
    (x.state ≠ .busOff ∨ x.recovering = false → exec (.busOffRecovered t c) s = .next a) ∧
    ((x.rxdStuck = true ∧ x.sends = false) ∨ x.state = .stopped → exec (.busStuck t c) s = .next a) ∧
    (x.rxdStuck = false → x.state ≠ .stopped → x.sends = false → exec (.busStuck t c) s = .next
      (flag (count (a.setCan c { x with rxdStuck := true }) (canKey c 0x5C)) (canKey c 0x44) 1)) ∧
    (x.sends = true → exec (.busStuck t c) s = .next (canFrameEnd (canRetry (canEndSlots
      (flag (count (a.setCan c { x with rxdStuck := true, state := .stuck }) (canKey c 0x5C)) (canKey c 0x44) 1) c (·.oneShot) 0x32 0) c) c)) ∧
    (x.state ≠ .stuck → exec (.rxdRecessive t c) s = .next (a.setCan c { x with rxdStuck := false, masked := false })) ∧
    (x.state = .stuck → x.txErr < 128 → x.rxErr < 128 → exec (.rxdRecessive t c) s = .next
      (a.setCan c { x with rxdStuck := false, masked := false, state := .active })) ∧
    (x.state = .stuck → (128 ≤ x.txErr ∨ 128 ≤ x.rxErr) → exec (.rxdRecessive t c) s = .next
      (a.setCan c { x with rxdStuck := false, masked := false, state := .passive }))) ∧
  (∀ (s a : State) (t start : Nat) (c : Fin 8) (x : Can), s.power.porstHigh = true → a = advance s t → x = a.can c →
    (x.state ≠ .sleep → ∀ f, exec (.canWake t c start f) s = .next a) ∧
    (x.state = .sleep → a.bitAt (canKey c 0x18) 0 = false → x.masked = false → start + a.fld (canKey c 0x18) 4 12 ≤ a.now → x.sleepJob = none →
      exec (.canWake t c start none) s = .next
        (flag (count (a.setCan c { x with state := .active, masked := true }) (canKey c 0x64)) (canKey c 0x44) 4)) ∧
    (x.state = .sleep → (a.bitAt (canKey c 0x18) 0 = true ∨ x.masked = true ∨ a.now < start + a.fld (canKey c 0x18) 4 12) →
      exec (.canWake t c start none) s = .next a) ∧
    (∀ f, x.state = .sleep → a.bitAt (canKey c 0x18) 0 = false → exec (.canWake t c start (some f)) s = .next a)) ∧
  (∀ (sof : Nat) (l : List CanSlot) (y : CanSlot), canWinner sof l = some y → y ∈ l ∧ y.since ≤ sof) ∧
  (∀ (sof : Nat) (l : List CanSlot), (∃ x ∈ l, x.since ≤ sof) → (canWinner sof l).isSome = true) ∧
  (∀ (y x : CanSlot) (l : List CanSlot), x ∈ canInsert y l ↔ x = y ∨ x ∈ l) ∧
  (∀ (y : CanSlot) (l : List CanSlot), (∀ x ∈ l, x.adm < y.adm ∨ (x.adm = y.adm ∧ x.job ≤ y.job)) → canInsert y l = l ++ [y])

/-! ## Parapet, boot and life (chapters 17 to 20) -/

/-- A cause of SAFE HOLD sets its bit; outside SAFE HOLD it is counted, flagged, recorded as the first cause with its time, and SAFE HOLD is
entered. A cause gone clears its bit and no other. A mode is entered with its count and flag; the safe modes make the outputs safe. The
events that are causes: SAFE_N, the heartbeat, the clocks, the logic supplies, the temperature of Span, a lockstep fault, an uncorrectable
error in the firmware's pages; and the writes that ask for SAFE HOLD. The scrubber reads the next word of the Deck: a clean one moves it
on, a corrected one that no other reader found in the same cycle and an uncorrectable one, with its place, are counted and flagged, and
after the last word it begins again, counted. -/
def Obligations.CausesAndModes : Prop :=
  ((∀ (s u : State) (code : Nat), u = { s with pp := { s.pp with causes := s.pp.causes ||| 2 ^ (code - 1) } } →
    (s.mode = .safeHold → raiseCause s code = u) ∧
    (s.mode ≠ .safeHold → raiseCause s code = enterMode (flag (count { u with pp := { u.pp with
      firstCause := code, entryTime := s.now, reqStale := s.pp.req.isSome } } 0x48034) kPp 1) .safeHold)) ∧
  (∀ (s : State) (code : Nat), (clearCause s code).pp.causes =
    if s.pp.causes / 2 ^ (code - 1) % 2 = 1 then s.pp.causes - 2 ^ (code - 1) else s.pp.causes) ∧
  (∀ (s : State) (m : Mode), (enterMode s m).pp.mode = m ∧ (enterMode s m).grants = s.grants) ∧
  (∀ (s : State) (m : Mode), m = .run ∨ m = .commission → enterMode s m =
    pwmModeChange (flag (count { s with pp := { s.pp with mode := m, unsafeAck := false } } 0x48040) kPp 2))) ∧
  ((∀ (s a : State) (t : Nat), s.power.porstHigh = true → a = advance s t →
    exec (.safeNLow t) s = .next (raiseCause a 1) ∧ exec (.safeNGone t) s = .next (clearCause a 1) ∧
    (∀ c, exec (.clockFault t c) s = .next (raiseCause a 4)) ∧ exec (.clockRestored t) s = .next (clearCause a 4) ∧
    (∀ r, exec (.supplyFault t r) s = .next (raiseCause
      { a with power := { a.power with railOk := a.power.railOk.set (railIx r) false } } 5)) ∧
    exec (.supplyRestored t) s = .next (clearCause { a with power := { a.power with railOk := List.replicate 7 true } } 5) ∧
    (a.pp.hbArmed = false → exec (.heartbeatMiss t) s = .next a) ∧
    (a.pp.hbArmed = true → 97 * 110 * (a.fld 0x48024 0 4 + 1) * a.tb.len ≤ 10000 * (a.now - a.tb.boundary) →
      exec (.heartbeatMiss t) s = .next (raiseCause { a with pp := { a.pp with hbRun := 0 } } 3)) ∧
    (a.answers = true → (a.pp.req ≠ none → exec (.softwareSafeHold t) s = .next (clearCause (raiseCause a 8) 8)) ∧
      (a.pp.req = none → exec (.softwareSafeHold t) s = .next
        (modeResult (clearCause (raiseCause a 8) 8) (if a.mode = .safeHold then 1 else 0) 0)))) ∧
  (∀ (s a u : State) (t : Nat) (sp dk fa fb x : Int), s.power.porstHigh = true → a = advance s t → a.life.tjMax = some x →
    u = { a with
      pp := { a.pp with tSpan := sp, tDeck := dk, tFootA := fa, tFootB := fb }
      life := { a.life with tjMax := some (max x sp) } } →
    (152 ≤ sp → exec (.parapetSensorRead t sp dk fa fb) s = .next (raiseCause u 2)) ∧
    (142 ≤ sp → sp < 152 → exec (.parapetSensorRead t sp dk fa fb) s = .next u) ∧
    (sp < 142 → exec (.parapetSensorRead t sp dk fa fb) s = .next (clearCause u 2))) ∧
  (∀ (s a : State) (t : Nat) (f : Fin 2) (c : Int), s.power.porstHigh = true → a = advance s t →
    (c < 160 → exec (.footingOvertemp t f c) s = .next { a with pp :=
      if f = 0 then { a.pp with tFootA := c } else { a.pp with tFootB := c } }) ∧
    (160 ≤ c → exec (.footingOvertemp t f c) s = .next (valveFault ((List.range 8).foldl (fun x i => trip x (8 * f.val + i) 5)
      (flag { a with pp := if f = 0 then { a.pp with tFootA := c } else { a.pp with tFootB := c } } (ftKey f 8) 4))
      (32 * f.val) .overtemp))) ∧
  (∀ (s : State) (t mv : Nat) (ok : Bool),
    (∀ r, s.power.porstHigh = false → exec (.logicSupplyChange t r ok) s = .next
      { s with power := { s.power with railOk := s.power.railOk.set (railIx r) ok } }) ∧
    (s.power.porstHigh = false → exec (.fieldSupplyChange t .vgdA mv) s = .next
      { s with power := { s.power with vgdMv := s.power.vgdMv.set 0 mv } }) ∧
    (s.power.porstHigh = true → exec (.fieldSupplyChange t .vvB mv) s = .next
      { advance s t with power := { s.power with vvMv := s.power.vvMv.set 1 mv } }))) ∧
  (∀ (s a : State) (t : Nat), s.power.porstHigh = true → a = advance s t →
    (a.scrub + 1 < 8192 * 3072 → exec (.deckScrubRead t .clean) s = .next { a with scrub := a.scrub + 1 }) ∧
    (a.scrub + 1 = 8192 * 3072 → exec (.deckScrubRead t .clean) s = .next (count { a with scrub := 0 } 0x4C018)) ∧
    (a.scrub + 1 < 8192 * 3072 → ∀ u k, k = deckWordKey (a.scrub / 8192) (a.scrub % 8192) →
      (a.setNow k &&& 2 = 0 → u = flag (count (noteSet a k 1) 0x4C00C) kDeck 1 →
        exec (.deckScrubRead t .corrected) s = .next { u with scrub := a.scrub + 1 }) ∧
      (a.setNow k &&& 2 ≠ 0 → exec (.deckScrubRead t .corrected) s = .next { a with scrub := a.scrub + 1 })) ∧
    (a.scrub + 1 < 8192 * 3072 → 128 ≤ a.scrub / 8192 → ∀ u,
      u = flag ((count a 0x4C010).wr 0x4C014 (a.scrub / 8192 + 2 ^ 12 * (a.scrub % 8192))) kDeck 2 →
      exec (.deckScrubRead t .uncorrectable) s = .next { u with scrub := a.scrub + 1 }))

/-- Mode requests. SAFE HOLD is entered at once, with the result OK, or SAME in SAFE HOLD, where no request waits (the model's choice, log
entry 114); any other waits, one at a time, and is judged at a boundary 64 ticks on or later: stale 3,
the same mode 1, RUN out of SAFE HOLD 4, a cause still present 3, a RUN check that fails 2 with its checks, else the mode is entered with
result 0. The unsafe acknowledgement needs its word and COMMISSION. -/
def Obligations.ModeRequests : Prop :=
  (∀ (s a : State) (t : Nat) (v : Word), s.power.porstHigh = true → a = advance s t →
    (a.answers = true → v.toNat % 4 = 3 → a.pp.req ≠ none → exec (.modeRequest t v) s = .next (clearCause (raiseCause a 8) 8)) ∧
    (a.answers = true → v.toNat % 4 = 3 → a.pp.req = none → exec (.modeRequest t v) s = .next
      (modeResult (clearCause (raiseCause a 8) 8) (if a.mode = .safeHold then 1 else 0) 0)) ∧
    (a.answers = true → v.toNat % 4 ≠ 3 → a.pp.req ≠ none → exec (.modeRequest t v) s = .next (flag a kPp 0x40)) ∧
    (a.answers = true → v.toNat % 4 ≠ 3 → a.pp.req = none → exec (.modeRequest t v) s = .next
      { a with pp := { a.pp with req := some (v.toNat % 4, a.now), reqStale := false, resDone := false } }) ∧
    (a.answers = false → exec (.modeRequest t v) s = .next a)) ∧
  (∀ (s : State) (w c : Nat) (m : Mode), s.power.porstHigh = true → s.pp.req = some (c, w) → m = modeOf c →
    (s.tb.boundary < w + 64 → exec .modeRequestEval s = .next s) ∧
    (w + 64 ≤ s.tb.boundary → s.pp.reqStale = true → exec .modeRequestEval s = .next (modeResult s 3 0)) ∧
    (w + 64 ≤ s.tb.boundary → s.pp.reqStale = false → m = s.mode → exec .modeRequestEval s = .next (modeResult s 1 0)) ∧
    (w + 64 ≤ s.tb.boundary → s.pp.reqStale = false → s.mode = .safeHold → m = .run →
      exec .modeRequestEval s = .next (modeResult s 4 0)) ∧
    (w + 64 ≤ s.tb.boundary → s.pp.reqStale = false → s.mode = .safeHold → m ≠ .run → m ≠ .safeHold → s.pp.causes ≠ 0 →
      exec .modeRequestEval s = .next (modeResult s 3 0)) ∧
    (w + 64 ≤ s.tb.boundary → s.pp.reqStale = false → s.mode = .commission → m = .run → s.pp.causes = 0 → s.runChecks ≠ 0 →
      exec .modeRequestEval s = .next (modeResult (checkFlags s s.runChecks) 2 s.runChecks)) ∧
    (w + 64 ≤ s.tb.boundary → s.pp.reqStale = false → s.mode ≠ m → s.pp.causes = 0 → m ≠ .run →
      exec .modeRequestEval s = .next (modeResult (enterMode s m) 0 0)) ∧
    (w + 64 ≤ s.tb.boundary → s.pp.reqStale = false → s.mode = .commission → s.pp.causes = 0 → m = .run → s.runChecks = 0 →
      exec .modeRequestEval s = .next (modeResult (enterMode s m) 0 0))) ∧
  (∀ (s : State) (res checks : Nat) (u : State), u = { s with pp := { s.pp with
      req := none, reqStale := false, resDone := true, result := res, checks := checks } } →
    (res < 2 → modeResult s res checks = u) ∧ (2 ≤ res → modeResult s res checks = flag (count u 0x48038) kPp 4)) ∧
  (∀ (s a : State) (t : Nat) (v : Word), s.power.porstHigh = true → a = advance s t → a.answers = true →
    (v = 0x6A3C19E5#32 → a.mode = .commission → exec (.ppUnsafeAck t v) s = .next { a with pp := { a.pp with unsafeAck := true } }) ∧
    (v ≠ 0x6A3C19E5#32 ∨ a.mode ≠ .commission → exec (.ppUnsafeAck t v) s = .next (flag a kPp 0x10)))

/-- The boot ROM: it selects the active slot, verifies it, starts it, and falls to the other slot or to recovery. A GOOD active slot is
verified; a valid image of it starts; when it is ready it runs and serves. The update mailbox. A command while one runs only sets its
flag; while the cores restart it ends 1. STAGE is refused on trial, for a length out of range and without background DMA, and else empties
the slot that does not run and reads the image; it ends with what became of it. ACTIVATE needs a NEW slot, CONFIRM a trial, SVN_COMMIT a
GOOD slot; CANCEL withdraws an activation. -/
def Obligations.BootAndUpdate : Prop :=
  ((∀ (s a : State) (t : Nat), s.power.porstHigh = true → a = advance s t →
    (a.fw.phase = .reading → a.fw.ctl.st a.fw.ctl.active = .good → exec (.bootImageSelect t) s = .next
      { a with fw := { a.fw with phase := .verifying a.fw.ctl.active 0 } }) ∧
    (a.fw.phase ≠ .reading → exec (.bootImageSelect t) s = .next a) ∧
    (∀ slot tried, a.fw.phase = .verifying slot tried → a.fw.valid slot = true → a.fw.ctl.active = slot →
      exec (.imageVerified t) s = .next { a with fw := { a.fw with phase := .starting slot } }) ∧
    (∀ slot, a.fw.phase = .verifying slot 1 → a.fw.valid slot = false → exec (.imageVerified t) s = .next
      { a with fw := { a.fw.setSt slot .bad with phase := .noSlot } }) ∧
    (∀ slot i, a.fw.phase = .starting slot → a.fw.img slot = some i → exec (.firmwareReady t) s = .next
      (clearCause { a with fw := { a.fw with
        phase := .running, slot := slot, ready := true, everReady := true, inRecovery := false,
        trial := a.fw.ctl.st slot == .trial, version := i.version, svn := i.svn, restartAt := none } } 7)) ∧
    (a.fw.phase = .noSlot → exec (.recovery t) s = .next { a with fw := { a.fw with
      phase := .recovery, inRecovery := true, ready := false, trial := false, restartAt := none } }) ∧
    (a.fw.phase ≠ .noSlot → exec (.recovery t) s = .next a)) ∧
  (∀ (s a u : State) (t slot : Nat), s.power.porstHigh = true → a = advance s t → a.fw.phase = .running → slot = a.fw.slot →
    u = raiseCause a 7 → u.fw.phase = .running → u.fw.slot = slot → u.fw.ctl.st slot ≠ .trial → exec (.lockstep t) s = .next
      (flag (count { u with fw := { u.fw with phase := .starting slot, ready := false, restartAt := none } } 0x80028) kFwu 4)) ∧
  (∀ (s a : State) (t r : Nat), s.power.porstHigh = true → a = advance s t → a.fw.restartAt = some r →
    (a.now < r + 40000000 → exec (.trialReadyTimeout t) s = .next a) ∧
    (r + 40000000 ≤ a.now → a.fw.ready = false → a.fw.ctl.st a.fw.ctl.active = .trial → exec (.trialReadyTimeout t) s = .next
      (flag (count (fallBack a a.fw.ctl.active) 0x80028) kFwu 2)))) ∧
  ((∀ (s a : State) (t : Nat), s.power.porstHigh = true → a = advance s t → a.fw.busy ≠ none →
    exec (.stage t) s = .next (flag a kFwu 8) ∧ exec (.activate t) s = .next (flag a kFwu 8) ∧ exec (.cancel t) s = .next (flag a kFwu 8) ∧
    exec (.confirm t) s = .next (flag a kFwu 8) ∧ exec (.svnCommit t) s = .next (flag a kFwu 8)) ∧
  (∀ (s a : State) (t : Nat), s.power.porstHigh = true → a = advance s t → a.fw.busy = none → a.fw.phase = .running → a.fw.inRecovery = false →
    (a.fw.trial = true → exec (.stage t) s = .next (fwuEnd a 1 9 0)) ∧
    (a.fw.trial = false → a.fld 0x80014 0 22 < 516 → exec (.stage t) s = .next (fwuEnd a 1 2 0)) ∧
    (a.fw.trial = false → 516 ≤ a.fld 0x80014 0 22 → a.fld 0x80014 0 22 ≤ 2097152 → a.bEn 0 0 = false →
      exec (.stage t) s = .next (fwuEnd a 1 6 0)) ∧
    (a.fw.trial = false → 516 ≤ a.fld 0x80014 0 22 → a.fld 0x80014 0 22 ≤ 2097152 → a.bEn 0 0 = true →
      ∃ u, exec (.stage t) s = .next u ∧ u.fw.busy = some 1 ∧ u.fw.resDone = false ∧ u.fw.stageTarget = 1 - a.fw.slot ∧
        u.stageReads = true ∧ u.grants = a.grants) ∧
    (a.fw.newSlot = none → exec (.activate t) s = .next (fwuEnd a 2 7 0)) ∧
    (∀ x, a.fw.newSlot = some x → exec (.activate t) s = .next
      (fwuEnd { a with fw := { a.fw with actPending := some a.now, actDue := false } } 2 0 0)) ∧
    exec (.cancel t) s = .next (fwuEnd { a with fw := { a.fw with actPending := none, actDue := false } } 3 0 0) ∧
    (a.fw.trial = true → exec (.confirm t) s = .next (fwuEnd { a with fw := { a.fw.setSt a.fw.slot .good with trial := false } } 4 0 0)) ∧
    (a.fw.trial = false → exec (.confirm t) s = .next (fwuEnd a 4 8 0)) ∧
    (a.fw.ctl.st a.fw.slot = .good → exec (.svnCommit t) s = .next
      (fwuEnd { a with fw := { a.fw with svnMin := max a.fw.svnMin a.fw.svn } } 5 0 0)) ∧
    (a.fw.ctl.st a.fw.slot ≠ .good → exec (.svnCommit t) s = .next (fwuEnd a 5 8 0))) ∧
  (∀ (s a : State) (t : Nat), s.power.porstHigh = true → a = advance s t →
    (a.fw.busy ≠ some 1 → ∀ r, exec (.stageDone t r) s = .next a) ∧
    (a.fw.busy = some 1 → exec (.stageDone t .readFailed) s = .next (stageEnd a 3 0) ∧
      exec (.stageDone t .flashFailed) s = .next (stageEnd a 5 0)) ∧
    (∀ img, a.fw.busy = some 1 → a.stageReads = false → imageFailures img a.fw.svnMin = 0 → exec (.stageDone t (.copied img)) s = .next
      (stageEnd { a with fw := (a.fw.setImg a.fw.stageTarget (some img)).setSt a.fw.stageTarget .new } 0 0)) ∧
    (∀ img, a.fw.busy = some 1 → a.stageReads = false → imageFailures img a.fw.svnMin ≠ 0 → exec (.stageDone t (.copied img)) s = .next
      (stageEnd { a with fw := a.fw.setImg a.fw.stageTarget (some img) } 4 (imageFailures img a.fw.svnMin)))) ∧
  (∀ (s : State) (cmd res check : Nat), fwuEnd s cmd res check =
    flag { s with fw := { s.fw with busy := none, resDone := true, result := res, resCmd := cmd, check := check } } kFwu 1) ∧
  (∀ (s a : State) (t w slot : Nat), s.power.porstHigh = true → a = advance s t → a.fw.actPending = some w → a.fw.newSlot = some slot →
    (a.fw.actDue = true → exec (.firmwareActivation t) s = .next (activateSlot a slot)) ∧
    (a.fw.actDue = false → a.mode ≠ .standby → exec (.firmwareActivation t) s = .next a) ∧
    (a.fw.actDue = false → a.mode = .standby → w + 64 ≤ a.tb.boundary → exec (.firmwareActivation t) s = .next (activateSlot a slot))))

/-- The core voltage and the aging monitor. With AVS off, or after three reads unanswered, an evaluation does nothing; short of slack it asks
for 5 mV more up to 820 mV; acknowledged again the link counts as up. AVS_DISABLE is refused in RUN. A measurement keeps the slowest ring
and raises the end-of-life flag at its threshold. -/
def Obligations.CoreVoltageAndAging : Prop :=
  (∀ (s a : State) (t : Nat) (m : AvsIn), s.power.porstHigh = true → a = advance s t →
    (a.bitAt 0x100 0 = false → exec (.avsEvaluation t m) s = .next a) ∧
    (3 ≤ a.life.nackRun → exec (.avsEvaluation t m) s = .next a) ∧
    (a.bitAt 0x100 0 = true → a.life.nackRun < 3 → m.ack = true → m.slack < a.fld 0x100 8 8 → a.life.targetMv < 820 →
      ∃ u, exec (.avsEvaluation t m) s = .next u ∧ u.life.targetMv = min 820 (a.life.targetMv + 5) ∧ u.life.slack = m.slack ∧
        u.life.senseMv = m.senseMv ∧ u.life.nackRun = 0 ∧ u.life.avsLink = true ∧ u.tb = a.tb) ∧
    (a.life.nackRun < 3 → exec (.avsRetryRead t m) s = .next a) ∧
    (3 ≤ a.life.nackRun → m.ack = true → exec (.avsRetryRead t m) s = .next
      { a with life := { a.life with avsLink := true, nackRun := 0, senseMv := m.senseMv } }) ∧
    (3 ≤ a.life.nackRun → m.ack = false → exec (.avsRetryRead t m) s = .next a)) ∧
  (∀ (s a : State) (t : Nat), s.power.porstHigh = true → a = advance s t →
    (a.mode = .run → exec (.avsDisable t) s = .next a) ∧
    (a.mode ≠ .run → a.rd 0x100 = 1 + 256 * a.fld 0x100 8 8 → 4 ≤ a.fld 0x100 8 8 → a.fld 0x100 8 8 ≤ 20 → exec (.avsDisable t) s = .next
      (avsCommand { a.wr 0x100 (256 * a.fld 0x100 8 8) with life := { a.life with okRun := 0, lowRun := 0 } } 750 true))) ∧
  (∀ (s a : State) (t : Nat) (l : List Nat), s.power.porstHigh = true → a = advance s t →
    (a.fld 0x10C 0 16 ≤ l.foldl max 0 → exec (.ageMeasurement t l) s = .next
      (flag { a with life := { a.life with degr := l.foldl max 0, eol := true } } kAge 1)) ∧
    (l.foldl max 0 < a.fld 0x10C 0 16 → exec (.ageMeasurement t l) s = .next
      { a with life := { a.life with degr := l.foldl max 0 } }))
end

