-- ==== Sys2Proof/Laws/Store.lean ====
section
/-!
SUPPORT. The laws of sparse tables: a read after a write, and the canonical form, which every operation on a table keeps.
-/
namespace Sys2Proof.Machine

variable {α : Type}

@[simp] theorem storeGet_nil (dflt : Nat → α) (k : Nat) : storeGet dflt [] k = dflt k := rfl

/-- A read at the key just inserted gives the value inserted. -/
@[simp] theorem storeGet_storeIns_self (dflt : Nat → α) (m : Store α) (k : Nat) (v : α) :
    storeGet dflt (storeIns m k v) k = v := by
  induction m with
  | nil => simp [storeIns, storeGet]
  | cons e m ih =>
    obtain ⟨k', v'⟩ := e
    unfold storeIns
    split
    · simp [storeGet]
    · split
      · simp [storeGet]
      · simp [storeGet, *]

/-- An insertion leaves every other key alone. -/
theorem storeGet_storeIns_of_ne (dflt : Nat → α) (m : Store α) {k k' : Nat} (v : α) (h : k' ≠ k) :
    storeGet dflt (storeIns m k v) k' = storeGet dflt m k' := by
  induction m with
  | nil => simp [storeIns, storeGet, h]
  | cons e m ih =>
    obtain ⟨a, b⟩ := e
    unfold storeIns
    split
    · simp [storeGet, h]
    · split
      · rename_i h1
        simp [storeGet, ← h1, h]
      · simp [storeGet, ih]

/-- Where the canonical form holds from `lo` on, a key below `lo` is not listed. -/
theorem storeGet_below [DecidableEq α] (dflt : Nat → α) {lo k : Nat} {m : Store α} (h : storeWfFrom dflt lo m = true) (hk : k < lo) :
    storeGet dflt m k = dflt k := by
  induction m generalizing lo with
  | nil => rfl
  | cons e m ih =>
    obtain ⟨a, b⟩ := e
    simp only [storeWfFrom, Bool.and_eq_true, decide_eq_true_eq] at h
    have hne : k ≠ a := by omega
    simp only [storeGet, hne, if_false]
    exact ih h.2 (by omega)

/-- A read at a key dropped from a canonical table gives what an unlisted key reads as. -/
theorem storeGet_storeDel_self [DecidableEq α] (dflt : Nat → α) {lo : Nat} {m : Store α} (h : storeWfFrom dflt lo m = true) (k : Nat) :
    storeGet dflt (storeDel m k) k = dflt k := by
  induction m generalizing lo with
  | nil => rfl
  | cons e m ih =>
    obtain ⟨a, b⟩ := e
    simp only [storeWfFrom, Bool.and_eq_true, decide_eq_true_eq] at h
    unfold storeDel
    split
    · rename_i h1
      exact storeGet_below dflt h.2 (by omega)
    · rename_i h1
      simp [storeGet, h1, ih h.2]

/-- Dropping a key leaves every other key alone. -/
theorem storeGet_storeDel_of_ne (dflt : Nat → α) (m : Store α) {k k' : Nat} (h : k' ≠ k) :
    storeGet dflt (storeDel m k) k' = storeGet dflt m k' := by
  induction m with
  | nil => rfl
  | cons e m ih =>
    obtain ⟨a, b⟩ := e
    unfold storeDel
    split
    · rename_i h1
      simp [storeGet, ← h1, h]
    · simp [storeGet, ih]

/-- A read after a write to the same key of a canonical table gives the value written. -/
theorem storeGet_storePut_self [DecidableEq α] (dflt : Nat → α) {m : Store α} (h : storeWf dflt m = true) (k : Nat) (v : α) :
    storeGet dflt (storePut dflt m k v) k = v := by
  unfold storePut
  split
  · rename_i h1
    rw [storeGet_storeDel_self dflt h, h1]
  · simp

/-- A write leaves every other key alone. -/
theorem storeGet_storePut_of_ne [DecidableEq α] (dflt : Nat → α) (m : Store α) {k k' : Nat} (v : α) (h : k' ≠ k) :
    storeGet dflt (storePut dflt m k v) k' = storeGet dflt m k' := by
  unfold storePut
  split
  · exact storeGet_storeDel_of_ne dflt m h
  · exact storeGet_storeIns_of_ne dflt m v h

theorem storeWfFrom_mono [DecidableEq α] (dflt : Nat → α) {lo lo' : Nat} {m : Store α} (h : storeWfFrom dflt lo m = true) (hl : lo' ≤ lo) :
    storeWfFrom dflt lo' m = true := by
  cases m with
  | nil => rfl
  | cons e m =>
    obtain ⟨a, b⟩ := e
    simp only [storeWfFrom, Bool.and_eq_true, decide_eq_true_eq] at h ⊢
    exact ⟨⟨by omega, h.1.2⟩, h.2⟩

theorem storeWfFrom_storeDel [DecidableEq α] (dflt : Nat → α) {lo : Nat} {m : Store α} (h : storeWfFrom dflt lo m = true) (k : Nat) :
    storeWfFrom dflt lo (storeDel m k) = true := by
  induction m generalizing lo with
  | nil => rfl
  | cons e m ih =>
    obtain ⟨a, b⟩ := e
    simp only [storeWfFrom, Bool.and_eq_true, decide_eq_true_eq] at h
    unfold storeDel
    split
    · exact storeWfFrom_mono dflt h.2 (by omega)
    · simp only [storeWfFrom, Bool.and_eq_true, decide_eq_true_eq]
      exact ⟨h.1, ih h.2⟩

theorem storeWfFrom_storeIns [DecidableEq α] (dflt : Nat → α) {lo : Nat} {m : Store α} {k : Nat} {v : α}
    (h : storeWfFrom dflt lo m = true) (hk : lo ≤ k) (hv : v ≠ dflt k) : storeWfFrom dflt lo (storeIns m k v) = true := by
  induction m generalizing lo with
  | nil => simp [storeIns, storeWfFrom, hk, hv]
  | cons e m ih =>
    obtain ⟨a, b⟩ := e
    simp only [storeWfFrom, Bool.and_eq_true, decide_eq_true_eq] at h
    unfold storeIns
    split
    · simp only [storeWfFrom, Bool.and_eq_true, decide_eq_true_eq]
      exact ⟨⟨hk, hv⟩, ⟨by omega, h.1.2⟩, h.2⟩
    · split
      · rename_i h1
        subst h1
        simp only [storeWfFrom, Bool.and_eq_true, decide_eq_true_eq]
        exact ⟨⟨hk, hv⟩, h.2⟩
      · simp only [storeWfFrom, Bool.and_eq_true, decide_eq_true_eq]
        exact ⟨h.1, ih h.2 (by omega)⟩

/-- A write keeps the canonical form. -/
theorem storeWf_storePut [DecidableEq α] (dflt : Nat → α) {m : Store α} (h : storeWf dflt m = true) (k : Nat) (v : α) :
    storeWf dflt (storePut dflt m k v) = true := by
  unfold storePut
  split
  · exact storeWfFrom_storeDel dflt h k
  · rename_i hv
    exact storeWfFrom_storeIns dflt h (Nat.zero_le k) hv

theorem storeWfFrom_filter [DecidableEq α] (dflt : Nat → α) {lo : Nat} {m : Store α} (p : Nat × α → Bool) (h : storeWfFrom dflt lo m = true) :
    storeWfFrom dflt lo (m.filter p) = true := by
  induction m generalizing lo with
  | nil => rfl
  | cons e m ih =>
    obtain ⟨a, b⟩ := e
    simp only [storeWfFrom, Bool.and_eq_true, decide_eq_true_eq] at h
    rw [List.filter_cons]
    split
    · simp only [storeWfFrom, Bool.and_eq_true, decide_eq_true_eq]
      exact ⟨h.1, ih h.2⟩
    · exact ih (storeWfFrom_mono dflt h.2 (by omega))

/-- Dropping entries keeps the canonical form. -/
theorem storeWf_filter [DecidableEq α] (dflt : Nat → α) {m : Store α} (p : Nat × α → Bool) (h : storeWf dflt m = true) :
    storeWf dflt (m.filter p) = true := storeWfFrom_filter dflt p h

theorem storeWfFrom_mapVal [DecidableEq α] (dflt : Nat → α) {lo : Nat} {m : Store α} (f : Nat → α → α)
    (hf : ∀ k v, v ≠ dflt k → f k v ≠ dflt k) (h : storeWfFrom dflt lo m = true) :
    storeWfFrom dflt lo (m.map fun e => (e.1, f e.1 e.2)) = true := by
  induction m generalizing lo with
  | nil => rfl
  | cons e m ih =>
    obtain ⟨a, b⟩ := e
    simp only [storeWfFrom, List.map, Bool.and_eq_true, decide_eq_true_eq] at h ⊢
    exact ⟨⟨h.1.1, hf a b h.1.2⟩, ih h.2⟩

/-- A change of values that reaches no unlisted value keeps the canonical form. -/
theorem storeWf_mapVal [DecidableEq α] (dflt : Nat → α) {m : Store α} (f : Nat → α → α)
    (hf : ∀ k v, v ≠ dflt k → f k v ≠ dflt k) (h : storeWf dflt m = true) :
    storeWf dflt (m.map fun e => (e.1, f e.1 e.2)) = true := storeWfFrom_mapVal dflt f hf h

/-- Two canonical tables that read the same everywhere are equal. -/
theorem store_ext [DecidableEq α] (dflt : Nat → α) {lo : Nat} {m n : Store α} (hm : storeWfFrom dflt lo m = true)
    (hn : storeWfFrom dflt lo n = true) (h : ∀ k, storeGet dflt m k = storeGet dflt n k) : m = n := by
  induction m generalizing lo n with
  | nil =>
    cases n with
    | nil => rfl
    | cons e n =>
      obtain ⟨a, b⟩ := e
      simp only [storeWfFrom, Bool.and_eq_true, decide_eq_true_eq] at hn
      have := h a
      simp [storeGet] at this
      exact absurd this.symm hn.1.2
  | cons e m ih =>
    obtain ⟨a, b⟩ := e
    simp only [storeWfFrom, Bool.and_eq_true, decide_eq_true_eq] at hm
    cases n with
    | nil =>
      have := h a
      simp [storeGet] at this
      exact absurd this hm.1.2
    | cons e n =>
      obtain ⟨c, d⟩ := e
      simp only [storeWfFrom, Bool.and_eq_true, decide_eq_true_eq] at hn
      have hac : a = c := by
        by_contra hne
        rcases Nat.lt_or_gt_of_ne hne with hl | hl
        · have h1 := h a
          have h2 : storeGet dflt n a = dflt a := storeGet_below dflt hn.2 (by omega)
          simp [storeGet, hne, h2] at h1
          exact hm.1.2 h1
        · have h1 := h c
          have h2 : storeGet dflt m c = dflt c := storeGet_below dflt hm.2 (by omega)
          have hne' : c ≠ a := fun e => hne e.symm
          simp [storeGet, hne', h2] at h1
          exact hn.1.2 h1.symm
      subst hac
      have hbd : b = d := by simpa [storeGet] using h a
      subst hbd
      have : m = n := by
        refine ih hm.2 hn.2 fun k => ?_
        by_cases hk : k = a
        · subst hk
          rw [storeGet_below dflt hm.2 (by omega), storeGet_below dflt hn.2 (by omega)]
        · have := h k
          simpa [storeGet, hk] using this
      rw [this]

end Sys2Proof.Machine
end

