-- ==== Sys2Proof/Laws/Keeps.lean ====
section
/-!
SUPPORT. The frame shared by the operations inside a command: device time, the span, the reset and PLL levels and the committed
grants and the queue of commands stay, the mode stays or becomes SAFE HOLD, and every table keeps its canonical form.
-/
namespace Sys2Proof.Machine

/-- What an operation inside a command leaves as it was. -/
structure Keeps (s t : State) : Prop where
  pll : t.power.pll = s.power.pll
  porst : t.power.porstHigh = s.power.porstHigh
  now : t.tb.now = s.tb.now
  boundary : t.tb.boundary = s.tb.boundary
  spanIx : t.tb.spanIx = s.tb.spanIx
  len : t.tb.len = s.tb.len
  offset : t.tb.offset = s.tb.offset
  pct : t.tb.pct = s.tb.pct
  sampled : t.tb.sampled = s.tb.sampled
  judged : t.tb.judged = s.tb.judged
  writes : Safety.LenWrites s.tb → Safety.LenWrites t.tb
  grants : t.grants = s.grants
  pending : t.pending = s.pending
  mode : t.pp.mode = s.pp.mode ∨ t.pp.mode = .safeHold
  tables : Safety.Tables s → Safety.Tables t

theorem Keeps.refl (s : State) : Keeps s s := ⟨rfl, rfl, rfl, rfl, rfl, rfl, rfl, rfl, rfl, rfl, id, rfl, rfl, .inl rfl, id⟩

theorem Keeps.trans {a s t : State} (h : Keeps a s) (k : Keeps s t) : Keeps a t where
  pll := k.pll.trans h.pll
  porst := k.porst.trans h.porst
  now := k.now.trans h.now
  boundary := k.boundary.trans h.boundary
  spanIx := k.spanIx.trans h.spanIx
  len := k.len.trans h.len
  offset := k.offset.trans h.offset
  pct := k.pct.trans h.pct
  sampled := k.sampled.trans h.sampled
  judged := k.judged.trans h.judged
  writes := fun x => k.writes (h.writes x)
  grants := k.grants.trans h.grants
  pending := k.pending.trans h.pending
  mode := k.mode.elim (fun e => h.mode.imp e.trans e.trans) .inr
  tables := fun x => k.tables (h.tables x)

/-- The parts of the state `Keeps` speaks of beside the committed grants. -/
def Keeps.clock (s : State) :=
  (s.power.pll, s.power.porstHigh, s.tb.now, s.tb.boundary, s.tb.spanIx, s.tb.len, s.tb.offset, s.tb.pct, s.tb.sampled, s.tb.judged, s.tb.lenWrite, s.grants, s.pp.mode, s.pending)

/-- A change of nothing `Keeps` speaks of. -/
theorem Keeps.upd {a s : State} {power : Power} {tb : TimeBase} {refs : Refs} {link : Link} {commit : Commit} {irqPend : Bool} {jobs : List Job} {nextId : Nat} {ks : Keystone} {scrub : Nat} {wheel : Wheel} {ring : Ring} {limLevels : Nat} {pp : Parapet} {fw : Firmware} {life : Life} {out : List Tlp} {freeCtr : Nat} {pending : List Instr}
    (h : Keeps a s) (e : (power.pll, power.porstHigh, tb.now, tb.boundary, tb.spanIx, tb.len, tb.offset, tb.pct, tb.sampled, tb.judged,
      tb.lenWrite, pp.mode, pending) = (s.power.pll, s.power.porstHigh, s.tb.now, s.tb.boundary, s.tb.spanIx, s.tb.len, s.tb.offset,
      s.tb.pct, s.tb.sampled, s.tb.judged, s.tb.lenWrite, s.pp.mode, s.pending)) :
    Keeps a
      ⟨power, tb, refs, link, s.fns, s.regs, s.grants, commit, irqPend, s.tns, s.sqs, s.cqs, jobs, nextId, ks, s.queues, s.deck, scrub, s.cams, s.vcs, s.pipes, s.trackReuse, s.valves, s.rows, wheel, ring, s.pubOn, s.pubRec, s.fbs, s.emus, s.axes, s.piers, s.groups, s.stays, s.camTabs, s.latches, s.probeCnts, s.sgs, limLevels, s.pwms, s.stages, s.auxs, s.footings, s.cans, pp, fw, life, out, freeCtr, pending⟩ := by
  simp only [Prod.mk.injEq] at e
  obtain ⟨c1, c2, c3, c4, c5, c6, c7, c8, c9, c10, c11, c12, c13⟩ := e
  exact h.trans ⟨c1, c2, c3, c4, c5, c6, c7, c8, c9, c10, fun x => by unfold Safety.LenWrites at *; rwa [c11], rfl, c13, .inl c12, fun t => ⟨t.regs, t.grants, t.deck, t.fns, t.tns, t.sqs, t.cqs, t.queues, t.cams, t.vcs, t.pipes, t.valves, t.rows, t.fbs, t.emus, t.axes, t.piers, t.groups, t.stays, t.camTabs, t.latches, t.sgs, t.pwms, t.stages, t.auxs, t.footings, t.cans, t.trackReuse, t.pubOn, t.pubRec, t.probeCnts⟩⟩

/-- A change of one table. -/
theorem Keeps.tab {a s t : State} (h : Keeps a s) (e : Keeps.clock t = Keeps.clock s) (e' : Safety.Tables s → Safety.Tables t) :
    Keeps a t := by
  simp only [Keeps.clock, Prod.mk.injEq] at e
  obtain ⟨c1, c2, c3, c4, c5, c6, c7, c8, c9, c10, c11, c12, c13, c14⟩ := e
  exact h.trans ⟨c1, c2, c3, c4, c5, c6, c7, c8, c9, c10, fun x => by unfold Safety.LenWrites at *; rwa [c11], c12, c14, .inl c13, e'⟩

theorem Keeps.ite {a s t : State} {c : Prop} [Decidable c] (h : Keeps a s) (k : Keeps a t) : Keeps a (if c then s else t) := by
  split <;> assumption

theorem Keeps.foldl {α : Type} {a : State} {f : State → α → State} (hf : ∀ s x, Keeps a s → Keeps a (f s x)) (l : List α) {s : State}
    (h : Keeps a s) : Keeps a (l.foldl f s) := by
  induction l generalizing s with
  | nil => exact h
  | cons x l ih => exact ih (hf s x h)

theorem Keeps.foldlFst {α β : Type} {a : State} {f : State × β → α → State × β} (hf : ∀ s b x, Keeps a s → Keeps a (f (s, b) x).1)
    (l : List α) {s : State × β} (h : Keeps a s.1) : Keeps a (l.foldl f s).1 := by
  induction l generalizing s with
  | nil => exact h
  | cons x l ih => exact ih (hf s.1 s.2 x h)

theorem Keeps.cut {a s t : State} (h : Keeps a s) (k : Keeps a s → Keeps a t) : Keeps a t := k h

theorem keeps_setFn {a s : State} (h : Keeps a s) (k : Nat) (x : Fn) : Keeps a (s.setFn k x) :=
  h.tab rfl fun t => { t with fns := storeWf_storePut _ t.fns k x }
theorem keeps_updFn {a s : State} (h : Keeps a s) (k : Nat) (f : Fn → Fn) : Keeps a (s.updFn k f) := keeps_setFn h k _
theorem keeps_setTn {a s : State} (h : Keeps a s) (k : Nat) (x : Tenant) : Keeps a (s.setTn k x) :=
  h.tab rfl fun t => { t with tns := storeWf_storePut _ t.tns k x }
theorem keeps_updTn {a s : State} (h : Keeps a s) (k : Nat) (f : Tenant → Tenant) : Keeps a (s.updTn k f) := keeps_setTn h k _
theorem keeps_setSq {a s : State} (h : Keeps a s) (k : Nat) (x : Sq) : Keeps a (s.setSq k x) :=
  h.tab rfl fun t => { t with sqs := storeWf_storePut _ t.sqs k x }
theorem keeps_updSq {a s : State} (h : Keeps a s) (k : Nat) (f : Sq → Sq) : Keeps a (s.updSq k f) := keeps_setSq h k _
theorem keeps_setCq {a s : State} (h : Keeps a s) (k : Nat) (x : Cq) : Keeps a (s.setCq k x) :=
  h.tab rfl fun t => { t with cqs := storeWf_storePut _ t.cqs k x }
theorem keeps_updCq {a s : State} (h : Keeps a s) (k : Nat) (f : Cq → Cq) : Keeps a (s.updCq k f) := keeps_setCq h k _
theorem keeps_setQueue {a s : State} (h : Keeps a s) (k : Nat) (x : Queue) : Keeps a (s.setQueue k x) :=
  h.tab rfl fun t => { t with queues := storeWf_storePut _ t.queues k x }
theorem keeps_updQueue {a s : State} (h : Keeps a s) (k : Nat) (f : Queue → Queue) : Keeps a (s.updQueue k f) := keeps_setQueue h k _
theorem keeps_setCam {a s : State} (h : Keeps a s) (k : Nat) (x : Cam) : Keeps a (s.setCam k x) :=
  h.tab rfl fun t => { t with cams := storeWf_storePut _ t.cams k x }
theorem keeps_updCam {a s : State} (h : Keeps a s) (k : Nat) (f : Cam → Cam) : Keeps a (s.updCam k f) := keeps_setCam h k _
theorem keeps_setVc {a s : State} (h : Keeps a s) (k : Nat) (x : Vc) : Keeps a (s.setVc k x) :=
  h.tab rfl fun t => { t with vcs := storeWf_storePut _ t.vcs k x }
theorem keeps_updVc {a s : State} (h : Keeps a s) (k : Nat) (f : Vc → Vc) : Keeps a (s.updVc k f) := keeps_setVc h k _
theorem keeps_setPipe {a s : State} (h : Keeps a s) (k : Nat) (x : Pipe) : Keeps a (s.setPipe k x) :=
  h.tab rfl fun t => { t with pipes := storeWf_storePut _ t.pipes k x }
theorem keeps_updPipe {a s : State} (h : Keeps a s) (k : Nat) (f : Pipe → Pipe) : Keeps a (s.updPipe k f) := keeps_setPipe h k _
theorem keeps_setValve {a s : State} (h : Keeps a s) (k : Nat) (x : Valve) : Keeps a (s.setValve k x) :=
  h.tab rfl fun t => { t with valves := storeWf_storePut _ t.valves k x }
theorem keeps_updValve {a s : State} (h : Keeps a s) (k : Nat) (f : Valve → Valve) : Keeps a (s.updValve k f) := keeps_setValve h k _
theorem keeps_setRow {a s : State} (h : Keeps a s) (k : Nat) (x : NozzleRow) : Keeps a (s.setRow k x) :=
  h.tab rfl fun t => { t with rows := storeWf_storePut _ t.rows k x }
theorem keeps_updRow {a s : State} (h : Keeps a s) (k : Nat) (f : NozzleRow → NozzleRow) : Keeps a (s.updRow k f) := keeps_setRow h k _
theorem keeps_setFb {a s : State} (h : Keeps a s) (k : Nat) (x : Fb) : Keeps a (s.setFb k x) :=
  h.tab rfl fun t => { t with fbs := storeWf_storePut _ t.fbs k x }
theorem keeps_updFb {a s : State} (h : Keeps a s) (k : Nat) (f : Fb → Fb) : Keeps a (s.updFb k f) := keeps_setFb h k _
theorem keeps_setEmu {a s : State} (h : Keeps a s) (k : Nat) (x : Emu) : Keeps a (s.setEmu k x) :=
  h.tab rfl fun t => { t with emus := storeWf_storePut _ t.emus k x }
theorem keeps_updEmu {a s : State} (h : Keeps a s) (k : Nat) (f : Emu → Emu) : Keeps a (s.updEmu k f) := keeps_setEmu h k _
theorem keeps_setAxis {a s : State} (h : Keeps a s) (k : Nat) (x : Axis) : Keeps a (s.setAxis k x) :=
  h.tab rfl fun t => { t with axes := storeWf_storePut _ t.axes k x }
theorem keeps_updAxis {a s : State} (h : Keeps a s) (k : Nat) (f : Axis → Axis) : Keeps a (s.updAxis k f) := keeps_setAxis h k _
theorem keeps_setPier {a s : State} (h : Keeps a s) (k : Nat) (x : Pier) : Keeps a (s.setPier k x) :=
  h.tab rfl fun t => { t with piers := storeWf_storePut _ t.piers k x }
theorem keeps_updPier {a s : State} (h : Keeps a s) (k : Nat) (f : Pier → Pier) : Keeps a (s.updPier k f) := keeps_setPier h k _
theorem keeps_setGroup {a s : State} (h : Keeps a s) (k : Nat) (x : Group) : Keeps a (s.setGroup k x) :=
  h.tab rfl fun t => { t with groups := storeWf_storePut _ t.groups k x }
theorem keeps_updGroup {a s : State} (h : Keeps a s) (k : Nat) (f : Group → Group) : Keeps a (s.updGroup k f) := keeps_setGroup h k _
theorem keeps_setStay {a s : State} (h : Keeps a s) (k : Nat) (x : Stay) : Keeps a (s.setStay k x) :=
  h.tab rfl fun t => { t with stays := storeWf_storePut _ t.stays k x }
theorem keeps_updStay {a s : State} (h : Keeps a s) (k : Nat) (f : Stay → Stay) : Keeps a (s.updStay k f) := keeps_setStay h k _
theorem keeps_setCamTab {a s : State} (h : Keeps a s) (k : Nat) (x : CamTab) : Keeps a (s.setCamTab k x) :=
  h.tab rfl fun t => { t with camTabs := storeWf_storePut _ t.camTabs k x }
theorem keeps_updCamTab {a s : State} (h : Keeps a s) (k : Nat) (f : CamTab → CamTab) : Keeps a (s.updCamTab k f) := keeps_setCamTab h k _
theorem keeps_setLatch {a s : State} (h : Keeps a s) (k : Nat) (x : Latch) : Keeps a (s.setLatch k x) :=
  h.tab rfl fun t => { t with latches := storeWf_storePut _ t.latches k x }
theorem keeps_updLatch {a s : State} (h : Keeps a s) (k : Nat) (f : Latch → Latch) : Keeps a (s.updLatch k f) := keeps_setLatch h k _
theorem keeps_setSg {a s : State} (h : Keeps a s) (k : Nat) (x : Sg) : Keeps a (s.setSg k x) :=
  h.tab rfl fun t => { t with sgs := storeWf_storePut _ t.sgs k x }
theorem keeps_updSg {a s : State} (h : Keeps a s) (k : Nat) (f : Sg → Sg) : Keeps a (s.updSg k f) := keeps_setSg h k _
theorem keeps_setPwm {a s : State} (h : Keeps a s) (k : Nat) (x : Pwm) : Keeps a (s.setPwm k x) :=
  h.tab rfl fun t => { t with pwms := storeWf_storePut _ t.pwms k x }
theorem keeps_updPwm {a s : State} (h : Keeps a s) (k : Nat) (f : Pwm → Pwm) : Keeps a (s.updPwm k f) := keeps_setPwm h k _
theorem keeps_setStage {a s : State} (h : Keeps a s) (k : Nat) (x : Stage) : Keeps a (s.setStage k x) :=
  h.tab rfl fun t => { t with stages := storeWf_storePut _ t.stages k x }
theorem keeps_updStage {a s : State} (h : Keeps a s) (k : Nat) (f : Stage → Stage) : Keeps a (s.updStage k f) := keeps_setStage h k _
theorem keeps_setAux {a s : State} (h : Keeps a s) (k : Nat) (x : Aux) : Keeps a (s.setAux k x) :=
  h.tab rfl fun t => { t with auxs := storeWf_storePut _ t.auxs k x }
theorem keeps_updAux {a s : State} (h : Keeps a s) (k : Nat) (f : Aux → Aux) : Keeps a (s.updAux k f) := keeps_setAux h k _
theorem keeps_setFooting {a s : State} (h : Keeps a s) (k : Nat) (x : Footing) : Keeps a (s.setFooting k x) :=
  h.tab rfl fun t => { t with footings := storeWf_storePut _ t.footings k x }
theorem keeps_updFooting {a s : State} (h : Keeps a s) (k : Nat) (f : Footing → Footing) : Keeps a (s.updFooting k f) := keeps_setFooting h k _
theorem keeps_setCan {a s : State} (h : Keeps a s) (k : Nat) (x : Can) : Keeps a (s.setCan k x) :=
  h.tab rfl fun t => { t with cans := storeWf_storePut _ t.cans k x }
theorem keeps_updCan {a s : State} (h : Keeps a s) (k : Nat) (f : Can → Can) : Keeps a (s.updCan k f) := keeps_setCan h k _
theorem Keeps.put_deck {a s : State} (h : Keeps a s) (k : Nat) (v : Byte) : Keeps a { s with deck := storePut Memory.blank s.deck k v } :=
  h.tab rfl fun t => { t with deck := storeWf_storePut _ t.deck k v }
theorem Keeps.put_trackReuse {a s : State} (h : Keeps a s) (k : Nat) (v : Nat) : Keeps a { s with trackReuse := storePut (fun _ => 0) s.trackReuse k v } :=
  h.tab rfl fun t => { t with trackReuse := storeWf_storePut _ t.trackReuse k v }
theorem Keeps.put_pubOn {a s : State} (h : Keeps a s) (k : Nat) (v : Bool) : Keeps a { s with pubOn := storePut (fun _ => false) s.pubOn k v } :=
  h.tab rfl fun t => { t with pubOn := storeWf_storePut _ t.pubOn k v }
theorem Keeps.put_pubRec {a s : State} (h : Keeps a s) (k : Nat) (v : PubRec) : Keeps a { s with pubRec := storePut (fun _ => PubRec.reset) s.pubRec k v } :=
  h.tab rfl fun t => { t with pubRec := storeWf_storePut _ t.pubRec k v }
theorem Keeps.put_probeCnts {a s : State} (h : Keeps a s) (k : Nat) (v : Nat) : Keeps a { s with probeCnts := storePut (fun _ => 0) s.probeCnts k v } :=
  h.tab rfl fun t => { t with probeCnts := storeWf_storePut _ t.probeCnts k v }
theorem Keeps.filter_fns {a s : State} (h : Keeps a s) (p) : Keeps a { s with fns := s.fns.filter p } :=
  h.tab rfl fun t => { t with fns := storeWf_filter _ p t.fns }
theorem Keeps.filter_pubOn {a s : State} (h : Keeps a s) (p) : Keeps a { s with pubOn := s.pubOn.filter p } :=
  h.tab rfl fun t => { t with pubOn := storeWf_filter _ p t.pubOn }
theorem keeps_wr {a s : State} (h : Keeps a s) (k v : Nat) : Keeps a (s.wr k v) :=
  h.tab rfl fun t => { t with regs := storeWf_storePut _ t.regs k _ }
theorem keeps_setFld {a s : State} (h : Keeps a s) (k lo n v : Nat) : Keeps a (s.setFld k lo n v) := keeps_wr h k _

end Sys2Proof.Machine
end

