-- ==== Sys2Proof/Laws/KeepsOps.lean ====
section
/-!
SUPPORT. One lemma for each definition of Machine/Ops.lean that answers a state: it keeps what `Keeps` says (Laws/Keeps.lean).
-/
namespace Sys2Proof.Machine
set_option Elab.async false
set_option linter.all false

theorem keeps_noteSet {s₀ s : State} (h : Keeps s₀ s) (k mask : Nat) : Keeps s₀ (noteSet s k mask) := by
  unfold noteSet
  repeat' first
    | with_reducible assumption
    | extract_lets +onlyGivenNames x
    | with_reducible apply Keeps.ite
    | split
    | with_reducible refine Keeps.upd ?_ rfl

theorem keeps_flagRaw {s₀ s : State} (h : Keeps s₀ s) (k mask : Nat) : Keeps s₀ (flagRaw s k mask) := by
  unfold flagRaw
  repeat' first
    | with_reducible assumption
    | with_reducible apply keeps_noteSet
    | with_reducible apply keeps_wr
    | (extract_lets +onlyGivenNames x; refine Keeps.cut (s := x) ?_ (fun hx => ?_); subst x; rotate_left; clear_value x)
    | extract_lets +onlyGivenNames x
    | split

theorem keeps_countN {s₀ s : State} (h : Keeps s₀ s) (k n : Nat) : Keeps s₀ (countN s k n) := by
  unfold countN
  repeat' first | with_reducible assumption | with_reducible apply keeps_wr

theorem keeps_count {s₀ s : State} (h : Keeps s₀ s) (k : Nat) : Keeps s₀ (count s k) := by
  unfold count
  repeat' first | with_reducible assumption | with_reducible apply keeps_countN

theorem keeps_send {s₀ s : State} (h : Keeps s₀ s) (p : Tlp) : Keeps s₀ (send s p) := by
  unfold send
  repeat' first
    | with_reducible assumption
    | with_reducible refine Keeps.upd ?_ rfl

theorem keeps_sendHost {s₀ s : State} (h : Keeps s₀ s) (tn : Nat) (p : Tlp) : Keeps s₀ (sendHost s tn p) := by
  unfold sendHost
  repeat' first
    | with_reducible assumption
    | with_reducible apply keeps_send
    | with_reducible apply Keeps.ite
    | split

theorem keeps_signal {s₀ s : State} (h : Keeps s₀ s) (fn v : Nat) : Keeps s₀ (signal s fn v) := by
  unfold signal
  repeat' first
    | with_reducible assumption
    | with_reducible apply keeps_setFn
    | with_reducible apply keeps_send
    | extract_lets +onlyGivenNames x
    | with_reducible apply Keeps.ite
    | split
    | with_reducible refine Keeps.upd ?_ rfl

theorem keeps_dropItem {s₀ s : State} (h : Keeps s₀ s) (tn q : Nat) (src seq time lanes : Nat) :
    Keeps s₀ (dropItem s tn q src seq time lanes) := by
  unfold dropItem
  repeat' first
    | with_reducible assumption
    | with_reducible apply keeps_count
    | with_reducible apply keeps_setQueue
    | with_reducible apply keeps_flagRaw
    | (extract_lets +onlyGivenNames x; refine Keeps.cut (s := x) ?_ (fun hx => ?_); subst x; rotate_left; clear_value x)
    | extract_lets +onlyGivenNames x
    | with_reducible apply Keeps.ite
    | split
    | with_reducible refine Keeps.upd ?_ rfl

theorem keeps_offer {s₀ s : State} (h : Keeps s₀ s) (tn q kind : Nat) (it : Offer) : Keeps s₀ (offer s tn q kind it) := by
  unfold offer
  repeat' first
    | with_reducible assumption
    | with_reducible apply keeps_count
    | with_reducible apply keeps_setQueue
    | with_reducible apply keeps_dropItem
    | (extract_lets +onlyGivenNames x; refine Keeps.cut (s := x) ?_ (fun hx => ?_); subst x; rotate_left; clear_value x)
    | extract_lets +onlyGivenNames x
    | with_reducible apply Keeps.ite
    | split
    | with_reducible refine Keeps.upd ?_ rfl

theorem keeps_offerNow {s₀ s : State} (h : Keeps s₀ s) (tn q kind src : Nat) (payload : List Byte) :
    Keeps s₀ (offerNow s tn q kind src payload) := by
  unfold offerNow
  repeat' first | with_reducible assumption | with_reducible apply keeps_offer

theorem keeps_retrace {s₀ s : State} (h : Keeps s₀ s) (tn q b k : Nat) : Keeps s₀ (retrace s tn q b k) := by
  unfold retrace
  repeat' first
    | with_reducible assumption
    | with_reducible apply keeps_updQueue
    | extract_lets +onlyGivenNames x
    | with_reducible refine Keeps.upd ?_ rfl

theorem keeps_flag {s₀ s : State} (h : Keeps s₀ s) (k mask : Nat) : Keeps s₀ (flag s k mask) := by
  unfold flag
  repeat' first
    | with_reducible assumption
    | with_reducible apply keeps_flagRaw
    | with_reducible apply keeps_offerNow
    | with_reducible apply keeps_retrace
    | (extract_lets +onlyGivenNames x; refine Keeps.cut (s := x) ?_ (fun hx => ?_); subst x; rotate_left; clear_value x)
    | extract_lets +onlyGivenNames x
    | with_reducible apply Keeps.ite
    | split
    | with_reducible refine Keeps.upd ?_ rfl

theorem keeps_flagIf {s₀ s : State} (h : Keeps s₀ s) (c : Bool) (k mask : Nat) : Keeps s₀ (flagIf s c k mask) := by
  unfold flagIf
  repeat' first
    | with_reducible assumption
    | with_reducible apply keeps_flag
    | with_reducible apply Keeps.ite
    | split

end Sys2Proof.Machine
end

