-- ==== Sys2Proof/Laws/KeepsRefs.lean ====
section
/-!
SUPPORT. One lemma for each definition of Machine/Refs.lean that answers a state: it keeps what `Keeps` says (Laws/Keeps.lean).
-/
namespace Sys2Proof.Machine
set_option Elab.async false
set_option linter.all false

theorem keeps_setRefs {s₀ s : State} (h : Keeps s₀ s) (r : Refs) : Keeps s₀ (setRefs s r) := by
  unfold setRefs
  repeat' first
    | with_reducible assumption
    | with_reducible refine Keeps.upd ?_ rfl

theorem keeps_refFlag {s₀ s : State} (h : Keeps s₀ s) (mask : Nat) : Keeps s₀ (refFlag s mask) := by
  unfold refFlag
  repeat' first | with_reducible assumption | with_reducible apply keeps_flag

theorem keeps_retarget {s₀ s : State} (h : Keeps s₀ s) (t : RefTarget) : Keeps s₀ (retarget s t) := by
  unfold retarget
  repeat' first
    | with_reducible assumption
    | with_reducible apply keeps_refFlag
    | with_reducible apply keeps_count
    | with_reducible apply keeps_setRefs
    | extract_lets +onlyGivenNames x
    | split
    | with_reducible refine Keeps.upd ?_ rfl

theorem keeps_glideStep {s₀ s : State} (h : Keeps s₀ s) : Keeps s₀ (glideStep s) := by
  unfold glideStep
  repeat' first
    | with_reducible assumption
    | with_reducible apply keeps_setRefs
    | extract_lets +onlyGivenNames x
    | with_reducible apply Keeps.ite
    | split
    | with_reducible refine Keeps.upd ?_ rfl

theorem keeps_targetLost {s₀ s : State} (h : Keeps s₀ s) : Keeps s₀ (targetLost s) := by
  unfold targetLost
  repeat' first
    | with_reducible assumption
    | with_reducible apply keeps_retarget
    | with_reducible apply keeps_setRefs
    | (extract_lets +onlyGivenNames x; refine Keeps.cut (s := x) ?_ (fun hx => ?_); subst x; rotate_left; clear_value x)
    | extract_lets +onlyGivenNames x
    | with_reducible apply Keeps.ite
    | split
    | with_reducible refine Keeps.upd ?_ rfl

theorem keeps_takeBetter {s₀ s : State} (h : Keeps s₀ s) : Keeps s₀ (takeBetter s) := by
  unfold takeBetter
  repeat' first
    | with_reducible assumption
    | with_reducible apply keeps_retarget
    | extract_lets +onlyGivenNames x
    | with_reducible apply Keeps.ite
    | split

theorem keeps_syncDrop {s₀ s : State} (h : Keeps s₀ s) : Keeps s₀ (syncDrop s).1 := by
  unfold syncDrop
  repeat' first
    | with_reducible assumption
    | with_reducible apply keeps_setRefs
    | with_reducible apply keeps_refFlag
    | (extract_lets +onlyGivenNames x; refine Keeps.cut (s := x) ?_ (fun hx => ?_); subst x; rotate_left; clear_value x)
    | extract_lets +onlyGivenNames x
    | with_reducible apply Keeps.ite
    | split
    | with_reducible refine Keeps.upd ?_ rfl

theorem keeps_ptmDrop {s₀ s : State} (h : Keeps s₀ s) : Keeps s₀ (ptmDrop s).1 := by
  unfold ptmDrop
  repeat' first
    | with_reducible assumption
    | with_reducible apply keeps_setRefs
    | with_reducible apply keeps_refFlag
    | (extract_lets +onlyGivenNames x; refine Keeps.cut (s := x) ?_ (fun hx => ?_); subst x; rotate_left; clear_value x)
    | extract_lets +onlyGivenNames x
    | with_reducible apply Keeps.ite
    | split
    | with_reducible refine Keeps.upd ?_ rfl

theorem keeps_ptmLost {s₀ s : State} (h : Keeps s₀ s) : Keeps s₀ (ptmLost s) := by
  unfold ptmLost
  repeat' first
    | with_reducible assumption
    | with_reducible apply keeps_ptmDrop
    | with_reducible apply keeps_setRefs
    | with_reducible apply keeps_targetLost
    | (extract_lets +onlyGivenNames x; refine Keeps.cut (s := x) ?_ (fun hx => ?_); subst x; rotate_left; clear_value x)
    | (extract_lets +onlyGivenNames x; refine Keeps.cut (s := Prod.fst x) ?_ (fun hx => ?_); subst x; rotate_left; clear_value x)
    | extract_lets +onlyGivenNames x
    | with_reducible apply Keeps.ite
    | split
    | with_reducible refine Keeps.upd ?_ rfl

theorem keeps_syncTest {s₀ s : State} (h : Keeps s₀ s) : Keeps s₀ (syncTest s).1 := by
  unfold syncTest
  repeat' first
    | with_reducible assumption
    | with_reducible apply keeps_syncEdge
    | with_reducible apply keeps_setRefs
    | extract_lets +onlyGivenNames x
    | with_reducible apply Keeps.ite
    | split
    | with_reducible refine Keeps.upd ?_ rfl

theorem keeps_ptmTest {s₀ s : State} (h : Keeps s₀ s) (len : Nat) : Keeps s₀ (ptmTest s len) := by
  unfold ptmTest
  repeat' first
    | with_reducible assumption
    | with_reducible apply keeps_setRefs
    | extract_lets +onlyGivenNames x
    | with_reducible apply Keeps.ite
    | split
    | with_reducible refine Keeps.upd ?_ rfl

theorem keeps_qualify {s₀ s : State} (h : Keeps s₀ s) : Keeps s₀ (qualify s) := by
  unfold qualify
  repeat' first
    | with_reducible assumption
    | with_reducible apply keeps_setRefs
    | extract_lets +onlyGivenNames x
    | with_reducible apply Keeps.ite
    | split
    | with_reducible refine Keeps.upd ?_ rfl

theorem keeps_refsBoundary {s₀ s : State} (h : Keeps s₀ s) (len : Nat) (changed : Bool) :
    Keeps s₀ (refsBoundary s len changed) := by
  unfold refsBoundary
  repeat' first
    | with_reducible assumption
    | with_reducible apply keeps_setRefs
    | with_reducible apply keeps_qualify
    | with_reducible apply keeps_syncTest
    | with_reducible apply keeps_ptmTest
    | with_reducible apply keeps_syncDrop
    | with_reducible apply keeps_ptmDrop
    | with_reducible apply keeps_targetLost
    | with_reducible apply keeps_takeBetter
    | with_reducible apply keeps_glideStep
    | (extract_lets +onlyGivenNames x; refine Keeps.cut (s := x) ?_ (fun hx => ?_); subst x; rotate_left; clear_value x)
    | (extract_lets +onlyGivenNames x; refine Keeps.cut (s := Prod.fst x) ?_ (fun hx => ?_); subst x; rotate_left; clear_value x)
    | extract_lets +onlyGivenNames x
    | with_reducible apply Keeps.ite
    | split
    | with_reducible refine Keeps.upd ?_ rfl

theorem keeps_syncEdge {s₀ s : State} (h : Keeps s₀ s) (t64 : Nat) (y : Int) : Keeps s₀ (syncEdge s t64 y) := by
  unfold syncEdge
  repeat' first
    | with_reducible assumption
    | with_reducible apply keeps_refFlag
    | with_reducible apply keeps_setRefs
    | extract_lets +onlyGivenNames x
    | with_reducible apply Keeps.ite
    | split
    | with_reducible refine Keeps.upd ?_ rfl

end Sys2Proof.Machine
end

