-- ==== Sys2Proof/Laws/KeepsComplete.lean ====
section
/-!
SUPPORT. One lemma for each definition of Machine/Complete.lean that answers a state: it keeps what `Keeps` says (Laws/Keeps.lean).
-/
namespace Sys2Proof.Machine
set_option Elab.async false
set_option linter.all false

theorem keeps_signalCq {s₀ s : State} (h : Keeps s₀ s) (tn n : Nat) : Keeps s₀ (signalCq s tn n) := by
  unfold signalCq
  repeat' first
    | with_reducible assumption
    | with_reducible apply keeps_updCq
    | with_reducible apply keeps_signal
    | (extract_lets +onlyGivenNames x; refine Keeps.cut (s := x) ?_ (fun hx => ?_); subst x; rotate_left; clear_value x)
    | extract_lets +onlyGivenNames x
    | split
    | with_reducible refine Keeps.upd ?_ rfl

theorem keeps_ringErr {s₀ s : State} (h : Keeps s₀ s) (tn cq k cause : Nat) : Keeps s₀ (ringErr s tn cq k cause) := by
  unfold ringErr
  repeat' first
    | with_reducible assumption
    | with_reducible apply keeps_setFld
    | with_reducible apply keeps_flagRaw
    | with_reducible apply keeps_signal
    | (extract_lets +onlyGivenNames x; refine Keeps.cut (s := x) ?_ (fun hx => ?_); subst x; rotate_left; clear_value x)
    | extract_lets +onlyGivenNames x
    | with_reducible apply Keeps.ite
    | split

theorem keeps_sqErr {s₀ s : State} (h : Keeps s₀ s) (tn n cause : Nat) : Keeps s₀ (sqErr s tn n cause) := by
  unfold sqErr
  repeat' first | with_reducible assumption | with_reducible apply keeps_ringErr

theorem keeps_cqErr {s₀ s : State} (h : Keeps s₀ s) (tn n cause : Nat) : Keeps s₀ (cqErr s tn n cause) := by
  unfold cqErr
  repeat' first | with_reducible assumption | with_reducible apply keeps_ringErr

theorem keeps_writeEntry {s₀ s : State} (h : Keeps s₀ s) (j : Job) (interim : Bool) (status res tu late : Nat) :
    Keeps s₀ (writeEntry s j interim status res tu late) := by
  unfold writeEntry
  repeat' first
    | with_reducible assumption
    | with_reducible apply keeps_send
    | with_reducible apply keeps_interim
    | with_reducible apply keeps_setCq
    | with_reducible apply keeps_signalCq
    | (extract_lets +onlyGivenNames x; refine Keeps.cut (s := x) ?_ (fun hx => ?_); subst x; rotate_left; clear_value x)
    | extract_lets +onlyGivenNames x
    | with_reducible apply Keeps.ite
    | split
    | with_reducible refine Keeps.upd ?_ rfl

theorem keeps_unreserve {s₀ s : State} (h : Keeps s₀ s) (j : Job) : Keeps s₀ (unreserve s j) := by
  unfold unreserve
  repeat' first
    | with_reducible assumption
    | with_reducible apply keeps_updCq
    | with_reducible apply Keeps.ite
    | split
    | with_reducible refine Keeps.upd ?_ rfl

theorem keeps_countStatus {s₀ s : State} (h : Keeps s₀ s) (tn status : Nat) : Keeps s₀ (countStatus s tn status) := by
  unfold countStatus
  repeat' first
    | with_reducible assumption
    | with_reducible apply keeps_flag
    | with_reducible apply keeps_count
    | with_reducible apply Keeps.ite
    | split

theorem keeps_dropJob {s₀ s : State} (h : Keeps s₀ s) (id : Nat) : Keeps s₀ (dropJob s id) := by
  unfold dropJob
  repeat' first
    | with_reducible assumption
    | with_reducible refine Keeps.upd ?_ rfl

theorem keeps_complete {s₀ s : State} (h : Keeps s₀ s) (j : Job) (status res : Nat) : Keeps s₀ (complete s j status res) := by
  unfold complete
  repeat' first
    | with_reducible assumption
    | with_reducible apply keeps_dropJob
    | with_reducible apply keeps_countStatus
    | with_reducible apply keeps_unreserve
    | with_reducible apply keeps_count
    | with_reducible apply keeps_writeEntry
    | (extract_lets +onlyGivenNames x; refine Keeps.cut (s := x) ?_ (fun hx => ?_); subst x; rotate_left; clear_value x)
    | extract_lets +onlyGivenNames x
    | with_reducible apply Keeps.ite
    | split

theorem keeps_interim {s₀ s : State} (h : Keeps s₀ s) (j : Job) : Keeps s₀ (interim s j) := by
  unfold interim
  repeat' first
    | with_reducible assumption
    | with_reducible apply keeps_count
    | with_reducible apply keeps_flagRaw
    | with_reducible apply keeps_writeEntry
    | extract_lets +onlyGivenNames x
    | with_reducible apply Keeps.ite
    | split

theorem keeps_keep {s₀ s : State} (h : Keeps s₀ s) (j : Job) : Keeps s₀ (keep s j) := by
  unfold keep
  repeat' first
    | with_reducible assumption
    | extract_lets +onlyGivenNames x
    | with_reducible apply Keeps.ite
    | split
    | with_reducible refine Keeps.upd ?_ rfl

theorem keeps_keepLast {s₀ s : State} (h : Keeps s₀ s) (j : Job) : Keeps s₀ (keepLast s j) := by
  unfold keepLast
  repeat' first
    | with_reducible assumption
    | with_reducible apply keeps_keep
    | with_reducible apply keeps_dropJob

theorem keeps_updJob {s₀ s : State} (h : Keeps s₀ s) (id : Nat) (f : Job → Job) : Keeps s₀ (updJob s id f) := by
  unfold updJob
  repeat' first
    | with_reducible assumption
    | with_reducible refine Keeps.upd ?_ rfl

theorem keeps_takeJob {s₀ s : State} (h : Keeps s₀ s) (d : Desc) : Keeps s₀ (takeJob s d).1 := by
  unfold takeJob
  repeat' first
    | with_reducible assumption
    | with_reducible apply keeps_updCq
    | (extract_lets +onlyGivenNames x; refine Keeps.cut (s := x) ?_ (fun hx => ?_); subst x; rotate_left; clear_value x)
    | extract_lets +onlyGivenNames x
    | split
    | with_reducible refine Keeps.upd ?_ rfl

theorem keeps_ringReset {s₀ s : State} (h : Keeps s₀ s) (tn : Nat) : Keeps s₀ (ringReset s tn) := by
  unfold ringReset
  repeat' first
    | with_reducible assumption
    | with_reducible apply keeps_setFld
    | with_reducible apply keeps_setSq
    | with_reducible apply keeps_updTn
    | with_reducible apply keeps_setCq
    | (with_reducible apply Keeps.foldl; intro s x hs)
    | (extract_lets +onlyGivenNames x; refine Keeps.cut (s := x) ?_ (fun hx => ?_); subst x; rotate_left; clear_value x)
    | extract_lets +onlyGivenNames x
    | split
    | with_reducible refine Keeps.upd ?_ rfl

end Sys2Proof.Machine
end

