-- ==== Sys2Proof/Laws/KeepsPlan.lean ====
section
/-!
SUPPORT. One lemma for each definition of Machine/Plan.lean that answers a state: it keeps what `Keeps` says (Laws/Keeps.lean).
-/
namespace Sys2Proof.Machine
set_option Elab.async false
set_option linter.all false

theorem keeps_dmaDegrade {s₀ s : State} (h : Keeps s₀ s) : Keeps s₀ (dmaDegrade s) := by
  unfold dmaDegrade
  repeat' first
    | with_reducible assumption
    | with_reducible apply keeps_flag
    | extract_lets +onlyGivenNames x
    | with_reducible apply Keeps.ite
    | split
    | with_reducible refine Keeps.upd ?_ rfl

theorem keeps_planG {s₀ s : State} (h : Keeps s₀ s) (t : Nat) (more : List (List Nat)) (spare : List Nat) :
    Keeps s₀ (planG s t more spare).1 := by
  unfold planG
  repeat' first
    | with_reducible assumption
    | (extract_lets +onlyGivenNames x; refine Keeps.cut (s := Prod.fst x) ?_ (fun hx => ?_); subst x; rotate_left; clear_value x)
    | extract_lets +onlyGivenNames x
    | split
    | with_reducible refine Keeps.upd ?_ rfl

theorem keeps_planNow {s₀ s : State} (h : Keeps s₀ s) (j : Job) : Keeps s₀ (planNow s j) := by
  unfold planNow
  repeat' first
    | with_reducible assumption
    | with_reducible apply keeps_planG
    | with_reducible apply Keeps.ite
    | split

theorem keeps_runOp (s : State) (t op : Nat) (d : Desc) (check : State → Desc → Verdict) {eff : State → Job → State}
    (he : ∀ s₀ s j, Keeps s₀ s → Keeps s₀ (eff s j)) : Keeps (advance s t) (runOp s t op d check eff) := by
  unfold runOp
  generalize advance s t = s
  have h := keeps_takeJob (Keeps.refl s) { d with op := BitVec.ofNat 8 op }
  dsimp only
  split
  · exact keeps_complete h _ _ _
  · exact keeps_planNow (he _ _ _ h) _

theorem keeps_andDone {f : State → Desc → State} (hf : ∀ s₀ s d, Keeps s₀ s → Keeps s₀ (f s d)) (s₀ s : State) (j : Job) (h : Keeps s₀ s) :
    Keeps s₀ (andDone f s j) := keeps_complete (hf _ _ _ h) _ _ _

theorem keeps_setDef {s₀ s : State} (h : Keeps s₀ s) (t : Nat) (d : List Nat) : Keeps s₀ (setDef s t d) := by
  unfold setDef
  repeat' first
    | with_reducible assumption
    | extract_lets +onlyGivenNames x
    | with_reducible apply Keeps.ite
    | split
    | with_reducible refine Keeps.upd ?_ rfl

theorem keeps_eTurn {s₀ s : State} (h : Keeps s₀ s) (espare spare : List Nat) (t : Nat) :
    Keeps s₀ (eTurn s espare spare t).1 := by
  unfold eTurn
  repeat' first
    | with_reducible assumption
    | with_reducible apply keeps_setDef
    | (extract_lets +onlyGivenNames x; refine Keeps.cut (s := Prod.fst x) ?_ (fun hx => ?_); subst x; rotate_left; clear_value x)
    | extract_lets +onlyGivenNames x
    | with_reducible apply Keeps.ite
    | split
    | with_reducible refine Keeps.upd ?_ rfl

theorem keeps_eRound {s₀ : State} (ts : List Nat) {x : State × List Nat × List Nat} (h : Keeps s₀ x.1) : Keeps s₀ (eRound ts x).1 := by
  unfold eRound
  apply Keeps.foldlFst _ _ h
  intro s b x hs
  exact keeps_eTurn hs _ _ _
theorem keeps_eRounds {s₀ : State} (ts : List Nat) (n : Nat) {x : State × List Nat × List Nat} (h : Keeps s₀ x.1) :
    Keeps s₀ (eRounds ts n x).1 := by
  induction n generalizing x with
  | zero => exact h
  | succ n ih =>
    unfold eRounds
    dsimp only
    split
    · exact ih (keeps_eRound ts h)
    · exact keeps_eRound ts h
theorem keeps_bPasses {s₀ s : State} (h : Keeps s₀ s) (ts : List Nat) (n : Nat) (spare : List Nat) : Keeps s₀ (bPasses ts n s spare) := by
  induction n generalizing s spare with
  | zero => exact h
  | succ n ih =>
    unfold bPasses
    dsimp only
    have hr : ∀ x : State × List Nat × Bool, Keeps s₀ x.1 → Keeps s₀ (ts.foldl (fun (x : State × List Nat × Bool) t =>
      match planHead (selB s.tb.spanIx t) ([x.2.1], []) x.1.jobs with
      | some (js, b) => ({ x.1 with jobs := js }, b.1.headD [], true)
      | none => x) x).1 := by
      intro x hx
      refine Keeps.foldlFst (fun s b y hs => ?_) _ hx
      split
      · exact Keeps.upd hs rfl
      · exact hs
    split
    · exact ih (hr _ h) _
    · exact hr _ h

theorem keeps_carryOver {s₀ s : State} (h : Keeps s₀ s) : Keeps s₀ (carryOver s) := by
  unfold carryOver
  repeat' first
    | with_reducible assumption
    | with_reducible apply keeps_flag
    | with_reducible apply keeps_countN
    | (with_reducible apply Keeps.foldl; intro s x hs)
    | (extract_lets +onlyGivenNames x; refine Keeps.cut (s := x) ?_ (fun hx => ?_); subst x; rotate_left; clear_value x)
    | (extract_lets +onlyGivenNames x; refine Keeps.cut (s := Prod.fst x) ?_ (fun hx => ?_); subst x; rotate_left; clear_value x)
    | extract_lets +onlyGivenNames x
    | with_reducible apply Keeps.ite
    | split
    | with_reducible refine Keeps.upd ?_ rfl

theorem keeps_deferOne {s₀ s : State} (h : Keeps s₀ s) (j : Job) : Keeps s₀ (deferOne s j) := by
  unfold deferOne
  repeat' first
    | with_reducible assumption
    | with_reducible apply keeps_updJob
    | with_reducible apply keeps_interim
    | with_reducible apply keeps_count
    | (extract_lets +onlyGivenNames x; refine Keeps.cut (s := x) ?_ (fun hx => ?_); subst x; rotate_left; clear_value x)
    | extract_lets +onlyGivenNames x
    | with_reducible apply Keeps.ite
    | split
    | with_reducible refine Keeps.upd ?_ rfl

theorem keeps_planSpan {s₀ s : State} (h : Keeps s₀ s) : Keeps s₀ (planSpan s) := by
  unfold planSpan
  have h1 : Keeps s₀ { s with ks := { s.ks with gUsed := [] } } := Keeps.upd h rfl
  revert h1
  generalize { s with ks := { s.ks with gUsed := [] } } = s1
  intro h1
  extract_lets s0 spare g s2 spare2 espare ts e src ksrc s3 tb s4
  have hg : Keeps s₀ g.1 := Keeps.foldlFst (fun s b x hs => keeps_planG hs _ _ _) _ h1
  have he : Keeps s₀ e.1 := keeps_eRounds _ _ hg
  have h3 : Keeps s₀ s3 := Keeps.upd he rfl
  have h4 : Keeps s₀ s4 := by
    show Keeps s₀ (if _ then _ else _)
    exact Keeps.ite h3 (keeps_bPasses h3 _ _ _)
  exact Keeps.foldl (fun s x hs => keeps_deferOne hs x) _ h4

end Sys2Proof.Machine
end

