-- ==== Sys2Proof/Laws/KeepsQueues.lean ====
section
/-!
SUPPORT. One lemma for each definition of Machine/Queues.lean that answers a state: it keeps what `Keeps` says (Laws/Keeps.lean).
-/
namespace Sys2Proof.Machine
set_option Elab.async false
set_option linter.all false

theorem keeps_deckEcc {s₀ s : State} (h : Keeps s₀ s) (scrubber : Bool) (e : Ecc) (page word : Nat) :
    Keeps s₀ (deckEcc s scrubber e page word) := by
  unfold deckEcc
  repeat' first
    | with_reducible assumption
    | with_reducible apply keeps_flag
    | with_reducible apply keeps_count
    | with_reducible apply keeps_noteSet
    | with_reducible apply keeps_wr
    | (extract_lets +onlyGivenNames x; refine Keeps.cut (s := x) ?_ (fun hx => ?_); subst x; rotate_left; clear_value x)
    | extract_lets +onlyGivenNames x
    | with_reducible apply Keeps.ite
    | split
    | with_reducible refine Keeps.upd ?_ rfl

theorem keeps_deckErrs {s₀ s : State} (h : Keeps s₀ s) (errs : List DeckErr) : Keeps s₀ (deckErrs s errs) := by
  unfold deckErrs
  repeat' first
    | with_reducible assumption
    | with_reducible apply keeps_deckEcc
    | (with_reducible apply Keeps.foldl; intro s x hs)
    | with_reducible apply Keeps.ite
    | split

theorem keeps_flushQueue {s₀ s : State} (h : Keeps s₀ s) (tn q : Nat) (mark : Bool) : Keeps s₀ (flushQueue s tn q mark) := by
  unfold flushQueue
  repeat' first
    | with_reducible assumption
    | with_reducible apply keeps_setQueue
    | with_reducible apply keeps_complete
    | with_reducible apply keeps_flagRaw
    | with_reducible apply keeps_count
    | (with_reducible apply Keeps.foldl; intro s x hs)
    | (extract_lets +onlyGivenNames x; refine Keeps.cut (s := x) ?_ (fun hx => ?_); subst x; rotate_left; clear_value x)
    | extract_lets +onlyGivenNames x
    | with_reducible apply Keeps.ite
    | split
    | with_reducible refine Keeps.upd ?_ rfl

theorem keeps_writeQCfg {s₀ s : State} (h : Keeps s₀ s) (tn q w : Nat) : Keeps s₀ (writeQCfg s tn q w) := by
  unfold writeQCfg
  repeat' first
    | with_reducible assumption
    | with_reducible apply keeps_flagRaw
    | with_reducible apply keeps_flushQueue
    | with_reducible apply keeps_wr
    | (extract_lets +onlyGivenNames x; refine Keeps.cut (s := Prod.fst x) ?_ (fun hx => ?_); subst x; rotate_left; clear_value x)
    | extract_lets +onlyGivenNames x
    | with_reducible apply Keeps.ite
    | split

theorem keeps_queueReadNext {s₀ s : State} (h : Keeps s₀ s) (j : Job) : Keeps s₀ (queueReadNext s j) := by
  unfold queueReadNext
  repeat' first
    | with_reducible assumption
    | with_reducible apply keeps_complete
    | with_reducible apply keeps_keep
    | (extract_lets +onlyGivenNames x; refine Keeps.cut (s := Prod.fst x) ?_ (fun hx => ?_); subst x; rotate_left; clear_value x)
    | extract_lets +onlyGivenNames x
    | with_reducible apply Keeps.ite
    | split
    | with_reducible refine Keeps.upd ?_ rfl

theorem keeps_queueReadStart {s₀ s : State} (h : Keeps s₀ s) (j : Job) : Keeps s₀ (queueReadStart s j) := by
  unfold queueReadStart
  repeat' first
    | with_reducible assumption
    | with_reducible apply keeps_queueReadNext
    | with_reducible refine Keeps.upd ?_ rfl

theorem keeps_queueReadSlice {s₀ s : State} (h : Keeps s₀ s) (j : Job) (r : SliceResult) : Keeps s₀ (queueReadSlice s j r) := by
  unfold queueReadSlice
  repeat' first
    | with_reducible assumption
    | with_reducible apply keeps_sendHost
    | with_reducible apply keeps_setQueue
    | with_reducible apply keeps_keep
    | with_reducible apply keeps_queueReadNext
    | (extract_lets +onlyGivenNames x; refine Keeps.cut (s := x) ?_ (fun hx => ?_); subst x; rotate_left; clear_value x)
    | (extract_lets +onlyGivenNames x; refine Keeps.cut (s := Prod.fst x) ?_ (fun hx => ?_); subst x; rotate_left; clear_value x)
    | extract_lets +onlyGivenNames x
    | with_reducible apply Keeps.ite
    | split
    | with_reducible refine Keeps.upd ?_ rfl

theorem keeps_updQ {s₀ s : State} (h : Keeps s₀ s) (d : Desc) (f : Queue → Queue) : Keeps s₀ (updQ s d f) := by
  unfold updQ
  repeat' first | with_reducible assumption | with_reducible apply keeps_updQueue

theorem keeps_doQueueMark {s₀ s : State} (h : Keeps s₀ s) (d : Desc) : Keeps s₀ (doQueueMark s d) := by
  unfold doQueueMark
  repeat' first
    | with_reducible assumption
    | with_reducible apply keeps_updQ
    | with_reducible refine Keeps.upd ?_ rfl

theorem keeps_doQueueRewind {s₀ s : State} (h : Keeps s₀ s) (d : Desc) : Keeps s₀ (doQueueRewind s d) := by
  unfold doQueueRewind
  repeat' first
    | with_reducible assumption
    | with_reducible apply keeps_updQ
    | with_reducible refine Keeps.upd ?_ rfl

theorem keeps_doQueueRelease {s₀ s : State} (h : Keeps s₀ s) (d : Desc) : Keeps s₀ (doQueueRelease s d) := by
  unfold doQueueRelease
  repeat' first
    | with_reducible assumption
    | with_reducible apply keeps_updQ
    | with_reducible refine Keeps.upd ?_ rfl

theorem keeps_doQueueFlush {s₀ s : State} (h : Keeps s₀ s) (d : Desc) : Keeps s₀ (doQueueFlush s d) := by
  unfold doQueueFlush
  repeat' first | with_reducible assumption | with_reducible apply keeps_flushQueue

end Sys2Proof.Machine
end

