-- ==== Sys2Proof/Laws/KeepsLatches.lean ====
section
/-!
SUPPORT. One lemma for each definition of Machine/Latches.lean that answers a state: it keeps what `Keeps` says (Laws/Keeps.lean).
-/
namespace Sys2Proof.Machine
set_option Elab.async false
set_option linter.all false

theorem Latch.take_ne (l : Latch) (x time seq : Nat) (h : l ≠ Latch.reset) : l.take x time seq ≠ Latch.reset := by
  unfold Latch.take
  split
  · exact h
  · dsimp only
    generalize (if l.spanOf = x then l else { l with spanOf := x, inSpan := 0 }) = l
    split <;> intro e
    · have := congrArg Latch.lost e
      simp [Latch.reset] at this
    · have := congrArg Latch.events e
      simp [Latch.reset] at this
theorem keeps_latchEvent {s₀ s : State} (h : Keeps s₀ s) (kinds : List Nat) (index time seq : Nat) :
    Keeps s₀ (latchEvent s kinds index time seq) := by
  let f : Nat → Latch → Latch := fun _ l => if kinds.contains l.kind && l.index == index then l.take s.tb.spanIx time seq else l
  have e : latchEvent s kinds index time seq = { s with latches := s.latches.map fun x => (x.1, f x.1 x.2) } := by
    unfold latchEvent
    congr 1
    apply List.map_congr_left
    intro x _
    dsimp only [f]
    split <;> rfl
  rw [e]
  refine h.tab rfl fun t => { t with latches := storeWf_mapVal _ f (fun k v hv => ?_) t.latches }
  dsimp only [f]
  split
  · exact Latch.take_ne _ _ _ _ hv
  · exact hv

theorem keeps_latchCapture {s₀ s : State} (h : Keeps s₀ s) (k : Nat) (time seq : Nat) (pos : Int) (extrap : Bool) :
    Keeps s₀ (latchCapture s k time seq pos extrap) := by
  unfold latchCapture
  repeat' first
    | with_reducible assumption
    | with_reducible apply keeps_offer
    | with_reducible apply keeps_setLatch
    | with_reducible apply keeps_complete
    | with_reducible apply keeps_updLatch
    | (extract_lets +onlyGivenNames x; refine Keeps.cut (s := x) ?_ (fun hx => ?_); subst x; rotate_left; clear_value x)
    | extract_lets +onlyGivenNames x
    | with_reducible apply Keeps.ite
    | split
    | with_reducible refine Keeps.upd ?_ rfl

theorem keeps_latchSlot {s₀ s : State} (h : Keeps s₀ s) (k snap : Nat) : Keeps s₀ (latchSlot s k snap) := by
  unfold latchSlot
  repeat' first
    | with_reducible assumption
    | with_reducible apply keeps_latchCapture
    | with_reducible apply keeps_updLatch
    | with_reducible apply keeps_setLatch
    | (with_reducible apply Keeps.foldl; intro s x hs)
    | (extract_lets +onlyGivenNames x; refine Keeps.cut (s := Prod.fst x) ?_ (fun hx => ?_); subst x; rotate_left; clear_value x)
    | extract_lets +onlyGivenNames x
    | with_reducible apply Keeps.ite
    | split
    | with_reducible refine Keeps.upd ?_ rfl

theorem keeps_latchesOf {s₀ s : State} (h : Keeps s₀ s) (n snap : Nat) : Keeps s₀ (latchesOf s n snap) := by
  unfold latchesOf
  repeat' first
    | with_reducible assumption
    | with_reducible apply keeps_latchSlot
    | (with_reducible apply Keeps.foldl; intro s x hs)

theorem keeps_disarm {s₀ s : State} (h : Keeps s₀ s) (k : Nat) : Keeps s₀ (disarm s k) := by
  unfold disarm
  repeat' first
    | with_reducible assumption
    | with_reducible apply keeps_setLatch
    | with_reducible apply keeps_complete
    | (extract_lets +onlyGivenNames x; refine Keeps.cut (s := x) ?_ (fun hx => ?_); subst x; rotate_left; clear_value x)
    | extract_lets +onlyGivenNames x
    | split
    | with_reducible refine Keeps.upd ?_ rfl

theorem keeps_latchArm {s₀ s : State} (h : Keeps s₀ s) (j : Job) : Keeps s₀ (latchArm s j) := by
  unfold latchArm
  repeat' first
    | with_reducible assumption
    | with_reducible apply keeps_keep
    | with_reducible apply keeps_disarm
    | with_reducible apply keeps_setLatch
    | (extract_lets +onlyGivenNames x; refine Keeps.cut (s := x) ?_ (fun hx => ?_); subst x; rotate_left; clear_value x)
    | extract_lets +onlyGivenNames x
    | with_reducible apply Keeps.ite
    | split
    | with_reducible refine Keeps.upd ?_ rfl

theorem keeps_probeEdge {s₀ s : State} (h : Keeps s₀ s) (i : Nat) (rising : Bool) : Keeps s₀ (probeEdge s i rising) := by
  unfold probeEdge
  repeat' first
    | with_reducible assumption
    | with_reducible apply keeps_latchEvent
    | (extract_lets +onlyGivenNames x; refine Keeps.cut (s := x) ?_ (fun hx => ?_); subst x; rotate_left; clear_value x)
    | extract_lets +onlyGivenNames x
    | with_reducible apply Keeps.ite
    | split
    | with_reducible apply Keeps.put_probeCnts
    | with_reducible refine Keeps.upd ?_ rfl

end Sys2Proof.Machine
end

