-- ==== Sys2Proof/Laws/KeepsCameras.lean ====
section
/-!
SUPPORT. One lemma for each definition of Machine/Cameras.lean that answers a state: it keeps what `Keeps` says (Laws/Keeps.lean).
-/
namespace Sys2Proof.Machine
set_option Elab.async false
set_option linter.all false

theorem keeps_deckPut {s₀ s : State} (h : Keeps s₀ s) (a : Nat) (b : Byte) : Keeps s₀ (deckPut s a b) := by
  unfold deckPut
  repeat' first
    | with_reducible assumption
    | with_reducible apply Keeps.put_deck
    | with_reducible refine Keeps.upd ?_ rfl

theorem keeps_pagesWrite {s₀ s : State} (h : Keeps s₀ s) (tn i k : Nat) (l : List Byte) : Keeps s₀ (pagesWrite s tn i k l) := by
  induction l generalizing s k with
  | nil => exact h
  | cons b l ih =>
    unfold pagesWrite
    apply ih
    split
    · exact keeps_deckPut h _ _
    · exact h

theorem keeps_camErr {s₀ s : State} (h : Keeps s₀ s) (c : Nat) : Keeps s₀ (camErr s c) := by
  unfold camErr
  repeat' first | with_reducible assumption | with_reducible apply keeps_flag

theorem keeps_slotWrite {s₀ s : State} (h : Keeps s₀ s) (c v slot k : Nat) (bs : List Byte) :
    Keeps s₀ (slotWrite s c v slot k bs) := by
  unfold slotWrite
  repeat' first | with_reducible assumption | with_reducible apply keeps_pagesWrite

theorem keeps_slotLock {s₀ s : State} (h : Keeps s₀ s) (c v slot : Nat) (f : Nat → Nat) : Keeps s₀ (slotLock s c v slot f) := by
  unfold slotLock
  repeat' first
    | with_reducible assumption
    | with_reducible apply keeps_updVc
    | with_reducible refine Keeps.upd ?_ rfl

theorem keeps_camOff {s₀ s : State} (h : Keeps s₀ s) (c : Nat) : Keeps s₀ (camOff s c) := by
  unfold camOff
  repeat' first
    | with_reducible assumption
    | with_reducible apply keeps_updCam
    | with_reducible apply keeps_updVc
    | (with_reducible apply Keeps.foldl; intro s x hs)
    | (extract_lets +onlyGivenNames x; refine Keeps.cut (s := x) ?_ (fun hx => ?_); subst x; rotate_left; clear_value x)
    | extract_lets +onlyGivenNames x
    | split
    | with_reducible refine Keeps.upd ?_ rfl

theorem keeps_writeCamCfg {s₀ s : State} (h : Keeps s₀ s) (c w : Nat) : Keeps s₀ (writeCamCfg s c w) := by
  unfold writeCamCfg
  repeat' first
    | with_reducible assumption
    | with_reducible apply keeps_camErr
    | with_reducible apply keeps_camOff
    | with_reducible apply keeps_wr
    | with_reducible apply keeps_updCam
    | extract_lets +onlyGivenNames x
    | with_reducible apply Keeps.ite
    | split
    | with_reducible refine Keeps.upd ?_ rfl

theorem keeps_writeVcFmt {s₀ s : State} (h : Keeps s₀ s) (c v w : Nat) : Keeps s₀ (writeVcFmt s c v w) := by
  unfold writeVcFmt
  repeat' first
    | with_reducible assumption
    | with_reducible apply keeps_camErr
    | with_reducible apply keeps_wr
    | with_reducible apply Keeps.ite
    | split

theorem keeps_writeVcRing {s₀ s : State} (h : Keeps s₀ s) (c v w : Nat) : Keeps s₀ (writeVcRing s c v w) := by
  unfold writeVcRing
  repeat' first
    | with_reducible assumption
    | with_reducible apply keeps_camErr
    | with_reducible apply keeps_updVc
    | with_reducible apply keeps_wr
    | extract_lets +onlyGivenNames x
    | with_reducible apply Keeps.ite
    | split
    | with_reducible refine Keeps.upd ?_ rfl

theorem keeps_camsOfEmu {s₀ s : State} (h : Keeps s₀ s) (e t : Nat) : Keeps s₀ (camsOfEmu s e t) := by
  unfold camsOfEmu
  repeat' first
    | with_reducible assumption
    | with_reducible apply keeps_setCam
    | (with_reducible apply Keeps.foldl; intro s x hs)
    | extract_lets +onlyGivenNames x
    | with_reducible apply Keeps.ite
    | split
    | with_reducible refine Keeps.upd ?_ rfl

theorem keeps_camRise {s₀ s : State} (h : Keeps s₀ s) (c : Nat) : Keeps s₀ (camRise s c) := by
  unfold camRise
  repeat' first
    | with_reducible assumption
    | with_reducible apply keeps_flag
    | with_reducible apply keeps_count
    | with_reducible apply keeps_setCam
    | extract_lets +onlyGivenNames x
    | with_reducible apply Keeps.ite
    | split
    | with_reducible refine Keeps.upd ?_ rfl

theorem keeps_camFall {s₀ s : State} (h : Keeps s₀ s) (c : Nat) : Keeps s₀ (camFall s c) := by
  unfold camFall
  repeat' first
    | with_reducible assumption
    | with_reducible apply keeps_setCam
    | extract_lets +onlyGivenNames x
    | with_reducible apply Keeps.ite
    | split
    | with_reducible refine Keeps.upd ?_ rfl

theorem keeps_camExpose {s₀ s : State} (h : Keeps s₀ s) (c : Nat) : Keeps s₀ (camExpose s c) := by
  unfold camExpose
  repeat' first
    | with_reducible assumption
    | with_reducible apply keeps_latchEvent
    | with_reducible apply keeps_setCam
    | (with_reducible apply Keeps.foldl; intro s x hs)
    | (extract_lets +onlyGivenNames x; refine Keeps.cut (s := Prod.fst x) ?_ (fun hx => ?_); subst x; rotate_left; clear_value x)
    | extract_lets +onlyGivenNames x
    | split
    | with_reducible refine Keeps.upd ?_ rfl

theorem keeps_camLost {s₀ s : State} (h : Keeps s₀ s) (c : Nat) : Keeps s₀ (camLost s c) := by
  unfold camLost
  repeat' first
    | with_reducible assumption
    | with_reducible apply keeps_flag
    | with_reducible apply keeps_setCam
    | extract_lets +onlyGivenNames x
    | with_reducible apply Keeps.ite
    | split
    | with_reducible refine Keeps.upd ?_ rfl

theorem keeps_camBoundary {s₀ s : State} (h : Keeps s₀ s) (c : Nat) : Keeps s₀ (camBoundary s c) := by
  unfold camBoundary
  repeat' first
    | with_reducible assumption
    | with_reducible apply keeps_camErr
    | with_reducible apply keeps_setFld
    | with_reducible apply keeps_setCam
    | (extract_lets +onlyGivenNames x; refine Keeps.cut (s := x) ?_ (fun hx => ?_); subst x; rotate_left; clear_value x)
    | extract_lets +onlyGivenNames x
    | with_reducible apply Keeps.ite
    | split
    | with_reducible refine Keeps.upd ?_ rfl

theorem keeps_headerCheck {s₀ s : State} (h : Keeps s₀ s) (c : Nat) (h : HdrCheck) : Keeps s₀ (headerCheck s c h).1 := by
  unfold headerCheck
  repeat' first
    | with_reducible assumption
    | with_reducible apply keeps_count
    | with_reducible apply keeps_flag
    | split
    | with_reducible refine Keeps.upd ?_ rfl

theorem keeps_matchTrig {s₀ s : State} (h : Keeps s₀ s) (c v : Nat) : Keeps s₀ (matchTrig s c v).1 := by
  unfold matchTrig
  repeat' first
    | with_reducible assumption
    | with_reducible apply keeps_countN
    | with_reducible apply keeps_setCam
    | (extract_lets +onlyGivenNames x; refine Keeps.cut (s := x) ?_ (fun hx => ?_); subst x; rotate_left; clear_value x)
    | extract_lets +onlyGivenNames x
    | split
    | with_reducible refine Keeps.upd ?_ rfl

theorem keeps_openFrame {s₀ s : State} (h : Keeps s₀ s) (c v : Nat) : Keeps s₀ (openFrame s c v) := by
  unfold openFrame
  repeat' first
    | with_reducible assumption
    | with_reducible apply keeps_matchTrig
    | with_reducible apply keeps_updCam
    | with_reducible apply keeps_wr
    | with_reducible apply keeps_setVc
    | with_reducible apply keeps_flag
    | with_reducible apply keeps_count
    | with_reducible apply keeps_slotWrite
    | (extract_lets +onlyGivenNames x; refine Keeps.cut (s := x) ?_ (fun hx => ?_); subst x; rotate_left; clear_value x)
    | (extract_lets +onlyGivenNames x; refine Keeps.cut (s := Prod.fst x) ?_ (fun hx => ?_); subst x; rotate_left; clear_value x)
    | extract_lets +onlyGivenNames x
    | with_reducible apply Keeps.ite
    | split
    | with_reducible refine Keeps.upd ?_ rfl

theorem keeps_closeFrame {s₀ s : State} (h : Keeps s₀ s) (c v : Nat) : Keeps s₀ (closeFrame s c v).1 := by
  unfold closeFrame
  repeat' first
    | with_reducible assumption
    | with_reducible apply keeps_setVc
    | with_reducible apply keeps_slotWrite
    | (extract_lets +onlyGivenNames x; refine Keeps.cut (s := x) ?_ (fun hx => ?_); subst x; rotate_left; clear_value x)
    | extract_lets +onlyGivenNames x
    | with_reducible apply Keeps.ite
    | split
    | with_reducible refine Keeps.upd ?_ rfl

theorem keeps_storeLine {s₀ s : State} (h : Keeps s₀ s) (c v dt : Nat) (px : List Nat) (crcOk : Bool) :
    Keeps s₀ (storeLine s c v dt px crcOk) := by
  unfold storeLine
  repeat' first
    | with_reducible assumption
    | with_reducible apply keeps_count
    | with_reducible apply keeps_setVc
    | with_reducible apply keeps_slotWrite
    | with_reducible apply keeps_updCam
    | (extract_lets +onlyGivenNames x; refine Keeps.cut (s := x) ?_ (fun hx => ?_); subst x; rotate_left; clear_value x)
    | extract_lets +onlyGivenNames x
    | with_reducible apply Keeps.ite
    | split
    | with_reducible refine Keeps.upd ?_ rfl

theorem keeps_longPacket {s₀ s : State} (h : Keeps s₀ s) (c v : Nat) (h : HdrCheck) (dt : Nat) (px : List Nat) (crcOk : Bool) :
    Keeps s₀ (longPacket s c v h dt px crcOk) := by
  unfold longPacket
  repeat' first
    | with_reducible assumption
    | with_reducible apply keeps_headerCheck
    | with_reducible apply keeps_storeLine
    | (extract_lets +onlyGivenNames x; refine Keeps.cut (s := Prod.fst x) ?_ (fun hx => ?_); subst x; rotate_left; clear_value x)
    | extract_lets +onlyGivenNames x
    | with_reducible apply Keeps.ite
    | split

theorem keeps_camLock {s₀ s : State} (h : Keeps s₀ s) (c : Nat) (locked : Bool) : Keeps s₀ (camLock s c locked) := by
  unfold camLock
  repeat' first
    | with_reducible assumption
    | with_reducible apply keeps_updCam
    | with_reducible refine Keeps.upd ?_ rfl

theorem keeps_camDeskew {s₀ s : State} (h : Keeps s₀ s) (c : Nat) : Keeps s₀ (camDeskew s c) := by
  unfold camDeskew
  repeat' first
    | with_reducible assumption
    | with_reducible apply keeps_updCam
    | with_reducible apply Keeps.ite
    | split
    | with_reducible refine Keeps.upd ?_ rfl

theorem keeps_camTrigger {s₀ s : State} (h : Keeps s₀ s) (j : Job) : Keeps s₀ (camTrigger s j) := by
  unfold camTrigger
  repeat' first
    | with_reducible assumption
    | with_reducible apply keeps_updCam
    | with_reducible apply keeps_complete
    | (extract_lets +onlyGivenNames x; refine Keeps.cut (s := x) ?_ (fun hx => ?_); subst x; rotate_left; clear_value x)
    | extract_lets +onlyGivenNames x
    | with_reducible apply Keeps.ite
    | split
    | with_reducible refine Keeps.upd ?_ rfl

theorem keeps_frameReadStart {s₀ s : State} (h : Keeps s₀ s) (j : Job) : Keeps s₀ (frameReadStart s j) := by
  unfold frameReadStart
  repeat' first
    | with_reducible assumption
    | with_reducible apply keeps_keep
    | with_reducible apply keeps_slotLock
    | with_reducible apply keeps_complete
    | extract_lets +onlyGivenNames x
    | with_reducible apply Keeps.ite
    | split
    | with_reducible refine Keeps.upd ?_ rfl

theorem keeps_slotUe {s₀ s : State} (h : Keeps s₀ s) (c v slot : Nat) : Keeps s₀ (slotUe s c v slot) := by
  unfold slotUe
  repeat' first | with_reducible assumption | with_reducible apply keeps_slotWrite

theorem keeps_slotErrs {s₀ s : State} (h : Keeps s₀ s) (c v slot : Nat) (errs : List DeckErr) :
    Keeps s₀ (slotErrs s c v slot errs) := by
  unfold slotErrs
  repeat' first
    | with_reducible assumption
    | with_reducible apply keeps_slotUe
    | extract_lets +onlyGivenNames x
    | with_reducible apply Keeps.ite
    | split

theorem keeps_frameReadSlice {s₀ s : State} (h : Keeps s₀ s) (j : Job) (r : SliceResult) : Keeps s₀ (frameReadSlice s j r) := by
  unfold frameReadSlice
  repeat' first
    | with_reducible assumption
    | with_reducible apply keeps_sendHost
    | with_reducible apply keeps_slotUe
    | with_reducible apply keeps_keep
    | (extract_lets +onlyGivenNames x; refine Keeps.cut (s := x) ?_ (fun hx => ?_); subst x; rotate_left; clear_value x)
    | extract_lets +onlyGivenNames x
    | with_reducible apply Keeps.ite
    | split
    | with_reducible refine Keeps.upd ?_ rfl

theorem keeps_frameReadDone {s₀ s : State} (h : Keeps s₀ s) (id : Nat) : Keeps s₀ (frameReadDone s id) := by
  unfold frameReadDone
  repeat' first
    | with_reducible assumption
    | with_reducible apply keeps_slotLock
    | with_reducible apply keeps_complete
    | (extract_lets +onlyGivenNames x; refine Keeps.cut (s := x) ?_ (fun hx => ?_); subst x; rotate_left; clear_value x)
    | extract_lets +onlyGivenNames x
    | with_reducible apply Keeps.ite
    | split
    | with_reducible refine Keeps.upd ?_ rfl

theorem keeps_frameReadUnlock {s₀ s : State} (h : Keeps s₀ s) (j : Job) : Keeps s₀ (frameReadUnlock s j) := by
  unfold frameReadUnlock
  repeat' first
    | with_reducible assumption
    | with_reducible apply keeps_slotLock
    | with_reducible apply Keeps.ite
    | split

end Sys2Proof.Machine
end

