-- ==== Sys2Proof/Laws/KeepsVision.lean ====
section
/-!
SUPPORT. One lemma for each definition of Machine/Vision.lean that answers a state: it keeps what `Keeps` says (Laws/Keeps.lean).
-/
namespace Sys2Proof.Machine
set_option Elab.async false
set_option linter.all false

theorem keeps_visFlag {s₀ s : State} (h : Keeps s₀ s) (p mask : Nat) : Keeps s₀ (visFlag s p mask) := by
  unfold visFlag
  repeat' first | with_reducible assumption | with_reducible apply keeps_flag

theorem keeps_offerRecord {s₀ s : State} (h : Keeps s₀ s) (p q : Nat) (k : Track) (closed : Bool) :
    Keeps s₀ (offerRecord s p q k closed) := by
  unfold offerRecord
  repeat' first
    | with_reducible assumption
    | with_reducible apply keeps_count
    | with_reducible apply keeps_offer
    | (extract_lets +onlyGivenNames x; refine Keeps.cut (s := x) ?_ (fun hx => ?_); subst x; rotate_left; clear_value x)
    | extract_lets +onlyGivenNames x
    | split

theorem keeps_openTracks {s₀ s : State} (h : Keeps s₀ s) (p quota : Nat) (ts : List Track) (l : List Obs) :
    Keeps s₀ (openTracks p quota s ts l).1 := by
  induction l generalizing s ts with
  | nil => exact h
  | cons o l ih =>
    unfold openTracks
    split
    · exact ih (keeps_visFlag (keeps_count h _) _ _) _
    · exact ih (Keeps.put_trackReuse h _ _) _

theorem keeps_trackFrame {s₀ s : State} (h : Keeps s₀ s) (p : Nat) (f : FrameJob) : Keeps s₀ (trackFrame s p f) := by
  unfold trackFrame
  repeat' first
    | with_reducible assumption
    | with_reducible apply keeps_count
    | with_reducible apply keeps_setPipe
    | with_reducible apply keeps_openTracks
    | with_reducible apply keeps_offerRecord
    | with_reducible apply keeps_updPipe
    | (with_reducible apply Keeps.foldl; intro s x hs)
    | (extract_lets +onlyGivenNames x; refine Keeps.cut (s := x) ?_ (fun hx => ?_); subst x; rotate_left; clear_value x)
    | (extract_lets +onlyGivenNames x; refine Keeps.cut (s := Prod.fst x) ?_ (fun hx => ?_); subst x; rotate_left; clear_value x)
    | extract_lets +onlyGivenNames x
    | with_reducible apply Keeps.ite
    | split
    | with_reducible refine Keeps.upd ?_ rfl

theorem keeps_drainMissed {s₀ s : State} (h : Keeps s₀ s) (p n : Nat) : Keeps s₀ (drainMissed p n s) := by
  induction n generalizing s with
  | zero => exact h
  | succ n ih =>
    unfold drainMissed
    repeat' first
      | with_reducible assumption
      | with_reducible apply ih
      | with_reducible apply keeps_updPipe
      | with_reducible apply keeps_trackFrame
      | (extract_lets +onlyGivenNames x; refine Keeps.cut (s := x) ?_ (fun hx => ?_); subst x; rotate_left; clear_value x)
      | (extract_lets +onlyGivenNames x; refine Keeps.cut (s := Prod.fst x) ?_ (fun hx => ?_); subst x; rotate_left; clear_value x)
      | extract_lets +onlyGivenNames x
      | with_reducible apply Keeps.ite
      | split
      | with_reducible refine Keeps.upd ?_ rfl

theorem keeps_updFrame {s₀ s : State} (h : Keeps s₀ s) (p job : Nat) (g : FrameJob → FrameJob) :
    Keeps s₀ (updFrame s p job g) := by
  unfold updFrame
  repeat' first
    | with_reducible assumption
    | with_reducible apply keeps_updPipe
    | with_reducible refine Keeps.upd ?_ rfl

theorem keeps_frameUnlock {s₀ s : State} (h : Keeps s₀ s) (p : Nat) (f : FrameJob) : Keeps s₀ (frameUnlock s p f) := by
  unfold frameUnlock
  repeat' first | with_reducible assumption | with_reducible apply keeps_slotLock

theorem keeps_missFrame {s₀ s : State} (h : Keeps s₀ s) (p : Nat) (f : FrameJob) : Keeps s₀ (missFrame s p f) := by
  unfold missFrame
  repeat' first
    | with_reducible assumption
    | with_reducible apply keeps_frameUnlock
    | with_reducible apply keeps_updFrame
    | with_reducible apply keeps_dropJob
    | with_reducible apply keeps_drainMissed
    | (extract_lets +onlyGivenNames x; refine Keeps.cut (s := x) ?_ (fun hx => ?_); subst x; rotate_left; clear_value x)
    | extract_lets +onlyGivenNames x
    | with_reducible apply Keeps.ite
    | split
    | with_reducible refine Keeps.upd ?_ rfl

theorem keeps_skipFrame {s₀ s : State} (h : Keeps s₀ s) (p : Nat) (f : FrameJob) : Keeps s₀ (skipFrame s p f) := by
  unfold skipFrame
  repeat' first
    | with_reducible assumption
    | with_reducible apply keeps_missFrame
    | with_reducible apply keeps_visFlag
    | with_reducible apply keeps_count

theorem keeps_shedFrame {s₀ s : State} (h : Keeps s₀ s) (p job : Nat) : Keeps s₀ (shedFrame s p job) := by
  unfold shedFrame
  repeat' first
    | with_reducible assumption
    | with_reducible apply keeps_missFrame
    | with_reducible apply keeps_visFlag
    | with_reducible apply keeps_count
    | with_reducible apply keeps_dropJob
    | split
    | with_reducible refine Keeps.upd ?_ rfl

theorem keeps_swapBank {s₀ s : State} (h : Keeps s₀ s) (p seq : Nat) : Keeps s₀ (swapBank s p seq) := by
  unfold swapBank
  repeat' first
    | with_reducible assumption
    | with_reducible apply keeps_setPipe
    | with_reducible apply keeps_complete
    | (with_reducible apply Keeps.foldl; intro s x hs)
    | (extract_lets +onlyGivenNames x; refine Keeps.cut (s := x) ?_ (fun hx => ?_); subst x; rotate_left; clear_value x)
    | extract_lets +onlyGivenNames x
    | split
    | with_reducible refine Keeps.upd ?_ rfl

theorem keeps_handOff {s₀ s : State} (h : Keeps s₀ s) (c v slot : Nat) : Keeps s₀ (handOff s c v slot) := by
  unfold handOff
  repeat' first
    | with_reducible assumption
    | with_reducible apply keeps_swapBank
    | with_reducible apply keeps_updPipe
    | with_reducible apply keeps_slotLock
    | with_reducible apply keeps_setPipe
    | with_reducible apply keeps_planNow
    | with_reducible apply keeps_keep
    | (extract_lets +onlyGivenNames x; refine Keeps.cut (s := x) ?_ (fun hx => ?_); subst x; rotate_left; clear_value x)
    | extract_lets +onlyGivenNames x
    | with_reducible apply Keeps.ite
    | split
    | with_reducible refine Keeps.upd ?_ rfl

theorem keeps_frameStart {s₀ s : State} (h : Keeps s₀ s) (c v : Nat) (h : HdrCheck) : Keeps s₀ (frameStart s c v h) := by
  unfold frameStart
  repeat' first
    | with_reducible assumption
    | with_reducible apply keeps_headerCheck
    | with_reducible apply keeps_closeFrame
    | with_reducible apply keeps_handOff
    | with_reducible apply keeps_openFrame
    | (extract_lets +onlyGivenNames x; refine Keeps.cut (s := x) ?_ (fun hx => ?_); subst x; rotate_left; clear_value x)
    | (extract_lets +onlyGivenNames x; refine Keeps.cut (s := Prod.fst x) ?_ (fun hx => ?_); subst x; rotate_left; clear_value x)
    | extract_lets +onlyGivenNames x
    | with_reducible apply Keeps.ite
    | split
    | with_reducible refine Keeps.upd ?_ rfl

theorem keeps_frameEnd {s₀ s : State} (h : Keeps s₀ s) (c v : Nat) (h : HdrCheck) : Keeps s₀ (frameEnd s c v h) := by
  unfold frameEnd
  repeat' first
    | with_reducible assumption
    | with_reducible apply keeps_headerCheck
    | with_reducible apply keeps_closeFrame
    | with_reducible apply keeps_handOff
    | (extract_lets +onlyGivenNames x; refine Keeps.cut (s := Prod.fst x) ?_ (fun hx => ?_); subst x; rotate_left; clear_value x)
    | extract_lets +onlyGivenNames x
    | with_reducible apply Keeps.ite
    | split
    | with_reducible refine Keeps.upd ?_ rfl

theorem keeps_pyramidDone {s₀ s : State} (h : Keeps s₀ s) (p : Nat) (errs : List DeckErr) : Keeps s₀ (pyramidDone s p errs) := by
  unfold pyramidDone
  repeat' first
    | with_reducible assumption
    | with_reducible apply keeps_slotErrs
    | with_reducible apply keeps_deckErrs
    | with_reducible apply keeps_complete
    | with_reducible apply keeps_setPipe
    | with_reducible apply keeps_skipFrame
    | with_reducible apply keeps_updPipe
    | with_reducible apply keeps_updFrame
    | with_reducible apply keeps_updJob
    | with_reducible apply keeps_planNow
    | (with_reducible apply Keeps.foldl; intro s x hs)
    | (extract_lets +onlyGivenNames x; refine Keeps.cut (s := x) ?_ (fun hx => ?_); subst x; rotate_left; clear_value x)
    | (extract_lets +onlyGivenNames x; refine Keeps.cut (s := Prod.fst x) ?_ (fun hx => ?_); subst x; rotate_left; clear_value x)
    | extract_lets +onlyGivenNames x
    | with_reducible apply Keeps.ite
    | split
    | with_reducible refine Keeps.upd ?_ rfl

theorem keeps_joinStages {s₀ s : State} (h : Keeps s₀ s) (p job : Nat) : Keeps s₀ (joinStages s p job) := by
  unfold joinStages
  repeat' first
    | with_reducible assumption
    | with_reducible apply keeps_updJob
    | with_reducible apply keeps_planNow
    | (extract_lets +onlyGivenNames x; refine Keeps.cut (s := x) ?_ (fun hx => ?_); subst x; rotate_left; clear_value x)
    | extract_lets +onlyGivenNames x
    | with_reducible apply Keeps.ite
    | split
    | with_reducible refine Keeps.upd ?_ rfl

theorem keeps_motionDone {s₀ s : State} (h : Keeps s₀ s) (p : Nat) : Keeps s₀ (motionDone s p) := by
  unfold motionDone
  repeat' first
    | with_reducible assumption
    | with_reducible apply keeps_updFrame
    | with_reducible apply keeps_joinStages
    | with_reducible apply keeps_updJob
    | (extract_lets +onlyGivenNames x; refine Keeps.cut (s := x) ?_ (fun hx => ?_); subst x; rotate_left; clear_value x)
    | extract_lets +onlyGivenNames x
    | split
    | with_reducible refine Keeps.upd ?_ rfl

theorem keeps_blobDone {s₀ s : State} (h : Keeps s₀ s) (p : Nat) : Keeps s₀ (blobDone s p) := by
  unfold blobDone
  repeat' first
    | with_reducible assumption
    | with_reducible apply keeps_visFlag
    | with_reducible apply keeps_count
    | with_reducible apply keeps_updPipe
    | with_reducible apply keeps_frameUnlock
    | with_reducible apply keeps_updFrame
    | with_reducible apply keeps_joinStages
    | with_reducible apply keeps_updJob
    | (with_reducible apply Keeps.foldl; intro s x hs)
    | (extract_lets +onlyGivenNames x; refine Keeps.cut (s := x) ?_ (fun hx => ?_); subst x; rotate_left; clear_value x)
    | extract_lets +onlyGivenNames x
    | with_reducible apply Keeps.ite
    | split
    | with_reducible refine Keeps.upd ?_ rfl

theorem keeps_trackerRun {s₀ s : State} (h : Keeps s₀ s) (p : Nat) : Keeps s₀ (trackerRun s p) := by
  unfold trackerRun
  repeat' first
    | with_reducible assumption
    | with_reducible apply keeps_count
    | with_reducible apply keeps_dropJob
    | with_reducible apply keeps_updPipe
    | with_reducible apply keeps_trackFrame
    | with_reducible apply keeps_drainMissed
    | (extract_lets +onlyGivenNames x; refine Keeps.cut (s := x) ?_ (fun hx => ?_); subst x; rotate_left; clear_value x)
    | extract_lets +onlyGivenNames x
    | with_reducible apply Keeps.ite
    | split
    | with_reducible refine Keeps.upd ?_ rfl

theorem keeps_dropTracks {s₀ s : State} (h : Keeps s₀ s) (p : Nat) : Keeps s₀ (dropTracks s p) := by
  unfold dropTracks
  repeat' first
    | with_reducible assumption
    | with_reducible apply keeps_updPipe
    | with_reducible refine Keeps.upd ?_ rfl

theorem keeps_stopPipe {s₀ s : State} (h : Keeps s₀ s) (p : Nat) : Keeps s₀ (stopPipe s p) := by
  unfold stopPipe
  repeat' first
    | with_reducible assumption
    | with_reducible apply keeps_dropJob
    | with_reducible apply keeps_frameUnlock
    | with_reducible apply keeps_setPipe
    | with_reducible apply keeps_swapBank
    | (with_reducible apply Keeps.foldl; intro s x hs)
    | (extract_lets +onlyGivenNames x; refine Keeps.cut (s := x) ?_ (fun hx => ?_); subst x; rotate_left; clear_value x)
    | extract_lets +onlyGivenNames x
    | with_reducible apply Keeps.ite
    | split
    | with_reducible refine Keeps.upd ?_ rfl

theorem keeps_stopPipeErr {s₀ s : State} (h : Keeps s₀ s) (p : Nat) : Keeps s₀ (stopPipeErr s p) := by
  unfold stopPipeErr
  repeat' first
    | with_reducible assumption
    | with_reducible apply keeps_visFlag
    | with_reducible apply keeps_stopPipe
    | with_reducible apply Keeps.ite
    | split

theorem keeps_visBoundary {s₀ s : State} (h : Keeps s₀ s) (p : Nat) : Keeps s₀ (visBoundary s p) := by
  unfold visBoundary
  repeat' first
    | with_reducible assumption
    | with_reducible apply keeps_stopPipeErr
    | extract_lets +onlyGivenNames x
    | with_reducible apply Keeps.ite
    | split

theorem keeps_visStopDone {s₀ s : State} (h : Keeps s₀ s) (p : Nat) : Keeps s₀ (visStopDone s p) := by
  unfold visStopDone
  repeat' first
    | with_reducible assumption
    | with_reducible apply keeps_complete
    | with_reducible apply keeps_setPipe
    | (with_reducible apply Keeps.foldl; intro s x hs)
    | extract_lets +onlyGivenNames x
    | with_reducible apply Keeps.ite
    | split
    | with_reducible refine Keeps.upd ?_ rfl

theorem keeps_visPortLost {s₀ s : State} (h : Keeps s₀ s) (c : Nat) : Keeps s₀ (visPortLost s c) := by
  unfold visPortLost
  repeat' first
    | with_reducible assumption
    | with_reducible apply keeps_camLost
    | with_reducible apply keeps_dropTracks
    | (with_reducible apply Keeps.foldl; intro s x hs)
    | (extract_lets +onlyGivenNames x; refine Keeps.cut (s := x) ?_ (fun hx => ?_); subst x; rotate_left; clear_value x)
    | extract_lets +onlyGivenNames x
    | with_reducible apply Keeps.ite
    | split

theorem keeps_doVisStart {s₀ s : State} (h : Keeps s₀ s) (d : Desc) : Keeps s₀ (doVisStart s d) := by
  unfold doVisStart
  repeat' first
    | with_reducible assumption
    | with_reducible apply keeps_updPipe
    | extract_lets +onlyGivenNames x
    | with_reducible apply Keeps.ite
    | split
    | with_reducible refine Keeps.upd ?_ rfl

theorem keeps_visStop {s₀ s : State} (h : Keeps s₀ s) (j : Job) : Keeps s₀ (visStop s j) := by
  unfold visStop
  repeat' first
    | with_reducible assumption
    | with_reducible apply keeps_stopPipe
    | with_reducible apply keeps_keep
    | with_reducible apply keeps_visStopDone
    | with_reducible apply keeps_updPipe
    | (extract_lets +onlyGivenNames x; refine Keeps.cut (s := x) ?_ (fun hx => ?_); subst x; rotate_left; clear_value x)
    | extract_lets +onlyGivenNames x
    | split
    | with_reducible refine Keeps.upd ?_ rfl

theorem keeps_visClassLoad {s₀ s : State} (h : Keeps s₀ s) (j : Job) : Keeps s₀ (visClassLoad s j) := by
  unfold visClassLoad
  repeat' first
    | with_reducible assumption
    | with_reducible apply keeps_keep
    | with_reducible refine Keeps.upd ?_ rfl

theorem keeps_classLoadSlice {s₀ s : State} (h : Keeps s₀ s) (j : Job) (r : SliceResult) : Keeps s₀ (classLoadSlice s j r) := by
  unfold classLoadSlice
  repeat' first
    | with_reducible assumption
    | with_reducible apply keeps_keep
    | with_reducible apply keeps_setPipe
    | with_reducible apply keeps_swapBank
    | (extract_lets +onlyGivenNames x; refine Keeps.cut (s := x) ?_ (fun hx => ?_); subst x; rotate_left; clear_value x)
    | extract_lets +onlyGivenNames x
    | with_reducible apply Keeps.ite
    | split
    | with_reducible refine Keeps.upd ?_ rfl

theorem keeps_visBgCapture {s₀ s : State} (h : Keeps s₀ s) (j : Job) : Keeps s₀ (visBgCapture s j) := by
  unfold visBgCapture
  repeat' first
    | with_reducible assumption
    | with_reducible apply keeps_keep
    | with_reducible apply keeps_updPipe
    | extract_lets +onlyGivenNames x
    | with_reducible refine Keeps.upd ?_ rfl

theorem keeps_visParam {s₀ s : State} (h : Keeps s₀ s) (j : Job) : Keeps s₀ (visParam s j) := by
  unfold visParam
  repeat' first
    | with_reducible assumption
    | with_reducible apply keeps_updPipe
    | with_reducible apply keeps_complete
    | (extract_lets +onlyGivenNames x; refine Keeps.cut (s := x) ?_ (fun hx => ?_); subst x; rotate_left; clear_value x)
    | (extract_lets +onlyGivenNames x; refine Keeps.cut (s := Prod.fst x) ?_ (fun hx => ?_); subst x; rotate_left; clear_value x)
    | extract_lets +onlyGivenNames x
    | with_reducible apply Keeps.ite
    | split
    | with_reducible refine Keeps.upd ?_ rfl

end Sys2Proof.Machine
end

