-- ==== Sys2Proof/Laws/KeepsFeedback.lean ====
section
/-!
SUPPORT. One lemma for each definition of Machine/Feedback.lean that answers a state: it keeps what `Keeps` says (Laws/Keeps.lean).
-/
namespace Sys2Proof.Machine
set_option Elab.async false
set_option linter.all false

theorem keeps_fbFlag {s₀ s : State} (h : Keeps s₀ s) (n mask : Nat) : Keeps s₀ (fbFlag s n mask) := by
  unfold fbFlag
  repeat' first | with_reducible assumption | with_reducible apply keeps_flag

theorem keeps_fbSuspect {s₀ s : State} (h : Keeps s₀ s) (n : Nat) : Keeps s₀ (fbSuspect s n) := by
  unfold fbSuspect
  repeat' first
    | with_reducible assumption
    | with_reducible apply keeps_updFb
    | with_reducible refine Keeps.upd ?_ rfl

theorem keeps_writeFbCfg {s₀ s : State} (h : Keeps s₀ s) (n w : Nat) : Keeps s₀ (writeFbCfg s n w) := by
  unfold writeFbCfg
  repeat' first
    | with_reducible assumption
    | with_reducible apply keeps_fbFlag
    | with_reducible apply keeps_wr
    | with_reducible apply keeps_updFb
    | extract_lets +onlyGivenNames x
    | with_reducible apply Keeps.ite
    | split

theorem keeps_emuFlag {s₀ s : State} (h : Keeps s₀ s) (e mask : Nat) : Keeps s₀ (emuFlag s e mask) := by
  unfold emuFlag
  repeat' first | with_reducible assumption | with_reducible apply keeps_flag

theorem keeps_emuSuspect {s₀ s : State} (h : Keeps s₀ s) (e n : Nat) : Keeps s₀ (emuSuspect s e n) := by
  unfold emuSuspect
  repeat' first
    | with_reducible assumption
    | with_reducible apply keeps_emuFlag
    | extract_lets +onlyGivenNames x
    | with_reducible apply Keeps.ite
    | split

theorem keeps_emuSuspects {s₀ s : State} (h : Keeps s₀ s) (n : Nat) : Keeps s₀ (emuSuspects s n) := by
  unfold emuSuspects
  repeat' first
    | with_reducible assumption
    | with_reducible apply keeps_emuSuspect
    | (with_reducible apply Keeps.foldl; intro s x hs)
    | with_reducible apply Keeps.ite
    | split

theorem keeps_emuPulse {s₀ s : State} (h : Keeps s₀ s) (e : Nat) : Keeps s₀ (emuPulse s e) := by
  unfold emuPulse
  repeat' first
    | with_reducible assumption
    | with_reducible apply keeps_emuFlag
    | with_reducible apply keeps_count
    | with_reducible apply keeps_setEmu
    | with_reducible apply keeps_camsOfEmu
    | with_reducible apply keeps_latchEvent
    | (extract_lets +onlyGivenNames x; refine Keeps.cut (s := x) ?_ (fun hx => ?_); subst x; rotate_left; clear_value x)
    | extract_lets +onlyGivenNames x
    | with_reducible apply Keeps.ite
    | split
    | with_reducible refine Keeps.upd ?_ rfl

theorem keeps_emuEdge {s₀ s : State} (h : Keeps s₀ s) (e n : Nat) (up : Bool) : Keeps s₀ (emuEdge s e n up) := by
  unfold emuEdge
  repeat' first
    | with_reducible assumption
    | with_reducible apply keeps_emuSuspect
    | with_reducible apply keeps_emuPulse
    | with_reducible apply keeps_setEmu
    | (extract_lets +onlyGivenNames x; refine Keeps.cut (s := x) ?_ (fun hx => ?_); subst x; rotate_left; clear_value x)
    | extract_lets +onlyGivenNames x
    | with_reducible apply Keeps.ite
    | split
    | with_reducible refine Keeps.upd ?_ rfl

theorem keeps_emusOf {s₀ s : State} (h : Keeps s₀ s) (n : Nat) (up : Bool) : Keeps s₀ (emusOf s n up) := by
  unfold emusOf
  repeat' first
    | with_reducible assumption
    | with_reducible apply keeps_emuEdge
    | (with_reducible apply Keeps.foldl; intro s x hs)

theorem keeps_writeEmuCfg {s₀ s : State} (h : Keeps s₀ s) (e w : Nat) : Keeps s₀ (writeEmuCfg s e w) := by
  unfold writeEmuCfg
  repeat' first
    | with_reducible assumption
    | with_reducible apply keeps_emuFlag
    | with_reducible apply keeps_updEmu
    | with_reducible apply keeps_emuSuspect
    | with_reducible apply keeps_wr
    | with_reducible apply keeps_setEmu
    | extract_lets +onlyGivenNames x
    | with_reducible apply Keeps.ite
    | split
    | with_reducible refine Keeps.upd ?_ rfl

theorem keeps_emuFall {s₀ s : State} (h : Keeps s₀ s) (e : Nat) : Keeps s₀ (emuFall s e) := by
  unfold emuFall
  repeat' first
    | with_reducible assumption
    | with_reducible apply keeps_setEmu
    | extract_lets +onlyGivenNames x
    | with_reducible apply Keeps.ite
    | split
    | with_reducible refine Keeps.upd ?_ rfl

theorem keeps_fbCount {s₀ s : State} (h : Keeps s₀ s) (n : Nat) (up : Bool) : Keeps s₀ (fbCount s n up) := by
  unfold fbCount
  repeat' first
    | with_reducible assumption
    | with_reducible apply keeps_setFb
    | with_reducible apply keeps_emusOf
    | (extract_lets +onlyGivenNames x; refine Keeps.cut (s := x) ?_ (fun hx => ?_); subst x; rotate_left; clear_value x)
    | extract_lets +onlyGivenNames x
    | with_reducible apply Keeps.ite
    | split
    | with_reducible refine Keeps.upd ?_ rfl

theorem keeps_quadEdge {s₀ s : State} (h : Keeps s₀ s) (n : Nat) (a b : Bool) : Keeps s₀ (quadEdge s n a b) := by
  unfold quadEdge
  repeat' first
    | with_reducible assumption
    | with_reducible apply keeps_setFb
    | with_reducible apply keeps_emuSuspects
    | with_reducible apply keeps_fbSuspect
    | with_reducible apply keeps_fbFlag
    | with_reducible apply keeps_count
    | with_reducible apply keeps_fbCount
    | (extract_lets +onlyGivenNames x; refine Keeps.cut (s := x) ?_ (fun hx => ?_); subst x; rotate_left; clear_value x)
    | extract_lets +onlyGivenNames x
    | with_reducible apply Keeps.ite
    | split
    | with_reducible refine Keeps.upd ?_ rfl

theorem keeps_reReference {s₀ s : State} (h : Keeps s₀ s) (n : Nat) : Keeps s₀ (reReference s n) := by
  unfold reReference
  repeat' first
    | with_reducible assumption
    | with_reducible apply keeps_setFb
    | with_reducible apply keeps_fbFlag
    | with_reducible apply keeps_count
    | with_reducible apply keeps_wr
    | (extract_lets +onlyGivenNames x; refine Keeps.cut (s := x) ?_ (fun hx => ?_); subst x; rotate_left; clear_value x)
    | extract_lets +onlyGivenNames x
    | with_reducible apply Keeps.ite
    | split
    | with_reducible refine Keeps.upd ?_ rfl

theorem keeps_indexEdge {s₀ s : State} (h : Keeps s₀ s) (n : Nat) : Keeps s₀ (indexEdge s n) := by
  unfold indexEdge
  repeat' first
    | with_reducible assumption
    | with_reducible apply keeps_setFb
    | with_reducible apply keeps_count
    | with_reducible apply keeps_reReference
    | (extract_lets +onlyGivenNames x; refine Keeps.cut (s := x) ?_ (fun hx => ?_); subst x; rotate_left; clear_value x)
    | extract_lets +onlyGivenNames x
    | with_reducible apply Keeps.ite
    | split
    | with_reducible refine Keeps.upd ?_ rfl

theorem keeps_hallSample {s₀ s : State} (h : Keeps s₀ s) (n code : Nat) : Keeps s₀ (hallSample s n code) := by
  unfold hallSample
  repeat' first
    | with_reducible assumption
    | with_reducible apply keeps_fbFlag
    | with_reducible apply keeps_count
    | with_reducible apply keeps_setFb
    | with_reducible apply keeps_fbCount
    | with_reducible apply keeps_emuSuspects
    | with_reducible apply keeps_fbSuspect
    | (extract_lets +onlyGivenNames x; refine Keeps.cut (s := x) ?_ (fun hx => ?_); subst x; rotate_left; clear_value x)
    | extract_lets +onlyGivenNames x
    | with_reducible apply Keeps.ite
    | split
    | with_reducible refine Keeps.upd ?_ rfl

theorem keeps_hallFault {s₀ s : State} (h : Keeps s₀ s) (n : Nat) : Keeps s₀ (hallFault s n) := by
  unfold hallFault
  repeat' first
    | with_reducible assumption
    | with_reducible apply keeps_emuSuspects
    | with_reducible apply keeps_fbFlag
    | with_reducible apply keeps_setFb
    | extract_lets +onlyGivenNames x
    | with_reducible apply Keeps.ite
    | split
    | with_reducible refine Keeps.upd ?_ rfl

theorem keeps_hallClear {s₀ s : State} (h : Keeps s₀ s) (n : Nat) : Keeps s₀ (hallClear s n) := by
  unfold hallClear
  repeat' first
    | with_reducible assumption
    | with_reducible apply keeps_setFb
    | extract_lets +onlyGivenNames x
    | with_reducible apply Keeps.ite
    | split
    | with_reducible refine Keeps.upd ?_ rfl

theorem keeps_serStart {s₀ s : State} (h : Keeps s₀ s) (n : Nat) : Keeps s₀ (serStart s n) := by
  unfold serStart
  repeat' first
    | with_reducible assumption
    | with_reducible apply keeps_count
    | with_reducible apply keeps_setFb
    | (extract_lets +onlyGivenNames x; refine Keeps.cut (s := Prod.fst x) ?_ (fun hx => ?_); subst x; rotate_left; clear_value x)
    | extract_lets +onlyGivenNames x
    | with_reducible apply Keeps.ite
    | split
    | with_reducible refine Keeps.upd ?_ rfl

theorem keeps_memFail {s₀ s : State} (h : Keeps s₀ s) (n : Nat) (job : Option Nat) : Keeps s₀ (memFail s n job) := by
  unfold memFail
  repeat' first
    | with_reducible assumption
    | with_reducible apply keeps_setFb
    | with_reducible apply keeps_complete
    | (extract_lets +onlyGivenNames x; refine Keeps.cut (s := x) ?_ (fun hx => ?_); subst x; rotate_left; clear_value x)
    | (extract_lets +onlyGivenNames x; refine Keeps.cut (s := Prod.fst x) ?_ (fun hx => ?_); subst x; rotate_left; clear_value x)
    | extract_lets +onlyGivenNames x
    | with_reducible apply Keeps.ite
    | split
    | with_reducible refine Keeps.upd ?_ rfl

theorem keeps_serInvalid {s₀ s : State} (h : Keeps s₀ s) (n : Nat) (fail : Bool) : Keeps s₀ (serInvalid s n fail) := by
  unfold serInvalid
  repeat' first
    | with_reducible assumption
    | with_reducible apply keeps_setFb
    | with_reducible apply keeps_fbFlag
    | with_reducible apply keeps_count
    | with_reducible apply keeps_memFail
    | (extract_lets +onlyGivenNames x; refine Keeps.cut (s := x) ?_ (fun hx => ?_); subst x; rotate_left; clear_value x)
    | extract_lets +onlyGivenNames x
    | with_reducible apply Keeps.ite
    | split
    | with_reducible refine Keeps.upd ?_ rfl

theorem keeps_serValid {s₀ s : State} (h : Keeps s₀ s) (n : Nat) : Keeps s₀ (serValid s n) := by
  unfold serValid
  repeat' first
    | with_reducible assumption
    | with_reducible apply keeps_setFb
    | extract_lets +onlyGivenNames x
    | split
    | with_reducible refine Keeps.upd ?_ rfl

theorem keeps_serWord {s₀ s : State} (h : Keeps s₀ s) (n raw : Nat) : Keeps s₀ (serWord s n raw) := by
  unfold serWord
  repeat' first
    | with_reducible assumption
    | with_reducible apply keeps_serValid
    | with_reducible apply keeps_setFb
    | with_reducible apply keeps_serInvalid
    | extract_lets +onlyGivenNames x
    | with_reducible apply Keeps.ite
    | split
    | with_reducible refine Keeps.upd ?_ rfl

theorem keeps_essDone {s₀ s : State} (h : Keeps s₀ s) (n : Nat) (r : SerRun) (bs : List Byte) (bad : Bool) :
    Keeps s₀ (essDone s n r bs bad) := by
  unfold essDone
  repeat' first
    | with_reducible assumption
    | with_reducible apply keeps_serInvalid
    | with_reducible apply keeps_updFb
    | with_reducible apply keeps_wr
    | with_reducible apply keeps_serWord
    | with_reducible apply keeps_serValid
    | with_reducible apply keeps_complete
    | (extract_lets +onlyGivenNames x; refine Keeps.cut (s := x) ?_ (fun hx => ?_); subst x; rotate_left; clear_value x)
    | (extract_lets +onlyGivenNames x; refine Keeps.cut (s := Prod.fst x) ?_ (fun hx => ?_); subst x; rotate_left; clear_value x)
    | extract_lets +onlyGivenNames x
    | with_reducible apply Keeps.ite
    | split
    | with_reducible refine Keeps.upd ?_ rfl

theorem keeps_serDone {s₀ s : State} (h : Keeps s₀ s) (n : Nat) (rx : SerRx) : Keeps s₀ (serDone s n rx) := by
  unfold serDone
  repeat' first
    | with_reducible assumption
    | with_reducible apply keeps_serInvalid
    | with_reducible apply keeps_serWord
    | with_reducible apply keeps_essDone
    | extract_lets +onlyGivenNames x
    | with_reducible apply Keeps.ite
    | split
    | with_reducible refine Keeps.upd ?_ rfl

theorem keeps_startTimeout {s₀ s : State} (h : Keeps s₀ s) (n : Nat) (low : Bool) : Keeps s₀ (startTimeout s n low) := by
  unfold startTimeout
  repeat' first
    | with_reducible assumption
    | with_reducible apply keeps_serInvalid
    | with_reducible apply keeps_fbFlag
    | with_reducible apply Keeps.ite
    | split
    | with_reducible refine Keeps.upd ?_ rfl

theorem keeps_fbStill {s₀ s : State} (h : Keeps s₀ s) (n : Nat) : Keeps s₀ (fbStill s n) := by
  unfold fbStill
  repeat' first
    | with_reducible assumption
    | with_reducible apply keeps_setFb
    | extract_lets +onlyGivenNames x
    | with_reducible apply Keeps.ite
    | split
    | with_reducible refine Keeps.upd ?_ rfl

theorem keeps_fbStreams {s₀ s : State} (h : Keeps s₀ s) (n : Nat) (hist : List (Nat × Int)) : Keeps s₀ (fbStreams s n hist) := by
  unfold fbStreams
  repeat' first
    | with_reducible assumption
    | with_reducible apply keeps_offerNow
    | (with_reducible apply Keeps.foldl; intro s x hs)
    | (extract_lets +onlyGivenNames x; refine Keeps.cut (s := Prod.fst x) ?_ (fun hx => ?_); subst x; rotate_left; clear_value x)
    | extract_lets +onlyGivenNames x
    | split

theorem keeps_fbSnapshot {s₀ s : State} (h : Keeps s₀ s) (n : Nat) : Keeps s₀ (fbSnapshot s n) := by
  unfold fbSnapshot
  repeat' first
    | with_reducible assumption
    | with_reducible apply keeps_setFb
    | with_reducible apply keeps_latchesOf
    | with_reducible apply keeps_fbStreams
    | (extract_lets +onlyGivenNames x; refine Keeps.cut (s := x) ?_ (fun hx => ?_); subst x; rotate_left; clear_value x)
    | (extract_lets +onlyGivenNames x; refine Keeps.cut (s := Prod.fst x) ?_ (fun hx => ?_); subst x; rotate_left; clear_value x)
    | extract_lets +onlyGivenNames x
    | with_reducible apply Keeps.ite
    | split
    | with_reducible refine Keeps.upd ?_ rfl

theorem keeps_doFbSetPos {s₀ s : State} (h : Keeps s₀ s) (d : Desc) : Keeps s₀ (doFbSetPos s d) := by
  unfold doFbSetPos
  repeat' first
    | with_reducible assumption
    | with_reducible apply keeps_updFb
    | with_reducible refine Keeps.upd ?_ rfl

theorem keeps_doFbStream {s₀ s : State} (h : Keeps s₀ s) (d : Desc) : Keeps s₀ (doFbStream s d) := by
  unfold doFbStream
  repeat' first
    | with_reducible assumption
    | with_reducible apply keeps_updFb
    | extract_lets +onlyGivenNames x
    | with_reducible apply Keeps.ite
    | split
    | with_reducible refine Keeps.upd ?_ rfl

theorem keeps_fbEssStart {s₀ s : State} (h : Keeps s₀ s) (j : Job) : Keeps s₀ (fbEssStart s j) := by
  unfold fbEssStart
  repeat' first
    | with_reducible assumption
    | with_reducible apply keeps_keep
    | with_reducible apply keeps_updFb
    | extract_lets +onlyGivenNames x
    | with_reducible refine Keeps.upd ?_ rfl

theorem keeps_emuStart {s₀ s : State} (h : Keeps s₀ s) (j : Job) : Keeps s₀ (emuStart s j) := by
  unfold emuStart
  repeat' first
    | with_reducible assumption
    | with_reducible apply keeps_complete
    | with_reducible apply keeps_emuFlag
    | with_reducible apply keeps_updEmu
    | extract_lets +onlyGivenNames x
    | with_reducible apply Keeps.ite
    | split
    | with_reducible refine Keeps.upd ?_ rfl

theorem keeps_doEmuStop {s₀ s : State} (h : Keeps s₀ s) (d : Desc) : Keeps s₀ (doEmuStop s d) := by
  unfold doEmuStop
  repeat' first
    | with_reducible assumption
    | with_reducible apply keeps_updEmu
    | with_reducible refine Keeps.upd ?_ rfl

end Sys2Proof.Machine
end

