-- ==== Sys2Proof/Laws/KeepsPwm.lean ====
section
/-!
SUPPORT. One lemma for each definition of Machine/Pwm.lean that answers a state: it keeps what `Keeps` says (Laws/Keeps.lean).
-/
namespace Sys2Proof.Machine
set_option Elab.async false
set_option linter.all false

theorem keeps_stageFlag {s₀ s : State} (h : Keeps s₀ s) (st mask : Nat) : Keeps s₀ (stageFlag s st mask) := by
  unfold stageFlag
  repeat' first
    | with_reducible assumption
    | with_reducible apply keeps_flag
    | with_reducible apply Keeps.ite
    | split

theorem keeps_setShadow {s₀ s : State} (h : Keeps s₀ s) (ch : Nat) (c : Cmp) : Keeps s₀ (setShadow s ch c) := by
  unfold setShadow
  repeat' first
    | with_reducible assumption
    | with_reducible apply keeps_updPwm
    | with_reducible refine Keeps.upd ?_ rfl

theorem keeps_takePending {s₀ s : State} (h : Keeps s₀ s) (ch : Nat) (basic : Bool) : Keeps s₀ (takePending s ch basic) := by
  unfold takePending
  repeat' first
    | with_reducible assumption
    | with_reducible apply keeps_setPwm
    | extract_lets +onlyGivenNames x
    | with_reducible apply Keeps.ite
    | split
    | with_reducible refine Keeps.upd ?_ rfl

theorem keeps_loadAll {s₀ s : State} (h : Keeps s₀ s) (tn : Nat) (basic : Bool) (skip : Nat → Bool) :
    Keeps s₀ (loadAll s tn basic skip) := by
  unfold loadAll
  repeat' first
    | with_reducible assumption
    | with_reducible apply keeps_takePending
    | (with_reducible apply Keeps.foldl; intro s x hs)
    | with_reducible apply Keeps.ite
    | split

theorem keeps_legsOff {s₀ s : State} (h : Keeps s₀ s) (st : Nat) : Keeps s₀ (legsOff s st) := by
  unfold legsOff
  repeat' first
    | with_reducible assumption
    | with_reducible apply keeps_setPwm
    | (with_reducible apply Keeps.foldl; intro s x hs)
    | extract_lets +onlyGivenNames x
    | with_reducible apply Keeps.ite
    | split
    | with_reducible refine Keeps.upd ?_ rfl

theorem keeps_chopStep {s₀ s : State} (h : Keeps s₀ s) (n : Nat) (second : Bool) (setQ sense : Int) :
    Keeps s₀ (chopStep s n second setQ sense) := by
  unfold chopStep
  repeat' first
    | with_reducible assumption
    | with_reducible apply keeps_setSg
    | (extract_lets +onlyGivenNames x; refine Keeps.cut (s := Prod.fst x) ?_ (fun hx => ?_); subst x; rotate_left; clear_value x)
    | extract_lets +onlyGivenNames x
    | with_reducible apply Keeps.ite
    | split
    | with_reducible refine Keeps.upd ?_ rfl

end Sys2Proof.Machine
end

