-- ==== Sys2Proof/Laws/KeepsAxes.lean ====
section
/-!
SUPPORT. One lemma for each definition of Machine/Axes.lean that answers a state: it keeps what `Keeps` says (Laws/Keeps.lean).
-/
namespace Sys2Proof.Machine
set_option Elab.async false
set_option linter.all false

theorem keeps_axisDone {s₀ s : State} (h : Keeps s₀ s) (a status res : Nat) : Keeps s₀ (axisDone s a status res) := by
  unfold axisDone
  repeat' first
    | with_reducible assumption
    | with_reducible apply keeps_complete
    | with_reducible apply keeps_setAxis
    | extract_lets +onlyGivenNames x
    | split
    | with_reducible refine Keeps.upd ?_ rfl

theorem keeps_supersede {s₀ s : State} (h : Keeps s₀ s) (a : Nat) : Keeps s₀ (supersede s a) := by
  unfold supersede
  repeat' first
    | with_reducible assumption
    | with_reducible apply keeps_axisDone
    | with_reducible apply Keeps.ite
    | split

theorem keeps_dropNext {s₀ s : State} (h : Keeps s₀ s) (a status res : Nat) : Keeps s₀ (dropNext s a status res) := by
  unfold dropNext
  repeat' first
    | with_reducible assumption
    | with_reducible apply keeps_setAxis
    | with_reducible apply keeps_complete
    | (with_reducible apply Keeps.foldl; intro s x hs)
    | (extract_lets +onlyGivenNames x; refine Keeps.cut (s := x) ?_ (fun hx => ?_); subst x; rotate_left; clear_value x)
    | extract_lets +onlyGivenNames x
    | split
    | with_reducible refine Keeps.upd ?_ rfl

theorem keeps_disableDone {s₀ s : State} (h : Keeps s₀ s) (a status : Nat) : Keeps s₀ (disableDone s a status) := by
  unfold disableDone
  repeat' first
    | with_reducible assumption
    | with_reducible apply keeps_setAxis
    | with_reducible apply keeps_complete
    | (with_reducible apply Keeps.foldl; intro s x hs)
    | (extract_lets +onlyGivenNames x; refine Keeps.cut (s := x) ?_ (fun hx => ?_); subst x; rotate_left; clear_value x)
    | extract_lets +onlyGivenNames x
    | split
    | with_reducible refine Keeps.upd ?_ rfl

theorem keeps_axisEnd {s₀ s : State} (h : Keeps s₀ s) (a status res : Nat) : Keeps s₀ (axisEnd s a status res) := by
  unfold axisEnd
  repeat' first
    | with_reducible assumption
    | with_reducible apply keeps_disableDone
    | with_reducible apply keeps_dropNext
    | with_reducible apply keeps_axisDone

theorem keeps_rampAxis {s₀ s : State} (h : Keeps s₀ s) (a : Nat) : Keeps s₀ (rampAxis s a) := by
  unfold rampAxis
  repeat' first
    | with_reducible assumption
    | with_reducible apply keeps_updAxis
    | with_reducible refine Keeps.upd ?_ rfl

theorem keeps_axisStep {s₀ s : State} (h : Keeps s₀ s) (a : Nat) : Keeps s₀ (axisStep s a) := by
  unfold axisStep
  repeat' first
    | with_reducible assumption
    | with_reducible apply keeps_setAxis
    | (extract_lets +onlyGivenNames x; refine Keeps.cut (s := Prod.fst x) ?_ (fun hx => ?_); subst x; rotate_left; clear_value x)
    | extract_lets +onlyGivenNames x
    | with_reducible apply Keeps.ite
    | split
    | with_reducible refine Keeps.upd ?_ rfl

theorem keeps_admitMotion {s₀ s : State} (h : Keeps s₀ s) (j : Job) (a : Nat) (m : Motion) (dir : Int) :
    Keeps s₀ (admitMotion s j a m dir) := by
  unfold admitMotion
  repeat' first
    | with_reducible assumption
    | with_reducible apply keeps_complete
    | with_reducible apply keeps_keep
    | with_reducible apply keeps_updAxis
    | extract_lets +onlyGivenNames x
    | with_reducible apply Keeps.ite
    | split
    | with_reducible refine Keeps.upd ?_ rfl

theorem keeps_startMove {s₀ s : State} (h : Keeps s₀ s) (a : Nat) (target : Int) (v acc dec jerk : Nat) :
    Keeps s₀ (startMove s a target v acc dec jerk) := by
  unfold startMove
  repeat' first
    | with_reducible assumption
    | with_reducible apply keeps_updAxis
    | with_reducible refine Keeps.upd ?_ rfl

theorem keeps_startJog {s₀ s : State} (h : Keeps s₀ s) (a : Nat) (v : Int) (acc : Nat) : Keeps s₀ (startJog s a v acc) := by
  unfold startJog
  repeat' first
    | with_reducible assumption
    | with_reducible apply keeps_updAxis
    | with_reducible refine Keeps.upd ?_ rfl

theorem keeps_setJob {s₀ s : State} (h : Keeps s₀ s) (a : Nat) (job : Option Nat) (modified : Bool) :
    Keeps s₀ (setJob s a job modified) := by
  unfold setJob
  repeat' first
    | with_reducible assumption
    | with_reducible apply keeps_updAxis
    | with_reducible refine Keeps.upd ?_ rfl

theorem keeps_motionEnd {s₀ s : State} (h : Keeps s₀ s) (a : Nat) (reached : Bool) : Keeps s₀ (motionEnd s a reached) := by
  unfold motionEnd
  repeat' first
    | with_reducible assumption
    | with_reducible apply keeps_axisDone
    | extract_lets +onlyGivenNames x
    | with_reducible apply Keeps.ite
    | split

end Sys2Proof.Machine
end

