-- ==== Sys2Proof/Laws/KeepsPaths.lean ====
section
/-!
SUPPORT. One lemma for each definition of Machine/Paths.lean that answers a state: it keeps what `Keeps` says (Laws/Keeps.lean).
-/
namespace Sys2Proof.Machine
set_option Elab.async false
set_option linter.all false

theorem keeps_toPosition {s₀ s : State} (h : Keeps s₀ s) (a : Nat) : Keeps s₀ (toPosition s a) := by
  unfold toPosition
  repeat' first
    | with_reducible assumption
    | with_reducible apply keeps_updAxis
    | with_reducible apply keeps_updPier
    | with_reducible apply Keeps.ite
    | split
    | with_reducible refine Keeps.upd ?_ rfl

theorem keeps_segDone {s₀ s : State} (h : Keeps s₀ s) (g job : Nat) : Keeps s₀ (segDone s g job) := by
  unfold segDone
  repeat' first
    | with_reducible assumption
    | with_reducible apply keeps_complete
    | extract_lets +onlyGivenNames x
    | with_reducible apply Keeps.ite
    | split
    | with_reducible refine Keeps.upd ?_ rfl

theorem keeps_segsEnd {s₀ s : State} (h : Keeps s₀ s) (ids : List Nat) (status res : Nat) (stop : Bool) :
    Keeps s₀ (segsEnd s ids status res stop) := by
  unfold segsEnd
  repeat' first
    | with_reducible assumption
    | with_reducible apply keeps_complete
    | (with_reducible apply Keeps.foldl; intro s x hs)
    | with_reducible apply Keeps.ite
    | split
    | with_reducible refine Keeps.upd ?_ rfl

theorem keeps_segEnter {s₀ s : State} (h : Keeps s₀ s) (j : Job) : Keeps s₀ (segEnter s j) := by
  unfold segEnter
  repeat' first
    | with_reducible assumption
    | with_reducible apply keeps_complete
    | with_reducible apply keeps_setGroup
    | with_reducible apply keeps_keep
    | extract_lets +onlyGivenNames x
    | with_reducible apply Keeps.ite
    | split
    | with_reducible refine Keeps.upd ?_ rfl

theorem keeps_segSlice {s₀ s : State} (h : Keeps s₀ s) (j : Job) (r : SliceResult) : Keeps s₀ (segSlice s j r) := by
  unfold segSlice
  repeat' first
    | with_reducible assumption
    | with_reducible apply keeps_segEnter
    | with_reducible apply keeps_keep
    | extract_lets +onlyGivenNames x
    | with_reducible apply Keeps.ite
    | split
    | with_reducible refine Keeps.upd ?_ rfl

theorem keeps_groupRefs {s₀ s : State} (h : Keeps s₀ s) (gi : Nat) : Keeps s₀ (groupRefs s gi) := by
  unfold groupRefs
  repeat' first
    | with_reducible assumption
    | with_reducible apply keeps_updAxis
    | (with_reducible apply Keeps.foldl; intro s x hs)
    | (extract_lets +onlyGivenNames x; refine Keeps.cut (s := Prod.fst x) ?_ (fun hx => ?_); subst x; rotate_left; clear_value x)
    | extract_lets +onlyGivenNames x
    | with_reducible apply Keeps.ite
    | split
    | with_reducible refine Keeps.upd ?_ rfl

theorem keeps_groupFlush {s₀ s : State} (h : Keeps s₀ s) (gi : Nat) : Keeps s₀ (groupFlush s gi) := by
  unfold groupFlush
  repeat' first
    | with_reducible assumption
    | with_reducible apply keeps_setGroup
    | with_reducible apply keeps_segsEnd
    | (extract_lets +onlyGivenNames x; refine Keeps.cut (s := x) ?_ (fun hx => ?_); subst x; rotate_left; clear_value x)
    | (extract_lets +onlyGivenNames x; refine Keeps.cut (s := Prod.fst x) ?_ (fun hx => ?_); subst x; rotate_left; clear_value x)
    | extract_lets +onlyGivenNames x
    | split
    | with_reducible refine Keeps.upd ?_ rfl

theorem keeps_groupStep {s₀ s : State} (h : Keeps s₀ s) (gi : Nat) : Keeps s₀ (groupStep s gi) := by
  unfold groupStep
  repeat' first
    | with_reducible assumption
    | with_reducible apply keeps_groupRefs
    | with_reducible apply keeps_setGroup
    | with_reducible apply keeps_segDone
    | with_reducible apply keeps_groupFlush
    | (with_reducible apply Keeps.foldl; intro s x hs)
    | (extract_lets +onlyGivenNames x; refine Keeps.cut (s := x) ?_ (fun hx => ?_); subst x; rotate_left; clear_value x)
    | (extract_lets +onlyGivenNames x; refine Keeps.cut (s := Prod.fst x) ?_ (fun hx => ?_); subst x; rotate_left; clear_value x)
    | extract_lets +onlyGivenNames x
    | with_reducible apply Keeps.ite
    | split
    | with_reducible refine Keeps.upd ?_ rfl

theorem keeps_groupAbort {s₀ s : State} (h : Keeps s₀ s) (gi : Nat) (hit : Option Nat) (status res : Nat) :
    Keeps s₀ (groupAbort s gi hit status res) := by
  unfold groupAbort
  repeat' first
    | with_reducible assumption
    | with_reducible apply keeps_setGroup
    | with_reducible apply keeps_updAxis
    | with_reducible apply keeps_rampAxis
    | with_reducible apply keeps_segsEnd
    | (with_reducible apply Keeps.foldl; intro s x hs)
    | (extract_lets +onlyGivenNames x; refine Keeps.cut (s := x) ?_ (fun hx => ?_); subst x; rotate_left; clear_value x)
    | extract_lets +onlyGivenNames x
    | with_reducible apply Keeps.ite
    | split
    | with_reducible refine Keeps.upd ?_ rfl

theorem keeps_abortGroupOf {s₀ s : State} (h : Keeps s₀ s) (a status res : Nat) : Keeps s₀ (abortGroupOf s a status res) := by
  unfold abortGroupOf
  repeat' first
    | with_reducible assumption
    | with_reducible apply keeps_groupAbort
    | split
    | with_reducible refine Keeps.upd ?_ rfl

theorem keeps_groupDrop {s₀ s : State} (h : Keeps s₀ s) (gi : Nat) (status : Nat) : Keeps s₀ (groupDrop s gi status) := by
  unfold groupDrop
  repeat' first
    | with_reducible assumption
    | with_reducible apply keeps_groupAbort
    | with_reducible apply keeps_updAxis
    | (with_reducible apply Keeps.foldl; intro s x hs)
    | (extract_lets +onlyGivenNames x; refine Keeps.cut (s := x) ?_ (fun hx => ?_); subst x; rotate_left; clear_value x)
    | extract_lets +onlyGivenNames x
    | with_reducible apply Keeps.ite
    | split

theorem keeps_groupTake {s₀ s : State} (h : Keeps s₀ s) (gi : Nat) : Keeps s₀ (groupTake s gi) := by
  unfold groupTake
  repeat' first
    | with_reducible assumption
    | with_reducible apply keeps_toPosition
    | with_reducible apply keeps_supersede
    | with_reducible apply keeps_updAxis
    | with_reducible apply keeps_updGroup
    | (with_reducible apply Keeps.foldl; intro s x hs)
    | (extract_lets +onlyGivenNames x; refine Keeps.cut (s := x) ?_ (fun hx => ?_); subst x; rotate_left; clear_value x)
    | extract_lets +onlyGivenNames x
    | split
    | with_reducible refine Keeps.upd ?_ rfl

theorem keeps_groupBoundary {s₀ s : State} (h : Keeps s₀ s) (gi : Nat) : Keeps s₀ (groupBoundary s gi) := by
  unfold groupBoundary
  repeat' first
    | with_reducible assumption
    | with_reducible apply keeps_groupTake
    | with_reducible apply keeps_updGroup
    | (with_reducible apply Keeps.foldl; intro s x hs)
    | (extract_lets +onlyGivenNames x; refine Keeps.cut (s := x) ?_ (fun hx => ?_); subst x; rotate_left; clear_value x)
    | extract_lets +onlyGivenNames x
    | with_reducible apply Keeps.ite
    | split
    | with_reducible refine Keeps.upd ?_ rfl

theorem keeps_engageDone {s₀ s : State} (h : Keeps s₀ s) (yi status res : Nat) : Keeps s₀ (engageDone s yi status res) := by
  unfold engageDone
  repeat' first
    | with_reducible assumption
    | with_reducible apply keeps_complete
    | with_reducible apply keeps_updStay
    | extract_lets +onlyGivenNames x
    | split
    | with_reducible refine Keeps.upd ?_ rfl

theorem keeps_releaseDone {s₀ s : State} (h : Keeps s₀ s) (yi : Nat) : Keeps s₀ (releaseDone s yi) := by
  unfold releaseDone
  repeat' first
    | with_reducible assumption
    | with_reducible apply keeps_complete
    | with_reducible apply keeps_updStay
    | (with_reducible apply Keeps.foldl; intro s x hs)
    | extract_lets +onlyGivenNames x
    | split
    | with_reducible refine Keeps.upd ?_ rfl

theorem keeps_stayFree {s₀ s : State} (h : Keeps s₀ s) (yi : Nat) : Keeps s₀ (stayFree s yi) := by
  unfold stayFree
  repeat' first
    | with_reducible assumption
    | with_reducible apply keeps_updAxis
    | with_reducible apply keeps_setStay
    | (extract_lets +onlyGivenNames x; refine Keeps.cut (s := x) ?_ (fun hx => ?_); subst x; rotate_left; clear_value x)
    | extract_lets +onlyGivenNames x
    | with_reducible apply Keeps.ite
    | split
    | with_reducible refine Keeps.upd ?_ rfl

theorem keeps_stayRamp {s₀ s : State} (h : Keeps s₀ s) (yi : Nat) (st : StayState) : Keeps s₀ (stayRamp s yi st) := by
  unfold stayRamp
  repeat' first
    | with_reducible assumption
    | with_reducible apply keeps_rampAxis
    | with_reducible apply keeps_updStay
    | (extract_lets +onlyGivenNames x; refine Keeps.cut (s := x) ?_ (fun hx => ?_); subst x; rotate_left; clear_value x)
    | extract_lets +onlyGivenNames x
    | split
    | with_reducible refine Keeps.upd ?_ rfl

theorem keeps_stayRest {s₀ s : State} (h : Keeps s₀ s) (yi : Nat) : Keeps s₀ (stayRest s yi) := by
  unfold stayRest
  repeat' first
    | with_reducible assumption
    | with_reducible apply keeps_releaseDone
    | with_reducible apply keeps_engageDone
    | with_reducible apply keeps_stayFree

theorem keeps_stayRelease0 {s₀ s : State} (h : Keeps s₀ s) (yi : Nat) : Keeps s₀ (stayRelease0 s yi) := by
  unfold stayRelease0
  repeat' first
    | with_reducible assumption
    | with_reducible apply keeps_stayRamp
    | with_reducible apply keeps_stayRest
    | (extract_lets +onlyGivenNames x; refine Keeps.cut (s := x) ?_ (fun hx => ?_); subst x; rotate_left; clear_value x)
    | extract_lets +onlyGivenNames x
    | with_reducible apply Keeps.ite
    | split

theorem keeps_stayDrop {s₀ s : State} (h : Keeps s₀ s) (yi status : Nat) : Keeps s₀ (stayDrop s yi status) := by
  unfold stayDrop
  repeat' first
    | with_reducible assumption
    | with_reducible apply keeps_stayFree
    | with_reducible apply keeps_updAxis
    | with_reducible apply keeps_releaseDone
    | with_reducible apply keeps_engageDone
    | (extract_lets +onlyGivenNames x; refine Keeps.cut (s := x) ?_ (fun hx => ?_); subst x; rotate_left; clear_value x)
    | extract_lets +onlyGivenNames x
    | with_reducible apply Keeps.ite
    | split

theorem keeps_stayDrive {s₀ s : State} (h : Keeps s₀ s) (yi : Nat) (p v : Int) : Keeps s₀ (stayDrive s yi p v) := by
  unfold stayDrive
  repeat' first
    | with_reducible assumption
    | with_reducible apply keeps_updAxis
    | with_reducible apply keeps_updStay
    | extract_lets +onlyGivenNames x
    | split
    | with_reducible refine Keeps.upd ?_ rfl

theorem keeps_stayFollow {s₀ s : State} (h : Keeps s₀ s) (yi : Nat) (m v : Int) : Keeps s₀ (stayFollow s yi m v) := by
  unfold stayFollow
  repeat' first
    | with_reducible assumption
    | with_reducible apply keeps_updStay
    | with_reducible apply keeps_stayDrive
    | with_reducible apply keeps_stayRest
    | with_reducible apply keeps_engageDone
    | with_reducible apply keeps_releaseDone
    | with_reducible apply keeps_stayFree
    | (extract_lets +onlyGivenNames x; refine Keeps.cut (s := x) ?_ (fun hx => ?_); subst x; rotate_left; clear_value x)
    | (extract_lets +onlyGivenNames x; refine Keeps.cut (s := Prod.fst x) ?_ (fun hx => ?_); subst x; rotate_left; clear_value x)
    | extract_lets +onlyGivenNames x
    | with_reducible apply Keeps.ite
    | split
    | with_reducible refine Keeps.upd ?_ rfl

theorem keeps_stayStep {s₀ s : State} (h : Keeps s₀ s) (yi : Nat) : Keeps s₀ (stayStep s yi) := by
  unfold stayStep
  repeat' first
    | with_reducible assumption
    | with_reducible apply keeps_releaseDone
    | with_reducible apply keeps_stayRest
    | with_reducible apply keeps_updStay
    | with_reducible apply keeps_stayFollow
    | with_reducible apply keeps_engageDone
    | with_reducible apply keeps_stayRamp
    | (extract_lets +onlyGivenNames x; refine Keeps.cut (s := x) ?_ (fun hx => ?_); subst x; rotate_left; clear_value x)
    | (extract_lets +onlyGivenNames x; refine Keeps.cut (s := Prod.fst x) ?_ (fun hx => ?_); subst x; rotate_left; clear_value x)
    | extract_lets +onlyGivenNames x
    | with_reducible apply Keeps.ite
    | split
    | with_reducible refine Keeps.upd ?_ rfl

theorem keeps_allRefs {s₀ s : State} (h : Keeps s₀ s) : Keeps s₀ (allRefs s) := by
  unfold allRefs
  repeat' first
    | with_reducible assumption
    | with_reducible apply keeps_axisStep
    | with_reducible apply keeps_groupStep
    | with_reducible apply keeps_stayStep
    | (with_reducible apply Keeps.foldl; intro s x hs)
    | (extract_lets +onlyGivenNames x; refine Keeps.cut (s := x) ?_ (fun hx => ?_); subst x; rotate_left; clear_value x)
    | (extract_lets +onlyGivenNames x; refine Keeps.cut (s := Prod.fst x) ?_ (fun hx => ?_); subst x; rotate_left; clear_value x)
    | extract_lets +onlyGivenNames x
    | split

theorem keeps_profileMove {s₀ s : State} (h : Keeps s₀ s) (j : Job) : Keeps s₀ (profileMove s j) := by
  unfold profileMove
  repeat' first
    | with_reducible assumption
    | with_reducible apply keeps_admitMotion
    | extract_lets +onlyGivenNames x
    | split

theorem keeps_doAxisStop {s₀ s : State} (h : Keeps s₀ s) (d : Desc) : Keeps s₀ (doAxisStop s d) := by
  unfold doAxisStop
  repeat' first
    | with_reducible assumption
    | with_reducible apply keeps_updAxis
    | with_reducible refine Keeps.upd ?_ rfl

theorem keeps_doGroupOpen {s₀ s : State} (h : Keeps s₀ s) (d : Desc) : Keeps s₀ (doGroupOpen s d) := by
  unfold doGroupOpen
  repeat' first
    | with_reducible assumption
    | with_reducible apply keeps_setGroup
    | with_reducible refine Keeps.upd ?_ rfl

theorem keeps_closeGroup {s₀ s : State} (h : Keeps s₀ s) (gi : Nat) : Keeps s₀ (closeGroup s gi) := by
  unfold closeGroup
  repeat' first
    | with_reducible assumption
    | with_reducible apply keeps_updAxis
    | with_reducible apply keeps_setGroup
    | (with_reducible apply Keeps.foldl; intro s x hs)
    | (extract_lets +onlyGivenNames x; refine Keeps.cut (s := x) ?_ (fun hx => ?_); subst x; rotate_left; clear_value x)
    | extract_lets +onlyGivenNames x
    | with_reducible apply Keeps.ite
    | split
    | with_reducible refine Keeps.upd ?_ rfl

theorem keeps_segAppend {s₀ s : State} (h : Keeps s₀ s) (j : Job) : Keeps s₀ (segAppend s j) := by
  unfold segAppend
  repeat' first
    | with_reducible assumption
    | with_reducible apply keeps_keep
    | with_reducible refine Keeps.upd ?_ rfl

theorem keeps_groupCtrlStart {s₀ s : State} (h : Keeps s₀ s) (j : Job) : Keeps s₀ (groupCtrlStart s j) := by
  unfold groupCtrlStart
  repeat' first
    | with_reducible assumption
    | with_reducible apply keeps_updGroup
    | with_reducible apply keeps_complete
    | (extract_lets +onlyGivenNames x; refine Keeps.cut (s := x) ?_ (fun hx => ?_); subst x; rotate_left; clear_value x)
    | extract_lets +onlyGivenNames x
    | with_reducible apply Keeps.ite
    | split
    | with_reducible refine Keeps.upd ?_ rfl

theorem keeps_doStayOpen {s₀ s : State} (h : Keeps s₀ s) (d : Desc) : Keeps s₀ (doStayOpen s d) := by
  unfold doStayOpen
  repeat' first
    | with_reducible assumption
    | with_reducible apply keeps_setStay
    | with_reducible refine Keeps.upd ?_ rfl

theorem keeps_stayEngage {s₀ s : State} (h : Keeps s₀ s) (j : Job) : Keeps s₀ (stayEngage s j) := by
  unfold stayEngage
  repeat' first
    | with_reducible assumption
    | with_reducible apply keeps_toPosition
    | with_reducible apply keeps_supersede
    | with_reducible apply keeps_keep
    | with_reducible apply keeps_updAxis
    | with_reducible apply keeps_updStay
    | (extract_lets +onlyGivenNames x; refine Keeps.cut (s := x) ?_ (fun hx => ?_); subst x; rotate_left; clear_value x)
    | extract_lets +onlyGivenNames x
    | with_reducible apply Keeps.ite
    | split
    | with_reducible refine Keeps.upd ?_ rfl

theorem keeps_stayRelease {s₀ s : State} (h : Keeps s₀ s) (j : Job) : Keeps s₀ (stayRelease s j) := by
  unfold stayRelease
  repeat' first
    | with_reducible assumption
    | with_reducible apply keeps_keep
    | with_reducible apply keeps_releaseDone
    | with_reducible apply keeps_stayRelease0
    | with_reducible apply keeps_updStay
    | (extract_lets +onlyGivenNames x; refine Keeps.cut (s := x) ?_ (fun hx => ?_); subst x; rotate_left; clear_value x)
    | extract_lets +onlyGivenNames x
    | with_reducible apply Keeps.ite
    | split
    | with_reducible refine Keeps.upd ?_ rfl

theorem keeps_coastEnd {s₀ s : State} (h : Keeps s₀ s) (yi : Nat) : Keeps s₀ (coastEnd s yi) := by
  unfold coastEnd
  repeat' first
    | with_reducible assumption
    | with_reducible apply keeps_engageDone
    | with_reducible apply keeps_stayRamp
    | extract_lets +onlyGivenNames x
    | with_reducible apply Keeps.ite
    | split

theorem keeps_camLoad {s₀ s : State} (h : Keeps s₀ s) (j : Job) : Keeps s₀ (camLoad s j) := by
  unfold camLoad
  repeat' first
    | with_reducible assumption
    | with_reducible apply keeps_complete
    | with_reducible apply keeps_setCamTab
    | with_reducible apply keeps_keep
    | with_reducible apply keeps_updCamTab
    | extract_lets +onlyGivenNames x
    | with_reducible apply Keeps.ite
    | split
    | with_reducible refine Keeps.upd ?_ rfl

theorem keeps_camSlice {s₀ s : State} (h : Keeps s₀ s) (j : Job) (r : SliceResult) : Keeps s₀ (camSlice s j r) := by
  unfold camSlice
  repeat' first
    | with_reducible assumption
    | with_reducible apply keeps_complete
    | with_reducible apply keeps_updCamTab
    | with_reducible apply keeps_keep
    | extract_lets +onlyGivenNames x
    | with_reducible apply Keeps.ite
    | split
    | with_reducible refine Keeps.upd ?_ rfl

theorem keeps_linkInfo {s₀ s : State} (h : Keeps s₀ s) (j : Job) : Keeps s₀ (linkInfo s j) := by
  unfold linkInfo
  repeat' first
    | with_reducible assumption
    | with_reducible apply keeps_complete
    | extract_lets +onlyGivenNames x
    | split
    | with_reducible refine Keeps.upd ?_ rfl

end Sys2Proof.Machine
end

