-- ==== Sys2Proof/Laws/KeepsPiers.lean ====
section
/-!
SUPPORT. One lemma for each definition of Machine/Piers.lean that answers a state: it keeps what `Keeps` says (Laws/Keeps.lean).
-/
namespace Sys2Proof.Machine
set_option Elab.async false
set_option linter.all false

theorem keeps_pierFlag {s₀ s : State} (h : Keeps s₀ s) (p mask : Nat) : Keeps s₀ (pierFlag s p mask) := by
  unfold pierFlag
  repeat' first | with_reducible assumption | with_reducible apply keeps_flag

theorem keeps_deriveCoefs {s₀ s : State} (h : Keeps s₀ s) (p : Nat) : Keeps s₀ (deriveCoefs s p) := by
  unfold deriveCoefs
  repeat' first
    | with_reducible assumption
    | with_reducible apply keeps_wr
    | with_reducible apply keeps_pierFlag
    | (with_reducible apply Keeps.foldl; intro s x hs)
    | (extract_lets +onlyGivenNames x; refine Keeps.cut (s := x) ?_ (fun hx => ?_); subst x; rotate_left; clear_value x)
    | extract_lets +onlyGivenNames x
    | with_reducible apply Keeps.ite
    | split

theorem keeps_takeCoefs {s₀ s : State} (h : Keeps s₀ s) (p : Nat) : Keeps s₀ (takeCoefs s p) := by
  unfold takeCoefs
  repeat' first
    | with_reducible assumption
    | with_reducible apply keeps_updPier
    | with_reducible refine Keeps.upd ?_ rfl

theorem keeps_pierLegsOff {s₀ s : State} (h : Keeps s₀ s) (p : Nat) : Keeps s₀ (pierLegsOff s p) := by
  unfold pierLegsOff
  repeat' first
    | with_reducible assumption
    | with_reducible apply keeps_setShadow
    | with_reducible apply keeps_legsOff
    | (with_reducible apply Keeps.foldl; intro s x hs)
    | (extract_lets +onlyGivenNames x; refine Keeps.cut (s := x) ?_ (fun hx => ?_); subst x; rotate_left; clear_value x)
    | extract_lets +onlyGivenNames x
    | with_reducible apply Keeps.ite
    | split

theorem keeps_alignEnd {s₀ s : State} (h : Keeps s₀ s) (p status res : Nat) : Keeps s₀ (alignEnd s p status res) := by
  unfold alignEnd
  repeat' first
    | with_reducible assumption
    | with_reducible apply keeps_complete
    | with_reducible apply keeps_updPier
    | extract_lets +onlyGivenNames x
    | split
    | with_reducible refine Keeps.upd ?_ rfl

theorem keeps_pierDown {s₀ s : State} (h : Keeps s₀ s) (p : Nat) (m : PierMode) (cause : Nat) :
    Keeps s₀ (pierDown s p m cause) := by
  unfold pierDown
  repeat' first
    | with_reducible assumption
    | with_reducible apply keeps_pierLegsOff
    | with_reducible apply keeps_updAxis
    | with_reducible apply keeps_updPier
    | (extract_lets +onlyGivenNames x; refine Keeps.cut (s := x) ?_ (fun hx => ?_); subst x; rotate_left; clear_value x)
    | extract_lets +onlyGivenNames x
    | split
    | with_reducible refine Keeps.upd ?_ rfl

theorem keeps_pierDisabled {s₀ s : State} (h : Keeps s₀ s) (p : Nat) : Keeps s₀ (pierDisabled s p) := by
  unfold pierDisabled
  repeat' first | with_reducible assumption | with_reducible apply keeps_pierDown

theorem keeps_dropStayOf {s₀ s : State} (h : Keeps s₀ s) (a status : Nat) : Keeps s₀ (dropStayOf s a status) := by
  unfold dropStayOf
  repeat' first
    | with_reducible assumption
    | with_reducible apply keeps_stayDrop
    | split
    | with_reducible refine Keeps.upd ?_ rfl

theorem keeps_pierFault {s₀ s : State} (h : Keeps s₀ s) (p cause : Nat) : Keeps s₀ (pierFault s p cause) := by
  unfold pierFault
  repeat' first
    | with_reducible assumption
    | with_reducible apply keeps_dropStayOf
    | with_reducible apply keeps_abortGroupOf
    | with_reducible apply keeps_alignEnd
    | with_reducible apply keeps_axisEnd
    | with_reducible apply keeps_pierFlag
    | with_reducible apply keeps_pierDown
    | (extract_lets +onlyGivenNames x; refine Keeps.cut (s := x) ?_ (fun hx => ?_); subst x; rotate_left; clear_value x)
    | extract_lets +onlyGivenNames x
    | with_reducible apply Keeps.ite
    | split

theorem keeps_pierForced {s₀ s : State} (h : Keeps s₀ s) (p : Nat) : Keeps s₀ (pierForced s p) := by
  unfold pierForced
  repeat' first
    | with_reducible assumption
    | with_reducible apply keeps_alignEnd
    | with_reducible apply keeps_axisEnd
    | with_reducible apply keeps_pierDisabled
    | (extract_lets +onlyGivenNames x; refine Keeps.cut (s := x) ?_ (fun hx => ?_); subst x; rotate_left; clear_value x)
    | extract_lets +onlyGivenNames x
    | with_reducible apply Keeps.ite
    | split

theorem keeps_fromActual {s₀ s : State} (h : Keeps s₀ s) (p : Nat) : Keeps s₀ (fromActual s p) := by
  unfold fromActual
  repeat' first
    | with_reducible assumption
    | with_reducible apply keeps_updAxis
    | with_reducible apply Keeps.ite
    | split
    | with_reducible refine Keeps.upd ?_ rfl

theorem keeps_pierRamp {s₀ s : State} (h : Keeps s₀ s) (p : Nat) : Keeps s₀ (pierRamp s p) := by
  unfold pierRamp
  repeat' first
    | with_reducible assumption
    | with_reducible apply keeps_fromActual
    | with_reducible apply keeps_updPier
    | with_reducible apply keeps_rampAxis
    | (extract_lets +onlyGivenNames x; refine Keeps.cut (s := x) ?_ (fun hx => ?_); subst x; rotate_left; clear_value x)
    | extract_lets +onlyGivenNames x
    | with_reducible apply Keeps.ite
    | split
    | with_reducible refine Keeps.upd ?_ rfl

theorem keeps_pierHold {s₀ s : State} (h : Keeps s₀ s) (p : Nat) : Keeps s₀ (pierHold s p) := by
  unfold pierHold
  repeat' first
    | with_reducible assumption
    | with_reducible apply keeps_axisEnd
    | with_reducible apply keeps_updAxis
    | with_reducible apply keeps_updPier
    | (extract_lets +onlyGivenNames x; refine Keeps.cut (s := x) ?_ (fun hx => ?_); subst x; rotate_left; clear_value x)
    | extract_lets +onlyGivenNames x
    | with_reducible apply Keeps.ite
    | split
    | with_reducible refine Keeps.upd ?_ rfl

theorem keeps_pierEnableNow {s₀ s : State} (h : Keeps s₀ s) (p mode : Nat) (job : Option Nat) :
    Keeps s₀ (pierEnableNow s p mode job) := by
  unfold pierEnableNow
  repeat' first
    | with_reducible assumption
    | with_reducible apply keeps_complete
    | with_reducible apply keeps_deriveCoefs
    | with_reducible apply keeps_updAxis
    | with_reducible apply keeps_updPier
    | (extract_lets +onlyGivenNames x; refine Keeps.cut (s := x) ?_ (fun hx => ?_); subst x; rotate_left; clear_value x)
    | extract_lets +onlyGivenNames x
    | with_reducible apply Keeps.ite
    | split
    | with_reducible refine Keeps.upd ?_ rfl

theorem keeps_pierDisableNow {s₀ s : State} (h : Keeps s₀ s) (p : Nat) : Keeps s₀ (pierDisableNow s p) := by
  unfold pierDisableNow
  repeat' first
    | with_reducible assumption
    | with_reducible apply keeps_disableDone
    | with_reducible apply keeps_alignEnd
    | with_reducible apply keeps_pierDisabled
    | with_reducible apply keeps_supersede

theorem keeps_pierMode {s₀ s : State} (h : Keeps s₀ s) (p : Nat) (m : PierMode) : Keeps s₀ (pierMode s p m) := by
  unfold pierMode
  repeat' first
    | with_reducible assumption
    | with_reducible apply keeps_fromActual
    | with_reducible apply keeps_updAxis
    | with_reducible apply keeps_updPier
    | (extract_lets +onlyGivenNames x; refine Keeps.cut (s := x) ?_ (fun hx => ?_); subst x; rotate_left; clear_value x)
    | extract_lets +onlyGivenNames x
    | with_reducible apply Keeps.ite
    | split
    | with_reducible refine Keeps.upd ?_ rfl

theorem keeps_pierMotion {s₀ s : State} (h : Keeps s₀ s) (p : Nat) (x : Motion × Option Nat) : Keeps s₀ (pierMotion s p x) := by
  unfold pierMotion
  repeat' first
    | with_reducible assumption
    | with_reducible apply keeps_pierEnableNow
    | with_reducible apply keeps_updAxis
    | with_reducible apply keeps_pierRamp
    | with_reducible apply keeps_supersede
    | with_reducible apply keeps_pierDisableNow
    | with_reducible apply keeps_startMove
    | with_reducible apply keeps_pierMode
    | with_reducible apply keeps_setJob
    | with_reducible apply keeps_startJog
    | with_reducible apply keeps_updGroup
    | with_reducible apply keeps_stayRelease0
    | with_reducible apply keeps_updPier
    | (extract_lets +onlyGivenNames x; refine Keeps.cut (s := x) ?_ (fun hx => ?_); subst x; rotate_left; clear_value x)
    | (extract_lets +onlyGivenNames x; refine Keeps.cut (s := Prod.fst x) ?_ (fun hx => ?_); subst x; rotate_left; clear_value x)
    | extract_lets +onlyGivenNames x
    | with_reducible apply Keeps.ite
    | split
    | with_reducible refine Keeps.upd ?_ rfl

theorem keeps_pierMotions {s₀ s : State} (h : Keeps s₀ s) (p : Nat) : Keeps s₀ (pierMotions s p) := by
  unfold pierMotions
  repeat' first
    | with_reducible assumption
    | with_reducible apply keeps_pierMotion
    | with_reducible apply keeps_updAxis
    | (with_reducible apply Keeps.foldl; intro s x hs)
    | extract_lets +onlyGivenNames x
    | split
    | with_reducible refine Keeps.upd ?_ rfl

theorem keeps_pierBoundary {s₀ s : State} (h : Keeps s₀ s) (changed : Bool) (p : Nat) : Keeps s₀ (pierBoundary s changed p) := by
  unfold pierBoundary
  repeat' first
    | with_reducible assumption
    | with_reducible apply keeps_updAxis
    | with_reducible apply keeps_pierFlag
    | with_reducible apply keeps_setFld
    | with_reducible apply keeps_deriveCoefs
    | with_reducible apply keeps_updPier
    | with_reducible apply keeps_pierMotions
    | with_reducible apply keeps_takeCoefs
    | (with_reducible apply Keeps.foldl; intro s x hs)
    | (extract_lets +onlyGivenNames x; refine Keeps.cut (s := x) ?_ (fun hx => ?_); subst x; rotate_left; clear_value x)
    | (extract_lets +onlyGivenNames x; refine Keeps.cut (s := Prod.fst x) ?_ (fun hx => ?_); subst x; rotate_left; clear_value x)
    | extract_lets +onlyGivenNames x
    | with_reducible apply Keeps.ite
    | split
    | with_reducible refine Keeps.upd ?_ rfl

theorem keeps_writeDuties {s₀ s : State} (h : Keeps s₀ s) (p : Nat) (l : List Rat) : Keeps s₀ (writeDuties s p l) := by
  unfold writeDuties
  repeat' first
    | with_reducible assumption
    | with_reducible apply keeps_setShadow
    | (with_reducible apply Keeps.foldl; intro s x hs)
    | (extract_lets +onlyGivenNames x; refine Keeps.cut (s := x) ?_ (fun hx => ?_); subst x; rotate_left; clear_value x)
    | extract_lets +onlyGivenNames x
    | with_reducible apply Keeps.ite
    | split

theorem keeps_followError {s₀ s : State} (h : Keeps s₀ s) (p : Nat) : Keeps s₀ (followError s p) := by
  unfold followError
  repeat' first
    | with_reducible assumption
    | with_reducible apply keeps_pierFlag
    | with_reducible apply keeps_count
    | with_reducible apply keeps_updPier
    | with_reducible apply keeps_pierFault
    | with_reducible apply keeps_dropStayOf
    | with_reducible apply keeps_abortGroupOf
    | with_reducible apply keeps_rampAxis
    | with_reducible apply keeps_axisDone
    | (extract_lets +onlyGivenNames x; refine Keeps.cut (s := x) ?_ (fun hx => ?_); subst x; rotate_left; clear_value x)
    | extract_lets +onlyGivenNames x
    | with_reducible apply Keeps.ite
    | split
    | with_reducible refine Keeps.upd ?_ rfl

theorem keeps_positionLoop {s₀ s : State} (h : Keeps s₀ s) (p : Nat) : Keeps s₀ (positionLoop s p) := by
  unfold positionLoop
  repeat' first
    | with_reducible assumption
    | with_reducible apply keeps_setPier
    | with_reducible apply keeps_followError
    | (extract_lets +onlyGivenNames x; refine Keeps.cut (s := x) ?_ (fun hx => ?_); subst x; rotate_left; clear_value x)
    | extract_lets +onlyGivenNames x
    | with_reducible apply Keeps.ite
    | split
    | with_reducible refine Keeps.upd ?_ rfl

theorem keeps_velocityLoop {s₀ s : State} (h : Keeps s₀ s) (p : Nat) : Keeps s₀ (velocityLoop s p) := by
  unfold velocityLoop
  repeat' first
    | with_reducible assumption
    | with_reducible apply keeps_setPier
    | extract_lets +onlyGivenNames x
    | with_reducible apply Keeps.ite
    | split
    | with_reducible refine Keeps.upd ?_ rfl

theorem keeps_inPosition {s₀ s : State} (h : Keeps s₀ s) (p : Nat) : Keeps s₀ (inPosition s p) := by
  unfold inPosition
  repeat' first
    | with_reducible assumption
    | with_reducible apply keeps_setPier
    | extract_lets +onlyGivenNames x
    | with_reducible apply Keeps.ite
    | split
    | with_reducible refine Keeps.upd ?_ rfl

theorem keeps_driveLoop {s₀ s : State} (h : Keeps s₀ s) (p : Nat) (m : Measured) (θ : Nat) : Keeps s₀ (driveLoop s p m θ) := by
  unfold driveLoop
  repeat' first
    | with_reducible assumption
    | with_reducible apply keeps_writeDuties
    | with_reducible apply keeps_setPier
    | with_reducible apply keeps_count
    | (extract_lets +onlyGivenNames x; refine Keeps.cut (s := x) ?_ (fun hx => ?_); subst x; rotate_left; clear_value x)
    | (extract_lets +onlyGivenNames x; refine Keeps.cut (s := Prod.fst x) ?_ (fun hx => ?_); subst x; rotate_left; clear_value x)
    | extract_lets +onlyGivenNames x
    | with_reducible apply Keeps.ite
    | split
    | with_reducible refine Keeps.upd ?_ rfl

theorem keeps_senseCheck {s₀ s : State} (h : Keeps s₀ s) (p : Nat) (m : Measured) : Keeps s₀ (senseCheck s p m) := by
  unfold senseCheck
  repeat' first
    | with_reducible assumption
    | with_reducible apply keeps_updPier
    | with_reducible apply keeps_pierFault
    | (extract_lets +onlyGivenNames x; refine Keeps.cut (s := x) ?_ (fun hx => ?_); subst x; rotate_left; clear_value x)
    | extract_lets +onlyGivenNames x
    | with_reducible apply Keeps.ite
    | split
    | with_reducible refine Keeps.upd ?_ rfl

theorem keeps_suspectReaction {s₀ s : State} (h : Keeps s₀ s) (p : Nat) : Keeps s₀ (suspectReaction s p) := by
  unfold suspectReaction
  repeat' first
    | with_reducible assumption
    | with_reducible apply keeps_pierFault
    | with_reducible apply keeps_dropStayOf
    | with_reducible apply keeps_abortGroupOf
    | with_reducible apply keeps_axisDone
    | with_reducible apply keeps_rampAxis
    | with_reducible apply keeps_updPier
    | (extract_lets +onlyGivenNames x; refine Keeps.cut (s := x) ?_ (fun hx => ?_); subst x; rotate_left; clear_value x)
    | extract_lets +onlyGivenNames x
    | with_reducible apply Keeps.ite
    | split
    | with_reducible refine Keeps.upd ?_ rfl

theorem keeps_commCheck {s₀ s : State} (h : Keeps s₀ s) (p : Nat) : Keeps s₀ (commCheck s p) := by
  unfold commCheck
  repeat' first
    | with_reducible assumption
    | with_reducible apply keeps_pierFault
    | extract_lets +onlyGivenNames x
    | with_reducible apply Keeps.ite
    | split

theorem keeps_pierEnds {s₀ s : State} (h : Keeps s₀ s) (p : Nat) : Keeps s₀ (pierEnds s p) := by
  unfold pierEnds
  repeat' first
    | with_reducible assumption
    | with_reducible apply keeps_axisDone
    | with_reducible apply keeps_motionEnd
    | with_reducible apply keeps_pierDisableNow
    | (extract_lets +onlyGivenNames x; refine Keeps.cut (s := x) ?_ (fun hx => ?_); subst x; rotate_left; clear_value x)
    | extract_lets +onlyGivenNames x
    | with_reducible apply Keeps.ite
    | split
    | with_reducible refine Keeps.upd ?_ rfl

theorem keeps_pierSample {s₀ s : State} (h : Keeps s₀ s) (m : Measured) (p : Nat) : Keeps s₀ (pierSample s m p) := by
  unfold pierSample
  repeat' first
    | with_reducible assumption
    | with_reducible apply keeps_senseCheck
    | with_reducible apply keeps_suspectReaction
    | with_reducible apply keeps_commCheck
    | with_reducible apply keeps_driveLoop
    | with_reducible apply keeps_setPier
    | with_reducible apply keeps_positionLoop
    | with_reducible apply keeps_velocityLoop
    | with_reducible apply keeps_pierEnds
    | with_reducible apply keeps_inPosition
    | (extract_lets +onlyGivenNames x; refine Keeps.cut (s := x) ?_ (fun hx => ?_); subst x; rotate_left; clear_value x)
    | extract_lets +onlyGivenNames x
    | with_reducible apply Keeps.ite
    | split
    | with_reducible refine Keeps.upd ?_ rfl

theorem keeps_pierDeadline {s₀ s : State} (h : Keeps s₀ s) (missed : Bool) (p : Nat) : Keeps s₀ (pierDeadline s missed p) := by
  unfold pierDeadline
  repeat' first
    | with_reducible assumption
    | with_reducible apply keeps_setPier
    | with_reducible apply keeps_pierFault
    | (extract_lets +onlyGivenNames x; refine Keeps.cut (s := x) ?_ (fun hx => ?_); subst x; rotate_left; clear_value x)
    | extract_lets +onlyGivenNames x
    | with_reducible apply Keeps.ite
    | split
    | with_reducible refine Keeps.upd ?_ rfl

theorem keeps_pierWait {s₀ s : State} (h : Keeps s₀ s) (f : Desc → Motion) (j : Job) : Keeps s₀ (pierWait f s j) :=
  keeps_updAxis (keeps_keep h _) _ _

theorem keeps_pierAlign {s₀ s : State} (h : Keeps s₀ s) (j : Job) : Keeps s₀ (pierAlign s j) := by
  unfold pierAlign
  repeat' first
    | with_reducible assumption
    | with_reducible apply keeps_keep
    | with_reducible apply keeps_takeCoefs
    | with_reducible apply keeps_updPier
    | (extract_lets +onlyGivenNames x; refine Keeps.cut (s := x) ?_ (fun hx => ?_); subst x; rotate_left; clear_value x)
    | extract_lets +onlyGivenNames x
    | split
    | with_reducible refine Keeps.upd ?_ rfl

theorem keeps_pierAlignDone {s₀ s : State} (h : Keeps s₀ s) (p : Nat) : Keeps s₀ (pierAlignDone s p) := by
  unfold pierAlignDone
  repeat' first
    | with_reducible assumption
    | with_reducible apply keeps_pierDisabled
    | with_reducible apply keeps_wr
    | with_reducible apply keeps_alignEnd
    | with_reducible apply keeps_updPier
    | (extract_lets +onlyGivenNames x; refine Keeps.cut (s := x) ?_ (fun hx => ?_); subst x; rotate_left; clear_value x)
    | extract_lets +onlyGivenNames x
    | with_reducible apply Keeps.ite
    | split
    | with_reducible refine Keeps.upd ?_ rfl

theorem keeps_pierMove {s₀ s : State} (h : Keeps s₀ s) (j : Job) : Keeps s₀ (pierMove s j) := by
  unfold pierMove
  repeat' first
    | with_reducible assumption
    | with_reducible apply keeps_admitMotion
    | extract_lets +onlyGivenNames x
    | split

theorem keeps_pierJog {s₀ s : State} (h : Keeps s₀ s) (j : Job) : Keeps s₀ (pierJog s j) := by
  unfold pierJog
  repeat' first | with_reducible assumption | with_reducible apply keeps_admitMotion

theorem keeps_pierTorque {s₀ s : State} (h : Keeps s₀ s) (j : Job) : Keeps s₀ (pierTorque s j) := by
  unfold pierTorque
  repeat' first
    | with_reducible assumption
    | with_reducible apply keeps_pierWait
    | extract_lets +onlyGivenNames x
    | split

theorem keeps_pierCoef {s₀ s : State} (h : Keeps s₀ s) (j : Job) : Keeps s₀ (pierCoef s j) := by
  unfold pierCoef
  repeat' first
    | with_reducible assumption
    | with_reducible apply keeps_updPier
    | with_reducible apply keeps_complete
    | (extract_lets +onlyGivenNames x; refine Keeps.cut (s := x) ?_ (fun hx => ?_); subst x; rotate_left; clear_value x)
    | (extract_lets +onlyGivenNames x; refine Keeps.cut (s := Prod.fst x) ?_ (fun hx => ?_); subst x; rotate_left; clear_value x)
    | extract_lets +onlyGivenNames x
    | with_reducible apply Keeps.ite
    | split
    | with_reducible refine Keeps.upd ?_ rfl

theorem keeps_doPierFilter {s₀ s : State} (h : Keeps s₀ s) (d : Desc) : Keeps s₀ (doPierFilter s d) := by
  unfold doPierFilter
  repeat' first
    | with_reducible assumption
    | with_reducible apply keeps_updPier
    | with_reducible refine Keeps.upd ?_ rfl

theorem keeps_doPierVolt {s₀ s : State} (h : Keeps s₀ s) (d : Desc) : Keeps s₀ (doPierVolt s d) := by
  unfold doPierVolt
  repeat' first
    | with_reducible assumption
    | with_reducible apply keeps_supersede
    | with_reducible apply keeps_updPier
    | with_reducible refine Keeps.upd ?_ rfl

theorem keeps_pierClear {s₀ s : State} (h : Keeps s₀ s) (j : Job) : Keeps s₀ (pierClear s j) := by
  unfold pierClear
  repeat' first
    | with_reducible assumption
    | with_reducible apply keeps_complete
    | with_reducible apply keeps_disableDone
    | with_reducible apply keeps_updPier
    | extract_lets +onlyGivenNames x
    | with_reducible apply Keeps.ite
    | split
    | with_reducible refine Keeps.upd ?_ rfl

theorem keeps_hallAlign {s₀ s : State} (h : Keeps s₀ s) (n old new : Nat) : Keeps s₀ (hallAlign s n old new) := by
  unfold hallAlign
  repeat' first
    | with_reducible assumption
    | with_reducible apply keeps_wr
    | with_reducible apply keeps_updPier
    | (with_reducible apply Keeps.foldl; intro s x hs)
    | extract_lets +onlyGivenNames x
    | with_reducible apply Keeps.ite
    | split
    | with_reducible refine Keeps.upd ?_ rfl

theorem keeps_hallChange {s₀ s : State} (h : Keeps s₀ s) (n code : Nat) : Keeps s₀ (hallChange s n code) := by
  unfold hallChange
  repeat' first
    | with_reducible assumption
    | with_reducible apply keeps_hallSample
    | with_reducible apply keeps_hallAlign
    | (extract_lets +onlyGivenNames x; refine Keeps.cut (s := x) ?_ (fun hx => ?_); subst x; rotate_left; clear_value x)
    | extract_lets +onlyGivenNames x
    | with_reducible apply Keeps.ite
    | split
    | with_reducible refine Keeps.upd ?_ rfl

end Sys2Proof.Machine
end

