-- ==== Sys2Proof/Laws/KeepsSg.lean ====
section
/-!
SUPPORT. One lemma for each definition of Machine/Sg.lean that answers a state: it keeps what `Keeps` says (Laws/Keeps.lean).
-/
namespace Sys2Proof.Machine
set_option Elab.async false
set_option linter.all false

theorem keeps_sgFlag {s₀ s : State} (h : Keeps s₀ s) (n mask : Nat) : Keeps s₀ (sgFlag s n mask) := by
  unfold sgFlag
  repeat' first | with_reducible assumption | with_reducible apply keeps_flag

theorem keeps_sgRate {s₀ s : State} (h : Keeps s₀ s) (n : Nat) : Keeps s₀ (sgRate s n) := by
  unfold sgRate
  repeat' first
    | with_reducible assumption
    | with_reducible apply keeps_setSg
    | with_reducible apply keeps_flagIf
    | (extract_lets +onlyGivenNames x; refine Keeps.cut (s := x) ?_ (fun hx => ?_); subst x; rotate_left; clear_value x)
    | (extract_lets +onlyGivenNames x; refine Keeps.cut (s := Prod.fst x) ?_ (fun hx => ?_); subst x; rotate_left; clear_value x)
    | extract_lets +onlyGivenNames x
    | with_reducible apply Keeps.ite
    | split
    | with_reducible refine Keeps.upd ?_ rfl

theorem keeps_sgQuiet {s₀ s : State} (h : Keeps s₀ s) (n : Nat) : Keeps s₀ (sgQuiet s n) := by
  unfold sgQuiet
  repeat' first
    | with_reducible assumption
    | with_reducible apply keeps_updSg
    | with_reducible apply keeps_legsOff
    | with_reducible apply keeps_setShadow
    | (with_reducible apply Keeps.foldl; intro s x hs)
    | (extract_lets +onlyGivenNames x; refine Keeps.cut (s := x) ?_ (fun hx => ?_); subst x; rotate_left; clear_value x)
    | extract_lets +onlyGivenNames x
    | with_reducible apply Keeps.ite
    | split
    | with_reducible refine Keeps.upd ?_ rfl

theorem keeps_sgDisabled {s₀ s : State} (h : Keeps s₀ s) (n : Nat) : Keeps s₀ (sgDisabled s n) := by
  unfold sgDisabled
  repeat' first
    | with_reducible assumption
    | with_reducible apply keeps_sgQuiet
    | with_reducible apply keeps_updAxis
    | with_reducible apply keeps_updSg
    | (extract_lets +onlyGivenNames x; refine Keeps.cut (s := x) ?_ (fun hx => ?_); subst x; rotate_left; clear_value x)
    | extract_lets +onlyGivenNames x
    | split
    | with_reducible refine Keeps.upd ?_ rfl

theorem keeps_sgFault {s₀ s : State} (h : Keeps s₀ s) (n cause : Nat) : Keeps s₀ (sgFault s n cause) := by
  unfold sgFault
  repeat' first
    | with_reducible assumption
    | with_reducible apply keeps_axisEnd
    | with_reducible apply keeps_dropStayOf
    | with_reducible apply keeps_abortGroupOf
    | with_reducible apply keeps_sgQuiet
    | with_reducible apply keeps_sgFlag
    | with_reducible apply keeps_updSg
    | with_reducible apply keeps_updAxis
    | (extract_lets +onlyGivenNames x; refine Keeps.cut (s := x) ?_ (fun hx => ?_); subst x; rotate_left; clear_value x)
    | extract_lets +onlyGivenNames x
    | with_reducible apply Keeps.ite
    | split
    | with_reducible refine Keeps.upd ?_ rfl

theorem keeps_sgForced {s₀ s : State} (h : Keeps s₀ s) (n : Nat) : Keeps s₀ (sgForced s n) := by
  unfold sgForced
  repeat' first
    | with_reducible assumption
    | with_reducible apply keeps_axisEnd
    | with_reducible apply keeps_sgDisabled
    | (extract_lets +onlyGivenNames x; refine Keeps.cut (s := x) ?_ (fun hx => ?_); subst x; rotate_left; clear_value x)
    | extract_lets +onlyGivenNames x
    | with_reducible apply Keeps.ite
    | split

theorem keeps_sgHold {s₀ s : State} (h : Keeps s₀ s) (n : Nat) : Keeps s₀ (sgHold s n) := by
  unfold sgHold
  repeat' first
    | with_reducible assumption
    | with_reducible apply keeps_axisEnd
    | with_reducible apply keeps_updSg
    | with_reducible apply keeps_updAxis
    | (extract_lets +onlyGivenNames x; refine Keeps.cut (s := x) ?_ (fun hx => ?_); subst x; rotate_left; clear_value x)
    | extract_lets +onlyGivenNames x
    | with_reducible apply Keeps.ite
    | split
    | with_reducible refine Keeps.upd ?_ rfl

theorem keeps_sgFollow {s₀ s : State} (h : Keeps s₀ s) (n : Nat) : Keeps s₀ (sgFollow s n) := by
  unfold sgFollow
  repeat' first
    | with_reducible assumption
    | with_reducible apply keeps_updAxis
    | (extract_lets +onlyGivenNames x; refine Keeps.cut (s := Prod.fst x) ?_ (fun hx => ?_); subst x; rotate_left; clear_value x)
    | extract_lets +onlyGivenNames x
    | with_reducible apply Keeps.ite
    | split
    | with_reducible refine Keeps.upd ?_ rfl

theorem keeps_sgTake {s₀ s : State} (h : Keeps s₀ s) (n : Nat) (job : Option Nat) (m : Bool) : Keeps s₀ (sgTake s n job m) := by
  unfold sgTake
  repeat' first
    | with_reducible assumption
    | with_reducible apply keeps_setJob
    | with_reducible apply keeps_supersede
    | with_reducible apply keeps_updAxis
    | with_reducible apply keeps_updSg
    | (extract_lets +onlyGivenNames x; refine Keeps.cut (s := x) ?_ (fun hx => ?_); subst x; rotate_left; clear_value x)
    | extract_lets +onlyGivenNames x
    | with_reducible apply Keeps.ite
    | split
    | with_reducible refine Keeps.upd ?_ rfl

theorem keeps_sgDisableNow {s₀ s : State} (h : Keeps s₀ s) (n : Nat) : Keeps s₀ (sgDisableNow s n) := by
  unfold sgDisableNow
  repeat' first
    | with_reducible assumption
    | with_reducible apply keeps_disableDone
    | with_reducible apply keeps_sgDisabled
    | with_reducible apply keeps_supersede

theorem keeps_sgSetPos {s₀ s : State} (h : Keeps s₀ s) (n : Nat) (p : Int) : Keeps s₀ (sgSetPos s n p) := by
  unfold sgSetPos
  repeat' first
    | with_reducible assumption
    | with_reducible apply keeps_updSg
    | with_reducible apply keeps_updAxis
    | (extract_lets +onlyGivenNames x; refine Keeps.cut (s := x) ?_ (fun hx => ?_); subst x; rotate_left; clear_value x)
    | extract_lets +onlyGivenNames x
    | split
    | with_reducible refine Keeps.upd ?_ rfl

theorem keeps_sgEnableNow {s₀ s : State} (h : Keeps s₀ s) (n : Nat) (job : Option Nat) : Keeps s₀ (sgEnableNow s n job) := by
  unfold sgEnableNow
  repeat' first
    | with_reducible assumption
    | with_reducible apply keeps_complete
    | with_reducible apply keeps_setSg
    | with_reducible apply keeps_updAxis
    | (extract_lets +onlyGivenNames x; refine Keeps.cut (s := x) ?_ (fun hx => ?_); subst x; rotate_left; clear_value x)
    | extract_lets +onlyGivenNames x
    | with_reducible apply Keeps.ite
    | split
    | with_reducible refine Keeps.upd ?_ rfl

theorem keeps_sgMotion {s₀ s : State} (h : Keeps s₀ s) (n : Nat) (x : Motion × Option Nat) : Keeps s₀ (sgMotion s n x) := by
  unfold sgMotion
  repeat' first
    | with_reducible assumption
    | with_reducible apply keeps_sgEnableNow
    | with_reducible apply keeps_updAxis
    | with_reducible apply keeps_rampAxis
    | with_reducible apply keeps_supersede
    | with_reducible apply keeps_sgDisableNow
    | with_reducible apply keeps_startMove
    | with_reducible apply keeps_sgTake
    | with_reducible apply keeps_startJog
    | with_reducible apply keeps_updGroup
    | with_reducible apply keeps_stayRelease0
    | with_reducible apply keeps_sgSetPos
    | with_reducible apply keeps_sgHold
    | with_reducible apply keeps_updSg
    | (extract_lets +onlyGivenNames x; refine Keeps.cut (s := x) ?_ (fun hx => ?_); subst x; rotate_left; clear_value x)
    | (extract_lets +onlyGivenNames x; refine Keeps.cut (s := Prod.fst x) ?_ (fun hx => ?_); subst x; rotate_left; clear_value x)
    | extract_lets +onlyGivenNames x
    | with_reducible apply Keeps.ite
    | split
    | with_reducible refine Keeps.upd ?_ rfl

theorem keeps_sgMotions {s₀ s : State} (h : Keeps s₀ s) (n : Nat) : Keeps s₀ (sgMotions s n) := by
  unfold sgMotions
  repeat' first
    | with_reducible assumption
    | with_reducible apply keeps_sgMotion
    | with_reducible apply keeps_updAxis
    | (with_reducible apply Keeps.foldl; intro s x hs)
    | extract_lets +onlyGivenNames x
    | split
    | with_reducible refine Keeps.upd ?_ rfl

theorem keeps_sgBoundary {s₀ s : State} (h : Keeps s₀ s) (n : Nat) : Keeps s₀ (sgBoundary s n) := by
  unfold sgBoundary
  repeat' first
    | with_reducible assumption
    | with_reducible apply keeps_updSg
    | with_reducible apply keeps_count
    | with_reducible apply keeps_sgMotions
    | (extract_lets +onlyGivenNames x; refine Keeps.cut (s := x) ?_ (fun hx => ?_); subst x; rotate_left; clear_value x)
    | extract_lets +onlyGivenNames x
    | with_reducible apply Keeps.ite
    | split
    | with_reducible refine Keeps.upd ?_ rfl

theorem keeps_sgOpen {s₀ s : State} (h : Keeps s₀ s) (n : Nat) : Keeps s₀ (sgOpen s n) := by
  unfold sgOpen
  repeat' first
    | with_reducible assumption
    | with_reducible apply keeps_sgRate
    | with_reducible apply keeps_sgFollow
    | with_reducible apply keeps_updSg
    | (extract_lets +onlyGivenNames x; refine Keeps.cut (s := x) ?_ (fun hx => ?_); subst x; rotate_left; clear_value x)
    | extract_lets +onlyGivenNames x
    | with_reducible apply Keeps.ite
    | split
    | with_reducible refine Keeps.upd ?_ rfl

theorem keeps_sgMode {s₀ s : State} (h : Keeps s₀ s) (n : Nat) : Keeps s₀ (sgMode s n) := by
  unfold sgMode
  repeat' first
    | with_reducible assumption
    | with_reducible apply keeps_setSg
    | extract_lets +onlyGivenNames x
    | with_reducible apply Keeps.ite
    | split
    | with_reducible refine Keeps.upd ?_ rfl

theorem keeps_sgCheck {s₀ s : State} (h : Keeps s₀ s) (n : Nat) : Keeps s₀ (sgCheck s n) := by
  unfold sgCheck
  repeat' first
    | with_reducible assumption
    | with_reducible apply keeps_setSg
    | with_reducible apply keeps_sgFault
    | (extract_lets +onlyGivenNames x; refine Keeps.cut (s := x) ?_ (fun hx => ?_); subst x; rotate_left; clear_value x)
    | extract_lets +onlyGivenNames x
    | with_reducible apply Keeps.ite
    | split
    | with_reducible refine Keeps.upd ?_ rfl

theorem keeps_sgCoils {s₀ s : State} (h : Keeps s₀ s) (n : Nat) (m : Measured) : Keeps s₀ (sgCoils s n m) := by
  unfold sgCoils
  repeat' first
    | with_reducible assumption
    | with_reducible apply keeps_sgFault
    | with_reducible apply keeps_setShadow
    | with_reducible apply keeps_setSg
    | (with_reducible apply Keeps.foldl; intro s x hs)
    | (extract_lets +onlyGivenNames x; refine Keeps.cut (s := x) ?_ (fun hx => ?_); subst x; rotate_left; clear_value x)
    | (extract_lets +onlyGivenNames x; refine Keeps.cut (s := Prod.fst x) ?_ (fun hx => ?_); subst x; rotate_left; clear_value x)
    | extract_lets +onlyGivenNames x
    | with_reducible apply Keeps.ite
    | split
    | with_reducible refine Keeps.upd ?_ rfl

theorem keeps_sgEnds {s₀ s : State} (h : Keeps s₀ s) (n : Nat) : Keeps s₀ (sgEnds s n) := by
  unfold sgEnds
  repeat' first
    | with_reducible assumption
    | with_reducible apply keeps_axisDone
    | with_reducible apply keeps_motionEnd
    | with_reducible apply keeps_sgDisableNow
    | (extract_lets +onlyGivenNames x; refine Keeps.cut (s := x) ?_ (fun hx => ?_); subst x; rotate_left; clear_value x)
    | extract_lets +onlyGivenNames x
    | with_reducible apply Keeps.ite
    | split
    | with_reducible refine Keeps.upd ?_ rfl

theorem keeps_sgSample {s₀ s : State} (h : Keeps s₀ s) (m : Measured) (n : Nat) : Keeps s₀ (sgSample s m n) := by
  unfold sgSample
  repeat' first
    | with_reducible assumption
    | with_reducible apply keeps_sgCoils
    | with_reducible apply keeps_sgCheck
    | with_reducible apply keeps_sgEnds
    | with_reducible apply keeps_sgMode
    | (extract_lets +onlyGivenNames x; refine Keeps.cut (s := x) ?_ (fun hx => ?_); subst x; rotate_left; clear_value x)
    | extract_lets +onlyGivenNames x
    | with_reducible apply Keeps.ite
    | split

theorem keeps_stepEmit {s₀ s : State} (h : Keeps s₀ s) (n : Nat) : Keeps s₀ (stepEmit s n) := by
  unfold stepEmit
  repeat' first
    | with_reducible assumption
    | with_reducible apply keeps_setSg
    | with_reducible apply keeps_updAxis
    | (extract_lets +onlyGivenNames x; refine Keeps.cut (s := x) ?_ (fun hx => ?_); subst x; rotate_left; clear_value x)
    | extract_lets +onlyGivenNames x
    | with_reducible apply Keeps.ite
    | split
    | with_reducible refine Keeps.upd ?_ rfl

theorem keeps_stepFall {s₀ s : State} (h : Keeps s₀ s) (n : Nat) : Keeps s₀ (stepFall s n) := by
  unfold stepFall
  repeat' first
    | with_reducible assumption
    | with_reducible apply keeps_setSg
    | extract_lets +onlyGivenNames x
    | with_reducible apply Keeps.ite
    | split
    | with_reducible refine Keeps.upd ?_ rfl

theorem keeps_sgStandstill {s₀ s : State} (h : Keeps s₀ s) (n : Nat) : Keeps s₀ (sgStandstill s n) := by
  unfold sgStandstill
  repeat' first
    | with_reducible assumption
    | with_reducible apply keeps_setSg
    | extract_lets +onlyGivenNames x
    | with_reducible apply Keeps.ite
    | split
    | with_reducible refine Keeps.upd ?_ rfl

theorem keeps_limitStop {s₀ s : State} (h : Keeps s₀ s) (a : Nat) : Keeps s₀ (limitStop s a) := by
  unfold limitStop
  repeat' first
    | with_reducible assumption
    | with_reducible apply keeps_axisDone
    | with_reducible apply keeps_abortGroupOf
    | with_reducible apply keeps_releaseDone
    | with_reducible apply keeps_engageDone
    | with_reducible apply keeps_stayRamp
    | with_reducible apply keeps_updAxis
    | with_reducible apply keeps_pierRamp
    | with_reducible apply keeps_pierFlag
    | with_reducible apply keeps_updSg
    | with_reducible apply keeps_rampAxis
    | with_reducible apply keeps_sgFlag
    | with_reducible apply keeps_count
    | (extract_lets +onlyGivenNames x; refine Keeps.cut (s := x) ?_ (fun hx => ?_); subst x; rotate_left; clear_value x)
    | extract_lets +onlyGivenNames x
    | with_reducible apply Keeps.ite
    | split
    | with_reducible refine Keeps.upd ?_ rfl

theorem keeps_setLimState {s₀ s : State} (h : Keeps s₀ s) (a : Nat) (on : Bool) : Keeps s₀ (setLimState s a on) := by
  unfold setLimState
  repeat' first | with_reducible assumption | with_reducible apply keeps_setFld

theorem keeps_limitAxis {s₀ s : State} (h : Keeps s₀ s) (before : State) (a : Nat) : Keeps s₀ (limitAxis before s a) := by
  unfold limitAxis
  repeat' first
    | with_reducible assumption
    | with_reducible apply keeps_setLimState
    | with_reducible apply keeps_limitStop
    | (extract_lets +onlyGivenNames x; refine Keeps.cut (s := x) ?_ (fun hx => ?_); subst x; rotate_left; clear_value x)
    | extract_lets +onlyGivenNames x
    | with_reducible apply Keeps.ite
    | split

theorem keeps_limitInput {s₀ s : State} (h : Keeps s₀ s) (i : Nat) (high : Bool) : Keeps s₀ (limitInput s i high) := by
  unfold limitInput
  repeat' first
    | with_reducible assumption
    | with_reducible apply keeps_limitAxis
    | (with_reducible apply Keeps.foldl; intro s x hs)
    | (extract_lets +onlyGivenNames x; refine Keeps.cut (s := x) ?_ (fun hx => ?_); subst x; rotate_left; clear_value x)
    | extract_lets +onlyGivenNames x
    | split
    | with_reducible refine Keeps.upd ?_ rfl

theorem keeps_pierLimit {s₀ s : State} (h : Keeps s₀ s) (p : Nat) : Keeps s₀ (pierLimit s p) := by
  unfold pierLimit
  repeat' first
    | with_reducible assumption
    | with_reducible apply keeps_updAxis
    | with_reducible apply keeps_updPier
    | (extract_lets +onlyGivenNames x; refine Keeps.cut (s := x) ?_ (fun hx => ?_); subst x; rotate_left; clear_value x)
    | extract_lets +onlyGivenNames x
    | with_reducible apply Keeps.ite
    | split
    | with_reducible refine Keeps.upd ?_ rfl

theorem keeps_sgWait {s₀ s : State} (h : Keeps s₀ s) (f : Desc → Motion) (j : Job) : Keeps s₀ (sgWait f s j) :=
  keeps_updAxis (keeps_keep h _) _ _

theorem keeps_sgNext {s₀ s : State} (h : Keeps s₀ s) (n : Nat) (m : Motion) : Keeps s₀ (sgNext s n m) := by
  unfold sgNext
  repeat' first
    | with_reducible assumption
    | with_reducible apply keeps_updAxis
    | with_reducible refine Keeps.upd ?_ rfl

theorem keeps_sgEnable {s₀ s : State} (h : Keeps s₀ s) (j : Job) : Keeps s₀ (sgEnable s j) := by
  unfold sgEnable
  repeat' first
    | with_reducible assumption
    | with_reducible apply keeps_complete
    | with_reducible apply keeps_sgFlag
    | with_reducible apply keeps_sgWait
    | extract_lets +onlyGivenNames x
    | with_reducible apply Keeps.ite
    | split

theorem keeps_sgMove {s₀ s : State} (h : Keeps s₀ s) (j : Job) : Keeps s₀ (sgMove s j) := by
  unfold sgMove
  repeat' first
    | with_reducible assumption
    | with_reducible apply keeps_admitMotion
    | extract_lets +onlyGivenNames x
    | split

theorem keeps_sgJog {s₀ s : State} (h : Keeps s₀ s) (j : Job) : Keeps s₀ (sgJog s j) := by
  unfold sgJog
  repeat' first
    | with_reducible assumption
    | with_reducible apply keeps_admitMotion
    | extract_lets +onlyGivenNames x
    | split

theorem keeps_sgSetPosOp {s₀ s : State} (h : Keeps s₀ s) (j : Job) : Keeps s₀ (sgSetPosOp s j) := by
  unfold sgSetPosOp
  repeat' first
    | with_reducible assumption
    | with_reducible apply keeps_complete
    | with_reducible apply keeps_sgNext
    | extract_lets +onlyGivenNames x
    | with_reducible apply Keeps.ite
    | split

theorem keeps_sgClear {s₀ s : State} (h : Keeps s₀ s) (j : Job) : Keeps s₀ (sgClear s j) := by
  unfold sgClear
  repeat' first
    | with_reducible assumption
    | with_reducible apply keeps_complete
    | with_reducible apply keeps_disableDone
    | with_reducible apply keeps_setSg
    | extract_lets +onlyGivenNames x
    | with_reducible apply Keeps.ite
    | split
    | with_reducible refine Keeps.upd ?_ rfl

end Sys2Proof.Machine
end

