-- ==== Sys2Proof/Laws/KeepsTrips.lean ====
section
/-!
SUPPORT. One lemma for each definition of Machine/Trips.lean that answers a state: it keeps what `Keeps` says (Laws/Keeps.lean).
-/
namespace Sys2Proof.Machine
set_option Elab.async false
set_option linter.all false

theorem keeps_tripAxis {s₀ s : State} (h : Keeps s₀ s) (st : Nat) : Keeps s₀ (tripAxis s st) := by
  unfold tripAxis
  repeat' first
    | with_reducible assumption
    | with_reducible apply keeps_pierFault
    | with_reducible apply keeps_sgFault
    | with_reducible apply Keeps.ite
    | split
    | with_reducible refine Keeps.upd ?_ rfl

theorem keeps_trip {s₀ s : State} (h : Keeps s₀ s) (st cause : Nat) : Keeps s₀ (trip s st cause) := by
  unfold trip
  repeat' first
    | with_reducible assumption
    | with_reducible apply keeps_setStage
    | with_reducible apply keeps_stageFlag
    | with_reducible apply keeps_count
    | with_reducible apply keeps_tripAxis
    | with_reducible apply keeps_legsOff
    | (extract_lets +onlyGivenNames x; refine Keeps.cut (s := x) ?_ (fun hx => ?_); subst x; rotate_left; clear_value x)
    | extract_lets +onlyGivenNames x
    | with_reducible apply Keeps.ite
    | split
    | with_reducible refine Keeps.upd ?_ rfl

theorem keeps_clearStage {s₀ s : State} (h : Keeps s₀ s) (st : Nat) : Keeps s₀ (clearStage s st) := by
  unfold clearStage
  repeat' first
    | with_reducible assumption
    | with_reducible apply keeps_setStage
    | with_reducible apply keeps_stageFlag
    | with_reducible apply keeps_count
    | extract_lets +onlyGivenNames x
    | with_reducible apply Keeps.ite
    | split
    | with_reducible refine Keeps.upd ?_ rfl

theorem keeps_tripFooting {s₀ s : State} (h : Keeps s₀ s) (f cause : Nat) : Keeps s₀ (tripFooting s f cause) := by
  unfold tripFooting
  repeat' first
    | with_reducible assumption
    | with_reducible apply keeps_trip
    | (with_reducible apply Keeps.foldl; intro s x hs)

theorem keeps_ftFlag {s₀ s : State} (h : Keeps s₀ s) (f mask : Nat) : Keeps s₀ (ftFlag s f mask) := by
  unfold ftFlag
  repeat' first | with_reducible assumption | with_reducible apply keeps_flag

theorem keeps_shootThrough {s₀ s : State} (h : Keeps s₀ s) (ch st : Nat) : Keeps s₀ (shootThrough s ch st) := by
  unfold shootThrough
  repeat' first
    | with_reducible assumption
    | with_reducible apply keeps_setPwm
    | with_reducible apply keeps_stageFlag
    | with_reducible apply keeps_count
    | with_reducible apply keeps_updStage
    | with_reducible apply keeps_trip
    | (extract_lets +onlyGivenNames x; refine Keeps.cut (s := x) ?_ (fun hx => ?_); subst x; rotate_left; clear_value x)
    | (extract_lets +onlyGivenNames x; refine Keeps.cut (s := Prod.fst x) ?_ (fun hx => ?_); subst x; rotate_left; clear_value x)
    | extract_lets +onlyGivenNames x
    | with_reducible apply Keeps.ite
    | split
    | with_reducible refine Keeps.upd ?_ rfl

theorem keeps_evalAux {s₀ s : State} (h : Keeps s₀ s) (a t64 : Nat) : Keeps s₀ (evalAux s a t64) := by
  unfold evalAux
  repeat' first
    | with_reducible assumption
    | with_reducible apply keeps_setPwm
    | extract_lets +onlyGivenNames x
    | with_reducible apply Keeps.ite
    | split
    | with_reducible refine Keeps.upd ?_ rfl

theorem keeps_evalLeg {s₀ s : State} (h : Keeps s₀ s) (ch t64 : Nat) (bootOk : Bool) (sense : Int) :
    Keeps s₀ (evalLeg s ch t64 bootOk sense) := by
  unfold evalLeg
  repeat' first
    | with_reducible assumption
    | with_reducible apply keeps_evalAux
    | with_reducible apply keeps_setPwm
    | with_reducible apply keeps_chopStep
    | with_reducible apply keeps_updPwm
    | with_reducible apply keeps_shootThrough
    | with_reducible apply keeps_stageFlag
    | with_reducible apply keeps_count
    | (extract_lets +onlyGivenNames x; refine Keeps.cut (s := x) ?_ (fun hx => ?_); subst x; rotate_left; clear_value x)
    | (extract_lets +onlyGivenNames x; refine Keeps.cut (s := Prod.fst x) ?_ (fun hx => ?_); subst x; rotate_left; clear_value x)
    | extract_lets +onlyGivenNames x
    | with_reducible apply Keeps.ite
    | split
    | with_reducible refine Keeps.upd ?_ rfl

theorem keeps_evalStage {s₀ s : State} (h : Keeps s₀ s) (st : Nat) : Keeps s₀ (evalStage s st) := by
  unfold evalStage
  repeat' first
    | with_reducible assumption
    | with_reducible apply keeps_evalLeg
    | (with_reducible apply Keeps.foldl; intro s x hs)

theorem keeps_periodStart {s₀ s : State} (h : Keeps s₀ s) (ch : Nat) : Keeps s₀ (periodStart s ch) := by
  unfold periodStart
  repeat' first
    | with_reducible assumption
    | with_reducible apply keeps_setPwm
    | with_reducible apply keeps_updStage
    | with_reducible apply keeps_evalLeg
    | with_reducible apply keeps_setFld
    | (extract_lets +onlyGivenNames x; refine Keeps.cut (s := x) ?_ (fun hx => ?_); subst x; rotate_left; clear_value x)
    | extract_lets +onlyGivenNames x
    | with_reducible apply Keeps.ite
    | split
    | with_reducible refine Keeps.upd ?_ rfl

theorem keeps_compareEdge {s₀ s : State} (h : Keeps s₀ s) (ch t64 bootMv : Nat) (sense : Int) :
    Keeps s₀ (compareEdge s ch t64 bootMv sense) := by
  unfold compareEdge
  repeat' first | with_reducible assumption | with_reducible apply keeps_evalLeg

theorem keeps_doDesat {s₀ s : State} (h : Keeps s₀ s) (g leg : Nat) (high : Bool) (mv : Nat) :
    Keeps s₀ (doDesat s g leg high mv) := by
  unfold doDesat
  repeat' first
    | with_reducible assumption
    | with_reducible apply keeps_trip
    | extract_lets +onlyGivenNames x
    | with_reducible apply Keeps.ite
    | split

theorem keeps_doOvercurrent {s₀ s : State} (h : Keeps s₀ s) (g leg : Nat) (i : Int) : Keeps s₀ (doOvercurrent s g leg i) := by
  unfold doOvercurrent
  repeat' first
    | with_reducible assumption
    | with_reducible apply keeps_trip
    | extract_lets +onlyGivenNames x
    | with_reducible apply Keeps.ite
    | split

theorem keeps_doBusOv {s₀ s : State} (h : Keeps s₀ s) (g mv : Nat) : Keeps s₀ (doBusOv s g mv) := by
  unfold doBusOv
  repeat' first
    | with_reducible assumption
    | with_reducible apply keeps_updStage
    | with_reducible apply keeps_trip
    | (extract_lets +onlyGivenNames x; refine Keeps.cut (s := x) ?_ (fun hx => ?_); subst x; rotate_left; clear_value x)
    | extract_lets +onlyGivenNames x
    | with_reducible apply Keeps.ite
    | split
    | with_reducible refine Keeps.upd ?_ rfl

theorem keeps_doGateUv {s₀ s : State} (h : Keeps s₀ s) (f mv : Nat) : Keeps s₀ (doGateUv s f mv) := by
  unfold doGateUv
  repeat' first
    | with_reducible assumption
    | with_reducible apply keeps_tripFooting
    | with_reducible apply keeps_ftFlag
    | (extract_lets +onlyGivenNames x; refine Keeps.cut (s := x) ?_ (fun hx => ?_); subst x; rotate_left; clear_value x)
    | extract_lets +onlyGivenNames x
    | with_reducible apply Keeps.ite
    | split
    | with_reducible refine Keeps.upd ?_ rfl

theorem keeps_doFootOt {s₀ s : State} (h : Keeps s₀ s) (f : Nat) (c : Int) : Keeps s₀ (doFootOt s f c) := by
  unfold doFootOt
  repeat' first
    | with_reducible assumption
    | with_reducible apply keeps_tripFooting
    | with_reducible apply keeps_ftFlag
    | (extract_lets +onlyGivenNames x; refine Keeps.cut (s := x) ?_ (fun hx => ?_); subst x; rotate_left; clear_value x)
    | extract_lets +onlyGivenNames x
    | with_reducible apply Keeps.ite
    | split
    | with_reducible refine Keeps.upd ?_ rfl

theorem keeps_doXflt {s₀ s : State} (h : Keeps s₀ s) (n : Nat) (low : Bool) : Keeps s₀ (doXflt s n low) := by
  unfold doXflt
  repeat' first
    | with_reducible assumption
    | with_reducible apply keeps_updStage
    | with_reducible apply keeps_trip
    | (extract_lets +onlyGivenNames x; refine Keeps.cut (s := x) ?_ (fun hx => ?_); subst x; rotate_left; clear_value x)
    | extract_lets +onlyGivenNames x
    | with_reducible apply Keeps.ite
    | split
    | with_reducible refine Keeps.upd ?_ rfl

theorem keeps_gdLow {s₀ s : State} (h : Keeps s₀ s) (f : Nat) : Keeps s₀ (gdLow s f) := by
  unfold gdLow
  repeat' first
    | with_reducible assumption
    | with_reducible apply keeps_gdHigh
    | with_reducible apply keeps_ftFlag
    | with_reducible apply keeps_updFooting
    | with_reducible apply keeps_trip
    | with_reducible apply keeps_legsOff
    | (with_reducible apply Keeps.foldl; intro s x hs)
    | (extract_lets +onlyGivenNames x; refine Keeps.cut (s := x) ?_ (fun hx => ?_); subst x; rotate_left; clear_value x)
    | extract_lets +onlyGivenNames x
    | with_reducible apply Keeps.ite
    | split
    | with_reducible refine Keeps.upd ?_ rfl

theorem keeps_gdHigh {s₀ s : State} (h : Keeps s₀ s) (f : Nat) : Keeps s₀ (gdHigh s f) := by
  unfold gdHigh
  repeat' first
    | with_reducible assumption
    | with_reducible apply keeps_setFooting
    | with_reducible apply keeps_ftFlag
    | with_reducible apply keeps_count
    | with_reducible apply keeps_clearStage
    | (with_reducible apply Keeps.foldl; intro s x hs)
    | (extract_lets +onlyGivenNames x; refine Keeps.cut (s := x) ?_ (fun hx => ?_); subst x; rotate_left; clear_value x)
    | extract_lets +onlyGivenNames x
    | with_reducible apply Keeps.ite
    | split
    | with_reducible refine Keeps.upd ?_ rfl

theorem keeps_ginChange {s₀ s : State} (h : Keeps s₀ s) (g code : Nat) : Keeps s₀ (ginChange s g code) := by
  unfold ginChange
  repeat' first
    | with_reducible assumption
    | with_reducible apply keeps_setStage
    | with_reducible apply keeps_gdHigh
    | with_reducible apply keeps_clearStage
    | with_reducible apply keeps_evalStage
    | with_reducible apply keeps_stageFlag
    | with_reducible apply keeps_count
    | (extract_lets +onlyGivenNames x; refine Keeps.cut (s := x) ?_ (fun hx => ?_); subst x; rotate_left; clear_value x)
    | extract_lets +onlyGivenNames x
    | with_reducible apply Keeps.ite
    | split
    | with_reducible refine Keeps.upd ?_ rfl

theorem keeps_writePwmx {s₀ s : State} (h : Keeps s₀ s) (n w : Nat) : Keeps s₀ (writePwmx s n w) := by
  unfold writePwmx
  repeat' first
    | with_reducible assumption
    | with_reducible apply keeps_flag
    | with_reducible apply keeps_evalStage
    | with_reducible apply keeps_wr
    | with_reducible apply keeps_updStage
    | with_reducible apply Keeps.ite
    | split
    | with_reducible refine Keeps.upd ?_ rfl

theorem keeps_freezeStage {s₀ s : State} (h : Keeps s₀ s) (st : Nat) : Keeps s₀ (freezeStage s st) := by
  unfold freezeStage
  repeat' first
    | with_reducible assumption
    | with_reducible apply keeps_updStage
    | with_reducible apply keeps_updSg
    | (extract_lets +onlyGivenNames x; refine Keeps.cut (s := x) ?_ (fun hx => ?_); subst x; rotate_left; clear_value x)
    | extract_lets +onlyGivenNames x
    | with_reducible apply Keeps.ite
    | split
    | with_reducible refine Keeps.upd ?_ rfl

theorem keeps_unhalt {s₀ s : State} (h : Keeps s₀ s) (st : Nat) : Keeps s₀ (unhalt s st) := by
  unfold unhalt
  repeat' first
    | with_reducible assumption
    | with_reducible apply keeps_updSg
    | extract_lets +onlyGivenNames x
    | with_reducible apply Keeps.ite
    | split
    | with_reducible refine Keeps.upd ?_ rfl

theorem keeps_newest {s₀ s : State} (h : Keeps s₀ s) (ch : Nat) : Keeps s₀ (newest s ch) := by
  unfold newest
  repeat' first
    | with_reducible assumption
    | with_reducible apply keeps_updPwm
    | with_reducible refine Keeps.upd ?_ rfl

theorem keeps_pwmRestart {s₀ s : State} (h : Keeps s₀ s) : Keeps s₀ (pwmRestart s) := by
  unfold pwmRestart
  repeat' first
    | with_reducible assumption
    | with_reducible apply keeps_unhalt
    | with_reducible apply keeps_updStage
    | with_reducible apply keeps_evalLeg
    | with_reducible apply keeps_newest
    | with_reducible apply keeps_updAux
    | with_reducible apply keeps_evalAux
    | with_reducible apply keeps_complete
    | (with_reducible apply Keeps.foldl; intro s x hs)
    | (extract_lets +onlyGivenNames x; refine Keeps.cut (s := x) ?_ (fun hx => ?_); subst x; rotate_left; clear_value x)
    | extract_lets +onlyGivenNames x
    | with_reducible apply Keeps.ite
    | split
    | with_reducible refine Keeps.upd ?_ rfl

theorem keeps_pwmModeChange {s₀ s : State} (h : Keeps s₀ s) : Keeps s₀ (pwmModeChange s) := by
  unfold pwmModeChange
  repeat' first
    | with_reducible assumption
    | with_reducible apply keeps_unhalt
    | with_reducible apply keeps_updStage
    | with_reducible apply keeps_updAux
    | with_reducible apply keeps_updPwm
    | with_reducible apply keeps_legsOff
    | (with_reducible apply Keeps.foldl; intro s x hs)
    | (extract_lets +onlyGivenNames x; refine Keeps.cut (s := x) ?_ (fun hx => ?_); subst x; rotate_left; clear_value x)
    | (extract_lets +onlyGivenNames x; refine Keeps.cut (s := Prod.fst x) ?_ (fun hx => ?_); subst x; rotate_left; clear_value x)
    | extract_lets +onlyGivenNames x
    | with_reducible apply Keeps.ite
    | split
    | with_reducible refine Keeps.upd ?_ rfl

theorem keeps_frozenOn {s₀ s : State} (h : Keeps s₀ s) (st : Nat) : Keeps s₀ (frozenOn s st) := by
  unfold frozenOn
  repeat' first
    | with_reducible assumption
    | with_reducible apply keeps_flag
    | with_reducible apply keeps_count
    | with_reducible apply keeps_trip
    | extract_lets +onlyGivenNames x
    | with_reducible apply Keeps.ite
    | split
    | with_reducible refine Keeps.upd ?_ rfl

theorem keeps_auxBoundary {s₀ s : State} (h : Keeps s₀ s) (a : Nat) : Keeps s₀ (auxBoundary s a) := by
  unfold auxBoundary
  repeat' first
    | with_reducible assumption
    | with_reducible apply keeps_setAux
    | with_reducible apply keeps_updPwm
    | (extract_lets +onlyGivenNames x; refine Keeps.cut (s := x) ?_ (fun hx => ?_); subst x; rotate_left; clear_value x)
    | extract_lets +onlyGivenNames x
    | with_reducible apply Keeps.ite
    | split
    | with_reducible refine Keeps.upd ?_ rfl

theorem keeps_busSense {s₀ s : State} (h : Keeps s₀ s) (m : Measured) : Keeps s₀ (busSense s m) := by
  unfold busSense
  repeat' first
    | with_reducible assumption
    | with_reducible apply keeps_updStage
    | (with_reducible apply Keeps.foldl; intro s x hs)
    | with_reducible refine Keeps.upd ?_ rfl

theorem keeps_doPwmRaw {s₀ s : State} (h : Keeps s₀ s) (d : Desc) : Keeps s₀ (doPwmRaw s d) := by
  unfold doPwmRaw
  repeat' first
    | with_reducible assumption
    | with_reducible apply keeps_setShadow
    | with_reducible apply Keeps.ite
    | split
    | with_reducible refine Keeps.upd ?_ rfl

theorem keeps_doGateMask {s₀ s : State} (h : Keeps s₀ s) (d : Desc) : Keeps s₀ (doGateMask s d) := by
  unfold doGateMask
  repeat' first
    | with_reducible assumption
    | with_reducible apply keeps_updStage
    | with_reducible apply keeps_evalStage
    | (extract_lets +onlyGivenNames x; refine Keeps.cut (s := x) ?_ (fun hx => ?_); subst x; rotate_left; clear_value x)
    | extract_lets +onlyGivenNames x
    | with_reducible apply Keeps.ite
    | split
    | with_reducible refine Keeps.upd ?_ rfl

theorem keeps_doPwmHalt {s₀ s : State} (h : Keeps s₀ s) (d : Desc) : Keeps s₀ (doPwmHalt s d) := by
  unfold doPwmHalt
  repeat' first
    | with_reducible assumption
    | with_reducible apply keeps_updAux
    | with_reducible apply keeps_freezeStage
    | (with_reducible apply Keeps.foldl; intro s x hs)
    | with_reducible refine Keeps.upd ?_ rfl

theorem keeps_pwmResume {s₀ s : State} (h : Keeps s₀ s) (j : Job) : Keeps s₀ (pwmResume s j) := by
  unfold pwmResume
  repeat' first
    | with_reducible assumption
    | with_reducible apply keeps_updStage
    | with_reducible apply keeps_updAux
    | with_reducible apply keeps_keep
    | (with_reducible apply Keeps.foldl; intro s x hs)
    | (extract_lets +onlyGivenNames x; refine Keeps.cut (s := x) ?_ (fun hx => ?_); subst x; rotate_left; clear_value x)
    | extract_lets +onlyGivenNames x
    | with_reducible apply Keeps.ite
    | split
    | with_reducible refine Keeps.upd ?_ rfl

theorem keeps_groupInfo {s₀ s : State} (h : Keeps s₀ s) (j : Job) : Keeps s₀ (groupInfo s j) := by
  unfold groupInfo
  repeat' first
    | with_reducible assumption
    | with_reducible apply keeps_complete
    | extract_lets +onlyGivenNames x
    | split

end Sys2Proof.Machine
end

