-- ==== Sys2Proof/Laws/KeepsCan.lean ====
section
/-!
SUPPORT. One lemma for each definition of Machine/Can.lean that answers a state: it keeps what `Keeps` says (Laws/Keeps.lean).
-/
namespace Sys2Proof.Machine
set_option Elab.async false
set_option linter.all false

theorem keeps_canFlag {s₀ s : State} (h : Keeps s₀ s) (c mask : Nat) : Keeps s₀ (canFlag s c mask) := by
  unfold canFlag
  repeat' first | with_reducible assumption | with_reducible apply keeps_flag

theorem keeps_canErrState {s₀ s : State} (h : Keeps s₀ s) (c : Nat) : Keeps s₀ (canErrState s c) := by
  unfold canErrState
  repeat' first
    | with_reducible assumption
    | with_reducible apply keeps_flagIf
    | with_reducible apply keeps_setCan
    | extract_lets +onlyGivenNames x
    | with_reducible apply Keeps.ite
    | split
    | with_reducible refine Keeps.upd ?_ rfl

theorem keeps_canPut {s₀ s : State} (h : Keeps s₀ s) (j : Job) (data : List Byte) : Keeps s₀ (canPut s j data) := by
  unfold canPut
  repeat' first
    | with_reducible assumption
    | with_reducible apply keeps_complete
    | with_reducible apply keeps_keep
    | with_reducible apply keeps_setCan
    | extract_lets +onlyGivenNames x
    | with_reducible apply Keeps.ite
    | split
    | with_reducible refine Keeps.upd ?_ rfl

theorem keeps_canAdmit {s₀ s : State} (h : Keeps s₀ s) (j : Job) : Keeps s₀ (canAdmit s j) := by
  unfold canAdmit
  repeat' first
    | with_reducible assumption
    | with_reducible apply keeps_keep
    | with_reducible apply keeps_dropJob
    | with_reducible apply keeps_canPut
    | (extract_lets +onlyGivenNames x; refine Keeps.cut (s := x) ?_ (fun hx => ?_); subst x; rotate_left; clear_value x)
    | extract_lets +onlyGivenNames x
    | with_reducible apply Keeps.ite
    | split
    | with_reducible refine Keeps.upd ?_ rfl

theorem keeps_canTxStart {s₀ s : State} (h : Keeps s₀ s) (hostData : List Byte) (j : Job) :
    Keeps s₀ (canTxStart hostData s j) := by
  unfold canTxStart
  repeat' first
    | with_reducible assumption
    | with_reducible apply keeps_canAdmit
    | extract_lets +onlyGivenNames x
    | with_reducible apply Keeps.ite
    | split
    | with_reducible refine Keeps.upd ?_ rfl

theorem keeps_canRetry {s₀ s : State} (h : Keeps s₀ s) (c : Nat) : Keeps s₀ (canRetry s c) := by
  unfold canRetry
  repeat' first
    | with_reducible assumption
    | with_reducible apply keeps_complete
    | with_reducible apply keeps_planNow
    | with_reducible apply keeps_canAdmit
    | (with_reducible apply Keeps.foldl; intro s x hs)
    | split
    | with_reducible refine Keeps.upd ?_ rfl

theorem keeps_canXlArrive {s₀ s : State} (h : Keeps s₀ s) (id : Nat) (data : List Byte) : Keeps s₀ (canXlArrive s id data) := by
  unfold canXlArrive
  repeat' first
    | with_reducible assumption
    | with_reducible apply keeps_complete
    | with_reducible apply keeps_canPut
    | with_reducible apply Keeps.ite
    | split
    | with_reducible refine Keeps.upd ?_ rfl

theorem keeps_canXlSlice {s₀ s : State} (h : Keeps s₀ s) (j : Job) : Keeps s₀ (canXlSlice s j) := by
  unfold canXlSlice
  repeat' first | with_reducible assumption | with_reducible apply keeps_keep

theorem keeps_canEndSlots {s₀ s : State} (h : Keeps s₀ s) (c : Nat) (f : CanSlot → Bool) (st res : Nat) :
    Keeps s₀ (canEndSlots s c f st res) := by
  unfold canEndSlots
  repeat' first
    | with_reducible assumption
    | with_reducible apply keeps_updCan
    | with_reducible apply keeps_complete
    | (with_reducible apply Keeps.foldl; intro s x hs)
    | (extract_lets +onlyGivenNames x; refine Keeps.cut (s := x) ?_ (fun hx => ?_); subst x; rotate_left; clear_value x)
    | extract_lets +onlyGivenNames x
    | split
    | with_reducible refine Keeps.upd ?_ rfl

theorem keeps_canDropTenant {s₀ s : State} (h : Keeps s₀ s) (tn c st : Nat) : Keeps s₀ (canDropTenant s tn c st) := by
  unfold canDropTenant
  repeat' first
    | with_reducible assumption
    | with_reducible apply keeps_canEndSlots
    | with_reducible apply keeps_canRetry
    | with_reducible apply keeps_complete
    | (with_reducible apply Keeps.foldl; intro s x hs)
    | (extract_lets +onlyGivenNames x; refine Keeps.cut (s := x) ?_ (fun hx => ?_); subst x; rotate_left; clear_value x)
    | extract_lets +onlyGivenNames x
    | split

theorem keeps_canStopNow {s₀ s : State} (h : Keeps s₀ s) (c : Nat) : Keeps s₀ (canStopNow s c) := by
  unfold canStopNow
  repeat' first
    | with_reducible assumption
    | with_reducible apply keeps_canEndSlots
    | with_reducible apply keeps_setCan
    | with_reducible apply keeps_complete
    | with_reducible apply keeps_canRetry
    | (extract_lets +onlyGivenNames x; refine Keeps.cut (s := x) ?_ (fun hx => ?_); subst x; rotate_left; clear_value x)
    | extract_lets +onlyGivenNames x
    | split
    | with_reducible refine Keeps.upd ?_ rfl

theorem keeps_canSleepNow {s₀ s : State} (h : Keeps s₀ s) (c : Nat) (job : Option Nat) : Keeps s₀ (canSleepNow s c job) := by
  unfold canSleepNow
  repeat' first
    | with_reducible assumption
    | with_reducible apply keeps_canEndSlots
    | with_reducible apply keeps_setCan
    | with_reducible apply keeps_canRetry
    | (extract_lets +onlyGivenNames x; refine Keeps.cut (s := x) ?_ (fun hx => ?_); subst x; rotate_left; clear_value x)
    | extract_lets +onlyGivenNames x
    | with_reducible apply Keeps.ite
    | split
    | with_reducible refine Keeps.upd ?_ rfl

theorem keeps_canStopDo {s₀ s : State} (h : Keeps s₀ s) (c : Nat) (job : Option Nat) : Keeps s₀ (canStopDo s c job) := by
  unfold canStopDo
  repeat' first
    | with_reducible assumption
    | with_reducible apply keeps_canStopNow
    | with_reducible apply keeps_complete
    | (extract_lets +onlyGivenNames x; refine Keeps.cut (s := x) ?_ (fun hx => ?_); subst x; rotate_left; clear_value x)
    | extract_lets +onlyGivenNames x
    | split
    | with_reducible refine Keeps.upd ?_ rfl

theorem keeps_canSleepDo {s₀ s : State} (h : Keeps s₀ s) (c : Nat) (job : Option Nat) : Keeps s₀ (canSleepDo s c job) := by
  unfold canSleepDo
  repeat' first
    | with_reducible assumption
    | with_reducible apply keeps_complete
    | with_reducible apply keeps_canSleepNow
    | extract_lets +onlyGivenNames x
    | with_reducible apply Keeps.ite
    | split
    | with_reducible refine Keeps.upd ?_ rfl

theorem keeps_canFrameEnd {s₀ s : State} (h : Keeps s₀ s) (c : Nat) : Keeps s₀ (canFrameEnd s c) := by
  unfold canFrameEnd
  repeat' first
    | with_reducible assumption
    | with_reducible apply keeps_updCan
    | with_reducible apply keeps_canSleepDo
    | with_reducible apply keeps_canStopDo
    | (with_reducible apply Keeps.foldl; intro s x hs)
    | (extract_lets +onlyGivenNames x; refine Keeps.cut (s := x) ?_ (fun hx => ?_); subst x; rotate_left; clear_value x)
    | (extract_lets +onlyGivenNames x; refine Keeps.cut (s := Prod.fst x) ?_ (fun hx => ?_); subst x; rotate_left; clear_value x)
    | extract_lets +onlyGivenNames x
    | with_reducible apply Keeps.ite
    | split
    | with_reducible refine Keeps.upd ?_ rfl

theorem keeps_canAct {s₀ s : State} (h : Keeps s₀ s) (c act : Nat) (busy : Bool) (job : Option Nat) :
    Keeps s₀ (canAct s c act busy job) := by
  unfold canAct
  repeat' first
    | with_reducible assumption
    | with_reducible apply keeps_complete
    | with_reducible apply keeps_setCan
    | with_reducible apply keeps_canStopDo
    | with_reducible apply keeps_canSleepDo
    | extract_lets +onlyGivenNames x
    | with_reducible apply Keeps.ite
    | split
    | with_reducible refine Keeps.upd ?_ rfl

theorem keeps_canBusOff {s₀ s : State} (h : Keeps s₀ s) (c : Nat) : Keeps s₀ (canBusOff s c) := by
  unfold canBusOff
  repeat' first
    | with_reducible assumption
    | with_reducible apply keeps_canEndSlots
    | with_reducible apply keeps_updCan
    | with_reducible apply keeps_canFrameEnd
    | with_reducible apply keeps_canRetry
    | with_reducible apply keeps_canFlag
    | with_reducible apply keeps_count
    | (extract_lets +onlyGivenNames x; refine Keeps.cut (s := x) ?_ (fun hx => ?_); subst x; rotate_left; clear_value x)
    | extract_lets +onlyGivenNames x
    | with_reducible apply Keeps.ite
    | split
    | with_reducible refine Keeps.upd ?_ rfl

theorem keeps_canRecovered {s₀ s : State} (h : Keeps s₀ s) (c : Nat) : Keeps s₀ (canRecovered s c) := by
  unfold canRecovered
  repeat' first
    | with_reducible assumption
    | with_reducible apply keeps_setCan
    | extract_lets +onlyGivenNames x
    | with_reducible apply Keeps.ite
    | split
    | with_reducible refine Keeps.upd ?_ rfl

theorem keeps_canStuck {s₀ s : State} (h : Keeps s₀ s) (c : Nat) : Keeps s₀ (canStuck s c) := by
  unfold canStuck
  repeat' first
    | with_reducible assumption
    | with_reducible apply keeps_setCan
    | with_reducible apply keeps_canFlag
    | with_reducible apply keeps_count
    | with_reducible apply keeps_canFrameEnd
    | with_reducible apply keeps_canRetry
    | with_reducible apply keeps_canEndSlots
    | (extract_lets +onlyGivenNames x; refine Keeps.cut (s := x) ?_ (fun hx => ?_); subst x; rotate_left; clear_value x)
    | extract_lets +onlyGivenNames x
    | with_reducible apply Keeps.ite
    | split
    | with_reducible refine Keeps.upd ?_ rfl

theorem keeps_canRecessive {s₀ s : State} (h : Keeps s₀ s) (c : Nat) : Keeps s₀ (canRecessive s c) := by
  unfold canRecessive
  repeat' first
    | with_reducible assumption
    | with_reducible apply keeps_setCan
    | extract_lets +onlyGivenNames x
    | with_reducible apply Keeps.ite
    | split
    | with_reducible refine Keeps.upd ?_ rfl

theorem keeps_canOffer {s₀ s : State} (h : Keeps s₀ s) (c tn q sof slot : Nat) (sent : Bool) (f : CanFrame) :
    Keeps s₀ (canOffer s c tn q sof slot sent f) := by
  unfold canOffer
  repeat' first | with_reducible assumption | with_reducible apply keeps_offer

theorem keeps_canDeliver {s₀ s : State} (h : Keeps s₀ s) (c sof : Nat) (from0 : Option Nat) (f : CanFrame) :
    Keeps s₀ (canDeliver s c sof from0 f).1 := by
  unfold canDeliver
  repeat' first
    | with_reducible assumption
    | with_reducible apply keeps_canOffer
    | (with_reducible apply Keeps.foldl; intro s x hs)
    | (extract_lets +onlyGivenNames x; refine Keeps.cut (s := x) ?_ (fun hx => ?_); subst x; rotate_left; clear_value x)
    | (extract_lets +onlyGivenNames x; refine Keeps.cut (s := Prod.fst x) ?_ (fun hx => ?_); subst x; rotate_left; clear_value x)
    | extract_lets +onlyGivenNames x
    | with_reducible apply Keeps.ite
    | split

theorem keeps_canTake {s₀ s : State} (h : Keeps s₀ s) (c sof : Nat) (f : CanFrame) : Keeps s₀ (canTake s c sof f) := by
  unfold canTake
  repeat' first
    | with_reducible assumption
    | with_reducible apply keeps_canDeliver
    | with_reducible apply keeps_count
    | (extract_lets +onlyGivenNames x; refine Keeps.cut (s := Prod.fst x) ?_ (fun hx => ?_); subst x; rotate_left; clear_value x)
    | extract_lets +onlyGivenNames x
    | with_reducible apply Keeps.ite
    | split

theorem keeps_canReceived {s₀ s : State} (h : Keeps s₀ s) (c sof : Nat) (f : CanFrame) : Keeps s₀ (canReceived s c sof f) := by
  unfold canReceived
  repeat' first
    | with_reducible assumption
    | with_reducible apply keeps_canTake
    | with_reducible apply keeps_updCan
    | with_reducible apply keeps_canFrameEnd
    | with_reducible apply keeps_canErrState
    | (extract_lets +onlyGivenNames x; refine Keeps.cut (s := x) ?_ (fun hx => ?_); subst x; rotate_left; clear_value x)
    | extract_lets +onlyGivenNames x
    | with_reducible apply Keeps.ite
    | split
    | with_reducible refine Keeps.upd ?_ rfl

theorem keeps_canTransmitted {s₀ s : State} (h : Keeps s₀ s) (c sof : Nat) : Keeps s₀ (canTransmitted s c sof) := by
  unfold canTransmitted
  repeat' first
    | with_reducible assumption
    | with_reducible apply keeps_canDeliver
    | with_reducible apply keeps_count
    | with_reducible apply keeps_canEndSlots
    | with_reducible apply keeps_updCan
    | with_reducible apply keeps_canFrameEnd
    | with_reducible apply keeps_canRetry
    | with_reducible apply keeps_canErrState
    | (extract_lets +onlyGivenNames x; refine Keeps.cut (s := x) ?_ (fun hx => ?_); subst x; rotate_left; clear_value x)
    | (extract_lets +onlyGivenNames x; refine Keeps.cut (s := Prod.fst x) ?_ (fun hx => ?_); subst x; rotate_left; clear_value x)
    | extract_lets +onlyGivenNames x
    | with_reducible apply Keeps.ite
    | split
    | with_reducible refine Keeps.upd ?_ rfl

theorem keeps_canArbLost {s₀ s : State} (h : Keeps s₀ s) (c sof : Nat) (w : Option CanWinner) (index : Nat) :
    Keeps s₀ (canArbLost s c sof w index) := by
  unfold canArbLost
  repeat' first
    | with_reducible assumption
    | with_reducible apply keeps_count
    | with_reducible apply keeps_canRetry
    | with_reducible apply keeps_canEndSlots
    | (extract_lets +onlyGivenNames x; refine Keeps.cut (s := x) ?_ (fun hx => ?_); subst x; rotate_left; clear_value x)
    | extract_lets +onlyGivenNames x
    | with_reducible apply Keeps.ite
    | split
    | with_reducible refine Keeps.upd ?_ rfl

theorem keeps_canTxError {s₀ s : State} (h : Keeps s₀ s) (c sof : Nat) (kind : CanErr) : Keeps s₀ (canTxError s c sof kind) := by
  unfold canTxError
  repeat' first
    | with_reducible assumption
    | with_reducible apply keeps_count
    | with_reducible apply keeps_updCan
    | with_reducible apply keeps_canEndSlots
    | with_reducible apply keeps_canFrameEnd
    | with_reducible apply keeps_canRetry
    | with_reducible apply keeps_canErrState
    | (extract_lets +onlyGivenNames x; refine Keeps.cut (s := x) ?_ (fun hx => ?_); subst x; rotate_left; clear_value x)
    | extract_lets +onlyGivenNames x
    | with_reducible apply Keeps.ite
    | split
    | with_reducible refine Keeps.upd ?_ rfl

theorem keeps_canRxErr {s₀ s : State} (h : Keeps s₀ s) (c : Nat) (afterFlag : Bool) : Keeps s₀ (canRxErr s c afterFlag) := by
  unfold canRxErr
  repeat' first
    | with_reducible assumption
    | with_reducible apply keeps_count
    | with_reducible apply keeps_updCan
    | with_reducible apply keeps_canFrameEnd
    | with_reducible apply keeps_canErrState
    | (extract_lets +onlyGivenNames x; refine Keeps.cut (s := x) ?_ (fun hx => ?_); subst x; rotate_left; clear_value x)
    | extract_lets +onlyGivenNames x
    | with_reducible apply Keeps.ite
    | split
    | with_reducible refine Keeps.upd ?_ rfl

theorem keeps_canWakeNow {s₀ s : State} (h : Keeps s₀ s) (c start : Nat) (edge : Bool) :
    Keeps s₀ (canWakeNow s c start edge) := by
  unfold canWakeNow
  repeat' first
    | with_reducible assumption
    | with_reducible apply keeps_setCan
    | with_reducible apply keeps_canFlag
    | with_reducible apply keeps_count
    | with_reducible apply keeps_complete
    | (extract_lets +onlyGivenNames x; refine Keeps.cut (s := x) ?_ (fun hx => ?_); subst x; rotate_left; clear_value x)
    | extract_lets +onlyGivenNames x
    | split
    | with_reducible refine Keeps.upd ?_ rfl

theorem keeps_canWake {s₀ s : State} (h : Keeps s₀ s) (c start : Nat) (frame : Option CanFrame) :
    Keeps s₀ (canWake s c start frame) := by
  unfold canWake
  repeat' first
    | with_reducible assumption
    | with_reducible apply keeps_canWakeNow
    | with_reducible apply keeps_canTake
    | extract_lets +onlyGivenNames x
    | with_reducible apply Keeps.ite
    | split
    | with_reducible refine Keeps.upd ?_ rfl

theorem keeps_doCanFilter {s₀ s : State} (h : Keeps s₀ s) (d : Desc) : Keeps s₀ (doCanFilter s d) := by
  unfold doCanFilter
  repeat' first
    | with_reducible assumption
    | with_reducible apply keeps_updCan
    | extract_lets +onlyGivenNames x
    | split
    | with_reducible refine Keeps.upd ?_ rfl

theorem keeps_doCanTap {s₀ s : State} (h : Keeps s₀ s) (d : Desc) : Keeps s₀ (doCanTap s d) := by
  unfold doCanTap
  repeat' first
    | with_reducible assumption
    | with_reducible apply keeps_updCan
    | (extract_lets +onlyGivenNames x; refine Keeps.cut (s := Prod.fst x) ?_ (fun hx => ?_); subst x; rotate_left; clear_value x)
    | extract_lets +onlyGivenNames x
    | with_reducible apply Keeps.ite
    | split
    | with_reducible refine Keeps.upd ?_ rfl

theorem keeps_canCtrl {s₀ s : State} (h : Keeps s₀ s) (busy : Bool) (j : Job) : Keeps s₀ (canCtrl busy s j) := by
  unfold canCtrl
  repeat' first
    | with_reducible assumption
    | with_reducible apply keeps_canAct
    | with_reducible apply keeps_keep
    | with_reducible refine Keeps.upd ?_ rfl

theorem keeps_doCanConfig {s₀ s : State} (h : Keeps s₀ s) (d : Desc) : Keeps s₀ (doCanConfig s d) := by
  unfold doCanConfig
  repeat' first
    | with_reducible assumption
    | with_reducible apply keeps_wr
    | extract_lets +onlyGivenNames x
    | split
    | with_reducible refine Keeps.upd ?_ rfl

theorem keeps_refuseSide {s₀ s : State} (h : Keeps s₀ s) (d : Desc) : Keeps s₀ (refuseSide s d) := by
  unfold refuseSide
  repeat' first
    | with_reducible assumption
    | with_reducible apply keeps_canFlag
    | with_reducible apply Keeps.ite
    | split

theorem keeps_canInfo {s₀ s : State} (h : Keeps s₀ s) (j : Job) : Keeps s₀ (canInfo s j) := by
  unfold canInfo
  repeat' first
    | with_reducible assumption
    | with_reducible apply keeps_complete
    | extract_lets +onlyGivenNames x
    | split

end Sys2Proof.Machine
end

