-- ==== Sys2Proof/Laws/KeepsWheel.lean ====
section
/-!
SUPPORT. One lemma for each definition of Machine/Wheel.lean that answers a state: it keeps what `Keeps` says (Laws/Keeps.lean).
-/
namespace Sys2Proof.Machine
set_option Elab.async false
set_option linter.all false

theorem keeps_ejErr {s₀ s : State} (h : Keeps s₀ s) : Keeps s₀ (ejErr s) := by
  unfold ejErr
  repeat' first | with_reducible assumption | with_reducible apply keeps_flag

theorem keeps_rowCount {s₀ s : State} (h : Keeps s₀ s) (r k : Nat) : Keeps s₀ (rowCount s r k) := by
  unfold rowCount
  repeat' first
    | with_reducible assumption
    | with_reducible apply keeps_updRow
    | with_reducible refine Keeps.upd ?_ rfl

theorem keeps_rowReport {s₀ s : State} (h : Keeps s₀ s) (r track v status mask : Nat) (asked : Int) :
    Keeps s₀ (rowReport s r track v status mask asked) := by
  unfold rowReport
  repeat' first
    | with_reducible assumption
    | with_reducible apply keeps_offerNow
    | with_reducible apply Keeps.ite
    | split

theorem keeps_descEnd {s₀ s : State} (h : Keeps s₀ s) (id v mask status : Nat) (ticks : Nat) (d : Option Nat) :
    Keeps s₀ (descEnd s id v mask status ticks d) := by
  unfold descEnd
  repeat' first
    | with_reducible assumption
    | with_reducible apply keeps_complete
    | with_reducible apply Keeps.ite
    | split
    | with_reducible refine Keeps.upd ?_ rfl

theorem keeps_srcLost {s₀ s : State} (h : Keeps s₀ s) (v status ticks : Nat) (x : EvSrc) :
    Keeps s₀ (srcLost v status ticks s x) := by
  unfold srcLost
  repeat' first
    | with_reducible assumption
    | with_reducible apply keeps_rowReport
    | with_reducible apply keeps_rowCount
    | with_reducible apply keeps_descEnd
    | extract_lets +onlyGivenNames x
    | split
    | with_reducible refine Keeps.upd ?_ rfl

theorem keeps_srcShot {s₀ s : State} (h : Keeps s₀ s) (v ticks : Nat) (d : Option Nat) (x : EvSrc) :
    Keeps s₀ (srcShot v ticks d s x) := by
  unfold srcShot
  repeat' first
    | with_reducible assumption
    | with_reducible apply keeps_descEnd
    | split
    | with_reducible refine Keeps.upd ?_ rfl

theorem keeps_srcIssued {s₀ s : State} (h : Keeps s₀ s) (v : Nat) (x : EvSrc) : Keeps s₀ (srcIssued s v x) := by
  unfold srcIssued
  repeat' first
    | with_reducible assumption
    | with_reducible apply keeps_rowCount
    | with_reducible apply keeps_rowReport
    | (extract_lets +onlyGivenNames x; refine Keeps.cut (s := x) ?_ (fun hx => ?_); subst x; rotate_left; clear_value x)
    | extract_lets +onlyGivenNames x
    | with_reducible apply Keeps.ite
    | split
    | with_reducible refine Keeps.upd ?_ rfl

theorem keeps_setEvents {s₀ s : State} (h : Keeps s₀ s) (l : List Event) : Keeps s₀ (setEvents s l) := by
  unfold setEvents
  repeat' first
    | with_reducible assumption
    | extract_lets +onlyGivenNames x
    | with_reducible refine Keeps.upd ?_ rfl

theorem keeps_owedClose {s₀ s : State} (h : Keeps s₀ s) (e : Event) : Keeps s₀ (owedClose s e) := by
  unfold owedClose
  repeat' first
    | with_reducible assumption
    | extract_lets +onlyGivenNames x
    | with_reducible apply Keeps.ite
    | split
    | with_reducible refine Keeps.upd ?_ rfl

theorem keeps_dropEvent {s₀ s : State} (h : Keeps s₀ s) (e : Event) (status : Nat) (srcs : List EvSrc) :
    Keeps s₀ (dropEvent s e status srcs) := by
  unfold dropEvent
  repeat' first
    | with_reducible assumption
    | with_reducible apply keeps_owedClose
    | with_reducible apply keeps_setEvents
    | with_reducible apply keeps_srcLost
    | (with_reducible apply Keeps.foldl; intro s x hs)
    | (extract_lets +onlyGivenNames x; refine Keeps.cut (s := x) ?_ (fun hx => ?_); subst x; rotate_left; clear_value x)
    | extract_lets +onlyGivenNames x
    | with_reducible apply Keeps.ite
    | split

theorem keeps_removeEvents {s₀ s : State} (h : Keeps s₀ s) (sel : Event → Bool) (status : Nat) :
    Keeps s₀ (removeEvents s sel status) := by
  unfold removeEvents
  repeat' first
    | with_reducible assumption
    | with_reducible apply keeps_dropEvent
    | (with_reducible apply Keeps.foldl; intro s x hs)

theorem keeps_valveOff {s₀ s : State} (h : Keeps s₀ s) (v : Nat) : Keeps s₀ (valveOff s v) := by
  unfold valveOff
  repeat' first
    | with_reducible assumption
    | with_reducible apply keeps_updValve
    | with_reducible apply Keeps.ite
    | split
    | with_reducible refine Keeps.upd ?_ rfl

theorem keeps_valveStop {s₀ s : State} (h : Keeps s₀ s) (v status : Nat) : Keeps s₀ (valveStop s v status) := by
  unfold valveStop
  repeat' first
    | with_reducible assumption
    | with_reducible apply keeps_valveOff
    | with_reducible apply keeps_removeEvents

theorem keeps_valvesCloseAll {s₀ s : State} (h : Keeps s₀ s) : Keeps s₀ (valvesCloseAll s) := by
  unfold valvesCloseAll
  repeat' first
    | with_reducible assumption
    | with_reducible apply keeps_removeEvents
    | with_reducible apply keeps_valveOff
    | (with_reducible apply Keeps.foldl; intro s x hs)
    | (extract_lets +onlyGivenNames x; refine Keeps.cut (s := x) ?_ (fun hx => ?_); subst x; rotate_left; clear_value x)
    | (extract_lets +onlyGivenNames x; refine Keeps.cut (s := Prod.fst x) ?_ (fun hx => ?_); subst x; rotate_left; clear_value x)
    | extract_lets +onlyGivenNames x
    | split

theorem keeps_airLimit {s₀ s : State} (h : Keeps s₀ s) (m : Nat) (opn cls : Int) (n : Nat) : Keeps s₀ (airLimit m opn cls n s) := by
  induction n generalizing s with
  | zero => exact h
  | succ n ih =>
    unfold airLimit
    repeat' first
      | with_reducible assumption
      | with_reducible apply ih
      | with_reducible apply keeps_dropEvent
      | (extract_lets +onlyGivenNames x; refine Keeps.cut (s := x) ?_ (fun hx => ?_); subst x; rotate_left; clear_value x)
      | (extract_lets +onlyGivenNames x; refine Keeps.cut (s := Prod.fst x) ?_ (fun hx => ?_); subst x; rotate_left; clear_value x)
      | extract_lets +onlyGivenNames x
      | with_reducible apply Keeps.ite
      | split
      | with_reducible refine Keeps.upd ?_ rfl

theorem keeps_srcUnissued {s₀ s : State} (h : Keeps s₀ s) (v : Nat) (x : EvSrc) (status : Nat) :
    Keeps s₀ (insertEvent.srcUnissued s v x status) := by
  unfold insertEvent.srcUnissued
  repeat' first
    | with_reducible assumption
    | with_reducible apply keeps_descEnd
    | with_reducible apply keeps_rowReport
    | (extract_lets +onlyGivenNames x; refine Keeps.cut (s := x) ?_ (fun hx => ?_); subst x; rotate_left; clear_value x)
    | (extract_lets +onlyGivenNames x; refine Keeps.cut (s := Prod.fst x) ?_ (fun hx => ?_); subst x; rotate_left; clear_value x)
    | extract_lets +onlyGivenNames x
    | with_reducible apply Keeps.ite
    | split
    | with_reducible refine Keeps.upd ?_ rfl
theorem keeps_srcOutcomes {s₀ s : State} (h : Keeps s₀ s) (x : EvSrc) : Keeps s₀ (insertEvent.srcOutcomes s x) := by
  unfold insertEvent.srcOutcomes
  repeat' first
    | with_reducible assumption
    | with_reducible apply keeps_rowCount
    | (extract_lets +onlyGivenNames x; refine Keeps.cut (s := x) ?_ (fun hx => ?_); subst x; rotate_left; clear_value x)
    | (extract_lets +onlyGivenNames x; refine Keeps.cut (s := Prod.fst x) ?_ (fun hx => ?_); subst x; rotate_left; clear_value x)
    | extract_lets +onlyGivenNames x
    | with_reducible apply Keeps.ite
    | split
    | with_reducible refine Keeps.upd ?_ rfl
theorem keeps_insertEvent {s₀ s : State} (h : Keeps s₀ s) (v : Nat) (opn cls : Int) (score : Nat) (kind : EvKind) :
    Keeps s₀ (insertEvent s v opn cls score kind) := by
  unfold insertEvent
  repeat' first
    | with_reducible assumption
    | with_reducible apply keeps_rowCount
    | with_reducible apply keeps_srcUnissued
    | with_reducible apply keeps_srcOutcomes
    | with_reducible apply keeps_srcLost
    | with_reducible apply keeps_airLimit
    | with_reducible apply keeps_srcIssued
    | (extract_lets +onlyGivenNames x; refine Keeps.cut (s := x) ?_ (fun hx => ?_); subst x; rotate_left; clear_value x)
    | (extract_lets +onlyGivenNames x; refine Keeps.cut (s := Prod.fst x) ?_ (fun hx => ?_); subst x; rotate_left; clear_value x)
    | extract_lets +onlyGivenNames x
    | with_reducible apply Keeps.ite
    | split
    | with_reducible refine Keeps.upd ?_ rfl

theorem keeps_judgeLat {s₀ s : State} (h : Keeps s₀ s) (v : Nat) : Keeps s₀ (judgeLat s v) := by
  unfold judgeLat
  repeat' first
    | with_reducible assumption
    | with_reducible apply keeps_setValve
    | with_reducible apply keeps_flag
    | with_reducible apply keeps_wr
    | (extract_lets +onlyGivenNames x; refine Keeps.cut (s := x) ?_ (fun hx => ?_); subst x; rotate_left; clear_value x)
    | extract_lets +onlyGivenNames x
    | with_reducible apply Keeps.ite
    | split
    | with_reducible refine Keeps.upd ?_ rfl

theorem keeps_seedLat {s₀ s : State} (h : Keeps s₀ s) (v ticks : Nat) : Keeps s₀ (seedLat s v ticks) := by
  unfold seedLat
  repeat' first
    | with_reducible assumption
    | with_reducible apply keeps_judgeLat
    | with_reducible apply keeps_updValve
    | with_reducible refine Keeps.upd ?_ rfl

theorem keeps_learnLat {s₀ s : State} (h : Keeps s₀ s) (v d : Nat) : Keeps s₀ (learnLat s v d) := by
  unfold learnLat
  repeat' first
    | with_reducible assumption
    | with_reducible apply keeps_judgeLat
    | with_reducible apply keeps_updValve
    | extract_lets +onlyGivenNames x
    | with_reducible apply Keeps.ite
    | split
    | with_reducible refine Keeps.upd ?_ rfl

theorem keeps_shotDip {s₀ s : State} (h : Keeps s₀ s) (v : Nat) (d : Option Nat) : Keeps s₀ (shotDip s v d) := by
  unfold shotDip
  repeat' first
    | with_reducible assumption
    | with_reducible apply keeps_learnLat
    | with_reducible apply keeps_updValve
    | with_reducible apply keeps_count
    | extract_lets +onlyGivenNames x
    | split
    | with_reducible refine Keeps.upd ?_ rfl

theorem keeps_sigOffer {s₀ s : State} (h : Keeps s₀ s) (v : Nat) (g : SigCfg) (time : Nat) (cell : List Byte) (xs : List Nat) :
    Keeps s₀ (sigOffer s v g time cell xs) := by
  unfold sigOffer
  repeat' first | with_reducible assumption | with_reducible apply keeps_offer

theorem keeps_sigShot {s₀ s : State} (h : Keeps s₀ s) (v : Nat) (e : Event) (d : Option Nat) (openAt : Nat) (samples : List Nat) :
    Keeps s₀ (sigShot s v e d openAt samples) := by
  unfold sigShot
  repeat' first
    | with_reducible assumption
    | with_reducible apply keeps_updValve
    | with_reducible apply keeps_count
    | with_reducible apply keeps_sigOffer
    | (with_reducible apply Keeps.foldl; intro s x hs)
    | (extract_lets +onlyGivenNames x; refine Keeps.cut (s := x) ?_ (fun hx => ?_); subst x; rotate_left; clear_value x)
    | extract_lets +onlyGivenNames x
    | with_reducible apply Keeps.ite
    | split
    | with_reducible refine Keeps.upd ?_ rfl

theorem keeps_writeValveCfg {s₀ s : State} (h : Keeps s₀ s) (v w : Nat) : Keeps s₀ (writeValveCfg s v w) := by
  unfold writeValveCfg
  repeat' first
    | with_reducible assumption
    | with_reducible apply keeps_wr
    | with_reducible apply keeps_seedLat
    | with_reducible apply keeps_ejErr
    | with_reducible apply keeps_valveStop
    | extract_lets +onlyGivenNames x
    | with_reducible apply Keeps.ite
    | split

theorem keeps_writeValveMin {s₀ s : State} (h : Keeps s₀ s) (v w : Nat) : Keeps s₀ (writeValveMin s v w) := by
  unfold writeValveMin
  repeat' first
    | with_reducible assumption
    | with_reducible apply keeps_ejErr
    | with_reducible apply keeps_wr
    | extract_lets +onlyGivenNames x
    | with_reducible apply Keeps.ite
    | split

theorem keeps_writeHorizon {s₀ s : State} (h : Keeps s₀ s) (w : Nat) : Keeps s₀ (writeHorizon s w) := by
  unfold writeHorizon
  repeat' first
    | with_reducible assumption
    | with_reducible apply keeps_ejErr
    | with_reducible apply keeps_wr
    | extract_lets +onlyGivenNames x
    | with_reducible apply Keeps.ite
    | split

theorem keeps_valveOpen {s₀ s : State} (h : Keeps s₀ s) (v : Nat) : Keeps s₀ (valveOpen s v) := by
  unfold valveOpen
  repeat' first
    | with_reducible assumption
    | with_reducible apply keeps_setEvents
    | with_reducible apply keeps_updValve
    | extract_lets +onlyGivenNames x
    | with_reducible apply Keeps.ite
    | split
    | with_reducible refine Keeps.upd ?_ rfl

theorem keeps_valvePeakEnd {s₀ s : State} (h : Keeps s₀ s) (v : Nat) : Keeps s₀ (valvePeakEnd s v) := by
  unfold valvePeakEnd
  repeat' first
    | with_reducible assumption
    | with_reducible apply keeps_setValve
    | extract_lets +onlyGivenNames x
    | with_reducible apply Keeps.ite
    | split
    | with_reducible refine Keeps.upd ?_ rfl

theorem keeps_valveClose {s₀ s : State} (h : Keeps s₀ s) (v : Nat) (samples : List Nat) : Keeps s₀ (valveClose s v samples) := by
  unfold valveClose
  repeat' first
    | with_reducible assumption
    | with_reducible apply keeps_valveOff
    | with_reducible apply keeps_setEvents
    | with_reducible apply keeps_shotDip
    | with_reducible apply keeps_count
    | with_reducible apply keeps_sigShot
    | with_reducible apply keeps_srcShot
    | (with_reducible apply Keeps.foldl; intro s x hs)
    | (extract_lets +onlyGivenNames x; refine Keeps.cut (s := x) ?_ (fun hx => ?_); subst x; rotate_left; clear_value x)
    | extract_lets +onlyGivenNames x
    | split
    | with_reducible refine Keeps.upd ?_ rfl

theorem keeps_valveFaulted {s₀ s : State} (h : Keeps s₀ s) (v cause status : Nat) : Keeps s₀ (valveFaulted s v cause status) := by
  unfold valveFaulted
  repeat' first
    | with_reducible assumption
    | with_reducible apply keeps_valveStop
    | with_reducible apply keeps_setValve
    | extract_lets +onlyGivenNames x
    | with_reducible apply Keeps.ite
    | split
    | with_reducible refine Keeps.upd ?_ rfl

theorem keeps_valveFault {s₀ s : State} (h : Keeps s₀ s) (v : Nat) (c : ValveCause) : Keeps s₀ (valveFault s v c) := by
  unfold valveFault
  repeat' first
    | with_reducible assumption
    | with_reducible apply keeps_valveFaulted
    | with_reducible apply keeps_flagIf
    | (with_reducible apply Keeps.foldl; intro s x hs)
    | (extract_lets +onlyGivenNames x; refine Keeps.cut (s := x) ?_ (fun hx => ?_); subst x; rotate_left; clear_value x)
    | extract_lets +onlyGivenNames x
    | with_reducible apply Keeps.ite
    | split

theorem keeps_doValveClear {s₀ s : State} (h : Keeps s₀ s) (restored : Bool) (j : Job) :
    Keeps s₀ (doValveClear restored s j) := by
  unfold doValveClear
  repeat' first
    | with_reducible assumption
    | with_reducible apply keeps_complete
    | with_reducible apply keeps_setValve
    | extract_lets +onlyGivenNames x
    | with_reducible apply Keeps.ite
    | split
    | with_reducible refine Keeps.upd ?_ rfl

theorem keeps_doValveTest {s₀ s : State} (h : Keeps s₀ s) (j : Job) : Keeps s₀ (doValveTest s j) := by
  unfold doValveTest
  repeat' first
    | with_reducible assumption
    | with_reducible apply keeps_insertEvent
    | with_reducible apply keeps_keep
    | extract_lets +onlyGivenNames x
    | split
    | with_reducible refine Keeps.upd ?_ rfl

theorem keeps_doEjectAt {s₀ s : State} (h : Keeps s₀ s) (j : Job) : Keeps s₀ (doEjectAt s j) := by
  unfold doEjectAt
  repeat' first
    | with_reducible assumption
    | with_reducible apply keeps_insertEvent
    | with_reducible apply keeps_keep
    | with_reducible refine Keeps.upd ?_ rfl

theorem keeps_doValveLatSet {s₀ s : State} (h : Keeps s₀ s) (d : Desc) : Keeps s₀ (doValveLatSet s d) := by
  unfold doValveLatSet
  repeat' first | with_reducible assumption | with_reducible apply keeps_seedLat

theorem keeps_doValveSig {s₀ s : State} (h : Keeps s₀ s) (d : Desc) : Keeps s₀ (doValveSig s d) := by
  unfold doValveSig
  repeat' first
    | with_reducible assumption
    | with_reducible apply keeps_updValve
    | with_reducible apply keeps_count
    | (with_reducible apply Keeps.foldl; intro s x hs)
    | extract_lets +onlyGivenNames x
    | with_reducible apply Keeps.ite
    | split
    | with_reducible refine Keeps.upd ?_ rfl

end Sys2Proof.Machine
end

