-- ==== Sys2Proof/Laws/KeepsArc.lean ====
section
/-!
SUPPORT. One lemma for each definition of Machine/Arc.lean that answers a state: it keeps what `Keeps` says (Laws/Keeps.lean).
-/
namespace Sys2Proof.Machine
set_option Elab.async false
set_option linter.all false

theorem keeps_writeNrCfg {s₀ s : State} (h : Keeps s₀ s) (r w : Nat) : Keeps s₀ (writeNrCfg s r w) := by
  unfold writeNrCfg
  repeat' first
    | with_reducible assumption
    | with_reducible apply keeps_ejErr
    | with_reducible apply keeps_wr
    | with_reducible apply keeps_updRow
    | extract_lets +onlyGivenNames x
    | with_reducible apply Keeps.ite
    | split
    | with_reducible refine Keeps.upd ?_ rfl

theorem keeps_writeNrPitch {s₀ s : State} (h : Keeps s₀ s) (r w : Nat) : Keeps s₀ (writeNrPitch s r w) := by
  unfold writeNrPitch
  repeat' first
    | with_reducible assumption
    | with_reducible apply keeps_ejErr
    | with_reducible apply keeps_wr
    | with_reducible apply Keeps.ite
    | split

theorem keeps_doEjectStart {s₀ s : State} (h : Keeps s₀ s) (d : Desc) : Keeps s₀ (doEjectStart s d) := by
  unfold doEjectStart
  repeat' first
    | with_reducible assumption
    | with_reducible apply keeps_updRow
    | with_reducible refine Keeps.upd ?_ rfl

theorem keeps_rowStop {s₀ s : State} (h : Keeps s₀ s) (r : Nat) : Keeps s₀ (rowStop s r) := by
  unfold rowStop
  repeat' first
    | with_reducible assumption
    | with_reducible apply keeps_updRow
    | with_reducible refine Keeps.upd ?_ rfl

theorem keeps_doEjectStop {s₀ s : State} (h : Keeps s₀ s) (d : Desc) : Keeps s₀ (doEjectStop s d) := by
  unfold doEjectStop
  repeat' first | with_reducible assumption | with_reducible apply keeps_rowStop

theorem keeps_doEjectTrim {s₀ s : State} (h : Keeps s₀ s) (j : Job) : Keeps s₀ (doEjectTrim s j) := by
  unfold doEjectTrim
  repeat' first
    | with_reducible assumption
    | with_reducible apply keeps_wr
    | with_reducible apply keeps_complete
    | (extract_lets +onlyGivenNames x; refine Keeps.cut (s := x) ?_ (fun hx => ?_); subst x; rotate_left; clear_value x)
    | extract_lets +onlyGivenNames x
    | with_reducible apply Keeps.ite
    | split

theorem keeps_arcTake {s₀ s : State} (h : Keeps s₀ s) (r n : Nat) : Keeps s₀ (arcTake s r n) := by
  induction n generalizing s with
  | zero => exact h
  | succ n ih =>
    unfold arcTake
    repeat' first
      | with_reducible assumption
      | with_reducible apply ih
      | with_reducible apply keeps_setQueue
      | with_reducible apply keeps_rowCount
      | with_reducible apply keeps_updRow
      | with_reducible apply keeps_countN
      | (extract_lets +onlyGivenNames x; refine Keeps.cut (s := x) ?_ (fun hx => ?_); subst x; rotate_left; clear_value x)
      | (extract_lets +onlyGivenNames x; refine Keeps.cut (s := Prod.fst x) ?_ (fun hx => ?_); subst x; rotate_left; clear_value x)
      | extract_lets +onlyGivenNames x
      | with_reducible apply Keeps.ite
      | split
      | with_reducible refine Keeps.upd ?_ rfl

theorem keeps_arcBoundary {s₀ s : State} (h : Keeps s₀ s) : Keeps s₀ (arcBoundary s) := by
  unfold arcBoundary
  repeat' first
    | with_reducible assumption
    | with_reducible apply keeps_rowStop
    | with_reducible apply keeps_setRow
    | with_reducible apply keeps_arcTake
    | (with_reducible apply Keeps.foldl; intro s x hs)
    | (extract_lets +onlyGivenNames x; refine Keeps.cut (s := x) ?_ (fun hx => ?_); subst x; rotate_left; clear_value x)
    | extract_lets +onlyGivenNames x
    | with_reducible apply Keeps.ite
    | split
    | with_reducible refine Keeps.upd ?_ rfl

theorem keeps_fitted {s₀ s : State} (h : Keeps s₀ s) (r : Nat) (l : List FitEv) : Keeps s₀ (fitted s r l) := by
  unfold fitted
  repeat' first
    | with_reducible assumption
    | with_reducible apply keeps_rowCount
    | extract_lets +onlyGivenNames x
    | with_reducible apply Keeps.ite
    | split
    | with_reducible refine Keeps.upd ?_ rfl

theorem keeps_arcRecord {s₀ s : State} (h : Keeps s₀ s) (r : Nat) (p : List Byte) : Keeps s₀ (arcRecord s r p) := by
  unfold arcRecord
  repeat' first
    | with_reducible assumption
    | with_reducible apply keeps_rowCount
    | with_reducible apply keeps_fitted
    | (extract_lets +onlyGivenNames x; refine Keeps.cut (s := x) ?_ (fun hx => ?_); subst x; rotate_left; clear_value x)
    | (extract_lets +onlyGivenNames x; refine Keeps.cut (s := Prod.fst x) ?_ (fun hx => ?_); subst x; rotate_left; clear_value x)
    | extract_lets +onlyGivenNames x
    | with_reducible apply Keeps.ite
    | split
    | with_reducible refine Keeps.upd ?_ rfl

theorem keeps_arcMarker {s₀ s : State} (h : Keeps s₀ s) (r : Nat) (first last lanes : Nat) :
    Keeps s₀ (arcMarker s r first last lanes) := by
  unfold arcMarker
  repeat' first
    | with_reducible assumption
    | with_reducible apply keeps_fitted
    | extract_lets +onlyGivenNames x
    | split

theorem keeps_arcFit {s₀ s : State} (h : Keeps s₀ s) (r : Nat) : Keeps s₀ (arcFit s r) := by
  unfold arcFit
  repeat' first
    | with_reducible assumption
    | with_reducible apply keeps_setRow
    | with_reducible apply keeps_arcRecord
    | with_reducible apply keeps_arcMarker
    | (extract_lets +onlyGivenNames x; refine Keeps.cut (s := x) ?_ (fun hx => ?_); subst x; rotate_left; clear_value x)
    | extract_lets +onlyGivenNames x
    | with_reducible apply Keeps.ite
    | split
    | with_reducible refine Keeps.upd ?_ rfl

theorem keeps_insertFit {s₀ s : State} (h : Keeps s₀ s) (e : FitEv) : Keeps s₀ (insertFit s e) := by
  unfold insertFit
  repeat' first
    | with_reducible assumption
    | with_reducible apply keeps_rowCount
    | with_reducible apply keeps_insertEvent
    | (extract_lets +onlyGivenNames x; refine Keeps.cut (s := x) ?_ (fun hx => ?_); subst x; rotate_left; clear_value x)
    | extract_lets +onlyGivenNames x
    | with_reducible apply Keeps.ite
    | split
    | with_reducible refine Keeps.upd ?_ rfl

theorem keeps_eventInsert {s₀ s : State} (h : Keeps s₀ s) : Keeps s₀ (eventInsert s) := by
  unfold eventInsert
  repeat' first
    | with_reducible assumption
    | with_reducible apply keeps_fitted
    | with_reducible apply keeps_insertFit
    | with_reducible apply keeps_rowCount
    | (with_reducible apply Keeps.foldl; intro s x hs)
    | (extract_lets +onlyGivenNames x; refine Keeps.cut (s := x) ?_ (fun hx => ?_); subst x; rotate_left; clear_value x)
    | extract_lets +onlyGivenNames x
    | with_reducible apply Keeps.ite
    | split
    | with_reducible refine Keeps.upd ?_ rfl

end Sys2Proof.Machine
end

