-- ==== Sys2Proof/Laws/KeepsTrestle.lean ====
section
/-!
SUPPORT. One lemma for each definition of Machine/Trestle.lean that answers a state: it keeps what `Keeps` says (Laws/Keeps.lean).
-/
namespace Sys2Proof.Machine
set_option Elab.async false
set_option linter.all false

theorem keeps_trFlag {s₀ s : State} (h : Keeps s₀ s) (mask : Nat) : Keeps s₀ (trFlag s mask) := by
  unfold trFlag
  repeat' first | with_reducible assumption | with_reducible apply keeps_flag

theorem keeps_setRing {s₀ s : State} (h : Keeps s₀ s) (r : Ring) : Keeps s₀ (setRing s r) := by
  unfold setRing
  repeat' first
    | with_reducible assumption
    | with_reducible refine Keeps.upd ?_ rfl

theorem keeps_updRing {s₀ s : State} (h : Keeps s₀ s) (f : Ring → Ring) : Keeps s₀ (updRing s f) := by
  unfold updRing
  repeat' first
    | with_reducible assumption
    | with_reducible refine Keeps.upd ?_ rfl

theorem keeps_startLink {s₀ s : State} (h : Keeps s₀ s) : Keeps s₀ (startLink s) := by
  unfold startLink
  repeat' first
    | with_reducible assumption
    | with_reducible apply keeps_setRing
    | extract_lets +onlyGivenNames x
    | split
    | with_reducible refine Keeps.upd ?_ rfl

theorem keeps_writeTrCfg {s₀ s : State} (h : Keeps s₀ s) (w : Nat) : Keeps s₀ (writeTrCfg s w) := by
  unfold writeTrCfg
  repeat' first
    | with_reducible assumption
    | with_reducible apply keeps_trFlag
    | with_reducible apply keeps_wr
    | with_reducible apply keeps_startLink
    | with_reducible apply keeps_setRing
    | (extract_lets +onlyGivenNames x; refine Keeps.cut (s := x) ?_ (fun hx => ?_); subst x; rotate_left; clear_value x)
    | extract_lets +onlyGivenNames x
    | with_reducible apply Keeps.ite
    | split
    | with_reducible refine Keeps.upd ?_ rfl

theorem keeps_linkUpDone {s₀ s : State} (h : Keeps s₀ s) (info : List NodeInfo) (hops : List Nat) (closed : Bool) :
    Keeps s₀ (linkUpDone s info hops closed) := by
  unfold linkUpDone
  repeat' first
    | with_reducible assumption
    | with_reducible apply keeps_trFlag
    | with_reducible apply keeps_updRing
    | with_reducible apply keeps_setRing
    | with_reducible apply keeps_complete
    | (with_reducible apply Keeps.foldl; intro s x hs)
    | (extract_lets +onlyGivenNames x; refine Keeps.cut (s := x) ?_ (fun hx => ?_); subst x; rotate_left; clear_value x)
    | extract_lets +onlyGivenNames x
    | with_reducible apply Keeps.ite
    | split
    | with_reducible refine Keeps.upd ?_ rfl

theorem keeps_linkUpTimeout {s₀ s : State} (h : Keeps s₀ s) : Keeps s₀ (linkUpTimeout s) := by
  unfold linkUpTimeout
  repeat' first
    | with_reducible assumption
    | with_reducible apply keeps_updRing
    | with_reducible apply Keeps.ite
    | split
    | with_reducible refine Keeps.upd ?_ rfl

theorem keeps_edgeFreeze {s₀ s : State} (h : Keeps s₀ s) : Keeps s₀ (edgeFreeze s) := by
  unfold edgeFreeze
  repeat' first
    | with_reducible assumption
    | with_reducible apply keeps_updRing
    | with_reducible apply keeps_setEvents
    | extract_lets +onlyGivenNames x
    | with_reducible apply Keeps.ite
    | split
    | with_reducible refine Keeps.upd ?_ rfl

theorem keeps_phPush {s₀ s : State} (h : Keeps s₀ s) (v key value : Nat) : Keeps s₀ (phPush s v key value) := by
  unfold phPush
  repeat' first
    | with_reducible assumption
    | with_reducible apply keeps_updRing
    | extract_lets +onlyGivenNames x
    | with_reducible apply Keeps.ite
    | split
    | with_reducible refine Keeps.upd ?_ rfl

theorem keeps_mgmtAnswer {s₀ s : State} (h : Keeps s₀ s) (node value : Nat) : Keeps s₀ (mgmtAnswer s node value) := by
  unfold mgmtAnswer
  repeat' first
    | with_reducible assumption
    | with_reducible apply keeps_updRing
    | with_reducible apply keeps_complete
    | (extract_lets +onlyGivenNames x; refine Keeps.cut (s := x) ?_ (fun hx => ?_); subst x; rotate_left; clear_value x)
    | extract_lets +onlyGivenNames x
    | with_reducible apply Keeps.ite
    | split
    | with_reducible refine Keeps.upd ?_ rfl

theorem keeps_mgmtMissed {s₀ s : State} (h : Keeps s₀ s) : Keeps s₀ (mgmtMissed s) := by
  unfold mgmtMissed
  repeat' first
    | with_reducible assumption
    | with_reducible apply keeps_updRing
    | with_reducible apply keeps_complete
    | (with_reducible apply Keeps.foldl; intro s x hs)
    | (extract_lets +onlyGivenNames x; refine Keeps.cut (s := x) ?_ (fun hx => ?_); subst x; rotate_left; clear_value x)
    | extract_lets +onlyGivenNames x
    | with_reducible apply Keeps.ite
    | split
    | with_reducible refine Keeps.upd ?_ rfl

theorem keeps_satSig {s₀ s : State} (h : Keeps s₀ s) (v : Nat) (e : Event) (d : Option Nat) : Keeps s₀ (satSig s v e d) := by
  unfold satSig
  repeat' first
    | with_reducible assumption
    | with_reducible apply keeps_updValve
    | with_reducible apply keeps_count
    | (with_reducible apply Keeps.foldl; intro s x hs)
    | (with_reducible apply Keeps.foldlFst; intro s b x hs)
    | (extract_lets +onlyGivenNames x; refine Keeps.cut (s := Prod.fst x) ?_ (fun hx => ?_); subst x; rotate_left; clear_value x)
    | extract_lets +onlyGivenNames x
    | with_reducible apply Keeps.ite
    | split
    | with_reducible refine Keeps.upd ?_ rfl

theorem keeps_sigDrain {s₀ s : State} (h : Keeps s₀ s) (v : Nat) (xs : List Nat) : Keeps s₀ (sigDrain s v xs) := by
  unfold sigDrain
  repeat' first
    | with_reducible assumption
    | with_reducible apply keeps_updValve
    | with_reducible apply keeps_sigOffer
    | (extract_lets +onlyGivenNames x; refine Keeps.cut (s := x) ?_ (fun hx => ?_); subst x; rotate_left; clear_value x)
    | extract_lets +onlyGivenNames x
    | with_reducible apply Keeps.ite
    | split
    | with_reducible refine Keeps.upd ?_ rfl

theorem keeps_shotReport {s₀ s : State} (h : Keeps s₀ s) (node : Nat) (r : ShotReport) : Keeps s₀ (shotReport s node r) := by
  unfold shotReport
  repeat' first
    | with_reducible assumption
    | with_reducible apply keeps_updValve
    | with_reducible apply keeps_descEnd
    | with_reducible apply keeps_flagIf
    | with_reducible apply keeps_valveFaulted
    | with_reducible apply keeps_shotDip
    | with_reducible apply keeps_satSig
    | (with_reducible apply Keeps.foldl; intro s x hs)
    | (extract_lets +onlyGivenNames x; refine Keeps.cut (s := x) ?_ (fun hx => ?_); subst x; rotate_left; clear_value x)
    | extract_lets +onlyGivenNames x
    | with_reducible apply Keeps.ite
    | split
    | with_reducible refine Keeps.upd ?_ rfl

theorem keeps_takeReply {s₀ s : State} (h : Keeps s₀ s) (p : Reply) : Keeps s₀ (takeReply s p) := by
  unfold takeReply
  repeat' first
    | with_reducible assumption
    | with_reducible apply keeps_trFlag
    | with_reducible apply keeps_count
    | with_reducible apply keeps_updRing
    | with_reducible apply keeps_shotReport
    | with_reducible apply keeps_mgmtAnswer
    | with_reducible apply keeps_sigDrain
    | (with_reducible apply Keeps.foldl; intro s x hs)
    | (extract_lets +onlyGivenNames x; refine Keeps.cut (s := x) ?_ (fun hx => ?_); subst x; rotate_left; clear_value x)
    | extract_lets +onlyGivenNames x
    | with_reducible apply Keeps.ite
    | split
    | with_reducible refine Keeps.upd ?_ rfl

theorem keeps_sweepSend {s₀ s : State} (h : Keeps s₀ s) : Keeps s₀ (sweepSend s) := by
  unfold sweepSend
  repeat' first
    | with_reducible assumption
    | with_reducible apply keeps_setRing
    | extract_lets +onlyGivenNames x
    | with_reducible apply Keeps.ite
    | split
    | with_reducible refine Keeps.upd ?_ rfl

theorem keeps_nodeLost {s₀ s : State} (h : Keeps s₀ s) (k : Nat) : Keeps s₀ (nodeLost s k) := by
  unfold nodeLost
  repeat' first
    | with_reducible assumption
    | with_reducible apply keeps_updRing
    | with_reducible apply keeps_count
    | with_reducible apply keeps_trFlag
    | with_reducible apply keeps_valveFaulted
    | with_reducible apply keeps_updValve
    | with_reducible apply keeps_descEnd
    | with_reducible apply keeps_flagIf
    | (with_reducible apply Keeps.foldl; intro s x hs)
    | (extract_lets +onlyGivenNames x; refine Keeps.cut (s := x) ?_ (fun hx => ?_); subst x; rotate_left; clear_value x)
    | extract_lets +onlyGivenNames x
    | with_reducible apply Keeps.ite
    | split
    | with_reducible refine Keeps.upd ?_ rfl

theorem keeps_undelivered {s₀ s : State} (h : Keeps s₀ s) : Keeps s₀ (undelivered s) := by
  unfold undelivered
  repeat' first
    | with_reducible assumption
    | with_reducible apply keeps_updRing
    | with_reducible apply keeps_dropEvent
    | with_reducible apply keeps_setEvents
    | (with_reducible apply Keeps.foldl; intro s x hs)
    | (extract_lets +onlyGivenNames x; refine Keeps.cut (s := x) ?_ (fun hx => ?_); subst x; rotate_left; clear_value x)
    | extract_lets +onlyGivenNames x
    | split
    | with_reducible refine Keeps.upd ?_ rfl

theorem keeps_finishSweep {s₀ s : State} (h : Keeps s₀ s) (how ticks : Nat) : Keeps s₀ (finishSweep s how ticks) := by
  unfold finishSweep
  repeat' first
    | with_reducible assumption
    | with_reducible apply keeps_count
    | with_reducible apply keeps_undelivered
    | with_reducible apply keeps_updRing
    | with_reducible apply keeps_mgmtMissed
    | with_reducible apply keeps_nodeLost
    | with_reducible apply keeps_complete
    | with_reducible apply keeps_setRing
    | (with_reducible apply Keeps.foldl; intro s x hs)
    | (extract_lets +onlyGivenNames x; refine Keeps.cut (s := x) ?_ (fun hx => ?_); subst x; rotate_left; clear_value x)
    | extract_lets +onlyGivenNames x
    | with_reducible apply Keeps.ite
    | split
    | with_reducible refine Keeps.upd ?_ rfl

theorem keeps_recordBreak {s₀ s : State} (h : Keeps s₀ s) (w e : Nat) : Keeps s₀ (recordBreak s w e) := by
  unfold recordBreak
  repeat' first
    | with_reducible assumption
    | with_reducible apply keeps_count
    | with_reducible apply keeps_trFlag
    | with_reducible apply keeps_updRing
    | with_reducible refine Keeps.upd ?_ rfl

theorem keeps_sweepMaybeDone {s₀ s : State} (h : Keeps s₀ s) (how : Nat) : Keeps s₀ (sweepMaybeDone s how) := by
  unfold sweepMaybeDone
  repeat' first
    | with_reducible assumption
    | with_reducible apply keeps_finishSweep
    | extract_lets +onlyGivenNames x
    | with_reducible apply Keeps.ite
    | split

theorem keeps_sweepReturn {s₀ s : State} (h : Keeps s₀ s) (half : SweepHalf) (wrappedAt : Option (Fin 16)) (crcOk : Bool) (replies : List Reply) :
    Keeps s₀ (sweepReturn s half wrappedAt crcOk replies) := by
  unfold sweepReturn
  repeat' first
    | with_reducible assumption
    | with_reducible apply keeps_trFlag
    | with_reducible apply keeps_count
    | with_reducible apply keeps_takeReply
    | with_reducible apply keeps_sweepMaybeDone
    | with_reducible apply keeps_updRing
    | with_reducible apply keeps_recordBreak
    | with_reducible apply keeps_finishSweep
    | (with_reducible apply Keeps.foldl; intro s x hs)
    | (extract_lets +onlyGivenNames x; refine Keeps.cut (s := x) ?_ (fun hx => ?_); subst x; rotate_left; clear_value x)
    | extract_lets +onlyGivenNames x
    | with_reducible apply Keeps.ite
    | split
    | with_reducible refine Keeps.upd ?_ rfl

theorem keeps_westHalfSend {s₀ s : State} (h : Keeps s₀ s) : Keeps s₀ (westHalfSend s) := by
  unfold westHalfSend
  repeat' first
    | with_reducible assumption
    | with_reducible apply keeps_updRing
    | extract_lets +onlyGivenNames x
    | with_reducible apply Keeps.ite
    | split
    | with_reducible refine Keeps.upd ?_ rfl

theorem keeps_ringBoundary {s₀ s : State} (h : Keeps s₀ s) (len : Nat) : Keeps s₀ (ringBoundary s len) := by
  unfold ringBoundary
  repeat' first
    | with_reducible assumption
    | with_reducible apply keeps_finishSweep
    | with_reducible apply keeps_updRing
    | (extract_lets +onlyGivenNames x; refine Keeps.cut (s := x) ?_ (fun hx => ?_); subst x; rotate_left; clear_value x)
    | extract_lets +onlyGivenNames x
    | with_reducible apply Keeps.ite
    | split
    | with_reducible refine Keeps.upd ?_ rfl

theorem keeps_satBoundary {s₀ s : State} (h : Keeps s₀ s) : Keeps s₀ (satBoundary s) := by
  unfold satBoundary
  repeat' first
    | with_reducible assumption
    | with_reducible apply keeps_dropEvent
    | with_reducible apply keeps_count
    | with_reducible apply keeps_setEvents
    | with_reducible apply keeps_srcShot
    | with_reducible apply keeps_updValve
    | (with_reducible apply Keeps.foldl; intro s x hs)
    | (extract_lets +onlyGivenNames x; refine Keeps.cut (s := x) ?_ (fun hx => ?_); subst x; rotate_left; clear_value x)
    | extract_lets +onlyGivenNames x
    | with_reducible apply Keeps.ite
    | split
    | with_reducible refine Keeps.upd ?_ rfl

theorem keeps_hopBreak {s₀ s : State} (h : Keeps s₀ s) (hop : Nat) : Keeps s₀ (hopBreak s hop) := by
  unfold hopBreak
  repeat' first
    | with_reducible assumption
    | with_reducible apply keeps_setRing
    | with_reducible apply keeps_recordBreak
    | (extract_lets +onlyGivenNames x; refine Keeps.cut (s := x) ?_ (fun hx => ?_); subst x; rotate_left; clear_value x)
    | extract_lets +onlyGivenNames x
    | with_reducible apply Keeps.ite
    | split
    | with_reducible refine Keeps.upd ?_ rfl

theorem keeps_hopRestored {s₀ s : State} (h : Keeps s₀ s) (hop : Nat) : Keeps s₀ (hopRestored s hop) := by
  unfold hopRestored
  repeat' first
    | with_reducible assumption
    | with_reducible apply keeps_updRing
    | with_reducible apply Keeps.ite
    | split
    | with_reducible refine Keeps.upd ?_ rfl

theorem keeps_hopRejoin {s₀ s : State} (h : Keeps s₀ s) (hop : Nat) (info : List NodeInfo) : Keeps s₀ (hopRejoin s hop info) := by
  unfold hopRejoin
  repeat' first
    | with_reducible assumption
    | with_reducible apply keeps_trFlag
    | with_reducible apply keeps_setRing
    | (extract_lets +onlyGivenNames x; refine Keeps.cut (s := Prod.fst x) ?_ (fun hx => ?_); subst x; rotate_left; clear_value x)
    | extract_lets +onlyGivenNames x
    | with_reducible apply Keeps.ite
    | split
    | with_reducible refine Keeps.upd ?_ rfl

theorem keeps_satWatchdog {s₀ s : State} (h : Keeps s₀ s) (k : Nat) : Keeps s₀ (satWatchdog s k) := by
  unfold satWatchdog
  repeat' first
    | with_reducible assumption
    | with_reducible apply keeps_updRing
    | extract_lets +onlyGivenNames x
    | with_reducible apply Keeps.ite
    | split
    | with_reducible refine Keeps.upd ?_ rfl

theorem keeps_trReport {s₀ s : State} (h : Keeps s₀ s) (j : Job) : Keeps s₀ (trReport s j) := by
  unfold trReport
  repeat' first
    | with_reducible assumption
    | with_reducible apply keeps_updRing
    | with_reducible apply keeps_keep
    | extract_lets +onlyGivenNames x
    | with_reducible refine Keeps.upd ?_ rfl

theorem keeps_trNode {s₀ s : State} (h : Keeps s₀ s) (write : Bool) (j : Job) : Keeps s₀ (trNode write s j) := by
  unfold trNode
  repeat' first
    | with_reducible assumption
    | with_reducible apply keeps_updRing
    | with_reducible apply keeps_keep
    | extract_lets +onlyGivenNames x
    | with_reducible apply Keeps.ite
    | split
    | with_reducible refine Keeps.upd ?_ rfl

theorem keeps_trRelink {s₀ s : State} (h : Keeps s₀ s) (j : Job) : Keeps s₀ (trRelink s j) := by
  unfold trRelink
  repeat' first
    | with_reducible assumption
    | with_reducible apply keeps_startLink
    | with_reducible apply keeps_updRing
    | with_reducible apply keeps_keep
    | extract_lets +onlyGivenNames x
    | with_reducible refine Keeps.upd ?_ rfl

end Sys2Proof.Machine
end

