-- ==== Sys2Proof/Laws/KeepsStops.lean ====
section
/-!
SUPPORT. One lemma for each definition of Machine/Stops.lean that answers a state: it keeps what `Keeps` says (Laws/Keeps.lean).
-/
namespace Sys2Proof.Machine
set_option Elab.async false
set_option linter.all false

theorem keeps_rampOne {s₀ s : State} (h : Keeps s₀ s) (a : Nat) : Keeps s₀ (rampOne s a) := by
  unfold rampOne
  repeat' first
    | with_reducible assumption
    | with_reducible apply keeps_supersede
    | with_reducible apply keeps_dropNext
    | with_reducible apply keeps_pierRamp
    | with_reducible apply keeps_rampAxis
    | with_reducible apply keeps_updSg
    | (extract_lets +onlyGivenNames x; refine Keeps.cut (s := x) ?_ (fun hx => ?_); subst x; rotate_left; clear_value x)
    | extract_lets +onlyGivenNames x
    | with_reducible apply Keeps.ite
    | split
    | with_reducible refine Keeps.upd ?_ rfl

theorem keeps_rampStopTenant {s₀ s : State} (h : Keeps s₀ s) (tn : Nat) : Keeps s₀ (rampStopTenant s tn) := by
  unfold rampStopTenant
  repeat' first
    | with_reducible assumption
    | with_reducible apply keeps_updGroup
    | with_reducible apply keeps_stayRelease0
    | with_reducible apply keeps_rampOne
    | (with_reducible apply Keeps.foldl; intro s x hs)
    | (extract_lets +onlyGivenNames x; refine Keeps.cut (s := x) ?_ (fun hx => ?_); subst x; rotate_left; clear_value x)
    | extract_lets +onlyGivenNames x
    | with_reducible apply Keeps.ite
    | split
    | with_reducible refine Keeps.upd ?_ rfl

theorem keeps_dropSources {s₀ s : State} (h : Keeps s₀ s) (gs ys : List Nat) : Keeps s₀ (dropSources s gs ys) := by
  unfold dropSources
  repeat' first
    | with_reducible assumption
    | with_reducible apply keeps_groupDrop
    | with_reducible apply keeps_stayDrop
    | (with_reducible apply Keeps.foldl; intro s x hs)
    | (extract_lets +onlyGivenNames x; refine Keeps.cut (s := x) ?_ (fun hx => ?_); subst x; rotate_left; clear_value x)
    | extract_lets +onlyGivenNames x
    | split

theorem keeps_holdTenantAxes {s₀ s : State} (h : Keeps s₀ s) (tn : Nat) : Keeps s₀ (holdTenantAxes s tn) := by
  unfold holdTenantAxes
  repeat' first
    | with_reducible assumption
    | with_reducible apply keeps_dropSources
    | with_reducible apply keeps_pierHold
    | with_reducible apply keeps_sgHold
    | (with_reducible apply Keeps.foldl; intro s x hs)
    | (extract_lets +onlyGivenNames x; refine Keeps.cut (s := x) ?_ (fun hx => ?_); subst x; rotate_left; clear_value x)
    | extract_lets +onlyGivenNames x
    | with_reducible apply Keeps.ite
    | split

theorem keeps_closeTenantValves {s₀ s : State} (h : Keeps s₀ s) (tn : Nat) : Keeps s₀ (closeTenantValves s tn) := by
  unfold closeTenantValves
  repeat' first
    | with_reducible assumption
    | with_reducible apply keeps_rowStop
    | with_reducible apply keeps_fitted
    | with_reducible apply keeps_removeEvents
    | with_reducible apply keeps_valveOff
    | with_reducible apply keeps_updRow
    | (with_reducible apply Keeps.foldl; intro s x hs)
    | (extract_lets +onlyGivenNames x; refine Keeps.cut (s := x) ?_ (fun hx => ?_); subst x; rotate_left; clear_value x)
    | (extract_lets +onlyGivenNames x; refine Keeps.cut (s := Prod.fst x) ?_ (fun hx => ?_); subst x; rotate_left; clear_value x)
    | extract_lets +onlyGivenNames x
    | split
    | with_reducible refine Keeps.upd ?_ rfl

theorem keeps_stopTenantPipes {s₀ s : State} (h : Keeps s₀ s) (tn : Nat) : Keeps s₀ (stopTenantPipes s tn) := by
  unfold stopTenantPipes
  repeat' first
    | with_reducible assumption
    | with_reducible apply keeps_stopPipe
    | (with_reducible apply Keeps.foldl; intro s x hs)
    | with_reducible apply Keeps.ite
    | split

theorem keeps_emptyTenantCan {s₀ s : State} (h : Keeps s₀ s) (tn : Nat) : Keeps s₀ (emptyTenantCan s tn) := by
  unfold emptyTenantCan
  repeat' first
    | with_reducible assumption
    | with_reducible apply keeps_canDropTenant
    | (with_reducible apply Keeps.foldl; intro s x hs)

theorem keeps_dropClaims {s₀ s : State} (h : Keeps s₀ s) (tn : Nat) : Keeps s₀ (dropClaims s tn) := by
  unfold dropClaims
  repeat' first
    | with_reducible assumption
    | with_reducible apply keeps_dropSources
    | with_reducible apply keeps_updAxis
    | with_reducible apply keeps_setGroup
    | with_reducible apply keeps_setStay
    | with_reducible apply keeps_setCamTab
    | (with_reducible apply Keeps.foldl; intro s x hs)
    | (extract_lets +onlyGivenNames x; refine Keeps.cut (s := x) ?_ (fun hx => ?_); subst x; rotate_left; clear_value x)
    | (extract_lets +onlyGivenNames x; refine Keeps.cut (s := Prod.fst x) ?_ (fun hx => ?_); subst x; rotate_left; clear_value x)
    | extract_lets +onlyGivenNames x
    | with_reducible apply Keeps.ite
    | split
    | with_reducible refine Keeps.upd ?_ rfl

theorem keeps_abandonReads {s₀ s : State} (h : Keeps s₀ s) (tn : Nat) : Keeps s₀ (abandonReads s tn) := by
  unfold abandonReads
  repeat' first
    | with_reducible assumption
    | with_reducible apply keeps_complete
    | with_reducible apply keeps_frameReadUnlock
    | with_reducible apply keeps_canRetry
    | (with_reducible apply Keeps.foldl; intro s x hs)
    | (extract_lets +onlyGivenNames x; refine Keeps.cut (s := x) ?_ (fun hx => ?_); subst x; rotate_left; clear_value x)
    | extract_lets +onlyGivenNames x
    | with_reducible apply Keeps.ite
    | split

theorem keeps_takeLoadAll {s₀ s : State} (h : Keeps s₀ s) (tn : Nat) : Keeps s₀ (takeLoadAll s tn) := by
  unfold takeLoadAll
  repeat' first | with_reducible assumption | with_reducible apply keeps_loadAll

end Sys2Proof.Machine
end

