-- ==== Sys2Proof/Laws/KeepsTenants.lean ====
section
/-!
SUPPORT. One lemma for each definition of Machine/Tenants.lean that answers a state: it keeps what `Keeps` says (Laws/Keeps.lean).
-/
namespace Sys2Proof.Machine
set_option Elab.async false
set_option linter.all false

theorem keeps_hostLoss {s₀ s : State} (h : Keeps s₀ s) (tn due : Nat) : Keeps s₀ (hostLoss s tn due) := by
  unfold hostLoss
  repeat' first
    | with_reducible assumption
    | with_reducible apply keeps_abandonReads
    | with_reducible apply keeps_setTn
    | extract_lets +onlyGivenNames x
    | with_reducible apply Keeps.ite
    | split
    | with_reducible refine Keeps.upd ?_ rfl

theorem keeps_hostLossOf {s₀ s : State} (h : Keeps s₀ s) (ns : List Nat) : Keeps s₀ (hostLossOf s ns) := by
  unfold hostLossOf
  repeat' first
    | with_reducible assumption
    | with_reducible apply keeps_hostLoss
    | (with_reducible apply Keeps.foldl; intro s x hs)

theorem keeps_dropVfs {s₀ s : State} (h : Keeps s₀ s) : Keeps s₀ (dropVfs s) :=
  h.tab rfl fun t => { t with fns := storeWf_filter _ _ t.fns }

theorem keeps_doLinkDown {s₀ s : State} (h : Keeps s₀ s) : Keeps s₀ (doLinkDown s) := by
  unfold doLinkDown
  repeat' first
    | with_reducible assumption
    | with_reducible apply keeps_ptmLost
    | with_reducible apply keeps_hostLossOf
    | extract_lets +onlyGivenNames x
    | with_reducible refine Keeps.upd ?_ rfl

theorem keeps_doPerstLow {s₀ s : State} (h : Keeps s₀ s) : Keeps s₀ (doPerstLow s) := by
  have h' := keeps_doLinkDown h
  unfold doPerstLow
  generalize doLinkDown s = s' at *
  exact h'.tab rfl fun t => { t with fns := rfl }

theorem keeps_doTrained {s₀ s : State} (h : Keeps s₀ s) (w : LinkWidth) (r : LinkRate) : Keeps s₀ (doTrained s w r) := by
  unfold doTrained
  repeat' first
    | with_reducible assumption
    | extract_lets +onlyGivenNames x
    | with_reducible apply Keeps.ite
    | split
    | with_reducible refine Keeps.upd ?_ rfl

theorem keeps_doRetrain {s₀ s : State} (h : Keeps s₀ s) (w : LinkWidth) (r : LinkRate) : Keeps s₀ (doRetrain s w r) := by
  unfold doRetrain
  repeat' first
    | with_reducible assumption
    | extract_lets +onlyGivenNames x
    | with_reducible apply Keeps.ite
    | split
    | with_reducible refine Keeps.upd ?_ rfl

theorem keeps_doVfClear {s₀ s : State} (h : Keeps s₀ s) : Keeps s₀ (doVfClear s) := by
  unfold doVfClear
  repeat' first
    | with_reducible assumption
    | with_reducible apply keeps_dropVfs
    | with_reducible apply keeps_hostLossOf

theorem keeps_doFlr {s₀ s : State} (h : Keeps s₀ s) (fn : Nat) : Keeps s₀ (doFlr s fn) := by
  unfold doFlr
  repeat' first
    | with_reducible assumption
    | with_reducible apply keeps_hostLoss
    | with_reducible apply keeps_ringReset
    | with_reducible apply keeps_setFn
    | with_reducible apply keeps_doVfClear
    | with_reducible apply keeps_ptmLost
    | (extract_lets +onlyGivenNames x; refine Keeps.cut (s := x) ?_ (fun hx => ?_); subst x; rotate_left; clear_value x)
    | extract_lets +onlyGivenNames x
    | with_reducible apply Keeps.ite
    | split
    | with_reducible refine Keeps.upd ?_ rfl

theorem keeps_doBmeClear {s₀ s : State} (h : Keeps s₀ s) (fn : Nat) : Keeps s₀ (doBmeClear s fn) := by
  unfold doBmeClear
  repeat' first
    | with_reducible assumption
    | with_reducible apply keeps_hostLoss
    | with_reducible apply keeps_updFn
    | with_reducible apply Keeps.ite
    | split
    | with_reducible refine Keeps.upd ?_ rfl

theorem keeps_doAttach {s₀ s : State} (h : Keeps s₀ s) (tn : Nat) : Keeps s₀ (doAttach s tn) := by
  unfold doAttach
  repeat' first
    | with_reducible assumption
    | with_reducible apply keeps_updTn
    | with_reducible apply keeps_flagRaw
    | with_reducible apply Keeps.ite
    | split
    | with_reducible refine Keeps.upd ?_ rfl

theorem keeps_becomeAttached {s₀ s : State} (h : Keeps s₀ s) (tn : Nat) : Keeps s₀ (becomeAttached s tn) := by
  unfold becomeAttached
  repeat' first
    | with_reducible assumption
    | with_reducible apply keeps_ringReset
    | with_reducible apply keeps_updTn
    | (extract_lets +onlyGivenNames x; refine Keeps.cut (s := x) ?_ (fun hx => ?_); subst x; rotate_left; clear_value x)
    | extract_lets +onlyGivenNames x
    | split
    | with_reducible refine Keeps.upd ?_ rfl

theorem keeps_doAttachEval {s₀ s : State} (h : Keeps s₀ s) (tn : Nat) : Keeps s₀ (doAttachEval s tn) := by
  unfold doAttachEval
  repeat' first
    | with_reducible assumption
    | with_reducible apply keeps_setTn
    | with_reducible apply keeps_flagRaw
    | with_reducible apply keeps_becomeAttached
    | with_reducible apply keeps_count
    | (extract_lets +onlyGivenNames x; refine Keeps.cut (s := x) ?_ (fun hx => ?_); subst x; rotate_left; clear_value x)
    | extract_lets +onlyGivenNames x
    | with_reducible apply Keeps.ite
    | split
    | with_reducible refine Keeps.upd ?_ rfl

theorem keeps_startDetach {s₀ s : State} (h : Keeps s₀ s) (tn : Nat) : Keeps s₀ (startDetach s tn) := by
  unfold startDetach
  repeat' first
    | with_reducible assumption
    | with_reducible apply keeps_updTn
    | with_reducible apply keeps_emptyTenantCan
    | with_reducible apply keeps_stopTenantPipes
    | with_reducible apply keeps_closeTenantValves
    | with_reducible apply keeps_rampStopTenant
    | (extract_lets +onlyGivenNames x; refine Keeps.cut (s := x) ?_ (fun hx => ?_); subst x; rotate_left; clear_value x)
    | extract_lets +onlyGivenNames x
    | split
    | with_reducible refine Keeps.upd ?_ rfl

theorem keeps_doDetach {s₀ s : State} (h : Keeps s₀ s) (tn : Nat) : Keeps s₀ (doDetach s tn) := by
  unfold doDetach
  repeat' first
    | with_reducible assumption
    | with_reducible apply keeps_startDetach
    | with_reducible apply Keeps.ite
    | split

theorem keeps_doDetachComplete {s₀ s : State} (h : Keeps s₀ s) (tn : Nat) : Keeps s₀ (doDetachComplete s tn) := by
  unfold doDetachComplete
  repeat' first
    | with_reducible assumption
    | with_reducible apply keeps_dropClaims
    | with_reducible apply keeps_setTn
    | extract_lets +onlyGivenNames x
    | with_reducible apply Keeps.ite
    | split
    | with_reducible refine Keeps.upd ?_ rfl

theorem keeps_writeTenantCfg {s₀ s : State} (h : Keeps s₀ s) (tn w : Nat) : Keeps s₀ (writeTenantCfg s tn w) := by
  unfold writeTenantCfg
  repeat' first
    | with_reducible assumption
    | with_reducible apply keeps_flag
    | with_reducible apply keeps_wr
    | with_reducible apply keeps_updTn
    | with_reducible apply keeps_startDetach
    | (extract_lets +onlyGivenNames x; refine Keeps.cut (s := x) ?_ (fun hx => ?_); subst x; rotate_left; clear_value x)
    | extract_lets +onlyGivenNames x
    | with_reducible apply Keeps.ite
    | split
    | with_reducible refine Keeps.upd ?_ rfl

theorem keeps_feedHeartbeat {s₀ s : State} (h : Keeps s₀ s) (tn : Nat) : Keeps s₀ (feedHeartbeat s tn) := by
  unfold feedHeartbeat
  repeat' first
    | with_reducible assumption
    | with_reducible apply keeps_updTn
    | with_reducible apply Keeps.ite
    | split
    | with_reducible refine Keeps.upd ?_ rfl

theorem keeps_doHbExpiry {s₀ s : State} (h : Keeps s₀ s) (tn : Nat) : Keeps s₀ (doHbExpiry s tn) := by
  unfold doHbExpiry
  repeat' first
    | with_reducible assumption
    | with_reducible apply keeps_hostLoss
    | extract_lets +onlyGivenNames x
    | with_reducible apply Keeps.ite
    | split

theorem keeps_doOrphan {s₀ s : State} (h : Keeps s₀ s) (tn : Nat) : Keeps s₀ (doOrphan s tn) := by
  unfold doOrphan
  repeat' first
    | with_reducible assumption
    | with_reducible apply keeps_setTn
    | with_reducible apply keeps_count
    | with_reducible apply keeps_rampStopTenant
    | with_reducible apply keeps_holdTenantAxes
    | (extract_lets +onlyGivenNames x; refine Keeps.cut (s := x) ?_ (fun hx => ?_); subst x; rotate_left; clear_value x)
    | extract_lets +onlyGivenNames x
    | with_reducible apply Keeps.ite
    | split
    | with_reducible refine Keeps.upd ?_ rfl

theorem keeps_doOrphanLimit {s₀ s : State} (h : Keeps s₀ s) (tn : Nat) : Keeps s₀ (doOrphanLimit s tn) := by
  unfold doOrphanLimit
  repeat' first
    | with_reducible assumption
    | with_reducible apply keeps_setTn
    | with_reducible apply keeps_rampStopTenant
    | (extract_lets +onlyGivenNames x; refine Keeps.cut (s := x) ?_ (fun hx => ?_); subst x; rotate_left; clear_value x)
    | extract_lets +onlyGivenNames x
    | with_reducible apply Keeps.ite
    | split
    | with_reducible refine Keeps.upd ?_ rfl

theorem keeps_doHoldEffect {s₀ s : State} (h : Keeps s₀ s) (tn : Nat) : Keeps s₀ (doHoldEffect s tn) := by
  unfold doHoldEffect
  repeat' first
    | with_reducible assumption
    | with_reducible apply keeps_holdTenantAxes
    | with_reducible apply keeps_setTn
    | extract_lets +onlyGivenNames x
    | with_reducible apply Keeps.ite
    | split
    | with_reducible refine Keeps.upd ?_ rfl

theorem keeps_doHoldDone {s₀ s : State} (h : Keeps s₀ s) (tn : Nat) : Keeps s₀ (doHoldDone s tn) := by
  unfold doHoldDone
  repeat' first
    | with_reducible assumption
    | with_reducible apply keeps_complete
    | (with_reducible apply Keeps.foldl; intro s x hs)
    | with_reducible apply Keeps.ite
    | split

theorem keeps_admitHold {s₀ s : State} (h : Keeps s₀ s) (tn : Nat) (byT0 : Bool) : Keeps s₀ (admitHold s tn byT0) := by
  unfold admitHold
  repeat' first
    | with_reducible assumption
    | with_reducible apply keeps_updTn
    | with_reducible refine Keeps.upd ?_ rfl

theorem keeps_endHold {s₀ s : State} (h : Keeps s₀ s) (tn : Nat) : Keeps s₀ (endHold s tn) := by
  unfold endHold
  repeat' first
    | with_reducible assumption
    | with_reducible apply keeps_updTn
    | with_reducible refine Keeps.upd ?_ rfl

theorem keeps_doPublish {s₀ s : State} (h : Keeps s₀ s) (d : Desc) : Keeps s₀ (doPublish s d) := by
  unfold doPublish
  repeat' first
    | with_reducible assumption
    | (extract_lets +onlyGivenNames x; refine Keeps.cut (s := x) ?_ (fun hx => ?_); subst x; rotate_left; clear_value x)
    | extract_lets +onlyGivenNames x
    | with_reducible apply Keeps.ite
    | split
    | with_reducible apply Keeps.put_pubOn
    | with_reducible apply Keeps.put_pubRec
    | with_reducible refine Keeps.upd ?_ rfl

theorem keeps_tenantHoldStart {s₀ s : State} (h : Keeps s₀ s) (j : Job) : Keeps s₀ (tenantHoldStart s j) := by
  unfold tenantHoldStart
  repeat' first
    | with_reducible assumption
    | with_reducible apply keeps_admitHold
    | with_reducible apply keeps_keep
    | with_reducible refine Keeps.upd ?_ rfl

end Sys2Proof.Machine
end

