-- ==== Sys2Proof/Laws/KeepsParapet.lean ====
section
/-!
SUPPORT. One lemma for each definition of Machine/Parapet.lean that answers a state: it keeps what `Keeps` says (Laws/Keeps.lean).
-/
namespace Sys2Proof.Machine
set_option Elab.async false
set_option linter.all false

theorem keeps_ppFlag {s₀ s : State} (h : Keeps s₀ s) (mask : Nat) : Keeps s₀ (ppFlag s mask) := by
  unfold ppFlag
  repeat' first | with_reducible assumption | with_reducible apply keeps_flag

theorem keeps_updPp {s₀ s : State} (h : Keeps s₀ s) {f : Parapet → Parapet} (hf : ∀ p, (f p).mode = p.mode) : Keeps s₀ (updPp s f) := by
  have e := hf s.pp
  unfold updPp
  generalize f s.pp = p at e
  refine Keeps.upd h ?_
  rw [e]

theorem keeps_dropOpens {s₀ s : State} (h : Keeps s₀ s) : Keeps s₀ (dropOpens s) := by
  unfold dropOpens
  repeat' first
    | with_reducible assumption
    | with_reducible apply keeps_updRing
    | with_reducible refine Keeps.upd ?_ rfl

theorem keeps_closeAllFrame {s₀ s : State} (h : Keeps s₀ s) : Keeps s₀ (closeAllFrame s) := by
  unfold closeAllFrame
  repeat' first
    | with_reducible assumption
    | with_reducible apply keeps_updRing
    | with_reducible apply Keeps.ite
    | split
    | with_reducible refine Keeps.upd ?_ rfl

theorem keeps_outputsSafe {s₀ s : State} (h : Keeps s₀ s) : Keeps s₀ (outputsSafe s) := by
  unfold outputsSafe
  repeat' first
    | with_reducible assumption
    | with_reducible apply keeps_dropSources
    | with_reducible apply keeps_pierForced
    | with_reducible apply keeps_sgForced
    | with_reducible apply keeps_dropOpens
    | with_reducible apply keeps_valvesCloseAll
    | (with_reducible apply Keeps.foldl; intro s x hs)
    | (extract_lets +onlyGivenNames x; refine Keeps.cut (s := x) ?_ (fun hx => ?_); subst x; rotate_left; clear_value x)
    | (extract_lets +onlyGivenNames x; refine Keeps.cut (s := Prod.fst x) ?_ (fun hx => ?_); subst x; rotate_left; clear_value x)
    | extract_lets +onlyGivenNames x
    | split

theorem keeps_enterMode (s : State) (m : Mode) : Keeps (updPp s fun p => { p with mode := m, unsafeAck := false }) (enterMode s m) := by
  unfold enterMode
  generalize updPp s (fun p => { p with mode := m, unsafeAck := false }) = s
  have h := Keeps.refl s
  repeat' first
    | with_reducible assumption
    | with_reducible apply keeps_ppFlag
    | with_reducible apply keeps_count
    | with_reducible apply keeps_outputsSafe
    | with_reducible apply keeps_closeAllFrame
    | with_reducible apply keeps_pwmModeChange
    | (extract_lets +onlyGivenNames x; refine Keeps.cut (s := x) ?_ (fun hx => ?_); subst x; rotate_left; clear_value x)
    | (extract_lets +onlyGivenNames x; refine Keeps.cut (s := Prod.fst x) ?_ (fun hx => ?_); subst x; rotate_left; clear_value x)
    | extract_lets +onlyGivenNames x
    | with_reducible apply Keeps.ite
    | split
    | with_reducible refine Keeps.upd ?_ rfl
theorem keeps_enterSafe {s₀ s : State} (h : Keeps s₀ s) : Keeps s₀ (enterMode s .safeHold) := by
  refine Keeps.trans (s := updPp s fun p => { p with mode := .safeHold, unsafeAck := false }) ?_ (keeps_enterMode s _)
  exact ⟨h.pll, h.porst, h.now, h.boundary, h.spanIx, h.len, h.offset, h.pct, h.sampled, h.judged, h.writes, h.grants, h.pending, .inr rfl,
    fun t => { h.tables t with }⟩

theorem keeps_clearCause {s₀ s : State} (h : Keeps s₀ s) (code : Nat) : Keeps s₀ (clearCause s code) := by
  unfold clearCause
  repeat' first
    | with_reducible assumption
    | with_reducible refine keeps_updPp ?_ (fun _ => rfl)
    | (extract_lets +onlyGivenNames x; refine Keeps.cut (s := x) ?_ (fun hx => ?_); subst x; rotate_left; clear_value x)
    | (extract_lets +onlyGivenNames x; refine Keeps.cut (s := Prod.fst x) ?_ (fun hx => ?_); subst x; rotate_left; clear_value x)
    | extract_lets +onlyGivenNames x
    | with_reducible apply Keeps.ite
    | split
    | with_reducible refine Keeps.upd ?_ rfl

theorem keeps_raiseCause {s₀ s : State} (h : Keeps s₀ s) (code : Nat) : Keeps s₀ (raiseCause s code) := by
  unfold raiseCause
  repeat' first
    | with_reducible assumption
    | with_reducible refine keeps_updPp ?_ (fun _ => rfl)
    | with_reducible apply keeps_enterSafe
    | with_reducible apply keeps_ppFlag
    | with_reducible apply keeps_count
    | (extract_lets +onlyGivenNames x; refine Keeps.cut (s := x) ?_ (fun hx => ?_); subst x; rotate_left; clear_value x)
    | (extract_lets +onlyGivenNames x; refine Keeps.cut (s := Prod.fst x) ?_ (fun hx => ?_); subst x; rotate_left; clear_value x)
    | extract_lets +onlyGivenNames x
    | with_reducible apply Keeps.ite
    | split
    | with_reducible refine Keeps.upd ?_ rfl

theorem keeps_raiseOnce {s₀ s : State} (h : Keeps s₀ s) (code : Nat) : Keeps s₀ (raiseOnce s code) := by
  unfold raiseOnce
  repeat' first
    | with_reducible assumption
    | with_reducible apply keeps_clearCause
    | with_reducible apply keeps_raiseCause

theorem keeps_ppHeartbeat {s₀ s : State} (h : Keeps s₀ s) : Keeps s₀ (ppHeartbeat s) := by
  unfold ppHeartbeat
  repeat' first
    | with_reducible assumption
    | with_reducible refine keeps_updPp ?_ (fun _ => rfl)
    | with_reducible apply keeps_clearCause
    | (extract_lets +onlyGivenNames x; refine Keeps.cut (s := x) ?_ (fun hx => ?_); subst x; rotate_left; clear_value x)
    | (extract_lets +onlyGivenNames x; refine Keeps.cut (s := Prod.fst x) ?_ (fun hx => ?_); subst x; rotate_left; clear_value x)
    | extract_lets +onlyGivenNames x
    | with_reducible apply Keeps.ite
    | split
    | with_reducible refine Keeps.upd ?_ rfl

theorem keeps_heartbeatMiss {s₀ s : State} (h : Keeps s₀ s) : Keeps s₀ (heartbeatMiss s) := by
  unfold heartbeatMiss
  repeat' first
    | with_reducible assumption
    | with_reducible refine keeps_updPp ?_ (fun _ => rfl)
    | with_reducible apply keeps_raiseCause
    | (extract_lets +onlyGivenNames x; refine Keeps.cut (s := x) ?_ (fun hx => ?_); subst x; rotate_left; clear_value x)
    | (extract_lets +onlyGivenNames x; refine Keeps.cut (s := Prod.fst x) ?_ (fun hx => ?_); subst x; rotate_left; clear_value x)
    | extract_lets +onlyGivenNames x
    | with_reducible apply Keeps.ite
    | split
    | with_reducible refine Keeps.upd ?_ rfl

theorem keeps_setRail {s₀ s : State} (h : Keeps s₀ s) (r : Rail) (ok : Bool) : Keeps s₀ (setRail s r ok) := by
  unfold setRail
  repeat' first
    | with_reducible assumption
    | extract_lets +onlyGivenNames x
    | with_reducible refine Keeps.upd ?_ rfl

theorem keeps_setField {s₀ s : State} (h : Keeps s₀ s) (r : FieldRail) (mv : Nat) : Keeps s₀ (setField s r mv) := by
  cases r <;> exact Keeps.upd h rfl

theorem keeps_modeResult {s₀ s : State} (h : Keeps s₀ s) (res checks : Nat) : Keeps s₀ (modeResult s res checks) := by
  unfold modeResult
  repeat' first
    | with_reducible assumption
    | with_reducible refine keeps_updPp ?_ (fun _ => rfl)
    | with_reducible apply keeps_ppFlag
    | with_reducible apply keeps_count
    | (extract_lets +onlyGivenNames x; refine Keeps.cut (s := x) ?_ (fun hx => ?_); subst x; rotate_left; clear_value x)
    | (extract_lets +onlyGivenNames x; refine Keeps.cut (s := Prod.fst x) ?_ (fun hx => ?_); subst x; rotate_left; clear_value x)
    | extract_lets +onlyGivenNames x
    | with_reducible apply Keeps.ite
    | split
    | with_reducible refine Keeps.upd ?_ rfl

theorem keeps_safeHoldRequest {s₀ s : State} (h : Keeps s₀ s) : Keeps s₀ (safeHoldRequest s) := by
  unfold safeHoldRequest
  repeat' first
    | with_reducible assumption
    | with_reducible apply keeps_raiseOnce
    | with_reducible apply keeps_modeResult
    | extract_lets +onlyGivenNames x
    | with_reducible apply Keeps.ite
    | split

theorem keeps_modeRequest {s₀ s : State} (h : Keeps s₀ s) (w : Nat) : Keeps s₀ (modeRequest s w) := by
  unfold modeRequest
  repeat' first
    | with_reducible assumption
    | with_reducible refine keeps_updPp ?_ (fun _ => rfl)
    | with_reducible apply keeps_safeHoldRequest
    | with_reducible apply keeps_ppFlag
    | (extract_lets +onlyGivenNames x; refine Keeps.cut (s := x) ?_ (fun hx => ?_); subst x; rotate_left; clear_value x)
    | (extract_lets +onlyGivenNames x; refine Keeps.cut (s := Prod.fst x) ?_ (fun hx => ?_); subst x; rotate_left; clear_value x)
    | extract_lets +onlyGivenNames x
    | with_reducible apply Keeps.ite
    | split
    | with_reducible refine Keeps.upd ?_ rfl

theorem keeps_checkFlags {s₀ s : State} (h : Keeps s₀ s) (c : Nat) : Keeps s₀ (checkFlags s c) := by
  unfold checkFlags
  repeat' first
    | with_reducible assumption
    | with_reducible apply keeps_flagIf
    | (with_reducible apply Keeps.foldl; intro s x hs)
    | (extract_lets +onlyGivenNames x; refine Keeps.cut (s := x) ?_ (fun hx => ?_); subst x; rotate_left; clear_value x)
    | extract_lets +onlyGivenNames x
    | split

theorem keeps_sensorRead {s₀ s : State} (h : Keeps s₀ s) (sp dk fa fb : Int) : Keeps s₀ (sensorRead s sp dk fa fb) := by
  unfold sensorRead
  repeat' first
    | with_reducible assumption
    | with_reducible refine keeps_updPp ?_ (fun _ => rfl)
    | with_reducible apply keeps_raiseCause
    | with_reducible apply keeps_clearCause
    | (extract_lets +onlyGivenNames x; refine Keeps.cut (s := x) ?_ (fun hx => ?_); subst x; rotate_left; clear_value x)
    | (extract_lets +onlyGivenNames x; refine Keeps.cut (s := Prod.fst x) ?_ (fun hx => ?_); subst x; rotate_left; clear_value x)
    | extract_lets +onlyGivenNames x
    | with_reducible apply Keeps.ite
    | split
    | with_reducible refine Keeps.upd ?_ rfl

theorem keeps_deckDevice {s₀ s : State} (h : Keeps s₀ s) (ue : Bool) (page : Nat) : Keeps s₀ (deckDevice s ue page) := by
  unfold deckDevice
  repeat' first
    | with_reducible assumption
    | with_reducible apply keeps_raiseOnce
    | with_reducible apply keeps_flag
    | with_reducible apply Keeps.ite
    | split

theorem keeps_scrubRead {s₀ s : State} (h : Keeps s₀ s) (e : Ecc) : Keeps s₀ (scrubRead s e) := by
  unfold scrubRead
  repeat' first
    | with_reducible assumption
    | with_reducible apply keeps_deckEcc
    | with_reducible apply keeps_deckDevice
    | with_reducible apply keeps_count
    | (extract_lets +onlyGivenNames x; refine Keeps.cut (s := x) ?_ (fun hx => ?_); subst x; rotate_left; clear_value x)
    | extract_lets +onlyGivenNames x
    | with_reducible apply Keeps.ite
    | split
    | with_reducible refine Keeps.upd ?_ rfl

end Sys2Proof.Machine
end

