-- ==== Sys2Proof/Laws/KeepsBoot.lean ====
section
/-!
SUPPORT. One lemma for each definition of Machine/Boot.lean that answers a state: it keeps what `Keeps` says (Laws/Keeps.lean).
-/
namespace Sys2Proof.Machine
set_option Elab.async false
set_option linter.all false

theorem keeps_setFw {s₀ s : State} (h : Keeps s₀ s) (f : Firmware) : Keeps s₀ (setFw s f) := by
  unfold setFw
  repeat' first
    | with_reducible assumption
    | with_reducible refine Keeps.upd ?_ rfl

theorem keeps_updFw {s₀ s : State} (h : Keeps s₀ s) (f : Firmware → Firmware) : Keeps s₀ (updFw s f) := by
  unfold updFw
  repeat' first
    | with_reducible assumption
    | with_reducible refine Keeps.upd ?_ rfl

theorem keeps_fwuFlag {s₀ s : State} (h : Keeps s₀ s) (mask : Nat) : Keeps s₀ (fwuFlag s mask) := by
  unfold fwuFlag
  repeat' first | with_reducible assumption | with_reducible apply keeps_flag

theorem keeps_bootSelect {s₀ s : State} (h : Keeps s₀ s) : Keeps s₀ (bootSelect s) := by
  unfold bootSelect
  repeat' first
    | with_reducible assumption
    | with_reducible apply keeps_setFw
    | with_reducible apply Keeps.ite
    | split

theorem keeps_imageVerified {s₀ s : State} (h : Keeps s₀ s) : Keeps s₀ (imageVerified s) := by
  unfold imageVerified
  repeat' first
    | with_reducible assumption
    | with_reducible apply keeps_setFw
    | extract_lets +onlyGivenNames x
    | with_reducible apply Keeps.ite
    | split
    | with_reducible refine Keeps.upd ?_ rfl

theorem keeps_firmwareReady {s₀ s : State} (h : Keeps s₀ s) : Keeps s₀ (firmwareReady s) := by
  unfold firmwareReady
  repeat' first
    | with_reducible assumption
    | with_reducible apply keeps_clearCause
    | with_reducible apply keeps_updFw
    | extract_lets +onlyGivenNames x
    | split
    | with_reducible refine Keeps.upd ?_ rfl

theorem keeps_enterRecovery {s₀ s : State} (h : Keeps s₀ s) : Keeps s₀ (enterRecovery s) := by
  unfold enterRecovery
  repeat' first
    | with_reducible assumption
    | with_reducible apply keeps_updFw
    | with_reducible apply Keeps.ite
    | split
    | with_reducible refine Keeps.upd ?_ rfl

theorem keeps_fwuEnd {s₀ s : State} (h : Keeps s₀ s) (cmd res check : Nat) : Keeps s₀ (fwuEnd s cmd res check) := by
  unfold fwuEnd
  repeat' first
    | with_reducible assumption
    | with_reducible apply keeps_fwuFlag
    | with_reducible apply keeps_updFw
    | with_reducible refine Keeps.upd ?_ rfl

theorem keeps_stage {s₀ s : State} (h : Keeps s₀ s) : Keeps s₀ (stage s) := by
  unfold stage
  repeat' first
    | with_reducible assumption
    | with_reducible apply keeps_fwuEnd
    | with_reducible apply keeps_setFw
    | with_reducible apply keeps_keep
    | (extract_lets +onlyGivenNames x; refine Keeps.cut (s := x) ?_ (fun hx => ?_); subst x; rotate_left; clear_value x)
    | extract_lets +onlyGivenNames x
    | with_reducible apply Keeps.ite
    | split
    | with_reducible refine Keeps.upd ?_ rfl

theorem keeps_stageEnd {s₀ s : State} (h : Keeps s₀ s) (res check : Nat) : Keeps s₀ (stageEnd s res check) := by
  unfold stageEnd
  repeat' first
    | with_reducible assumption
    | with_reducible apply keeps_fwuEnd
    | with_reducible apply keeps_stage
    | with_reducible refine Keeps.upd ?_ rfl

theorem keeps_stageDone {s₀ s : State} (h : Keeps s₀ s) (r : StageOutcome) : Keeps s₀ (stageDone s r) := by
  unfold stageDone
  repeat' first
    | with_reducible assumption
    | with_reducible apply keeps_stageEnd
    | with_reducible apply keeps_setFw
    | extract_lets +onlyGivenNames x
    | with_reducible apply Keeps.ite
    | split
    | with_reducible refine Keeps.upd ?_ rfl

theorem keeps_activateSlot {s₀ s : State} (h : Keeps s₀ s) (slot : Nat) : Keeps s₀ (activateSlot s slot) := by
  unfold activateSlot
  repeat' first
    | with_reducible assumption
    | with_reducible apply keeps_updFw
    | extract_lets +onlyGivenNames x
    | with_reducible refine Keeps.upd ?_ rfl

theorem keeps_activate {s₀ s : State} (h : Keeps s₀ s) : Keeps s₀ (activate s) := by
  unfold activate
  repeat' first
    | with_reducible assumption
    | with_reducible apply keeps_fwuEnd
    | with_reducible apply keeps_activateSlot
    | with_reducible apply keeps_updFw
    | extract_lets +onlyGivenNames x
    | with_reducible apply Keeps.ite
    | split
    | with_reducible refine Keeps.upd ?_ rfl

theorem keeps_confirm {s₀ s : State} (h : Keeps s₀ s) : Keeps s₀ (confirm s) := by
  unfold confirm
  repeat' first
    | with_reducible assumption
    | with_reducible apply keeps_fwuEnd
    | with_reducible apply keeps_updFw
    | with_reducible apply Keeps.ite
    | split
    | with_reducible refine Keeps.upd ?_ rfl

theorem keeps_svnCommit {s₀ s : State} (h : Keeps s₀ s) : Keeps s₀ (svnCommit s) := by
  unfold svnCommit
  repeat' first
    | with_reducible assumption
    | with_reducible apply keeps_fwuEnd
    | with_reducible apply keeps_updFw
    | with_reducible apply Keeps.ite
    | split
    | with_reducible refine Keeps.upd ?_ rfl

theorem keeps_fwuCmd {s₀ s : State} (h : Keeps s₀ s) (cmd : Nat) : Keeps s₀ (fwuCmd s cmd) := by
  unfold fwuCmd
  repeat' first
    | with_reducible assumption
    | with_reducible apply keeps_fwuFlag
    | with_reducible apply keeps_fwuEnd
    | with_reducible apply keeps_stage
    | with_reducible apply keeps_activate
    | with_reducible apply keeps_updFw
    | with_reducible apply keeps_confirm
    | with_reducible apply keeps_svnCommit
    | extract_lets +onlyGivenNames x
    | with_reducible apply Keeps.ite
    | split
    | with_reducible refine Keeps.upd ?_ rfl

theorem keeps_stageLost {s₀ s : State} (h : Keeps s₀ s) : Keeps s₀ (stageLost s) := by
  unfold stageLost
  repeat' first
    | with_reducible assumption
    | with_reducible apply keeps_stageEnd
    | with_reducible apply Keeps.ite
    | split

theorem keeps_firmwareActivation {s₀ s : State} (h : Keeps s₀ s) : Keeps s₀ (firmwareActivation s) := by
  unfold firmwareActivation
  repeat' first
    | with_reducible assumption
    | with_reducible apply keeps_activateSlot
    | with_reducible apply Keeps.ite
    | split
    | with_reducible refine Keeps.upd ?_ rfl

theorem keeps_fallBack {s₀ s : State} (h : Keeps s₀ s) (slot : Nat) : Keeps s₀ (fallBack s slot) := by
  unfold fallBack
  repeat' first
    | with_reducible assumption
    | with_reducible apply keeps_updFw
    | extract_lets +onlyGivenNames x
    | with_reducible refine Keeps.upd ?_ rfl

theorem keeps_trialTimeout {s₀ s : State} (h : Keeps s₀ s) : Keeps s₀ (trialTimeout s) := by
  unfold trialTimeout
  repeat' first
    | with_reducible assumption
    | with_reducible apply keeps_fwuFlag
    | with_reducible apply keeps_count
    | with_reducible apply keeps_fallBack
    | extract_lets +onlyGivenNames x
    | with_reducible apply Keeps.ite
    | split
    | with_reducible refine Keeps.upd ?_ rfl

theorem keeps_lockstep {s₀ s : State} (h : Keeps s₀ s) : Keeps s₀ (lockstep s) := by
  unfold lockstep
  repeat' first
    | with_reducible assumption
    | with_reducible apply keeps_raiseCause
    | with_reducible apply keeps_fwuFlag
    | with_reducible apply keeps_count
    | with_reducible apply keeps_fallBack
    | with_reducible apply keeps_updFw
    | (extract_lets +onlyGivenNames x; refine Keeps.cut (s := x) ?_ (fun hx => ?_); subst x; rotate_left; clear_value x)
    | extract_lets +onlyGivenNames x
    | with_reducible apply Keeps.ite
    | split
    | with_reducible refine Keeps.upd ?_ rfl

end Sys2Proof.Machine
end

