-- ==== Sys2Proof/Laws/KeepsLife.lean ====
section
/-!
SUPPORT. One lemma for each definition of Machine/Life.lean that answers a state: it keeps what `Keeps` says (Laws/Keeps.lean).
-/
namespace Sys2Proof.Machine
set_option Elab.async false
set_option linter.all false

theorem keeps_updLife {s₀ s : State} (h : Keeps s₀ s) (f : Life → Life) : Keeps s₀ (updLife s f) := by
  unfold updLife
  repeat' first
    | with_reducible assumption
    | with_reducible refine Keeps.upd ?_ rfl

theorem keeps_ageFlag {s₀ s : State} (h : Keeps s₀ s) (mask : Nat) : Keeps s₀ (ageFlag s mask) := by
  unfold ageFlag
  repeat' first | with_reducible assumption | with_reducible apply keeps_flag

theorem keeps_avsAck {s₀ s : State} (h : Keeps s₀ s) (ack : Bool) : Keeps s₀ (avsAck s ack) := by
  unfold avsAck
  repeat' first
    | with_reducible assumption
    | with_reducible apply keeps_updLife
    | with_reducible apply keeps_ageFlag
    | (extract_lets +onlyGivenNames x; refine Keeps.cut (s := x) ?_ (fun hx => ?_); subst x; rotate_left; clear_value x)
    | extract_lets +onlyGivenNames x
    | with_reducible apply Keeps.ite
    | split
    | with_reducible refine Keeps.upd ?_ rfl

theorem keeps_avsCommand {s₀ s : State} (h : Keeps s₀ s) (mv : Nat) (ack : Bool) : Keeps s₀ (avsCommand s mv ack) := by
  unfold avsCommand
  repeat' first
    | with_reducible assumption
    | with_reducible apply keeps_updLife
    | with_reducible apply keeps_count
    | with_reducible apply Keeps.ite
    | split
    | with_reducible refine Keeps.upd ?_ rfl

theorem keeps_avsEvaluate {s₀ s : State} (h : Keeps s₀ s) (m : AvsIn) : Keeps s₀ (avsEvaluate s m) := by
  unfold avsEvaluate
  repeat' first
    | with_reducible assumption
    | with_reducible apply keeps_avsAck
    | with_reducible apply keeps_updLife
    | with_reducible apply keeps_avsCommand
    | with_reducible apply keeps_ageFlag
    | (extract_lets +onlyGivenNames x; refine Keeps.cut (s := x) ?_ (fun hx => ?_); subst x; rotate_left; clear_value x)
    | extract_lets +onlyGivenNames x
    | with_reducible apply Keeps.ite
    | split
    | with_reducible refine Keeps.upd ?_ rfl

theorem keeps_avsRetry {s₀ s : State} (h : Keeps s₀ s) (m : AvsIn) : Keeps s₀ (avsRetry s m) := by
  unfold avsRetry
  repeat' first
    | with_reducible assumption
    | with_reducible apply keeps_updLife
    | with_reducible apply Keeps.ite
    | split
    | with_reducible refine Keeps.upd ?_ rfl

theorem keeps_writeAvsCfg {s₀ s : State} (h : Keeps s₀ s) (w : Nat) : Keeps s₀ (writeAvsCfg s w) := by
  unfold writeAvsCfg
  repeat' first
    | with_reducible assumption
    | with_reducible apply keeps_ageFlag
    | with_reducible apply keeps_wr
    | with_reducible apply keeps_avsCommand
    | with_reducible apply keeps_updLife
    | (extract_lets +onlyGivenNames x; refine Keeps.cut (s := x) ?_ (fun hx => ?_); subst x; rotate_left; clear_value x)
    | extract_lets +onlyGivenNames x
    | with_reducible apply Keeps.ite
    | split
    | with_reducible refine Keeps.upd ?_ rfl

theorem keeps_ageSpan {s₀ s : State} (h : Keeps s₀ s) (len : Nat) : Keeps s₀ (ageSpan s len) := by
  unfold ageSpan
  repeat' first
    | with_reducible assumption
    | with_reducible apply keeps_updLife
    | extract_lets +onlyGivenNames x
    | split
    | with_reducible refine Keeps.upd ?_ rfl

theorem keeps_ageMeasure {s₀ s : State} (h : Keeps s₀ s) (slow : List Nat) : Keeps s₀ (ageMeasure s slow) := by
  unfold ageMeasure
  repeat' first
    | with_reducible assumption
    | with_reducible apply keeps_updLife
    | with_reducible apply keeps_ageFlag
    | (with_reducible apply Keeps.foldl; intro s x hs)
    | (extract_lets +onlyGivenNames x; refine Keeps.cut (s := x) ?_ (fun hx => ?_); subst x; rotate_left; clear_value x)
    | extract_lets +onlyGivenNames x
    | with_reducible apply Keeps.ite
    | split
    | with_reducible refine Keeps.upd ?_ rfl

end Sys2Proof.Machine
end

