-- ==== Sys2Proof/Laws/KeepsFetch.lean ====
section
/-!
SUPPORT. One lemma for each definition of Machine/Fetch.lean that answers a state: it keeps what `Keeps` says (Laws/Keeps.lean).
-/
namespace Sys2Proof.Machine
set_option Elab.async false
set_option linter.all false

theorem keeps_takeFetched {s₀ s : State} (h : Keeps s₀ s) (d : Desc) : Keeps s₀ (takeFetched s d) := by
  unfold takeFetched
  repeat' first
    | with_reducible assumption
    | with_reducible apply keeps_complete
    | with_reducible apply keeps_refuseSide
    | with_reducible apply keeps_keep
    | (extract_lets +onlyGivenNames x; refine Keeps.cut (s := x) ?_ (fun hx => ?_); subst x; rotate_left; clear_value x)
    | extract_lets +onlyGivenNames x
    | with_reducible apply Keeps.ite
    | split
    | with_reducible refine Keeps.upd ?_ rfl

theorem keeps_fetchDesc {s₀ s : State} (h : Keeps s₀ s) (tn : Fin 256) (n : Fin 16) (got : Fetched) :
    Keeps s₀ (fetchDesc s tn n got) := by
  unfold fetchDesc
  repeat' first
    | with_reducible assumption
    | with_reducible apply keeps_flagRaw
    | with_reducible apply keeps_updCq
    | with_reducible apply keeps_sqErr
    | with_reducible apply keeps_updSq
    | with_reducible apply keeps_takeFetched
    | (extract_lets +onlyGivenNames x; refine Keeps.cut (s := x) ?_ (fun hx => ?_); subst x; rotate_left; clear_value x)
    | extract_lets +onlyGivenNames x
    | with_reducible apply Keeps.ite
    | split
    | with_reducible refine Keeps.upd ?_ rfl

theorem keeps_admitNow {s₀ s : State} (h : Keeps s₀ s) (j : Job) : Keeps s₀ (admitNow s j) := by
  unfold admitNow
  repeat' first
    | with_reducible assumption
    | with_reducible apply keeps_keepLast
    | with_reducible apply Keeps.ite
    | split
    | with_reducible refine Keeps.upd ?_ rfl

theorem keeps_applyAdmit {s₀ s : State} (h : Keeps s₀ s) (id : Nat) : Keeps s₀ (applyAdmit s id) := by
  unfold applyAdmit
  repeat' first
    | with_reducible assumption
    | with_reducible apply keeps_complete
    | with_reducible apply keeps_admitNow
    | with_reducible apply keeps_updJob
    | extract_lets +onlyGivenNames x
    | with_reducible apply Keeps.ite
    | split
    | with_reducible refine Keeps.upd ?_ rfl

theorem keeps_fenceAdmit {s₀ s : State} (h : Keeps s₀ s) (id : Nat) : Keeps s₀ (fenceAdmit s id) := by
  unfold fenceAdmit
  repeat' first
    | with_reducible assumption
    | with_reducible apply keeps_admitNow
    | with_reducible apply Keeps.ite
    | split
    | with_reducible refine Keeps.upd ?_ rfl

theorem keeps_dbIgnored {s₀ s : State} (h : Keeps s₀ s) (tn : Nat) : Keeps s₀ (dbIgnored s tn) := by
  unfold dbIgnored
  repeat' first | with_reducible assumption | with_reducible apply keeps_count

theorem keeps_sqTail {s₀ s : State} (h : Keeps s₀ s) (tn n v : Nat) : Keeps s₀ (sqTail s tn n v) := by
  unfold sqTail
  repeat' first
    | with_reducible assumption
    | with_reducible apply keeps_dbIgnored
    | with_reducible apply keeps_setSq
    | with_reducible apply keeps_sqErr
    | extract_lets +onlyGivenNames x
    | with_reducible apply Keeps.ite
    | split
    | with_reducible refine Keeps.upd ?_ rfl

theorem keeps_cqHead {s₀ s : State} (h : Keeps s₀ s) (tn n v : Nat) : Keeps s₀ (cqHead s tn n v) := by
  unfold cqHead
  repeat' first
    | with_reducible assumption
    | with_reducible apply keeps_dbIgnored
    | with_reducible apply keeps_setCq
    | with_reducible apply keeps_cqErr
    | extract_lets +onlyGivenNames x
    | with_reducible apply Keeps.ite
    | split
    | with_reducible refine Keeps.upd ?_ rfl

theorem keeps_loadAllBell {s₀ s : State} (h : Keeps s₀ s) (tn : Nat) : Keeps s₀ (loadAllBell s tn) := by
  unfold loadAllBell
  repeat' first
    | with_reducible assumption
    | with_reducible apply keeps_dbIgnored
    | with_reducible apply keeps_takeLoadAll
    | with_reducible apply keeps_count
    | with_reducible apply Keeps.ite
    | split

theorem keeps_doorbell {s₀ s : State} (h : Keeps s₀ s) (tn off width v : Nat) : Keeps s₀ (doorbell s tn off width v) := by
  unfold doorbell
  repeat' first
    | with_reducible assumption
    | with_reducible apply keeps_dbIgnored
    | with_reducible apply keeps_sqTail
    | with_reducible apply keeps_cqHead
    | with_reducible apply keeps_loadAllBell
    | with_reducible apply Keeps.ite
    | split

theorem keeps_sqMoved {s₀ s : State} (h : Keeps s₀ s) (k : Nat) : Keeps s₀ (sqMoved s k) := by
  unfold sqMoved
  repeat' first
    | with_reducible assumption
    | with_reducible apply keeps_updSq
    | with_reducible refine Keeps.upd ?_ rfl

theorem keeps_cqMoved {s₀ s : State} (h : Keeps s₀ s) (k : Nat) : Keeps s₀ (cqMoved s k) := by
  unfold cqMoved
  repeat' first
    | with_reducible assumption
    | with_reducible apply keeps_updCq
    | with_reducible refine Keeps.upd ?_ rfl

theorem keeps_writeSqBase {s₀ s : State} (h : Keeps s₀ s) (tn n h w : Nat) : Keeps s₀ (writeSqBase s tn n h w) := by
  unfold writeSqBase
  repeat' first
    | with_reducible assumption
    | with_reducible apply keeps_sqErr
    | with_reducible apply keeps_sqMoved
    | with_reducible apply keeps_wr
    | extract_lets +onlyGivenNames x
    | with_reducible apply Keeps.ite
    | split

theorem keeps_writeCqBase {s₀ s : State} (h : Keeps s₀ s) (tn n h w : Nat) : Keeps s₀ (writeCqBase s tn n h w) := by
  unfold writeCqBase
  repeat' first
    | with_reducible assumption
    | with_reducible apply keeps_cqErr
    | with_reducible apply keeps_cqMoved
    | with_reducible apply keeps_wr
    | extract_lets +onlyGivenNames x
    | with_reducible apply Keeps.ite
    | split

theorem keeps_writeSqCfg {s₀ s : State} (h : Keeps s₀ s) (tn n w : Nat) : Keeps s₀ (writeSqCfg s tn n w) := by
  unfold writeSqCfg
  repeat' first
    | with_reducible assumption
    | with_reducible apply keeps_sqErr
    | with_reducible apply keeps_sqMoved
    | with_reducible apply keeps_wr
    | with_reducible apply keeps_updSq
    | (extract_lets +onlyGivenNames x; refine Keeps.cut (s := x) ?_ (fun hx => ?_); subst x; rotate_left; clear_value x)
    | extract_lets +onlyGivenNames x
    | with_reducible apply Keeps.ite
    | split
    | with_reducible refine Keeps.upd ?_ rfl

theorem keeps_writeCqCfg {s₀ s : State} (h : Keeps s₀ s) (tn n w : Nat) : Keeps s₀ (writeCqCfg s tn n w) := by
  unfold writeCqCfg
  repeat' first
    | with_reducible assumption
    | with_reducible apply keeps_cqErr
    | with_reducible apply keeps_cqMoved
    | with_reducible apply keeps_updCq
    | with_reducible apply keeps_wr
    | (extract_lets +onlyGivenNames x; refine Keeps.cut (s := x) ?_ (fun hx => ?_); subst x; rotate_left; clear_value x)
    | extract_lets +onlyGivenNames x
    | with_reducible apply Keeps.ite
    | split
    | with_reducible refine Keeps.upd ?_ rfl

theorem keeps_cqAge {s₀ s : State} (h : Keeps s₀ s) (tn n : Nat) : Keeps s₀ (cqAge s tn n) := by
  unfold cqAge
  repeat' first
    | with_reducible assumption
    | with_reducible apply keeps_signalCq
    | extract_lets +onlyGivenNames x
    | with_reducible apply Keeps.ite
    | split
    | with_reducible refine Keeps.upd ?_ rfl

theorem keeps_sendPending {s₀ s : State} (h : Keeps s₀ s) (fn v : Nat) : Keeps s₀ (sendPending s fn v) := by
  unfold sendPending
  repeat' first
    | with_reducible assumption
    | with_reducible apply keeps_signal
    | with_reducible apply keeps_setFn
    | extract_lets +onlyGivenNames x
    | with_reducible apply Keeps.ite
    | split
    | with_reducible refine Keeps.upd ?_ rfl

theorem keeps_unmaskVec {s₀ s : State} (h : Keeps s₀ s) (fn v : Nat) : Keeps s₀ (unmaskVec s fn v) := by
  unfold unmaskVec
  repeat' first
    | with_reducible assumption
    | with_reducible apply keeps_sendPending
    | with_reducible apply keeps_updFn
    | with_reducible apply Keeps.ite
    | split
    | with_reducible refine Keeps.upd ?_ rfl

end Sys2Proof.Machine
end

