-- ==== Sys2Proof/Laws/KeepsKeystone.lean ====
section
/-!
SUPPORT. One lemma for each definition of Machine/Keystone.lean that answers a state: it keeps what `Keeps` says (Laws/Keeps.lean).
-/
namespace Sys2Proof.Machine
set_option Elab.async false
set_option linter.all false

theorem keeps_endEarly {s₀ s : State} (h : Keeps s₀ s) (j : Job) (status : Nat) : Keeps s₀ (endEarly s j status) := by
  unfold endEarly
  repeat' first
    | with_reducible assumption
    | with_reducible apply keeps_shedFrame
    | with_reducible apply keeps_stage
    | with_reducible apply keeps_complete
    | with_reducible apply keeps_frameReadUnlock
    | with_reducible apply keeps_canRetry
    | (extract_lets +onlyGivenNames x; refine Keeps.cut (s := x) ?_ (fun hx => ?_); subst x; rotate_left; clear_value x)
    | extract_lets +onlyGivenNames x
    | with_reducible apply Keeps.ite
    | split
    | with_reducible refine Keeps.upd ?_ rfl

theorem keeps_shedE {s₀ s : State} (h : Keeps s₀ s) (id : Nat) : Keeps s₀ (shedE s id) := by
  unfold shedE
  repeat' first
    | with_reducible assumption
    | with_reducible apply keeps_stage
    | with_reducible apply keeps_endEarly
    | with_reducible apply Keeps.ite
    | split
    | with_reducible refine Keeps.upd ?_ rfl

theorem keeps_shedB {s₀ s : State} (h : Keeps s₀ s) (id : Nat) : Keeps s₀ (shedB s id) := by
  unfold shedB
  repeat' first
    | with_reducible assumption
    | with_reducible apply keeps_stage
    | with_reducible apply keeps_endEarly
    | with_reducible apply Keeps.ite
    | split
    | with_reducible refine Keeps.upd ?_ rfl

theorem keeps_chargeTu {s₀ s : State} (h : Keeps s₀ s) (tn : Nat) (tus : List Nat) : Keeps s₀ (chargeTu s tn tus) := by
  unfold chargeTu
  repeat' first
    | with_reducible assumption
    | with_reducible apply keeps_wr
    | (with_reducible apply Keeps.foldl; intro s x hs)
    | (extract_lets +onlyGivenNames x; refine Keeps.cut (s := x) ?_ (fun hx => ?_); subst x; rotate_left; clear_value x)
    | extract_lets +onlyGivenNames x
    | with_reducible apply Keeps.ite
    | split
    | with_reducible refine Keeps.upd ?_ rfl

theorem keeps_giveBack {s₀ s : State} (h : Keeps s₀ s) (j : Job) (est tus : List Nat) : Keeps s₀ (giveBack s j est tus) := by
  unfold giveBack
  repeat' first
    | with_reducible assumption
    | extract_lets +onlyGivenNames x
    | with_reducible apply Keeps.ite
    | split
    | with_reducible refine Keeps.upd ?_ rfl

theorem keeps_afterSlice {s₀ s : State} (h : Keeps s₀ s) (j : Job) (r : SliceResult) : Keeps s₀ (afterSlice s j r) := by
  unfold afterSlice
  repeat' first
    | with_reducible assumption
    | with_reducible apply keeps_segSlice
    | with_reducible apply keeps_camSlice
    | with_reducible apply keeps_frameReadSlice
    | with_reducible apply keeps_classLoadSlice
    | with_reducible apply keeps_canXlSlice
    | with_reducible apply keeps_queueReadSlice
    | with_reducible apply keeps_keep
    | with_reducible apply keeps_updJob
    | extract_lets +onlyGivenNames x
    | split
    | with_reducible refine Keeps.upd ?_ rfl

theorem keeps_sliceDone {s₀ s : State} (h : Keeps s₀ s) (id : Nat) (tus : List Nat) (r : SliceResult) :
    Keeps s₀ (sliceDone s id tus r) := by
  unfold sliceDone
  repeat' first
    | with_reducible assumption
    | with_reducible apply keeps_chargeTu
    | with_reducible apply keeps_giveBack
    | with_reducible apply keeps_afterSlice
    | with_reducible apply keeps_planNow
    | with_reducible apply keeps_deckDevice
    | with_reducible apply keeps_deckErrs
    | (with_reducible apply Keeps.foldl; intro s x hs)
    | (extract_lets +onlyGivenNames x; refine Keeps.cut (s := x) ?_ (fun hx => ?_); subst x; rotate_left; clear_value x)
    | extract_lets +onlyGivenNames x
    | with_reducible apply Keeps.ite
    | split
    | with_reducible refine Keeps.upd ?_ rfl

theorem keeps_cutwater {s₀ s : State} (h : Keeps s₀ s) : Keeps s₀ (cutwater s) := by
  unfold cutwater
  repeat' first
    | with_reducible assumption
    | with_reducible apply keeps_updCam
    | with_reducible apply keeps_chargeTu
    | (with_reducible apply Keeps.foldl; intro s x hs)
    | (extract_lets +onlyGivenNames x; refine Keeps.cut (s := x) ?_ (fun hx => ?_); subst x; rotate_left; clear_value x)
    | (extract_lets +onlyGivenNames x; refine Keeps.cut (s := Prod.fst x) ?_ (fun hx => ?_); subst x; rotate_left; clear_value x)
    | extract_lets +onlyGivenNames x
    | split
    | with_reducible refine Keeps.upd ?_ rfl

theorem keeps_thermal {s₀ s : State} (h : Keeps s₀ s) : Keeps s₀ (thermal s) := by
  unfold thermal
  repeat' first
    | with_reducible assumption
    | with_reducible apply keeps_flagIf
    | extract_lets +onlyGivenNames x
    | with_reducible apply Keeps.ite
    | split
    | with_reducible refine Keeps.upd ?_ rfl

theorem keeps_recheck {s₀ s : State} (h : Keeps s₀ s) : Keeps s₀ (recheck s) := by
  unfold recheck
  repeat' first
    | with_reducible assumption
    | with_reducible apply keeps_endEarly
    | (with_reducible apply Keeps.foldl; intro s x hs)

theorem keeps_recut {s₀ s : State} (h : Keeps s₀ s) : Keeps s₀ (recut s) := by
  unfold recut
  repeat' first
    | with_reducible assumption
    | (extract_lets +onlyGivenNames x; refine Keeps.cut (s := x) ?_ (fun hx => ?_); subst x; rotate_left; clear_value x)
    | extract_lets +onlyGivenNames x
    | split
    | with_reducible refine Keeps.upd ?_ rfl

theorem keeps_keystoneBoundary {s₀ s : State} (h : Keeps s₀ s) (changed : Bool) : Keeps s₀ (keystoneBoundary s changed) := by
  unfold keystoneBoundary
  repeat' first
    | with_reducible assumption
    | with_reducible apply keeps_cutwater
    | with_reducible apply keeps_carryOver
    | with_reducible apply keeps_thermal
    | with_reducible apply keeps_dmaDegrade
    | with_reducible apply keeps_recheck
    | with_reducible apply keeps_planSpan
    | with_reducible apply keeps_recut
    | (extract_lets +onlyGivenNames x; refine Keeps.cut (s := x) ?_ (fun hx => ?_); subst x; rotate_left; clear_value x)
    | extract_lets +onlyGivenNames x
    | with_reducible apply Keeps.ite
    | split
    | with_reducible refine Keeps.upd ?_ rfl

end Sys2Proof.Machine
end

