-- ==== Sys2Proof/Laws/KeepsGrants.lean ====
section
/-!
SUPPORT. One lemma for each definition of Machine/Grants.lean that answers a state: it keeps what `Keeps` says (Laws/Keeps.lean).
-/
namespace Sys2Proof.Machine
set_option Elab.async false
set_option linter.all false

theorem keeps_revokeAxis {s₀ s : State} (h : Keeps s₀ s) (a : Nat) : Keeps s₀ (revokeAxis s a) := by
  unfold revokeAxis
  repeat' first
    | with_reducible assumption
    | with_reducible apply keeps_dropStayOf
    | with_reducible apply keeps_abortGroupOf
    | with_reducible apply keeps_axisEnd
    | with_reducible apply keeps_pierRamp
    | with_reducible apply keeps_alignEnd
    | with_reducible apply keeps_rampAxis
    | with_reducible apply keeps_updSg
    | (extract_lets +onlyGivenNames x; refine Keeps.cut (s := x) ?_ (fun hx => ?_); subst x; rotate_left; clear_value x)
    | extract_lets +onlyGivenNames x
    | with_reducible apply Keeps.ite
    | split
    | with_reducible refine Keeps.upd ?_ rfl

theorem keeps_revokeAxes {s₀ s : State} (h : Keeps s₀ s) (o : State) (tn : Nat) : Keeps s₀ (revokeAxes s o tn) := by
  unfold revokeAxes
  repeat' first
    | with_reducible assumption
    | with_reducible apply keeps_revokeAxis
    | (with_reducible apply Keeps.foldl; intro s x hs)

theorem keeps_revokeStays {s₀ s : State} (h : Keeps s₀ s) (tn : Nat) : Keeps s₀ (revokeStays s tn) := by
  unfold revokeStays
  repeat' first
    | with_reducible assumption
    | with_reducible apply keeps_engageDone
    | with_reducible apply keeps_stayRelease0
    | (with_reducible apply Keeps.foldl; intro s x hs)
    | (extract_lets +onlyGivenNames x; refine Keeps.cut (s := x) ?_ (fun hx => ?_); subst x; rotate_left; clear_value x)
    | extract_lets +onlyGivenNames x
    | with_reducible apply Keeps.ite
    | split

theorem keeps_revokeValves {s₀ s : State} (h : Keeps s₀ s) (o : State) (tn : Nat) : Keeps s₀ (revokeValves s o tn) := by
  unfold revokeValves
  repeat' first
    | with_reducible assumption
    | with_reducible apply keeps_rowStop
    | with_reducible apply keeps_removeEvents
    | with_reducible apply keeps_valveOff
    | with_reducible apply keeps_updValve
    | (with_reducible apply Keeps.foldl; intro s x hs)
    | (extract_lets +onlyGivenNames x; refine Keeps.cut (s := x) ?_ (fun hx => ?_); subst x; rotate_left; clear_value x)
    | (extract_lets +onlyGivenNames x; refine Keeps.cut (s := Prod.fst x) ?_ (fun hx => ?_); subst x; rotate_left; clear_value x)
    | extract_lets +onlyGivenNames x
    | with_reducible apply Keeps.ite
    | split
    | with_reducible refine Keeps.upd ?_ rfl

theorem keeps_revokeReads {s₀ s : State} (h : Keeps s₀ s) (o : State) (tn : Nat) : Keeps s₀ (revokeReads s o tn) := by
  unfold revokeReads
  repeat' first
    | with_reducible assumption
    | with_reducible apply keeps_complete
    | with_reducible apply keeps_disarm
    | with_reducible apply keeps_updFb
    | with_reducible apply keeps_updEmu
    | (with_reducible apply Keeps.foldl; intro s x hs)
    | (extract_lets +onlyGivenNames x; refine Keeps.cut (s := x) ?_ (fun hx => ?_); subst x; rotate_left; clear_value x)
    | (extract_lets +onlyGivenNames x; refine Keeps.cut (s := Prod.fst x) ?_ (fun hx => ?_); subst x; rotate_left; clear_value x)
    | extract_lets +onlyGivenNames x
    | with_reducible apply Keeps.ite
    | split
    | with_reducible apply Keeps.filter_pubOn
    | with_reducible refine Keeps.upd ?_ rfl

theorem keeps_revokePages {s₀ s : State} (h : Keeps s₀ s) (o : State) (tn : Nat) : Keeps s₀ (revokePages s o tn) := by
  unfold revokePages
  repeat' first
    | with_reducible assumption
    | with_reducible apply keeps_flushQueue
    | with_reducible apply keeps_stopPipe
    | with_reducible apply keeps_updVc
    | with_reducible apply keeps_setFld
    | (with_reducible apply Keeps.foldl; intro s x hs)
    | (extract_lets +onlyGivenNames x; refine Keeps.cut (s := x) ?_ (fun hx => ?_); subst x; rotate_left; clear_value x)
    | extract_lets +onlyGivenNames x
    | with_reducible apply Keeps.ite
    | split
    | with_reducible refine Keeps.upd ?_ rfl

theorem keeps_revokeExpert {s₀ s : State} (h : Keeps s₀ s) (tn : Nat) : Keeps s₀ (revokeExpert s tn) := by
  unfold revokeExpert
  repeat' first
    | with_reducible assumption
    | with_reducible apply keeps_setFld
    | with_reducible apply keeps_updTn
    | with_reducible apply Keeps.ite
    | split
    | with_reducible refine Keeps.upd ?_ rfl

theorem keeps_revokeCan {s₀ s : State} (h : Keeps s₀ s) (tn : Nat) : Keeps s₀ (revokeCan s tn) := by
  unfold revokeCan
  repeat' first
    | with_reducible assumption
    | with_reducible apply keeps_canRetry
    | with_reducible apply keeps_canEndSlots
    | (with_reducible apply Keeps.foldl; intro s x hs)
    | (extract_lets +onlyGivenNames x; refine Keeps.cut (s := Prod.fst x) ?_ (fun hx => ?_); subst x; rotate_left; clear_value x)
    | extract_lets +onlyGivenNames x
    | split

theorem keeps_revokeJobs {s₀ s : State} (h : Keeps s₀ s) (o : State) (tn : Nat) : Keeps s₀ (revokeJobs s o tn) := by
  unfold revokeJobs
  repeat' first
    | with_reducible assumption
    | with_reducible apply keeps_endEarly
    | (with_reducible apply Keeps.foldl; intro s x hs)
    | with_reducible apply Keeps.ite
    | split
    | with_reducible refine Keeps.upd ?_ rfl

theorem keeps_revokeBudgets {s₀ s : State} (h : Keeps s₀ s) (tn : Nat) : Keeps s₀ (revokeBudgets s tn) := by
  unfold revokeBudgets
  repeat' first
    | with_reducible assumption
    | with_reducible apply keeps_stage
    | with_reducible apply keeps_updJob
    | with_reducible apply keeps_endEarly
    | (with_reducible apply Keeps.foldl; intro s x hs)
    | with_reducible apply Keeps.ite
    | split
    | with_reducible refine Keeps.upd ?_ rfl

theorem keeps_revoke {s₀ s : State} (h : Keeps s₀ s) (o : State) (tn : Nat) : Keeps s₀ (revoke s o tn) := by
  unfold revoke
  repeat' first
    | with_reducible assumption
    | with_reducible apply keeps_revokeStays
    | with_reducible apply keeps_revokeAxes
    | with_reducible apply keeps_revokeReads
    | with_reducible apply keeps_revokeValves
    | with_reducible apply keeps_revokeJobs
    | with_reducible apply keeps_revokeCan
    | with_reducible apply keeps_revokeBudgets
    | with_reducible apply keeps_revokePages
    | with_reducible apply keeps_visBoundary
    | with_reducible apply keeps_revokeExpert
    | (with_reducible apply Keeps.foldl; intro s x hs)
    | (extract_lets +onlyGivenNames x; refine Keeps.cut (s := x) ?_ (fun hx => ?_); subst x; rotate_left; clear_value x)
    | extract_lets +onlyGivenNames x
    | split

theorem keeps_stageBusy {s₀ s : State} (h : Keeps s₀ s) : Keeps s₀ (stageBusy s) := by
  unfold stageBusy
  repeat' first | with_reducible assumption | with_reducible apply keeps_flag

theorem keeps_grantCommit {s₀ s : State} (h : Keeps s₀ s) (w : Nat) : Keeps s₀ (grantCommit s w) := by
  unfold grantCommit
  repeat' first
    | with_reducible assumption
    | with_reducible apply keeps_stageBusy
    | extract_lets +onlyGivenNames x
    | with_reducible apply Keeps.ite
    | split
    | with_reducible refine Keeps.upd ?_ rfl

theorem keeps_writeStaging {s₀ s : State} (h : Keeps s₀ s) (key w : Nat) : Keeps s₀ (writeStaging s key w) := by
  unfold writeStaging
  repeat' first
    | with_reducible assumption
    | with_reducible apply keeps_stageBusy
    | with_reducible apply keeps_wr
    | with_reducible apply Keeps.ite
    | split

theorem keeps_grantLoad {s₀ s : State} (h : Keeps s₀ s) (w : Nat) : Keeps s₀ (grantLoad s w) := by
  unfold grantLoad
  repeat' first
    | with_reducible assumption
    | with_reducible apply keeps_stageBusy
    | with_reducible apply keeps_wr
    | (with_reducible apply Keeps.foldl; intro s x hs)
    | with_reducible apply Keeps.ite
    | split

end Sys2Proof.Machine
end

