-- ==== Sys2Proof/Laws/KeepsReads.lean ====
section
/-!
SUPPORT. One lemma for each definition of Machine/Reads.lean that answers a state: it keeps what `Keeps` says (Laws/Keeps.lean).
-/
namespace Sys2Proof.Machine
set_option Elab.async false
set_option linter.all false

theorem keeps_readReg {s₀ s : State} (h : Keeps s₀ s) (fn key : Nat) : Keeps s₀ (readReg s fn key).1 := by
  unfold readReg
  repeat' first
    | with_reducible assumption
    | with_reducible apply keeps_updTn
    | extract_lets +onlyGivenNames x
    | with_reducible apply Keeps.ite
    | split
    | with_reducible refine Keeps.upd ?_ rfl

theorem keeps_readRegs {s₀ s : State} (h : Keeps s₀ s) (fn off n : Nat) : Keeps s₀ (readRegs s fn off n).1 := by
  induction n generalizing s off with
  | zero => exact h
  | succ n ih =>
    unfold readRegs
    apply ih
    split
    · exact keeps_readReg h _ _
    · exact h

theorem keeps_setRead {s₀ s : State} (h : Keeps s₀ s) (bs : List Byte) : Keeps s₀ (setRead s bs) := by
  unfold setRead
  repeat' first
    | with_reducible assumption
    | extract_lets +onlyGivenNames x
    | with_reducible refine Keeps.upd ?_ rfl

theorem keeps_loRead {s₀ s : State} (h : Keeps s₀ s) (fn off len : Nat) : Keeps s₀ (loRead s fn off len) := by
  unfold loRead
  repeat' first
    | with_reducible assumption
    | with_reducible apply keeps_readRegs
    | with_reducible apply keeps_setRead
    | (extract_lets +onlyGivenNames x; refine Keeps.cut (s := Prod.fst x) ?_ (fun hx => ?_); subst x; rotate_left; clear_value x)
    | extract_lets +onlyGivenNames x
    | with_reducible apply Keeps.ite
    | split

theorem keeps_pubSel {s₀ s : State} (h : Keeps s₀ s) (tn w : Nat) : Keeps s₀ (pubSel s tn w) := by
  unfold pubSel
  repeat' first
    | with_reducible assumption
    | with_reducible apply keeps_wr
    | with_reducible apply keeps_updTn
    | extract_lets +onlyGivenNames x
    | with_reducible apply Keeps.ite
    | split
    | with_reducible refine Keeps.upd ?_ rfl

end Sys2Proof.Machine
end

