-- ==== Sys2Proof/Laws/KeepsRegs.lean ====
section
/-!
SUPPORT. One lemma for each definition of Machine/Regs.lean that answers a state: it keeps what `Keeps` says (Laws/Keeps.lean).
-/
namespace Sys2Proof.Machine
set_option Elab.async false
set_option linter.all false

theorem keeps_cfgErrAt {s₀ s : State} (h : Keeps s₀ s) (key : Nat) : Keeps s₀ (cfgErrAt s key) := by
  unfold cfgErrAt
  repeat' first
    | with_reducible assumption
    | with_reducible apply keeps_flagRaw
    | with_reducible apply keeps_flag
    | with_reducible apply keeps_ejErr
    | with_reducible apply keeps_pierFlag
    | with_reducible apply keeps_sgFlag
    | with_reducible apply Keeps.ite
    | split
    | with_reducible refine Keeps.upd ?_ rfl

theorem keeps_plainWrite {s₀ s : State} (h : Keeps s₀ s) (key w : Nat) (bad : Bool) : Keeps s₀ (plainWrite s key w bad) := by
  unfold plainWrite
  repeat' first
    | with_reducible assumption
    | with_reducible apply keeps_cfgErrAt
    | with_reducible apply keeps_wr
    | with_reducible apply Keeps.ite
    | split
    | with_reducible refine Keeps.upd ?_ rfl

theorem keeps_writeSpanCfg {s₀ s : State} (h : Keeps s₀ s) (w : Nat) : Keeps s₀ (writeSpanCfg s w) := by
  unfold writeSpanCfg
  dsimp only
  split
  · exact keeps_flag h _ _
  · split
    · exact h
    · split
      · exact keeps_flag h _ _
      · rename_i hr
        have h' := keeps_wr h 0x2010 (bits w 0 14 + 2 ^ 16 * bits w 16 7)
        split
        · refine h'.trans ⟨rfl, rfl, rfl, rfl, rfl, rfl, rfl, rfl, rfl, rfl, fun hl x hx => ?_, rfl, rfl, .inl rfl, fun t => { t with }⟩
          rcases List.mem_append.1 hx with hx | hx
          · exact hl x hx
          · simp only [List.mem_singleton] at hx
            subst hx
            dsimp only
            omega
        · exact h'

theorem keeps_writeTenantHb {s₀ s : State} (h : Keeps s₀ s) (t w : Nat) : Keeps s₀ (writeTenantHb s t w) := by
  unfold writeTenantHb
  repeat' first
    | with_reducible assumption
    | with_reducible apply keeps_flag
    | with_reducible apply keeps_wr
    | with_reducible apply keeps_updTn
    | extract_lets +onlyGivenNames x
    | with_reducible apply Keeps.ite
    | split
    | with_reducible refine Keeps.upd ?_ rfl

theorem keeps_writePierReg {s₀ s : State} (h : Keeps s₀ s) (p o w : Nat) : Keeps s₀ (writePierReg s p o w) := by
  unfold writePierReg
  repeat' first
    | with_reducible assumption
    | with_reducible apply keeps_plainWrite
    | with_reducible apply keeps_updPier
    | (extract_lets +onlyGivenNames x; refine Keeps.cut (s := x) ?_ (fun hx => ?_); subst x; rotate_left; clear_value x)
    | extract_lets +onlyGivenNames x
    | with_reducible apply Keeps.ite
    | split
    | with_reducible refine Keeps.upd ?_ rfl

theorem keeps_writeBgReg {s₀ s : State} (h : Keeps s₀ s) (g o w : Nat) : Keeps s₀ (writeBgReg s g o w) := by
  unfold writeBgReg
  repeat' first
    | with_reducible assumption
    | with_reducible apply keeps_plainWrite
    | with_reducible apply keeps_evalStage
    | (extract_lets +onlyGivenNames x; refine Keeps.cut (s := x) ?_ (fun hx => ?_); subst x; rotate_left; clear_value x)
    | extract_lets +onlyGivenNames x
    | with_reducible apply Keeps.ite
    | split

theorem keeps_writeLimAxis {s₀ s : State} (h : Keeps s₀ s) (a w : Nat) : Keeps s₀ (writeLimAxis s a w) := by
  unfold writeLimAxis
  repeat' first
    | with_reducible assumption
    | with_reducible apply keeps_plainWrite
    | with_reducible apply keeps_limitAxis
    | (extract_lets +onlyGivenNames x; refine Keeps.cut (s := x) ?_ (fun hx => ?_); subst x; rotate_left; clear_value x)
    | extract_lets +onlyGivenNames x
    | split

theorem keeps_writeCanTiming {s₀ s : State} (h : Keeps s₀ s) (c o w : Nat) : Keeps s₀ (writeCanTiming s c o w) := by
  unfold writeCanTiming
  repeat' first
    | with_reducible assumption
    | with_reducible apply keeps_plainWrite
    | extract_lets +onlyGivenNames x
    | with_reducible apply Keeps.ite
    | split
    | with_reducible refine Keeps.upd ?_ rfl

theorem keeps_writeCanCmd {s₀ s : State} (h : Keeps s₀ s) (c w : Nat) (busy : Bool) : Keeps s₀ (writeCanCmd s c w busy) := by
  unfold writeCanCmd
  repeat' first
    | with_reducible assumption
    | with_reducible apply keeps_canAct
    | with_reducible apply Keeps.ite
    | split

theorem keeps_writeVisReg {s₀ s : State} (h : Keeps s₀ s) (p o w : Nat) : Keeps s₀ (writeVisReg s p o w) := by
  unfold writeVisReg
  repeat' first
    | with_reducible assumption
    | with_reducible apply keeps_plainWrite
    | extract_lets +onlyGivenNames x
    | with_reducible apply Keeps.ite
    | split

theorem keeps_writeFbReg {s₀ s : State} (h : Keeps s₀ s) (n o w : Nat) : Keeps s₀ (writeFbReg s n o w) := by
  unfold writeFbReg
  repeat' first
    | with_reducible assumption
    | with_reducible apply keeps_fbFlag
    | with_reducible apply keeps_wr
    | extract_lets +onlyGivenNames x
    | with_reducible apply Keeps.ite
    | split
    | with_reducible refine Keeps.upd ?_ rfl

theorem keeps_writeEmuReg {s₀ s : State} (h : Keeps s₀ s) (e o w : Nat) : Keeps s₀ (writeEmuReg s e o w) := by
  unfold writeEmuReg
  repeat' first
    | with_reducible assumption
    | with_reducible apply keeps_plainWrite
    | extract_lets +onlyGivenNames x
    | split
    | with_reducible refine Keeps.upd ?_ rfl

theorem keeps_writeCamReg {s₀ s : State} (h : Keeps s₀ s) (c o w : Nat) : Keeps s₀ (writeCamReg s c o w) := by
  unfold writeCamReg
  repeat' first
    | with_reducible assumption
    | with_reducible apply keeps_writeCamCfg
    | with_reducible apply keeps_writeVcFmt
    | with_reducible apply keeps_writeVcRing
    | with_reducible apply keeps_plainWrite
    | extract_lets +onlyGivenNames x
    | with_reducible apply Keeps.ite
    | split

theorem keeps_writePhReg {s₀ s : State} (h : Keeps s₀ s) (v o w : Nat) : Keeps s₀ (writePhReg s v o w) := by
  unfold writePhReg
  repeat' first
    | with_reducible assumption
    | with_reducible apply keeps_plainWrite
    | with_reducible apply keeps_phPush
    | (extract_lets +onlyGivenNames x; refine Keeps.cut (s := x) ?_ (fun hx => ?_); subst x; rotate_left; clear_value x)
    | extract_lets +onlyGivenNames x
    | with_reducible apply Keeps.ite
    | split
    | with_reducible refine Keeps.upd ?_ rfl

theorem keeps_writePageReg {s₀ s : State} (h : Keeps s₀ s) (tn o w : Nat) : Keeps s₀ (writePageReg s tn o w) := by
  unfold writePageReg
  repeat' first
    | with_reducible assumption
    | with_reducible apply keeps_doAttach
    | with_reducible apply keeps_doDetach
    | with_reducible apply keeps_feedHeartbeat
    | with_reducible apply keeps_pubSel
    | with_reducible apply keeps_writeSqBase
    | with_reducible apply keeps_writeSqCfg
    | with_reducible apply keeps_plainWrite
    | with_reducible apply keeps_writeCqBase
    | with_reducible apply keeps_writeCqCfg
    | with_reducible apply keeps_writeQCfg
    | with_reducible apply keeps_flushQueue
    | extract_lets +onlyGivenNames x
    | with_reducible apply Keeps.ite
    | split

theorem keeps_writeEjReg {s₀ s : State} (h : Keeps s₀ s) (key w : Nat) : Keeps s₀ (writeEjReg s key w) := by
  unfold writeEjReg
  repeat' first
    | with_reducible assumption
    | with_reducible apply keeps_writeValveCfg
    | with_reducible apply keeps_writeValveMin
    | with_reducible apply keeps_plainWrite
    | with_reducible apply keeps_writePhReg
    | with_reducible apply keeps_writeNrCfg
    | with_reducible apply keeps_writeNrPitch
    | with_reducible apply keeps_writeHorizon
    | extract_lets +onlyGivenNames x
    | with_reducible apply Keeps.ite
    | split

theorem keeps_unsafeAck {s₀ s : State} (h : Keeps s₀ s) (w : Nat) : Keeps s₀ (unsafeAck s w) := by
  unfold unsafeAck
  repeat' first
    | with_reducible assumption
    | with_reducible refine keeps_updPp ?_ (fun _ => rfl)
    | with_reducible apply keeps_ppFlag
    | (extract_lets +onlyGivenNames x; refine Keeps.cut (s := x) ?_ (fun hx => ?_); subst x; rotate_left; clear_value x)
    | (extract_lets +onlyGivenNames x; refine Keeps.cut (s := Prod.fst x) ?_ (fun hx => ?_); subst x; rotate_left; clear_value x)
    | extract_lets +onlyGivenNames x
    | with_reducible apply Keeps.ite
    | split
    | with_reducible refine Keeps.upd ?_ rfl

theorem keeps_writeReg {s₀ s : State} (h : Keeps s₀ s) (key w : Nat) (busy : Bool) : Keeps s₀ (writeReg s key w busy) := by
  unfold writeReg
  repeat' first
    | with_reducible assumption
    | with_reducible apply keeps_writePageReg
    | with_reducible apply keeps_writeAvsCfg
    | with_reducible apply keeps_plainWrite
    | with_reducible apply keeps_writeSpanCfg
    | with_reducible apply keeps_writeTenantCfg
    | with_reducible apply keeps_writeTenantHb
    | with_reducible apply keeps_writeStaging
    | with_reducible apply keeps_grantCommit
    | with_reducible apply keeps_grantLoad
    | with_reducible apply keeps_writePierReg
    | with_reducible apply keeps_writeLimAxis
    | with_reducible apply keeps_writeBgReg
    | with_reducible apply keeps_writePwmx
    | with_reducible apply keeps_writeEjReg
    | with_reducible apply keeps_writeFbCfg
    | with_reducible apply keeps_writeFbReg
    | with_reducible apply keeps_writeEmuCfg
    | with_reducible apply keeps_writeEmuReg
    | with_reducible apply keeps_writeCamReg
    | with_reducible apply keeps_writeVisReg
    | with_reducible apply keeps_writeTrCfg
    | with_reducible apply keeps_writeCanTiming
    | with_reducible apply keeps_writeCanCmd
    | with_reducible apply keeps_modeRequest
    | with_reducible apply keeps_unsafeAck
    | with_reducible apply keeps_fwuCmd
    | extract_lets +onlyGivenNames x
    | with_reducible apply Keeps.ite
    | split

theorem keeps_accessErr {s₀ s : State} (h : Keeps s₀ s) (key : Nat) : Keeps s₀ (accessErr s key) := by
  unfold accessErr
  repeat' first
    | with_reducible assumption
    | with_reducible apply keeps_flagRaw
    | with_reducible apply keeps_flag
    | with_reducible apply Keeps.ite
    | split

theorem keeps_badAddr {s₀ s : State} (h : Keeps s₀ s) (key off : Nat) : Keeps s₀ (badAddr s key off) := by
  unfold badAddr
  repeat' first
    | with_reducible assumption
    | with_reducible apply keeps_flag
    | with_reducible apply keeps_wr
    | with_reducible apply Keeps.ite
    | split

theorem keeps_writeWord {s₀ s : State} (h : Keeps s₀ s) (fn off : Nat) (data : List Byte) (busy : Bool) (x : Nat × Bool) :
    Keeps s₀ (writeWord s fn off data busy x) := by
  unfold writeWord
  repeat' first
    | with_reducible assumption
    | with_reducible apply keeps_writeReg
    | with_reducible apply keeps_badAddr
    | with_reducible apply Keeps.ite
    | split
    | with_reducible refine Keeps.upd ?_ rfl

theorem keeps_writeBar0 {s₀ s : State} (h : Keeps s₀ s) (fn off : Nat) (data : List Byte) (busy : Bool) :
    Keeps s₀ (writeBar0 s fn off data busy) := by
  unfold writeBar0
  extract_lets ws part
  cases data with
  | nil => exact h
  | cons b l =>
    cases part with
    | none => exact Keeps.foldl (fun s x hs => keeps_writeWord hs fn off _ busy x) ws h
    | some x => exact keeps_accessErr h _

theorem keeps_writeVecWord {s₀ s : State} (h : Keeps s₀ s) (fn off v : Nat) : Keeps s₀ (writeVecWord s fn off v) := by
  unfold writeVecWord
  repeat' first
    | with_reducible assumption
    | with_reducible apply keeps_sendPending
    | with_reducible apply keeps_setFn
    | extract_lets +onlyGivenNames x
    | with_reducible apply Keeps.ite
    | split
    | with_reducible refine Keeps.upd ?_ rfl

theorem keeps_writeBar4 {s₀ s : State} (h : Keeps s₀ s) (fn off : Nat) (data : List Byte) :
    Keeps s₀ (writeBar4 s fn off data) := by
  unfold writeBar4
  repeat' first
    | with_reducible assumption
    | with_reducible apply keeps_writeVecWord
    | with_reducible apply Keeps.ite
    | split

theorem keeps_writeCommand {s₀ s : State} (h : Keeps s₀ s) (fn w : Nat) : Keeps s₀ (writeCommand s fn w) := by
  unfold writeCommand
  repeat' first
    | with_reducible assumption
    | with_reducible apply keeps_updFn
    | with_reducible apply keeps_doBmeClear
    | (extract_lets +onlyGivenNames x; refine Keeps.cut (s := x) ?_ (fun hx => ?_); subst x; rotate_left; clear_value x)
    | extract_lets +onlyGivenNames x
    | with_reducible apply Keeps.ite
    | split
    | with_reducible refine Keeps.upd ?_ rfl

theorem keeps_writeMsixControl {s₀ s : State} (h : Keeps s₀ s) (fn w : Nat) : Keeps s₀ (writeMsixControl s fn w) := by
  unfold writeMsixControl
  repeat' first
    | with_reducible assumption
    | with_reducible apply keeps_updFn
    | with_reducible apply keeps_sendPending
    | (with_reducible apply Keeps.foldl; intro s x hs)
    | (extract_lets +onlyGivenNames x; refine Keeps.cut (s := x) ?_ (fun hx => ?_); subst x; rotate_left; clear_value x)
    | extract_lets +onlyGivenNames x
    | split
    | with_reducible refine Keeps.upd ?_ rfl

theorem keeps_hostWrite {s₀ s : State} (h : Keeps s₀ s) (fn : Nat) (target : Target) (data : List Byte) (busy : Bool) :
    Keeps s₀ (hostWrite s fn target data busy) := by
  unfold hostWrite
  repeat' first
    | with_reducible assumption
    | with_reducible apply keeps_writeBar0
    | with_reducible apply keeps_doorbell
    | with_reducible apply keeps_writeBar4
    | with_reducible apply keeps_writeCommand
    | with_reducible apply keeps_writeMsixControl
    | extract_lets +onlyGivenNames x
    | with_reducible apply Keeps.ite
    | split
    | with_reducible refine Keeps.upd ?_ rfl

theorem keeps_w1cClear {s₀ s : State} (h : Keeps s₀ s) (key v hw : Nat) : Keeps s₀ (w1cClear s key v hw) := by
  unfold w1cClear
  repeat' first
    | with_reducible assumption
    | with_reducible apply keeps_wr
    | with_reducible apply keeps_flagRaw
    | with_reducible apply keeps_flag
    | (extract_lets +onlyGivenNames x; refine Keeps.cut (s := x) ?_ (fun hx => ?_); subst x; rotate_left; clear_value x)
    | extract_lets +onlyGivenNames x
    | with_reducible apply Keeps.ite
    | split
    | with_reducible refine Keeps.upd ?_ rfl

end Sys2Proof.Machine
end

