-- ==== Sys2Proof/Laws/KeepsSpan.lean ====
section
/-!
SUPPORT. One lemma for each definition of Machine/Span.lean that answers a state: it keeps what `Keeps` says (Laws/Keeps.lean).
-/
namespace Sys2Proof.Machine
set_option Elab.async false
set_option linter.all false

theorem keeps_tenantBoundary {s₀ s : State} (h : Keeps s₀ s) (tn : Nat) : Keeps s₀ (tenantBoundary s tn) := by
  unfold tenantBoundary
  repeat' first
    | with_reducible assumption
    | with_reducible apply keeps_setTn
    | with_reducible apply keeps_doHbExpiry
    | with_reducible apply keeps_updTn
    | (extract_lets +onlyGivenNames x; refine Keeps.cut (s := x) ?_ (fun hx => ?_); subst x; rotate_left; clear_value x)
    | extract_lets +onlyGivenNames x
    | with_reducible apply Keeps.ite
    | split
    | with_reducible refine Keeps.upd ?_ rfl

theorem keeps_summaryIrq {s₀ s : State} (h : Keeps s₀ s) : Keeps s₀ (summaryIrq s) := by
  unfold summaryIrq
  repeat' first
    | with_reducible assumption
    | with_reducible apply keeps_signal
    | with_reducible apply Keeps.ite
    | split
    | with_reducible refine Keeps.upd ?_ rfl

theorem keeps_unitsBoundary {s₀ s : State} (h : Keeps s₀ s) (len : Nat) (changed : Bool) :
    Keeps s₀ (unitsBoundary s len changed) := by
  unfold unitsBoundary
  repeat' first
    | with_reducible assumption
    | with_reducible apply keeps_refsBoundary
    | with_reducible apply keeps_pierBoundary
    | with_reducible apply keeps_sgBoundary
    | with_reducible apply keeps_groupBoundary
    | with_reducible apply keeps_sgOpen
    | with_reducible apply keeps_auxBoundary
    | with_reducible apply keeps_camBoundary
    | (with_reducible apply Keeps.foldl; intro s x hs)
    | (extract_lets +onlyGivenNames x; refine Keeps.cut (s := x) ?_ (fun hx => ?_); subst x; rotate_left; clear_value x)
    | (extract_lets +onlyGivenNames x; refine Keeps.cut (s := Prod.fst x) ?_ (fun hx => ?_); subst x; rotate_left; clear_value x)
    | extract_lets +onlyGivenNames x
    | split

theorem keeps_workBoundary {s₀ s : State} (h : Keeps s₀ s) (len : Nat) (changed : Bool) :
    Keeps s₀ (workBoundary s len changed) := by
  unfold workBoundary
  repeat' first
    | with_reducible assumption
    | with_reducible apply keeps_keystoneBoundary
    | with_reducible apply keeps_visBoundary
    | with_reducible apply keeps_arcBoundary
    | with_reducible apply keeps_satBoundary
    | with_reducible apply keeps_ringBoundary
    | (with_reducible apply Keeps.foldl; intro s x hs)
    | (extract_lets +onlyGivenNames x; refine Keeps.cut (s := x) ?_ (fun hx => ?_); subst x; rotate_left; clear_value x)
    | extract_lets +onlyGivenNames x
    | split

theorem keeps_pubWrite {s₀ s : State} (h : Keeps s₀ s) (k : Nat) : Keeps s₀ (pubWrite s k) := by
  unfold pubWrite
  repeat' first
    | with_reducible assumption
    | (extract_lets +onlyGivenNames x; refine Keeps.cut (s := Prod.fst x) ?_ (fun hx => ?_); subst x; rotate_left; clear_value x)
    | extract_lets +onlyGivenNames x
    | with_reducible apply Keeps.ite
    | split
    | with_reducible apply Keeps.put_pubRec
    | with_reducible refine Keeps.upd ?_ rfl

end Sys2Proof.Machine
end

