-- ==== Sys2Proof/Laws/Moves.lean ====
section
/-!
SUPPORT. What a command can do: for each command but those of reset, the PLL, the instants of a span, the grant commit and the mode
request, device time reaches a tick and everything else `Keeps` speaks of is kept.
-/
namespace Sys2Proof.Machine
set_option Elab.async false
set_option linter.all false

/-- A command answers a next state; device time reaches some tick, and what `Keeps` names is kept from there. -/
def Moves (s : State) (o : Host.Outcome State Fault Refusal) : Prop := ∃ t u, o = .next u ∧ Keeps (advance s t) u

theorem advance_zero (s : State) : advance s 0 = s := by
  unfold advance
  split
  · simp
  · rfl

theorem Keeps.advance_again {s s' : State} {t : Nat} (h : Keeps (advance s t) s') : Keeps (advance s t) (advance s' t) := by
  have e : advance s' t = s' := by
    have hn := h.now
    have hp := h.pll
    unfold advance at hn hp ⊢
    by_cases p : s.power.pll = true
    · simp only [p, if_true] at hn hp
      simp only [hp, if_true]
      rw [hn]
      have : max (max s.tb.now t) t = s'.tb.now := by omega
      rw [this]
    · simp only [p] at hp
      simp [hp, p]
  rw [e]; exact h

theorem advance_pending (s : State) (t : Nat) : (advance s t).pending = s.pending := by
  unfold advance
  split <;> rfl

/-- While PORST_N is high, a command's effect is its next state. -/
theorem act_eq {s : State} (f : State → State) (p : s.power.porstHigh = true) : act s f = .next (f s) := by
  unfold act
  rw [if_pos p]

theorem moves_act {s : State} {f : State → State} (t : Nat) (h : Keeps (advance s t) (f s)) : Moves s (act s f) := by
  by_cases p : s.power.porstHigh = true
  · exact ⟨t, _, act_eq f p, h⟩
  · exact ⟨0, s, by unfold act; rw [if_neg p], by rw [advance_zero]; exact Keeps.refl s⟩

theorem moves_execSyncInEdge (t64 : Nat) (yCand : Int) (s : State) : Moves s (execSyncInEdge t64 yCand s) :=
  moves_act (t64 / 64) (keeps_syncEdge (Keeps.refl _) _ _)
theorem moves_execSyncInLost (s : State) : Moves s (execSyncInLost s) := by
  unfold execSyncInLost
  refine moves_act 0 ?_
  rw [advance_zero]
  have h := Keeps.refl s
  repeat' first
    | with_reducible assumption
    | with_reducible apply keeps_syncDrop
    | with_reducible apply keeps_glideStep
    | with_reducible apply keeps_targetLost
    | (extract_lets +onlyGivenNames x; refine Keeps.cut (s := Prod.fst x) ?_ (fun hx => ?_); subst x; rotate_left; clear_value x)
    | extract_lets +onlyGivenNames x
    | with_reducible apply Keeps.ite
    | split

theorem moves_execSyncLenMismatch (s : State) : Moves s (execSyncLenMismatch s) := by
  unfold execSyncLenMismatch
  refine moves_act 0 ?_
  rw [advance_zero]
  have h := Keeps.refl s
  repeat' first
    | with_reducible assumption
    | with_reducible apply keeps_refFlag
    | with_reducible apply keeps_setRefs
    | with_reducible apply Keeps.ite
    | split
    | with_reducible refine Keeps.upd ?_ rfl

theorem moves_execSyncOutPulseEnd (t : Nat) (s : State) : Moves s (execSyncOutPulseEnd t s) := by
  unfold execSyncOutPulseEnd
  refine moves_act t ?_
  have h := Keeps.refl (advance s t)
  repeat' first
    | with_reducible assumption
    | with_reducible apply keeps_setRefs
    | (extract_lets +onlyGivenNames x; refine Keeps.cut (s := x) ?_ (fun hx => ?_); subst x; rotate_left; clear_value x)
    | extract_lets +onlyGivenNames x
    | with_reducible apply Keeps.ite
    | split
    | with_reducible refine Keeps.upd ?_ rfl

theorem moves_execHoldoverExpiry (s : State) : Moves s (execHoldoverExpiry s) := by
  unfold execHoldoverExpiry
  refine moves_act 0 ?_
  rw [advance_zero]
  have h := Keeps.refl s
  repeat' first
    | with_reducible assumption
    | with_reducible apply keeps_glideStep
    | with_reducible apply keeps_refFlag
    | with_reducible apply keeps_retarget
    | with_reducible apply Keeps.ite
    | split

theorem moves_execPtmRequest (s : State) : Moves s (execPtmRequest s) := by
  unfold execPtmRequest
  refine moves_act 0 ?_
  rw [advance_zero]
  have h := Keeps.refl s
  repeat' first
    | with_reducible assumption
    | with_reducible apply keeps_send
    | with_reducible apply keeps_setRefs
    | with_reducible apply Keeps.ite
    | split
    | with_reducible refine Keeps.upd ?_ rfl

theorem moves_execPtmExchangeDone (t hostNs residual64 : Nat) (yCand : Int) (s : State) : Moves s (execPtmExchangeDone t hostNs residual64 yCand s) := by
  unfold execPtmExchangeDone
  refine moves_act t ?_
  have h := Keeps.refl (advance s t)
  repeat' first
    | with_reducible assumption
    | with_reducible apply keeps_setRefs
    | (extract_lets +onlyGivenNames x; refine Keeps.cut (s := x) ?_ (fun hx => ?_); subst x; rotate_left; clear_value x)
    | extract_lets +onlyGivenNames x
    | with_reducible apply Keeps.ite
    | split
    | with_reducible refine Keeps.upd ?_ rfl

theorem moves_execPtmTimeout (s : State) : Moves s (execPtmTimeout s) := by
  unfold execPtmTimeout
  refine moves_act 0 ?_
  rw [advance_zero]
  have h := Keeps.refl s
  repeat' first
    | with_reducible assumption
    | with_reducible apply keeps_ptmDrop
    | with_reducible apply keeps_glideStep
    | with_reducible apply keeps_targetLost
    | (extract_lets +onlyGivenNames x; refine Keeps.cut (s := Prod.fst x) ?_ (fun hx => ?_); subst x; rotate_left; clear_value x)
    | extract_lets +onlyGivenNames x
    | with_reducible apply Keeps.ite
    | split

theorem moves_execQueueOffer (t : Nat) (tn : Fin 256) (q : Fin 64) (it : Offer) (s : State) : Moves s (execQueueOffer t tn q it s) :=
  moves_act t (keeps_offer (Keeps.refl _) _ _ _ _)
theorem moves_execQEnable (t : Nat) (tn : Fin 256) (q : Fin 64) (value : Word) (s : State) : Moves s (execQEnable t tn q value s) :=
  moves_act t (keeps_writeQCfg (Keeps.refl _) _ _ _)
theorem moves_execQDisable (t : Nat) (tn : Fin 256) (q : Fin 64) (value : Word) (s : State) : Moves s (execQDisable t tn q value s) :=
  moves_act t (keeps_writeQCfg (Keeps.refl _) _ _ _)
theorem moves_execQCtrlFlush (t : Nat) (tn : Fin 256) (q : Fin 64) (s : State) : Moves s (execQCtrlFlush t tn q s) := by
  unfold execQCtrlFlush
  refine moves_act t ?_
  have h := Keeps.refl (advance s t)
  repeat' first
    | with_reducible assumption
    | with_reducible apply keeps_flushQueue
    | (extract_lets +onlyGivenNames x; refine Keeps.cut (s := x) ?_ (fun hx => ?_); subst x; rotate_left; clear_value x)
    | extract_lets +onlyGivenNames x
    | with_reducible apply Keeps.ite
    | split

theorem moves_execQueueRead (t : Nat) (d : Desc) (s : State) : Moves s (execQueueRead t d s) :=
  moves_act t (keeps_runOp _ _ _ _ _ fun _ _ _ h => keeps_queueReadStart h _)
theorem moves_execQueueMark (t : Nat) (d : Desc) (s : State) : Moves s (execQueueMark t d s) := by
  unfold execQueueMark
  refine moves_act t (keeps_runOp _ _ _ _ _ ?_)
  refine keeps_andDone ?_
  intro s₀ s d h
  repeat' first | with_reducible assumption | with_reducible apply keeps_doQueueMark

theorem moves_execQueueRewind (t : Nat) (d : Desc) (s : State) : Moves s (execQueueRewind t d s) := by
  unfold execQueueRewind
  refine moves_act t (keeps_runOp _ _ _ _ _ ?_)
  refine keeps_andDone ?_
  intro s₀ s d h
  repeat' first | with_reducible assumption | with_reducible apply keeps_doQueueRewind

theorem moves_execQueueRelease (t : Nat) (d : Desc) (s : State) : Moves s (execQueueRelease t d s) := by
  unfold execQueueRelease
  refine moves_act t (keeps_runOp _ _ _ _ _ ?_)
  refine keeps_andDone ?_
  intro s₀ s d h
  repeat' first | with_reducible assumption | with_reducible apply keeps_doQueueRelease

theorem moves_execQueueFlush (t : Nat) (d : Desc) (s : State) : Moves s (execQueueFlush t d s) := by
  unfold execQueueFlush
  refine moves_act t (keeps_runOp _ _ _ _ _ ?_)
  refine keeps_andDone ?_
  intro s₀ s d h
  repeat' first | with_reducible assumption | with_reducible apply keeps_doQueueFlush

theorem moves_execLatchArm (t : Nat) (d : Desc) (s : State) : Moves s (execLatchArm t d s) :=
  moves_act t (keeps_runOp _ _ _ _ _ fun _ _ _ h => keeps_latchArm h _)
theorem moves_execLatchDisarm (t : Nat) (d : Desc) (s : State) : Moves s (execLatchDisarm t d s) := by
  unfold execLatchDisarm
  refine moves_act t (keeps_runOp _ _ _ _ _ ?_)
  refine keeps_andDone ?_
  intro s₀ s d h
  repeat' first | with_reducible assumption | with_reducible apply keeps_disarm

theorem moves_execProbeEdge (t : Nat) (i : Fin 16) (rising : Bool) (s : State) : Moves s (execProbeEdge t i rising s) :=
  moves_act t (keeps_probeEdge (Keeps.refl _) _ _)
theorem moves_execCamEnable (t : Nat) (c : Fin 8) (value : Word) (s : State) : Moves s (execCamEnable t c value s) :=
  moves_act t (keeps_writeCamCfg (Keeps.refl _) _ _)
theorem moves_execCamVcRingEnable (t : Nat) (c : Fin 8) (v : Fin 4) (value : Word) (s : State) : Moves s (execCamVcRingEnable t c v value s) :=
  moves_act t (keeps_writeVcRing (Keeps.refl _) _ _ _)
theorem moves_execDeskewReceived (t : Nat) (c : Fin 8) (s : State) : Moves s (execDeskewReceived t c s) :=
  moves_act t (keeps_camDeskew (Keeps.refl _) _)
theorem moves_execCamReceiverLock (t : Nat) (c : Fin 8) (locked : Bool) (s : State) : Moves s (execCamReceiverLock t c locked s) :=
  moves_act t (keeps_camLock (Keeps.refl _) _ _)
theorem moves_execLongPacket (t : Nat) (c : Fin 8) (v : Fin 4) (h : HdrCheck) (dt : Nat) (pixels : List Nat) (crcOk : Bool) (s : State) : Moves s (execLongPacket t c v h dt pixels crcOk s) :=
  moves_act t (keeps_longPacket (Keeps.refl _) _ _ _ _ _ _)
theorem moves_execCamTrigRise (t : Nat) (c : Fin 8) (s : State) : Moves s (execCamTrigRise t c s) :=
  moves_act t (keeps_camRise (Keeps.refl _) _)
theorem moves_execCamTrigPulseEnd (t : Nat) (c : Fin 8) (s : State) : Moves s (execCamTrigPulseEnd t c s) :=
  moves_act t (keeps_camFall (Keeps.refl _) _)
theorem moves_execExposureEvent (t : Nat) (c : Fin 8) (s : State) : Moves s (execExposureEvent t c s) :=
  moves_act t (keeps_camExpose (Keeps.refl _) _)
theorem moves_execCamTrigger (t : Nat) (d : Desc) (s : State) : Moves s (execCamTrigger t d s) :=
  moves_act t (keeps_runOp _ _ _ _ _ fun _ _ _ h => keeps_camTrigger h _)
theorem moves_execFrameRead (t : Nat) (d : Desc) (s : State) : Moves s (execFrameRead t d s) :=
  moves_act t (keeps_runOp _ _ _ _ _ fun _ _ _ h => keeps_frameReadStart h _)
theorem moves_execFrameReadCopyDone (t : Nat) (job : Nat) (s : State) : Moves s (execFrameReadCopyDone t job s) :=
  moves_act t (keeps_frameReadDone (Keeps.refl _) _)
theorem moves_execFrameStart (t : Nat) (c : Fin 8) (v : Fin 4) (h : HdrCheck) (s : State) : Moves s (execFrameStart t c v h s) :=
  moves_act t (keeps_frameStart (Keeps.refl _) _ _ _)
theorem moves_execFrameEnd (t : Nat) (c : Fin 8) (v : Fin 4) (h : HdrCheck) (s : State) : Moves s (execFrameEnd t c v h s) :=
  moves_act t (keeps_frameEnd (Keeps.refl _) _ _ _)
theorem moves_execPortLost (c : Fin 8) (s : State) : Moves s (execPortLost c s) := by
  unfold execPortLost
  refine moves_act 0 ?_
  rw [advance_zero]
  have h := Keeps.refl s
  repeat' first | with_reducible assumption | with_reducible apply keeps_visPortLost

theorem moves_execPyramidDone (t : Nat) (p : Fin 32) (errs : List DeckErr) (s : State) : Moves s (execPyramidDone t p errs s) :=
  moves_act t (keeps_pyramidDone (Keeps.refl _) _ _)
theorem moves_execMotionEstimationDone (t : Nat) (p : Fin 32) (s : State) : Moves s (execMotionEstimationDone t p s) :=
  moves_act t (keeps_motionDone (Keeps.refl _) _)
theorem moves_execBlobClassifyDone (t : Nat) (p : Fin 32) (s : State) : Moves s (execBlobClassifyDone t p s) :=
  moves_act t (keeps_blobDone (Keeps.refl _) _)
theorem moves_execTrackerRun (t : Nat) (p : Fin 32) (s : State) : Moves s (execTrackerRun t p s) :=
  moves_act t (keeps_trackerRun (Keeps.refl _) _)
theorem moves_execVisStart (t : Nat) (d : Desc) (s : State) : Moves s (execVisStart t d s) :=
  moves_act t (keeps_runOp _ _ _ _ _ (keeps_andDone fun _ _ _ h => keeps_doVisStart h _))
theorem moves_execVisStop (t : Nat) (d : Desc) (s : State) : Moves s (execVisStop t d s) :=
  moves_act t (keeps_runOp _ _ _ _ _ fun _ _ _ h => keeps_visStop h _)
theorem moves_execVisStopDone (t : Nat) (p : Fin 32) (s : State) : Moves s (execVisStopDone t p s) :=
  moves_act t (keeps_visStopDone (Keeps.refl _) _)
theorem moves_execVisClassLoad (t : Nat) (d : Desc) (s : State) : Moves s (execVisClassLoad t d s) :=
  moves_act t (keeps_runOp _ _ _ _ _ fun _ _ _ h => keeps_visClassLoad h _)
theorem moves_execVisBgCapture (t : Nat) (d : Desc) (s : State) : Moves s (execVisBgCapture t d s) :=
  moves_act t (keeps_runOp _ _ _ _ _ fun _ _ _ h => keeps_visBgCapture h _)
theorem moves_execVisParam (t : Nat) (d : Desc) (s : State) : Moves s (execVisParam t d s) :=
  moves_act t (keeps_runOp _ _ _ _ _ fun _ _ _ h => keeps_visParam h _)
theorem moves_execFbEnable (t : Nat) (n : Fin 40) (value : Word) (s : State) : Moves s (execFbEnable t n value s) :=
  moves_act t (keeps_writeFbCfg (Keeps.refl _) _ _)
theorem moves_execQuadratureEdge (t : Nat) (n : Fin 40) (a b : Bool) (s : State) : Moves s (execQuadratureEdge t n a b s) :=
  moves_act t (keeps_quadEdge (Keeps.refl _) _ _ _)
theorem moves_execEmuPulseEnd (t : Nat) (e : Fin 8) (s : State) : Moves s (execEmuPulseEnd t e s) :=
  moves_act t (keeps_emuFall (Keeps.refl _) _)
theorem moves_execIndexEdge (t : Nat) (n : Fin 40) (s : State) : Moves s (execIndexEdge t n s) :=
  moves_act t (keeps_indexEdge (Keeps.refl _) _)
theorem moves_execHallFault (t : Nat) (n : Fin 40) (s : State) : Moves s (execHallFault t n s) :=
  moves_act t (keeps_hallFault (Keeps.refl _) _)
theorem moves_execHallFaultClear (t : Nat) (n : Fin 40) (s : State) : Moves s (execHallFaultClear t n s) :=
  moves_act t (keeps_hallClear (Keeps.refl _) _)
theorem moves_execSerialTransactionStart (t : Nat) (n : Fin 40) (s : State) : Moves s (execSerialTransactionStart t n s) :=
  moves_act t (keeps_serStart (Keeps.refl _) _)
theorem moves_execSerialTransactionDone (t : Nat) (n : Fin 40) (rx : SerRx) (s : State) : Moves s (execSerialTransactionDone t n rx s) :=
  moves_act t (keeps_serDone (Keeps.refl _) _ _)
theorem moves_execStartTimeout (t : Nat) (n : Fin 40) (lineLow : Bool) (s : State) : Moves s (execStartTimeout t n lineLow s) :=
  moves_act t (keeps_startTimeout (Keeps.refl _) _ _)
theorem moves_execStill (t : Nat) (n : Fin 40) (s : State) : Moves s (execStill t n s) :=
  moves_act t (keeps_fbStill (Keeps.refl _) _)
theorem moves_execFbSetPos (t : Nat) (d : Desc) (s : State) : Moves s (execFbSetPos t d s) :=
  moves_act t (keeps_runOp _ _ _ _ _ (keeps_andDone fun _ _ _ h => keeps_doFbSetPos h _))
theorem moves_execFbStream (t : Nat) (d : Desc) (s : State) : Moves s (execFbStream t d s) :=
  moves_act t (keeps_runOp _ _ _ _ _ (keeps_andDone fun _ _ _ h => keeps_doFbStream h _))
theorem moves_execFbEssRead (t : Nat) (d : Desc) (s : State) : Moves s (execFbEssRead t d s) := by
  unfold execFbEssRead
  refine moves_act t (keeps_runOp _ _ _ _ _ ?_)
  intro s₀ s j h
  repeat' first | with_reducible assumption | with_reducible apply keeps_fbEssStart

theorem moves_execFbEssWrite (t : Nat) (d : Desc) (s : State) : Moves s (execFbEssWrite t d s) := by
  unfold execFbEssWrite
  refine moves_act t (keeps_runOp _ _ _ _ _ ?_)
  intro s₀ s j h
  repeat' first | with_reducible assumption | with_reducible apply keeps_fbEssStart

theorem moves_execEmuEnable (t : Nat) (e : Fin 8) (value : Word) (s : State) : Moves s (execEmuEnable t e value s) :=
  moves_act t (keeps_writeEmuCfg (Keeps.refl _) _ _)
theorem moves_execEmuStart (t : Nat) (d : Desc) (s : State) : Moves s (execEmuStart t d s) := by
  unfold execEmuStart
  refine moves_act t (keeps_runOp _ _ _ _ _ ?_)
  intro s₀ s j h
  repeat' first | with_reducible assumption | with_reducible apply keeps_emuStart

theorem moves_execEmuStop (t : Nat) (d : Desc) (s : State) : Moves s (execEmuStop t d s) := by
  unfold execEmuStop
  refine moves_act t (keeps_runOp _ _ _ _ _ ?_)
  refine keeps_andDone ?_
  intro s₀ s d h
  repeat' first | with_reducible assumption | with_reducible apply keeps_doEmuStop

theorem moves_execProfileMove (t : Nat) (d : Desc) (s : State) : Moves s (execProfileMove t d s) :=
  moves_act t (keeps_runOp _ _ _ _ _ fun _ _ _ h => keeps_profileMove h _)
theorem moves_execAxisStopCfg (t : Nat) (d : Desc) (s : State) : Moves s (execAxisStopCfg t d s) :=
  moves_act t (keeps_runOp _ _ _ _ _ (keeps_andDone fun _ _ _ h => keeps_doAxisStop h _))
theorem moves_execGroupOpen (t : Nat) (d : Desc) (s : State) : Moves s (execGroupOpen t d s) :=
  moves_act t (keeps_runOp _ _ _ _ _ (keeps_andDone fun _ _ _ h => keeps_doGroupOpen h _))
theorem moves_execGroupClose (t : Nat) (d : Desc) (s : State) : Moves s (execGroupClose t d s) := by
  unfold execGroupClose
  refine moves_act t (keeps_runOp _ _ _ _ _ ?_)
  refine keeps_andDone ?_
  intro s₀ s d h
  repeat' first | with_reducible assumption | with_reducible apply keeps_closeGroup

theorem moves_execSegAppend (t : Nat) (d : Desc) (s : State) : Moves s (execSegAppend t d s) :=
  moves_act t (keeps_runOp _ _ _ _ _ fun _ _ _ h => keeps_segAppend h _)
theorem moves_execGroupCtrlStop (t : Nat) (d : Desc) (s : State) : Moves s (execGroupCtrlStop t d s) :=
  moves_act t (keeps_runOp _ _ _ _ _ fun _ _ _ h => keeps_groupCtrlStart h _)
theorem moves_execGroupCtrlHold (t : Nat) (d : Desc) (s : State) : Moves s (execGroupCtrlHold t d s) :=
  moves_act t (keeps_runOp _ _ _ _ _ fun _ _ _ h => keeps_groupCtrlStart h _)
theorem moves_execGroupCtrlResume (t : Nat) (d : Desc) (s : State) : Moves s (execGroupCtrlResume t d s) :=
  moves_act t (keeps_runOp _ _ _ _ _ fun _ _ _ h => keeps_groupCtrlStart h _)
theorem moves_execGroupCtrlOverride (t : Nat) (d : Desc) (s : State) : Moves s (execGroupCtrlOverride t d s) :=
  moves_act t (keeps_runOp _ _ _ _ _ fun _ _ _ h => keeps_groupCtrlStart h _)
theorem moves_execStayOpen (t : Nat) (d : Desc) (s : State) : Moves s (execStayOpen t d s) :=
  moves_act t (keeps_runOp _ _ _ _ _ (keeps_andDone fun _ _ _ h => keeps_doStayOpen h _))
theorem moves_execStayEngage (t : Nat) (d : Desc) (s : State) : Moves s (execStayEngage t d s) :=
  moves_act t (keeps_runOp _ _ _ _ _ fun _ _ _ h => keeps_stayEngage h _)
theorem moves_execStayRelease (t : Nat) (d : Desc) (s : State) : Moves s (execStayRelease t d s) :=
  moves_act t (keeps_runOp _ _ _ _ _ fun _ _ _ h => keeps_stayRelease h _)
theorem moves_execStayClose (t : Nat) (d : Desc) (s : State) : Moves s (execStayClose t d s) := by
  unfold execStayClose
  refine moves_act t (keeps_runOp _ _ _ _ _ ?_)
  refine keeps_andDone ?_
  intro s₀ s d h
  repeat' first | with_reducible assumption | with_reducible apply keeps_setStay

theorem moves_execStayCoastExpiry (y : Fin 64) (s : State) : Moves s (execStayCoastExpiry y s) := by
  unfold execStayCoastExpiry
  refine moves_act 0 ?_
  rw [advance_zero]
  have h := Keeps.refl s
  repeat' first | with_reducible assumption | with_reducible apply keeps_coastEnd

theorem moves_execCamLoad (t : Nat) (d : Desc) (s : State) : Moves s (execCamLoad t d s) :=
  moves_act t (keeps_runOp _ _ _ _ _ fun _ _ _ h => keeps_camLoad h _)
theorem moves_execLinkInfo (t : Nat) (d : Desc) (s : State) : Moves s (execLinkInfo t d s) :=
  moves_act t (keeps_runOp _ _ _ _ _ fun _ _ _ h => keeps_linkInfo h _)
theorem moves_execHallCodeChange (t : Nat) (n : Fin 40) (code : Fin 8) (s : State) : Moves s (execHallCodeChange t n code s) :=
  moves_act t (keeps_hallChange (Keeps.refl _) _ _)
theorem moves_execPierEnable (t : Nat) (d : Desc) (s : State) : Moves s (execPierEnable t d s) := by
  unfold execPierEnable
  refine moves_act t (keeps_runOp _ _ _ _ _ ?_)
  intro s₀ s j h
  repeat' first | with_reducible assumption | with_reducible apply keeps_pierWait

theorem moves_execPierDisable (t : Nat) (d : Desc) (s : State) : Moves s (execPierDisable t d s) := by
  unfold execPierDisable
  refine moves_act t (keeps_runOp _ _ _ _ _ ?_)
  intro s₀ s j h
  repeat' first | with_reducible assumption | with_reducible apply keeps_pierWait

theorem moves_execPierAlign (t : Nat) (d : Desc) (s : State) : Moves s (execPierAlign t d s) :=
  moves_act t (keeps_runOp _ _ _ _ _ fun _ _ _ h => keeps_pierAlign h _)
theorem moves_execPierAlignDone (t : Nat) (p : Fin 32) (s : State) : Moves s (execPierAlignDone t p s) :=
  moves_act t (keeps_pierAlignDone (Keeps.refl _) _)
theorem moves_execPierMove (t : Nat) (d : Desc) (s : State) : Moves s (execPierMove t d s) :=
  moves_act t (keeps_runOp _ _ _ _ _ fun _ _ _ h => keeps_pierMove h _)
theorem moves_execPierJog (t : Nat) (d : Desc) (s : State) : Moves s (execPierJog t d s) :=
  moves_act t (keeps_runOp _ _ _ _ _ fun _ _ _ h => keeps_pierJog h _)
theorem moves_execPierTorque (t : Nat) (d : Desc) (s : State) : Moves s (execPierTorque t d s) :=
  moves_act t (keeps_runOp _ _ _ _ _ fun _ _ _ h => keeps_pierTorque h _)
theorem moves_execPierStop (t : Nat) (d : Desc) (s : State) : Moves s (execPierStop t d s) := by
  unfold execPierStop
  refine moves_act t (keeps_runOp _ _ _ _ _ ?_)
  intro s₀ s j h
  repeat' first | with_reducible assumption | with_reducible apply keeps_pierWait

theorem moves_execPierCoef (t : Nat) (d : Desc) (s : State) : Moves s (execPierCoef t d s) :=
  moves_act t (keeps_runOp _ _ _ _ _ fun _ _ _ h => keeps_pierCoef h _)
theorem moves_execPierFilter (t : Nat) (d : Desc) (s : State) : Moves s (execPierFilter t d s) :=
  moves_act t (keeps_runOp _ _ _ _ _ (keeps_andDone fun _ _ _ h => keeps_doPierFilter h _))
theorem moves_execPierVolt (t : Nat) (d : Desc) (s : State) : Moves s (execPierVolt t d s) :=
  moves_act t (keeps_runOp _ _ _ _ _ (keeps_andDone fun _ _ _ h => keeps_doPierVolt h _))
theorem moves_execPierClear (t : Nat) (d : Desc) (s : State) : Moves s (execPierClear t d s) :=
  moves_act t (keeps_runOp _ _ _ _ _ fun _ _ _ h => keeps_pierClear h _)
theorem moves_execSgEnable (t : Nat) (d : Desc) (s : State) : Moves s (execSgEnable t d s) :=
  moves_act t (keeps_runOp _ _ _ _ _ fun _ _ _ h => keeps_sgEnable h _)
theorem moves_execSgDisable (t : Nat) (d : Desc) (s : State) : Moves s (execSgDisable t d s) := by
  unfold execSgDisable
  refine moves_act t (keeps_runOp _ _ _ _ _ ?_)
  intro s₀ s j h
  repeat' first | with_reducible assumption | with_reducible apply keeps_sgWait

theorem moves_execSgMove (t : Nat) (d : Desc) (s : State) : Moves s (execSgMove t d s) :=
  moves_act t (keeps_runOp _ _ _ _ _ fun _ _ _ h => keeps_sgMove h _)
theorem moves_execSgJog (t : Nat) (d : Desc) (s : State) : Moves s (execSgJog t d s) :=
  moves_act t (keeps_runOp _ _ _ _ _ fun _ _ _ h => keeps_sgJog h _)
theorem moves_execSgStop (t : Nat) (d : Desc) (s : State) : Moves s (execSgStop t d s) := by
  unfold execSgStop
  refine moves_act t (keeps_runOp _ _ _ _ _ ?_)
  intro s₀ s j h
  repeat' first | with_reducible assumption | with_reducible apply keeps_sgWait

theorem moves_execSgSetPos (t : Nat) (d : Desc) (s : State) : Moves s (execSgSetPos t d s) :=
  moves_act t (keeps_runOp _ _ _ _ _ fun _ _ _ h => keeps_sgSetPosOp h _)
theorem moves_execSgRate (t : Nat) (d : Desc) (s : State) : Moves s (execSgRate t d s) := by
  unfold execSgRate
  refine moves_act t (keeps_runOp _ _ _ _ _ ?_)
  refine keeps_andDone ?_
  intro s₀ s d h
  repeat' first | with_reducible assumption | with_reducible apply keeps_sgNext

theorem moves_execSgCoil (t : Nat) (d : Desc) (s : State) : Moves s (execSgCoil t d s) := by
  unfold execSgCoil
  refine moves_act t (keeps_runOp _ _ _ _ _ ?_)
  refine keeps_andDone ?_
  intro s₀ s d h
  repeat' first | with_reducible assumption | with_reducible apply keeps_sgNext

theorem moves_execSgClear (t : Nat) (d : Desc) (s : State) : Moves s (execSgClear t d s) :=
  moves_act t (keeps_runOp _ _ _ _ _ fun _ _ _ h => keeps_sgClear h _)
theorem moves_execStepEmit (t : Nat) (n : Fin 16) (s : State) : Moves s (execStepEmit t n s) :=
  moves_act t (keeps_stepEmit (Keeps.refl _) _)
theorem moves_execStepPulseEnd (t : Nat) (n : Fin 16) (s : State) : Moves s (execStepPulseEnd t n s) :=
  moves_act t (keeps_stepFall (Keeps.refl _) _)
theorem moves_execSgStandstill (n : Fin 16) (s : State) : Moves s (execSgStandstill n s) := by
  unfold execSgStandstill
  refine moves_act 0 ?_
  rw [advance_zero]
  have h := Keeps.refl s
  repeat' first | with_reducible assumption | with_reducible apply keeps_sgStandstill

theorem moves_execLimitInput (t : Nat) (i : Fin 48) (high : Bool) (s : State) : Moves s (execLimitInput t i high s) :=
  moves_act t (keeps_limitInput (Keeps.refl _) _ _)
theorem moves_execPwmPeriodStart (t : Nat) (ch : PwmChan) (s : State) : Moves s (execPwmPeriodStart t ch s) :=
  moves_act t (keeps_periodStart (Keeps.refl _) _)
theorem moves_execPwmCompareEdge (t64 : Nat) (ch : PwmChan) (bootMv : Nat) (sense : Int) (s : State) : Moves s (execPwmCompareEdge t64 ch bootMv sense s) :=
  moves_act (t64 / 64) (keeps_compareEdge (Keeps.refl _) _ _ _ _)
theorem moves_execDesat (t : Nat) (g : Fin 16) (leg : Fin 4) (high : Bool) (mv : Nat) (s : State) : Moves s (execDesat t g leg high mv s) :=
  moves_act t (keeps_doDesat (Keeps.refl _) _ _ _ _)
theorem moves_execOvercurrent (t : Nat) (g : Fin 16) (leg : Fin 4) (current : Int) (s : State) : Moves s (execOvercurrent t g leg current s) :=
  moves_act t (keeps_doOvercurrent (Keeps.refl _) _ _ _)
theorem moves_execBusOv (t : Nat) (g : Fin 16) (mv : Nat) (s : State) : Moves s (execBusOv t g mv s) :=
  moves_act t (keeps_doBusOv (Keeps.refl _) _ _)
theorem moves_execGateUv (t : Nat) (f : Fin 2) (mv : Nat) (s : State) : Moves s (execGateUv t f mv s) :=
  moves_act t (keeps_doGateUv (Keeps.refl _) _ _)
theorem moves_execXflt (t : Nat) (n : Fin 32) (low : Bool) (s : State) : Moves s (execXflt t n low s) :=
  moves_act t (keeps_doXflt (Keeps.refl _) _ _)
theorem moves_execGdEnLow (t : Nat) (f : Fin 2) (s : State) : Moves s (execGdEnLow t f s) :=
  moves_act t (keeps_gdLow (Keeps.refl _) _)
theorem moves_execGdEnHigh (t : Nat) (f : Fin 2) (s : State) : Moves s (execGdEnHigh t f s) :=
  moves_act t (keeps_gdHigh (Keeps.refl _) _)
theorem moves_execGinChange (t : Nat) (g : Fin 16) (code : Fin 8) (s : State) : Moves s (execGinChange t g code s) :=
  moves_act t (keeps_ginChange (Keeps.refl _) _ _)
theorem moves_execPwmxDriveWrite (t : Nat) (n : Fin 32) (value : Word) (s : State) : Moves s (execPwmxDriveWrite t n value s) :=
  moves_act t (keeps_writePwmx (Keeps.refl _) _ _)
theorem moves_execPwmRaw (t : Nat) (d : Desc) (s : State) : Moves s (execPwmRaw t d s) :=
  moves_act t (keeps_runOp _ _ _ _ _ (keeps_andDone fun _ _ _ h => keeps_doPwmRaw h _))
theorem moves_execGateMask (t : Nat) (d : Desc) (s : State) : Moves s (execGateMask t d s) :=
  moves_act t (keeps_runOp _ _ _ _ _ (keeps_andDone fun _ _ _ h => keeps_doGateMask h _))
theorem moves_execPwmHalt (t : Nat) (d : Desc) (s : State) : Moves s (execPwmHalt t d s) := by
  unfold execPwmHalt
  refine moves_act t (keeps_runOp _ _ _ _ _ ?_)
  refine keeps_andDone ?_
  intro s₀ s d h
  repeat' first | with_reducible assumption | with_reducible apply keeps_doPwmHalt

theorem moves_execPwmResume (t : Nat) (d : Desc) (s : State) : Moves s (execPwmResume t d s) := by
  unfold execPwmResume
  refine moves_act t (keeps_runOp _ _ _ _ _ ?_)
  intro s₀ s j h
  repeat' first | with_reducible assumption | with_reducible apply keeps_pwmResume

theorem moves_execPwmRestart (s : State) : Moves s (execPwmRestart s) := by
  unfold execPwmRestart
  refine moves_act 0 ?_
  rw [advance_zero]
  have h := Keeps.refl s
  repeat' first | with_reducible assumption | with_reducible apply keeps_pwmRestart

theorem moves_execAuxDuty (t : Nat) (d : Desc) (s : State) : Moves s (execAuxDuty t d s) := by
  unfold execAuxDuty
  refine moves_act t (keeps_runOp _ _ _ _ _ ?_)
  refine keeps_andDone ?_
  intro s₀ s d h
  repeat' first | with_reducible assumption | with_reducible apply keeps_setShadow

theorem moves_execBlockDuty (t : Nat) (d : Desc) (s : State) : Moves s (execBlockDuty t d s) := by
  unfold execBlockDuty
  refine moves_act t (keeps_runOp _ _ _ _ _ ?_)
  refine keeps_andDone ?_
  intro s₀ s d h
  repeat' first
    | with_reducible assumption
    | with_reducible apply keeps_updStage
    | with_reducible refine Keeps.upd ?_ rfl

theorem moves_execGroupInfo (t : Nat) (d : Desc) (s : State) : Moves s (execGroupInfo t d s) :=
  moves_act t (keeps_runOp _ _ _ _ _ fun _ _ _ h => keeps_groupInfo h _)
theorem moves_execFrozenOnExpiry (t : Nat) (x : StageId) (s : State) : Moves s (execFrozenOnExpiry t x s) :=
  moves_act t (keeps_frozenOn (Keeps.refl _) _)
theorem moves_execCanTx (t : Nat) (d : Desc) (hostData : List Byte) (s : State) : Moves s (execCanTx t d hostData s) := by
  unfold execCanTx
  refine moves_act t (keeps_runOp _ _ _ _ _ ?_)
  intro s₀ s j h
  repeat' first | with_reducible assumption | with_reducible apply keeps_canTxStart

theorem moves_execCanTxXl (t : Nat) (d : Desc) (s : State) : Moves s (execCanTxXl t d s) :=
  moves_act t (keeps_runOp _ _ _ _ _ fun _ _ _ h => keeps_canAdmit h _)
theorem moves_execCanTxXlDataArrival (t : Nat) (job : Nat) (data : List Byte) (s : State) : Moves s (execCanTxXlDataArrival t job data s) :=
  moves_act t (keeps_canXlArrive (Keeps.refl _) _ _)
theorem moves_execCanFilter (t : Nat) (d : Desc) (s : State) : Moves s (execCanFilter t d s) :=
  moves_act t (keeps_runOp _ _ _ _ _ (keeps_andDone fun _ _ _ h => keeps_doCanFilter h _))
theorem moves_execCanTap (t : Nat) (d : Desc) (s : State) : Moves s (execCanTap t d s) :=
  moves_act t (keeps_runOp _ _ _ _ _ (keeps_andDone fun _ _ _ h => keeps_doCanTap h _))
theorem moves_execCanStart (t : Nat) (d : Desc) (s : State) : Moves s (execCanStart t d s) := by
  unfold execCanStart
  refine moves_act t (keeps_runOp _ _ _ _ _ ?_)
  intro s₀ s j h
  repeat' first | with_reducible assumption | with_reducible apply keeps_canCtrl

theorem moves_execCanStop (t : Nat) (d : Desc) (busy : Bool) (s : State) : Moves s (execCanStop t d busy s) := by
  unfold execCanStop
  refine moves_act t (keeps_runOp _ _ _ _ _ ?_)
  intro s₀ s j h
  repeat' first | with_reducible assumption | with_reducible apply keeps_canCtrl

theorem moves_execCanSleep (t : Nat) (d : Desc) (busy : Bool) (s : State) : Moves s (execCanSleep t d busy s) := by
  unfold execCanSleep
  refine moves_act t (keeps_runOp _ _ _ _ _ ?_)
  intro s₀ s j h
  repeat' first | with_reducible assumption | with_reducible apply keeps_canCtrl

theorem moves_execCanRecover (t : Nat) (d : Desc) (s : State) : Moves s (execCanRecover t d s) := by
  unfold execCanRecover
  refine moves_act t (keeps_runOp _ _ _ _ _ ?_)
  intro s₀ s j h
  repeat' first | with_reducible assumption | with_reducible apply keeps_canCtrl

theorem moves_execCanConfig (t : Nat) (d : Desc) (s : State) : Moves s (execCanConfig t d s) := by
  unfold execCanConfig
  refine moves_act t ?_
  refine ((keeps_refuseSide (Keeps.refl _) _).advance_again).trans (keeps_runOp _ _ _ _ _ ?_)
  intro s₀ s j h
  exact keeps_andDone (fun _ _ _ h => keeps_doCanConfig h _) _ _ _ h

theorem moves_execCanInfo (t : Nat) (d : Desc) (s : State) : Moves s (execCanInfo t d s) :=
  moves_act t (keeps_runOp _ _ _ _ _ fun _ _ _ h => keeps_canInfo h _)
theorem moves_execCanFrameReceived (t : Nat) (c : Fin 8) (sof : Nat) (f : CanFrame) (s : State) : Moves s (execCanFrameReceived t c sof f s) :=
  moves_act t (keeps_canReceived (Keeps.refl _) _ _ _)
theorem moves_execCanFrameTransmitted (t : Nat) (c : Fin 8) (sof : Nat) (s : State) : Moves s (execCanFrameTransmitted t c sof s) :=
  moves_act t (keeps_canTransmitted (Keeps.refl _) _ _)
theorem moves_execOneShotArbLost (t : Nat) (c : Fin 8) (sof : Nat) (winner : Option CanWinner) (index : Nat) (s : State) : Moves s (execOneShotArbLost t c sof winner index s) :=
  moves_act t (keeps_canArbLost (Keeps.refl _) _ _ _ _)
theorem moves_execCanBusError (t : Nat) (c : Fin 8) (sof : Nat) (kind : CanErr) (s : State) : Moves s (execCanBusError t c sof kind s) :=
  moves_act t (keeps_canTxError (Keeps.refl _) _ _ _)
theorem moves_execCanRxError (t : Nat) (c : Fin 8) (afterFlag : Bool) (s : State) : Moves s (execCanRxError t c afterFlag s) :=
  moves_act t (keeps_canRxErr (Keeps.refl _) _ _)
theorem moves_execBusOff (t : Nat) (c : Fin 8) (s : State) : Moves s (execBusOff t c s) :=
  moves_act t (keeps_canBusOff (Keeps.refl _) _)
theorem moves_execBusOffRecovered (t : Nat) (c : Fin 8) (s : State) : Moves s (execBusOffRecovered t c s) :=
  moves_act t (keeps_canRecovered (Keeps.refl _) _)
theorem moves_execBusStuck (t : Nat) (c : Fin 8) (s : State) : Moves s (execBusStuck t c s) :=
  moves_act t (keeps_canStuck (Keeps.refl _) _)
theorem moves_execRxdRecessive (t : Nat) (c : Fin 8) (s : State) : Moves s (execRxdRecessive t c s) :=
  moves_act t (keeps_canRecessive (Keeps.refl _) _)
theorem moves_execCanWake (t : Nat) (c : Fin 8) (start : Nat) (frame : Option CanFrame) (s : State) : Moves s (execCanWake t c start frame s) :=
  moves_act t (keeps_canWake (Keeps.refl _) _ _ _)
theorem moves_execValveTest (t : Nat) (d : Desc) (s : State) : Moves s (execValveTest t d s) :=
  moves_act t (keeps_runOp _ _ _ _ _ fun _ _ _ h => keeps_doValveTest h _)
theorem moves_execEjectAt (t : Nat) (d : Desc) (s : State) : Moves s (execEjectAt t d s) :=
  moves_act t (keeps_runOp _ _ _ _ _ fun _ _ _ h => keeps_doEjectAt h _)
theorem moves_execValveLatSet (t : Nat) (d : Desc) (s : State) : Moves s (execValveLatSet t d s) :=
  moves_act t (keeps_runOp _ _ _ _ _ (keeps_andDone fun _ _ _ h => keeps_doValveLatSet h _))
theorem moves_execValveSig (t : Nat) (d : Desc) (s : State) : Moves s (execValveSig t d s) :=
  moves_act t (keeps_runOp _ _ _ _ _ (keeps_andDone fun _ _ _ h => keeps_doValveSig h _))
theorem moves_execValveClear (t : Nat) (d : Desc) (pathRestored : Bool) (s : State) : Moves s (execValveClear t d pathRestored s) := by
  unfold execValveClear
  refine moves_act t (keeps_runOp _ _ _ _ _ ?_)
  intro s₀ s j h
  repeat' first | with_reducible assumption | with_reducible apply keeps_doValveClear

theorem moves_execValveOpen (t : Nat) (v : Fin 64) (s : State) : Moves s (execValveOpen t v s) :=
  moves_act t (keeps_valveOpen (Keeps.refl _) _)
theorem moves_execValvePeakEnd (t : Nat) (v : Fin 64) (s : State) : Moves s (execValvePeakEnd t v s) :=
  moves_act t (keeps_valvePeakEnd (Keeps.refl _) _)
theorem moves_execValveClose (t : Nat) (v : Fin 64) (samples : List Nat) (s : State) : Moves s (execValveClose t v samples s) :=
  moves_act t (keeps_valveClose (Keeps.refl _) _ _)
theorem moves_execValveFault (t : Nat) (v : Fin 64) (cause : ValveCause) (s : State) : Moves s (execValveFault t v cause s) :=
  moves_act t (keeps_valveFault (Keeps.refl _) _ _)
theorem moves_execValveEnable (t : Nat) (v : Fin 576) (value : Word) (s : State) : Moves s (execValveEnable t v value s) :=
  moves_act t (keeps_writeValveCfg (Keeps.refl _) _ _)
theorem moves_execValveDisable (t : Nat) (v : Fin 576) (value : Word) (s : State) : Moves s (execValveDisable t v value s) :=
  moves_act t (keeps_writeValveCfg (Keeps.refl _) _ _)
theorem moves_execNrEnable (t : Nat) (r : Fin 16) (value : Word) (s : State) : Moves s (execNrEnable t r value s) :=
  moves_act t (keeps_writeNrCfg (Keeps.refl _) _ _)
theorem moves_execNrDisable (t : Nat) (r : Fin 16) (value : Word) (s : State) : Moves s (execNrDisable t r value s) :=
  moves_act t (keeps_writeNrCfg (Keeps.refl _) _ _)
theorem moves_execEjectStart (t : Nat) (d : Desc) (s : State) : Moves s (execEjectStart t d s) :=
  moves_act t (keeps_runOp _ _ _ _ _ (keeps_andDone fun _ _ _ h => keeps_doEjectStart h _))
theorem moves_execEjectStop (t : Nat) (d : Desc) (s : State) : Moves s (execEjectStop t d s) :=
  moves_act t (keeps_runOp _ _ _ _ _ (keeps_andDone fun _ _ _ h => keeps_doEjectStop h _))
theorem moves_execEjectTrim (t : Nat) (d : Desc) (s : State) : Moves s (execEjectTrim t d s) :=
  moves_act t (keeps_runOp _ _ _ _ _ fun _ _ _ h => keeps_doEjectTrim h _)
theorem moves_execArcFit (t : Nat) (r : Fin 16) (s : State) : Moves s (execArcFit t r s) :=
  moves_act t (keeps_arcFit (Keeps.refl _) _)
theorem moves_execEventInsert (t : Nat) (s : State) : Moves s (execEventInsert t s) :=
  moves_act t (keeps_eventInsert (Keeps.refl _))
theorem moves_execTrestleEnable (t : Nat) (value : Word) (s : State) : Moves s (execTrestleEnable t value s) :=
  moves_act t (keeps_writeTrCfg (Keeps.refl _) _)
theorem moves_execLinkUpDone (t : Nat) (nodes : List NodeInfo) (hops : List Nat) (closed : Bool) (s : State) : Moves s (execLinkUpDone t nodes hops closed s) :=
  moves_act t (keeps_linkUpDone (Keeps.refl _) _ _ _)
theorem moves_execLinkUpTimeout (s : State) : Moves s (execLinkUpTimeout s) := by
  unfold execLinkUpTimeout
  refine moves_act 0 ?_
  rw [advance_zero]
  have h := Keeps.refl s
  repeat' first | with_reducible assumption | with_reducible apply keeps_linkUpTimeout

theorem moves_execEdgeFreeze (t : Nat) (s : State) : Moves s (execEdgeFreeze t s) :=
  moves_act t (keeps_edgeFreeze (Keeps.refl _))
theorem moves_execSweepSend (t : Nat) (s : State) : Moves s (execSweepSend t s) :=
  moves_act t (keeps_sweepSend (Keeps.refl _))
theorem moves_execSweepReturn (t : Nat) (half : SweepHalf) (wrappedAt : Option (Fin 16)) (frameCrcOk : Bool) (replies : List Reply) (s : State) : Moves s (execSweepReturn t half wrappedAt frameCrcOk replies s) :=
  moves_act t (keeps_sweepReturn (Keeps.refl _) _ _ _ _)
theorem moves_execWestHalfSend (t : Nat) (s : State) : Moves s (execWestHalfSend t s) :=
  moves_act t (keeps_westHalfSend (Keeps.refl _))
theorem moves_execHopBreak (t : Nat) (hop : Fin 17) (s : State) : Moves s (execHopBreak t hop s) :=
  moves_act t (keeps_hopBreak (Keeps.refl _) _)
theorem moves_execHopRejoin (t : Nat) (hop : Fin 17) (nodes : List NodeInfo) (s : State) : Moves s (execHopRejoin t hop nodes s) :=
  moves_act t (keeps_hopRejoin (Keeps.refl _) _ _)
theorem moves_execHopRestored (t : Nat) (hop : Fin 17) (s : State) : Moves s (execHopRestored t hop s) :=
  moves_act t (keeps_hopRestored (Keeps.refl _) _)
theorem moves_execSatelliteWatchdog (t : Nat) (node : Fin 16) (s : State) : Moves s (execSatelliteWatchdog t node s) :=
  moves_act t (keeps_satWatchdog (Keeps.refl _) _)
theorem moves_execTrSweepReport (t : Nat) (d : Desc) (s : State) : Moves s (execTrSweepReport t d s) :=
  moves_act t (keeps_runOp _ _ _ _ _ fun _ _ _ h => keeps_trReport h _)
theorem moves_execTrNodeRead (t : Nat) (d : Desc) (s : State) : Moves s (execTrNodeRead t d s) := by
  unfold execTrNodeRead
  refine moves_act t (keeps_runOp _ _ _ _ _ ?_)
  intro s₀ s j h
  repeat' first | with_reducible assumption | with_reducible apply keeps_trNode

theorem moves_execTrNodeWrite (t : Nat) (d : Desc) (s : State) : Moves s (execTrNodeWrite t d s) := by
  unfold execTrNodeWrite
  refine moves_act t (keeps_runOp _ _ _ _ _ ?_)
  intro s₀ s j h
  repeat' first | with_reducible assumption | with_reducible apply keeps_trNode

theorem moves_execTrRelink (t : Nat) (d : Desc) (s : State) : Moves s (execTrRelink t d s) :=
  moves_act t (keeps_runOp _ _ _ _ _ fun _ _ _ h => keeps_trRelink h _)
theorem moves_execAttach (t : Nat) (tn : Fin 256) (s : State) : Moves s (execAttach t tn s) :=
  moves_act t (keeps_doAttach (Keeps.refl _) _)
theorem moves_execAttachEvaluation (tn : Fin 256) (s : State) : Moves s (execAttachEvaluation tn s) := by
  unfold execAttachEvaluation
  refine moves_act 0 ?_
  rw [advance_zero]
  have h := Keeps.refl s
  repeat' first | with_reducible assumption | with_reducible apply keeps_doAttachEval

theorem moves_execDetach (t : Nat) (tn : Fin 256) (s : State) : Moves s (execDetach t tn s) :=
  moves_act t (keeps_doDetach (Keeps.refl _) _)
theorem moves_execDetachComplete (t : Nat) (tn : Fin 256) (s : State) : Moves s (execDetachComplete t tn s) :=
  moves_act t (keeps_doDetachComplete (Keeps.refl _) _)
theorem moves_execRelease (t : Nat) (tn : Fin 256) (value : Word) (s : State) : Moves s (execRelease t tn value s) :=
  moves_act t (keeps_writeTenantCfg (Keeps.refl _) _ _)
theorem moves_execPerstNRelease (t : Nat) (s : State) : Moves s (execPerstNRelease t s) := by
  unfold execPerstNRelease
  refine moves_act t ?_
  have h := Keeps.refl (advance s t)
  repeat' first
    | with_reducible assumption
    | (extract_lets +onlyGivenNames x; refine Keeps.cut (s := x) ?_ (fun hx => ?_); subst x; rotate_left; clear_value x)
    | extract_lets +onlyGivenNames x
    | split
    | with_reducible refine Keeps.upd ?_ rfl

theorem moves_execLinkTrained (t : Nat) (w : LinkWidth) (r : LinkRate) (s : State) : Moves s (execLinkTrained t w r s) :=
  moves_act t (keeps_doTrained (Keeps.refl _) _ _)
theorem moves_execLinkRetrain (t : Nat) (w : LinkWidth) (r : LinkRate) (s : State) : Moves s (execLinkRetrain t w r s) :=
  moves_act t (keeps_doRetrain (Keeps.refl _) _ _)
theorem moves_execFlr (t : Nat) (fn : Fin 256) (s : State) : Moves s (execFlr t fn s) :=
  moves_act t (keeps_doFlr (Keeps.refl _) _)
theorem moves_execBusMasterEnableClear (t : Nat) (fn : Fin 256) (s : State) : Moves s (execBusMasterEnableClear t fn s) :=
  moves_act t (keeps_doBmeClear (Keeps.refl _) _)
theorem moves_execVfEnableClear (t : Nat) (s : State) : Moves s (execVfEnableClear t s) :=
  moves_act t (keeps_doVfClear (Keeps.refl _))
theorem moves_execVfEnableSet (t : Nat) (numVfs : Fin 256) (s : State) : Moves s (execVfEnableSet t numVfs s) := by
  unfold execVfEnableSet
  refine moves_act t ?_
  have h := Keeps.refl (advance s t)
  repeat' first
    | with_reducible assumption
    | (extract_lets +onlyGivenNames x; refine Keeps.cut (s := x) ?_ (fun hx => ?_); subst x; rotate_left; clear_value x)
    | extract_lets +onlyGivenNames x
    | with_reducible apply Keeps.ite
    | split
    | with_reducible refine Keeps.upd ?_ rfl

theorem moves_execHeartbeatExpiry (tn : Fin 256) (s : State) : Moves s (execHeartbeatExpiry tn s) := by
  unfold execHeartbeatExpiry
  refine moves_act 0 ?_
  rw [advance_zero]
  have h := Keeps.refl s
  repeat' first | with_reducible assumption | with_reducible apply keeps_doHbExpiry

theorem moves_execOrphanEntry (tn : Fin 256) (s : State) : Moves s (execOrphanEntry tn s) := by
  unfold execOrphanEntry
  refine moves_act 0 ?_
  rw [advance_zero]
  have h := Keeps.refl s
  repeat' first | with_reducible assumption | with_reducible apply keeps_doOrphan

theorem moves_execOrphanLimitExpiry (tn : Fin 256) (s : State) : Moves s (execOrphanLimitExpiry tn s) := by
  unfold execOrphanLimitExpiry
  refine moves_act 0 ?_
  rw [advance_zero]
  have h := Keeps.refl s
  repeat' first | with_reducible assumption | with_reducible apply keeps_doOrphanLimit

theorem moves_execTnHeartbeat (t : Nat) (tn : Fin 256) (s : State) : Moves s (execTnHeartbeat t tn s) :=
  moves_act t (keeps_feedHeartbeat (Keeps.refl _) _)
theorem moves_execNop (t : Nat) (d : Desc) (s : State) : Moves s (execNop t d s) := by
  unfold execNop
  refine moves_act t (keeps_runOp _ _ _ _ _ ?_)
  refine keeps_andDone ?_
  intro s₀ s d h
  repeat' first
    | with_reducible assumption

theorem moves_execHeartbeat (t : Nat) (d : Desc) (s : State) : Moves s (execHeartbeat t d s) := by
  unfold execHeartbeat
  refine moves_act t (keeps_runOp _ _ _ _ _ ?_)
  refine keeps_andDone ?_
  intro s₀ s d h
  repeat' first | with_reducible assumption | with_reducible apply keeps_feedHeartbeat

theorem moves_execTenantHold (t : Nat) (d : Desc) (s : State) : Moves s (execTenantHold t d s) :=
  moves_act t (keeps_runOp _ _ _ _ _ fun _ _ _ h => keeps_tenantHoldStart h _)
theorem moves_execHoldTakesEffect (tn : Fin 256) (s : State) : Moves s (execHoldTakesEffect tn s) := by
  unfold execHoldTakesEffect
  refine moves_act 0 ?_
  rw [advance_zero]
  have h := Keeps.refl s
  repeat' first | with_reducible assumption | with_reducible apply keeps_doHoldEffect

theorem moves_execTenantHoldDone (tn : Fin 256) (s : State) : Moves s (execTenantHoldDone tn s) := by
  unfold execTenantHoldDone
  refine moves_act 0 ?_
  rw [advance_zero]
  have h := Keeps.refl s
  repeat' first | with_reducible assumption | with_reducible apply keeps_doHoldDone

theorem moves_execTenantRelease (t : Nat) (d : Desc) (s : State) : Moves s (execTenantRelease t d s) := by
  unfold execTenantRelease
  refine moves_act t (keeps_runOp _ _ _ _ _ ?_)
  refine keeps_andDone ?_
  intro s₀ s d h
  repeat' first | with_reducible assumption | with_reducible apply keeps_endHold

theorem moves_execPublish (t : Nat) (d : Desc) (s : State) : Moves s (execPublish t d s) :=
  moves_act t (keeps_runOp _ _ _ _ _ (keeps_andDone fun _ _ _ h => keeps_doPublish h _))
theorem moves_execLoadAll (t : Nat) (d : Desc) (s : State) : Moves s (execLoadAll t d s) := by
  unfold execLoadAll
  refine moves_act t (keeps_runOp _ _ _ _ _ ?_)
  refine keeps_andDone ?_
  intro s₀ s d h
  repeat' first | with_reducible assumption | with_reducible apply keeps_takeLoadAll

theorem moves_execHoldOtherHold (t : Nat) (d : Desc) (s : State) : Moves s (execHoldOtherHold t d s) := by
  unfold execHoldOtherHold
  refine moves_act t (keeps_runOp _ _ _ _ _ ?_)
  refine keeps_andDone ?_
  intro s₀ s d h
  repeat' first | with_reducible assumption | with_reducible apply keeps_admitHold

theorem moves_execHoldOtherRelease (t : Nat) (d : Desc) (s : State) : Moves s (execHoldOtherRelease t d s) := by
  unfold execHoldOtherRelease
  refine moves_act t (keeps_runOp _ _ _ _ _ ?_)
  refine keeps_andDone ?_
  intro s₀ s d h
  repeat' first | with_reducible assumption | with_reducible apply keeps_endHold

theorem moves_execModeRequest (t : Nat) (value : Word) (s : State) : Moves s (execModeRequest t value s) :=
  moves_act t (keeps_modeRequest (Keeps.refl _) _)
theorem moves_execSoftwareSafeHold (t : Nat) (s : State) : Moves s (execSoftwareSafeHold t s) :=
  moves_act t (keeps_modeRequest (Keeps.refl _) _)
theorem moves_execSafeNLow (t : Nat) (s : State) : Moves s (execSafeNLow t s) :=
  moves_act t (keeps_raiseCause (Keeps.refl _) _)
theorem moves_execSafeNGone (t : Nat) (s : State) : Moves s (execSafeNGone t s) :=
  moves_act t (keeps_clearCause (Keeps.refl _) _)
theorem moves_execHeartbeatMiss (t : Nat) (s : State) : Moves s (execHeartbeatMiss t s) :=
  moves_act t (keeps_heartbeatMiss (Keeps.refl _))
theorem moves_execClockFault (t : Nat) (cause : ClockCause) (s : State) : Moves s (execClockFault t cause s) := by
  unfold execClockFault
  refine moves_act t ?_
  have h := Keeps.refl (advance s t)
  repeat' first
    | with_reducible assumption
    | with_reducible apply keeps_raiseCause
    | split
    | with_reducible refine Keeps.upd ?_ rfl

theorem moves_execClockRestored (t : Nat) (s : State) : Moves s (execClockRestored t s) :=
  moves_act t (keeps_clearCause (Keeps.refl _) _)
theorem moves_execSupplyFault (t : Nat) (rail : Rail) (s : State) : Moves s (execSupplyFault t rail s) := by
  unfold execSupplyFault
  refine moves_act t ?_
  have h := Keeps.refl (advance s t)
  repeat' first
    | with_reducible assumption
    | with_reducible apply keeps_raiseCause
    | with_reducible apply keeps_setRail

theorem moves_execSupplyRestored (t : Nat) (s : State) : Moves s (execSupplyRestored t s) := by
  unfold execSupplyRestored
  refine moves_act t ?_
  have h := Keeps.refl (advance s t)
  repeat' first
    | with_reducible assumption
    | with_reducible apply keeps_clearCause
    | (extract_lets +onlyGivenNames x; refine Keeps.cut (s := x) ?_ (fun hx => ?_); subst x; rotate_left; clear_value x)
    | extract_lets +onlyGivenNames x
    | split
    | with_reducible refine Keeps.upd ?_ rfl

theorem moves_execParapetSensorRead (t : Nat) (spanDie deck footA footB : Int) (s : State) : Moves s (execParapetSensorRead t spanDie deck footA footB s) :=
  moves_act t (keeps_sensorRead (Keeps.refl _) _ _ _ _)
theorem moves_execPpUnsafeAck (t : Nat) (value : Word) (s : State) : Moves s (execPpUnsafeAck t value s) := by
  unfold execPpUnsafeAck
  refine moves_act t ?_
  have h := Keeps.refl (advance s t)
  repeat' first
    | with_reducible assumption
    | with_reducible refine keeps_updPp ?_ (fun _ => rfl)
    | with_reducible apply keeps_unsafeAck
    | with_reducible apply keeps_ppFlag
    | (extract_lets +onlyGivenNames x; refine Keeps.cut (s := x) ?_ (fun hx => ?_); subst x; rotate_left; clear_value x)
    | extract_lets +onlyGivenNames x
    | with_reducible apply Keeps.ite
    | split
    | with_reducible refine Keeps.upd ?_ rfl

theorem moves_execFieldSupplyChange (t : Nat) (rail : FieldRail) (mv : Nat) (s : State) : Moves s (execFieldSupplyChange t rail mv s) := by
  unfold execFieldSupplyChange
  by_cases p : s.power.porstHigh = true
  · exact ⟨t, _, rfl, by rw [if_pos p]; exact keeps_setField (Keeps.refl _) _ _⟩
  · exact ⟨0, _, rfl, by rw [if_neg p, advance_zero]; exact keeps_setField (Keeps.refl _) _ _⟩

theorem moves_execLogicSupplyChange (t : Nat) (rail : Rail) (inWindow : Bool) (s : State) : Moves s (execLogicSupplyChange t rail inWindow s) := by
  unfold execLogicSupplyChange
  by_cases p : s.power.porstHigh = true
  · exact ⟨t, _, rfl, by rw [if_pos p]; exact keeps_setRail (Keeps.refl _) _ _⟩
  · exact ⟨0, _, rfl, by rw [if_neg p, advance_zero]; exact keeps_setRail (Keeps.refl _) _ _⟩

theorem moves_execDeckScrubRead (t : Nat) (ecc : Ecc) (s : State) : Moves s (execDeckScrubRead t ecc s) :=
  moves_act t (keeps_scrubRead (Keeps.refl _) _)
theorem moves_execFootingOvertemp (t : Nat) (f : Fin 2) (tempC : Int) (s : State) : Moves s (execFootingOvertemp t f tempC s) := by
  unfold execFootingOvertemp
  refine moves_act t ?_
  have h := Keeps.refl (advance s t)
  repeat' first
    | with_reducible assumption
    | with_reducible apply keeps_doFootOt
    | with_reducible apply keeps_valveFault
    | (extract_lets +onlyGivenNames x; refine Keeps.cut (s := x) ?_ (fun hx => ?_); subst x; rotate_left; clear_value x)
    | extract_lets +onlyGivenNames x
    | with_reducible apply Keeps.ite
    | split

theorem moves_execLinkDown (t : Nat) (s : State) : Moves s (execLinkDown t s) := by
  unfold execLinkDown
  refine moves_act t ?_
  have h := Keeps.refl (advance s t)
  repeat' first
    | with_reducible assumption
    | with_reducible apply keeps_stageLost
    | with_reducible apply keeps_doLinkDown

theorem moves_execPerstNAssert (t : Nat) (s : State) : Moves s (execPerstNAssert t s) := by
  unfold execPerstNAssert
  refine moves_act t ?_
  have h := Keeps.refl (advance s t)
  repeat' first
    | with_reducible assumption
    | with_reducible apply keeps_stageLost
    | with_reducible apply keeps_doPerstLow

theorem moves_execBootImageSelect (t : Nat) (s : State) : Moves s (execBootImageSelect t s) :=
  moves_act t (keeps_bootSelect (Keeps.refl _))
theorem moves_execImageVerified (t : Nat) (s : State) : Moves s (execImageVerified t s) :=
  moves_act t (keeps_imageVerified (Keeps.refl _))
theorem moves_execFirmwareReady (t : Nat) (s : State) : Moves s (execFirmwareReady t s) :=
  moves_act t (keeps_firmwareReady (Keeps.refl _))
theorem moves_execRecovery (t : Nat) (s : State) : Moves s (execRecovery t s) :=
  moves_act t (keeps_enterRecovery (Keeps.refl _))
theorem moves_execStage (t : Nat) (s : State) : Moves s (execStage t s) :=
  moves_act t (keeps_fwuCmd (Keeps.refl _) _)
theorem moves_execStageDone (t : Nat) (r : StageOutcome) (s : State) : Moves s (execStageDone t r s) :=
  moves_act t (keeps_stageDone (Keeps.refl _) _)
theorem moves_execActivate (t : Nat) (s : State) : Moves s (execActivate t s) :=
  moves_act t (keeps_fwuCmd (Keeps.refl _) _)
theorem moves_execCancel (t : Nat) (s : State) : Moves s (execCancel t s) :=
  moves_act t (keeps_fwuCmd (Keeps.refl _) _)
theorem moves_execConfirm (t : Nat) (s : State) : Moves s (execConfirm t s) :=
  moves_act t (keeps_fwuCmd (Keeps.refl _) _)
theorem moves_execSvnCommit (t : Nat) (s : State) : Moves s (execSvnCommit t s) :=
  moves_act t (keeps_fwuCmd (Keeps.refl _) _)
theorem moves_execFirmwareActivation (t : Nat) (s : State) : Moves s (execFirmwareActivation t s) :=
  moves_act t (keeps_firmwareActivation (Keeps.refl _))
theorem moves_execTrialReadyTimeout (t : Nat) (s : State) : Moves s (execTrialReadyTimeout t s) :=
  moves_act t (keeps_trialTimeout (Keeps.refl _))
theorem moves_execLockstep (t : Nat) (s : State) : Moves s (execLockstep t s) :=
  moves_act t (keeps_lockstep (Keeps.refl _))
theorem moves_execAvsEvaluation (t : Nat) (m : AvsIn) (s : State) : Moves s (execAvsEvaluation t m s) :=
  moves_act t (keeps_avsEvaluate (Keeps.refl _) _)
theorem moves_execAvsRetryRead (t : Nat) (m : AvsIn) (s : State) : Moves s (execAvsRetryRead t m s) :=
  moves_act t (keeps_avsRetry (Keeps.refl _) _)
theorem moves_execAvsDisable (t : Nat) (s : State) : Moves s (execAvsDisable t s) := by
  unfold execAvsDisable
  refine moves_act t ?_
  have h := Keeps.refl (advance s t)
  repeat' first
    | with_reducible assumption
    | with_reducible apply keeps_writeAvsCfg
    | (extract_lets +onlyGivenNames x; refine Keeps.cut (s := x) ?_ (fun hx => ?_); subst x; rotate_left; clear_value x)
    | extract_lets +onlyGivenNames x
    | split

theorem moves_execAgeMeasurement (t : Nat) (slowdowns : List Nat) (s : State) : Moves s (execAgeMeasurement t slowdowns s) :=
  moves_act t (keeps_ageMeasure (Keeps.refl _) _)
theorem moves_execSqTailDoorbell (t : Nat) (tn : Fin 256) (off width value : Nat) (s : State) : Moves s (execSqTailDoorbell t tn off width value s) :=
  moves_act t (keeps_doorbell (Keeps.refl _) _ _ _ _)
theorem moves_execCqHeadDoorbell (t : Nat) (tn : Fin 256) (off width value : Nat) (s : State) : Moves s (execCqHeadDoorbell t tn off width value s) :=
  moves_act t (keeps_doorbell (Keeps.refl _) _ _ _ _)
theorem moves_execLoadAllDoorbell (t : Nat) (tn : Fin 256) (width align : Nat) (s : State) : Moves s (execLoadAllDoorbell t tn width align s) :=
  moves_act t (keeps_doorbell (Keeps.refl _) _ _ _ _)
theorem moves_execSqEnable (t : Nat) (tn : Fin 256) (n : Fin 16) (value : Word) (s : State) : Moves s (execSqEnable t tn n value s) :=
  moves_act t (keeps_writeSqCfg (Keeps.refl _) _ _ _)
theorem moves_execSqDisable (t : Nat) (tn : Fin 256) (n : Fin 16) (value : Word) (s : State) : Moves s (execSqDisable t tn n value s) :=
  moves_act t (keeps_writeSqCfg (Keeps.refl _) _ _ _)
theorem moves_execCqEnable (t : Nat) (tn : Fin 256) (n : Fin 16) (value : Word) (s : State) : Moves s (execCqEnable t tn n value s) :=
  moves_act t (keeps_writeCqCfg (Keeps.refl _) _ _ _)
theorem moves_execCqDisable (t : Nat) (tn : Fin 256) (n : Fin 16) (value : Word) (s : State) : Moves s (execCqDisable t tn n value s) :=
  moves_act t (keeps_writeCqCfg (Keeps.refl _) _ _ _)
theorem moves_execDescriptorFetch (t : Nat) (tn : Fin 256) (n : Fin 16) (got : Fetched) (s : State) : Moves s (execDescriptorFetch t tn n got s) :=
  moves_act t (keeps_fetchDesc (Keeps.refl _) _ _ _)
theorem moves_execApplySpanAdmission (job : Nat) (s : State) : Moves s (execApplySpanAdmission job s) := by
  unfold execApplySpanAdmission
  refine moves_act 0 ?_
  rw [advance_zero]
  have h := Keeps.refl s
  repeat' first | with_reducible assumption | with_reducible apply keeps_applyAdmit

theorem moves_execFenceAdmission (t : Nat) (job : Nat) (s : State) : Moves s (execFenceAdmission t job s) :=
  moves_act t (keeps_fenceAdmit (Keeps.refl _) _)
theorem moves_execCqAgeExpiry (tn : Fin 256) (n : Fin 16) (s : State) : Moves s (execCqAgeExpiry tn n s) := by
  unfold execCqAgeExpiry
  refine moves_act 0 ?_
  rw [advance_zero]
  have h := Keeps.refl s
  repeat' first | with_reducible assumption | with_reducible apply keeps_cqAge

theorem moves_execMsixVectorUnmask (t : Nat) (fn : Fin 256) (v : Fin 128) (s : State) : Moves s (execMsixVectorUnmask t fn v s) :=
  moves_act t (keeps_unmaskVec (Keeps.refl _) _ _)
theorem moves_execShed (job : Nat) (s : State) : Moves s (execShed job s) := by
  unfold execShed
  refine moves_act 0 ?_
  rw [advance_zero]
  have h := Keeps.refl s
  repeat' first | with_reducible assumption | with_reducible apply keeps_shedE

theorem moves_execBShed (job : Nat) (s : State) : Moves s (execBShed job s) := by
  unfold execBShed
  refine moves_act 0 ?_
  rw [advance_zero]
  have h := Keeps.refl s
  repeat' first | with_reducible assumption | with_reducible apply keeps_shedB

theorem moves_execSliceComplete (t : Nat) (job : Nat) (tus : List Nat) (r : SliceResult) (s : State) : Moves s (execSliceComplete t job tus r s) :=
  moves_act t (keeps_sliceDone (Keeps.refl _) _ _ _)
theorem moves_execGrantCommitWrite (t : Nat) (value : Word) (s : State) : Moves s (execGrantCommitWrite t value s) :=
  moves_act t (keeps_grantCommit (Keeps.refl _) _)
theorem moves_execGrantLoad (t : Nat) (tn : Fin 256) (s : State) : Moves s (execGrantLoad t tn s) :=
  moves_act t (keeps_grantLoad (Keeps.refl _) _)
theorem moves_execGrantLoadClear (t : Nat) (tn : Fin 256) (s : State) : Moves s (execGrantLoadClear t tn s) :=
  moves_act t (keeps_grantLoad (Keeps.refl _) _)
theorem moves_execLoRegisterRead (t : Nat) (fn : Fin 256) (off len : Nat) (s : State) : Moves s (execLoRegisterRead t fn off len s) :=
  moves_act t (keeps_loRead (Keeps.refl _) _ _ _)
theorem moves_execTnPubSelWrite (t : Nat) (tn : Fin 256) (value : Word) (s : State) : Moves s (execTnPubSelWrite t tn value s) := by
  unfold execTnPubSelWrite
  refine moves_act t ?_
  have h := Keeps.refl (advance s t)
  repeat' first
    | with_reducible assumption
    | with_reducible apply keeps_pubSel
    | with_reducible apply Keeps.ite
    | split

theorem moves_execTnPubDataRead (t : Nat) (tn : Fin 256) (s : State) : Moves s (execTnPubDataRead t tn s) := by
  unfold execTnPubDataRead
  refine moves_act t ?_
  have h := Keeps.refl (advance s t)
  repeat' first
    | with_reducible assumption
    | with_reducible apply keeps_readReg
    | with_reducible apply keeps_setRead
    | (extract_lets +onlyGivenNames x; refine Keeps.cut (s := x) ?_ (fun hx => ?_); subst x; rotate_left; clear_value x)
    | (extract_lets +onlyGivenNames x; refine Keeps.cut (s := Prod.fst x) ?_ (fun hx => ?_); subst x; rotate_left; clear_value x)
    | extract_lets +onlyGivenNames x
    | with_reducible apply Keeps.ite
    | split

theorem moves_execRegisterWrite (t : Nat) (fn : Fin 256) (target : Target) (data : List Byte) (busBusy : Bool) (s : State) : Moves s (execRegisterWrite t fn target data busBusy s) :=
  moves_act t (keeps_hostWrite (Keeps.refl _) _ _ _ _)
theorem moves_execW1cClear (t : Nat) (fn : Fin 256) (off : Nat) (value hwSets : Word) (s : State) : Moves s (execW1cClear t fn off value hwSets s) := by
  unfold execW1cClear
  refine moves_act t ?_
  have h := Keeps.refl (advance s t)
  repeat' first
    | with_reducible assumption
    | with_reducible apply keeps_w1cClear
    | (extract_lets +onlyGivenNames x; refine Keeps.cut (s := x) ?_ (fun hx => ?_); subst x; rotate_left; clear_value x)
    | extract_lets +onlyGivenNames x
    | with_reducible apply Keeps.ite
    | split
    | with_reducible refine Keeps.upd ?_ rfl

theorem moves_execSpanCfgWrite (t : Nat) (value : Word) (s : State) : Moves s (execSpanCfgWrite t value s) := by
  unfold execSpanCfgWrite
  refine moves_act t ?_
  have h := Keeps.refl (advance s t)
  repeat' first
    | with_reducible assumption
    | with_reducible apply keeps_writeSpanCfg
    | with_reducible apply Keeps.ite
    | split

theorem moves_execPierCommOffWrite (t : Nat) (p : Fin 32) (reg : CommReg) (value : Word) (s : State) : Moves s (execPierCommOffWrite t p reg value s) := by
  unfold execPierCommOffWrite
  refine moves_act t ?_
  have h := Keeps.refl (advance s t)
  repeat' first
    | with_reducible assumption
    | with_reducible apply keeps_writePierReg
    | (extract_lets +onlyGivenNames x; refine Keeps.cut (s := x) ?_ (fun hx => ?_); subst x; rotate_left; clear_value x)
    | extract_lets +onlyGivenNames x
    | with_reducible apply Keeps.ite
    | split
    | with_reducible refine Keeps.upd ?_ rfl

end Sys2Proof.Machine
end

