-- ==== Sys2Proof/Laws/Exec.lean ====
section
/-!
SUPPORT. One statement over all commands: what a command can do, but for the eight that reset the block, move it along the span,
commit a grant or judge a mode request.
-/
namespace Sys2Proof.Machine
set_option Elab.async false

/-- The commands that do more than `Moves` allows. -/
def Instr.pivotal : Instr → Bool
  | .porstNAssert => true
  | .porstNRelease => true
  | .timebasePllLock => true
  | .spanBoundary => true
  | .sampleInstant _ => true
  | .computeDeadline _ => true
  | .grantCommitCheck => true
  | .modeRequestEval => true
  | _ => false

/-- Every other command answers a next state that `Moves` describes. -/
theorem exec_moves (c : Instr) (s : State) (h : Instr.pivotal c = false) : Moves s (exec c s) := by
  cases c
  case porstNAssert => exact Bool.noConfusion h
  case porstNRelease => exact Bool.noConfusion h
  case timebasePllLock => exact Bool.noConfusion h
  case spanBoundary => exact Bool.noConfusion h
  case spanCfgWrite => exact moves_execSpanCfgWrite _ _ s
  case sampleInstant => exact Bool.noConfusion h
  case computeDeadline => exact Bool.noConfusion h
  case pwmPeriodStart => exact moves_execPwmPeriodStart _ _ s
  case loadAllDoorbell => exact moves_execLoadAllDoorbell _ _ _ _ s
  case loRegisterRead => exact moves_execLoRegisterRead _ _ _ _ s
  case w1cClear => exact moves_execW1cClear _ _ _ _ _ s
  case registerWrite => exact moves_execRegisterWrite _ _ _ _ _ s
  case holdoverExpiry => exact moves_execHoldoverExpiry s
  case syncInEdge => exact moves_execSyncInEdge _ _ s
  case syncInLost => exact moves_execSyncInLost s
  case syncLenMismatch => exact moves_execSyncLenMismatch s
  case syncOutPulseEnd => exact moves_execSyncOutPulseEnd _ s
  case ptmRequest => exact moves_execPtmRequest s
  case ptmExchangeDone => exact moves_execPtmExchangeDone _ _ _ _ s
  case ptmTimeout => exact moves_execPtmTimeout s
  case grantCommitWrite => exact moves_execGrantCommitWrite _ _ s
  case grantCommitCheck => exact Bool.noConfusion h
  case grantLoad => exact moves_execGrantLoad _ _ s
  case grantLoadClear => exact moves_execGrantLoadClear _ _ s
  case attach => exact moves_execAttach _ _ s
  case attachEvaluation => exact moves_execAttachEvaluation _ s
  case detach => exact moves_execDetach _ _ s
  case detachComplete => exact moves_execDetachComplete _ _ s
  case release => exact moves_execRelease _ _ _ s
  case linkDown => exact moves_execLinkDown _ s
  case perstNAssert => exact moves_execPerstNAssert _ s
  case perstNRelease => exact moves_execPerstNRelease _ s
  case linkTrained => exact moves_execLinkTrained _ _ _ s
  case linkRetrain => exact moves_execLinkRetrain _ _ _ s
  case flr => exact moves_execFlr _ _ s
  case busMasterEnableClear => exact moves_execBusMasterEnableClear _ _ s
  case vfEnableClear => exact moves_execVfEnableClear _ s
  case heartbeatExpiry => exact moves_execHeartbeatExpiry _ s
  case orphanEntry => exact moves_execOrphanEntry _ s
  case orphanLimitExpiry => exact moves_execOrphanLimitExpiry _ s
  case tnHeartbeat => exact moves_execTnHeartbeat _ _ s
  case nop => exact moves_execNop _ _ s
  case heartbeat => exact moves_execHeartbeat _ _ s
  case tenantHold => exact moves_execTenantHold _ _ s
  case holdTakesEffect => exact moves_execHoldTakesEffect _ s
  case tenantHoldDone => exact moves_execTenantHoldDone _ s
  case tenantRelease => exact moves_execTenantRelease _ _ s
  case publish => exact moves_execPublish _ _ s
  case loadAll => exact moves_execLoadAll _ _ s
  case holdOtherHold => exact moves_execHoldOtherHold _ _ s
  case holdOtherRelease => exact moves_execHoldOtherRelease _ _ s
  case sqTailDoorbell => exact moves_execSqTailDoorbell _ _ _ _ _ s
  case cqHeadDoorbell => exact moves_execCqHeadDoorbell _ _ _ _ _ s
  case sqEnable => exact moves_execSqEnable _ _ _ _ s
  case sqDisable => exact moves_execSqDisable _ _ _ _ s
  case cqEnable => exact moves_execCqEnable _ _ _ _ s
  case cqDisable => exact moves_execCqDisable _ _ _ _ s
  case descriptorFetch => exact moves_execDescriptorFetch _ _ _ _ s
  case applySpanAdmission => exact moves_execApplySpanAdmission _ s
  case fenceAdmission => exact moves_execFenceAdmission _ _ s
  case cqAgeExpiry => exact moves_execCqAgeExpiry _ _ s
  case msixVectorUnmask => exact moves_execMsixVectorUnmask _ _ _ s
  case shed => exact moves_execShed _ s
  case bShed => exact moves_execBShed _ s
  case sliceComplete => exact moves_execSliceComplete _ _ _ _ s
  case queueOffer => exact moves_execQueueOffer _ _ _ _ s
  case qEnable => exact moves_execQEnable _ _ _ _ s
  case qDisable => exact moves_execQDisable _ _ _ _ s
  case qCtrlFlush => exact moves_execQCtrlFlush _ _ _ s
  case queueRead => exact moves_execQueueRead _ _ s
  case queueMark => exact moves_execQueueMark _ _ s
  case queueRewind => exact moves_execQueueRewind _ _ s
  case queueRelease => exact moves_execQueueRelease _ _ s
  case queueFlush => exact moves_execQueueFlush _ _ s
  case camEnable => exact moves_execCamEnable _ _ _ s
  case camVcRingEnable => exact moves_execCamVcRingEnable _ _ _ _ s
  case deskewReceived => exact moves_execDeskewReceived _ _ s
  case frameStart => exact moves_execFrameStart _ _ _ _ s
  case longPacket => exact moves_execLongPacket _ _ _ _ _ _ _ s
  case frameEnd => exact moves_execFrameEnd _ _ _ _ s
  case camTrigRise => exact moves_execCamTrigRise _ _ s
  case camTrigPulseEnd => exact moves_execCamTrigPulseEnd _ _ s
  case exposureEvent => exact moves_execExposureEvent _ _ s
  case portLost => exact moves_execPortLost _ s
  case deckScrubRead => exact moves_execDeckScrubRead _ _ s
  case camTrigger => exact moves_execCamTrigger _ _ s
  case frameRead => exact moves_execFrameRead _ _ s
  case frameReadCopyDone => exact moves_execFrameReadCopyDone _ _ s
  case pyramidDone => exact moves_execPyramidDone _ _ _ s
  case motionEstimationDone => exact moves_execMotionEstimationDone _ _ s
  case blobClassifyDone => exact moves_execBlobClassifyDone _ _ s
  case trackerRun => exact moves_execTrackerRun _ _ s
  case visStart => exact moves_execVisStart _ _ s
  case visStop => exact moves_execVisStop _ _ s
  case visStopDone => exact moves_execVisStopDone _ _ s
  case visClassLoad => exact moves_execVisClassLoad _ _ s
  case visBgCapture => exact moves_execVisBgCapture _ _ s
  case visParam => exact moves_execVisParam _ _ s
  case nrEnable => exact moves_execNrEnable _ _ _ s
  case nrDisable => exact moves_execNrDisable _ _ _ s
  case ejectStart => exact moves_execEjectStart _ _ s
  case ejectStop => exact moves_execEjectStop _ _ s
  case ejectTrim => exact moves_execEjectTrim _ _ s
  case valveTest => exact moves_execValveTest _ _ s
  case ejectAt => exact moves_execEjectAt _ _ s
  case valveLatSet => exact moves_execValveLatSet _ _ s
  case valveSig => exact moves_execValveSig _ _ s
  case valveClear => exact moves_execValveClear _ _ _ s
  case arcFit => exact moves_execArcFit _ _ s
  case eventInsert => exact moves_execEventInsert _ s
  case valveOpen => exact moves_execValveOpen _ _ s
  case valvePeakEnd => exact moves_execValvePeakEnd _ _ s
  case valveClose => exact moves_execValveClose _ _ _ s
  case valveFault => exact moves_execValveFault _ _ _ s
  case valveEnable => exact moves_execValveEnable _ _ _ s
  case valveDisable => exact moves_execValveDisable _ _ _ s
  case trestleEnable => exact moves_execTrestleEnable _ _ s
  case linkUpDone => exact moves_execLinkUpDone _ _ _ _ s
  case linkUpTimeout => exact moves_execLinkUpTimeout s
  case edgeFreeze => exact moves_execEdgeFreeze _ s
  case sweepSend => exact moves_execSweepSend _ s
  case sweepReturn => exact moves_execSweepReturn _ _ _ _ _ s
  case westHalfSend => exact moves_execWestHalfSend _ s
  case hopBreak => exact moves_execHopBreak _ _ s
  case hopRejoin => exact moves_execHopRejoin _ _ _ s
  case trSweepReport => exact moves_execTrSweepReport _ _ s
  case trNodeRead => exact moves_execTrNodeRead _ _ s
  case trNodeWrite => exact moves_execTrNodeWrite _ _ s
  case trRelink => exact moves_execTrRelink _ _ s
  case fbEnable => exact moves_execFbEnable _ _ _ s
  case quadratureEdge => exact moves_execQuadratureEdge _ _ _ _ s
  case emuPulseEnd => exact moves_execEmuPulseEnd _ _ s
  case indexEdge => exact moves_execIndexEdge _ _ s
  case hallCodeChange => exact moves_execHallCodeChange _ _ _ s
  case hallFault => exact moves_execHallFault _ _ s
  case hallFaultClear => exact moves_execHallFaultClear _ _ s
  case serialTransactionStart => exact moves_execSerialTransactionStart _ _ s
  case serialTransactionDone => exact moves_execSerialTransactionDone _ _ _ s
  case startTimeout => exact moves_execStartTimeout _ _ _ s
  case still => exact moves_execStill _ _ s
  case fbSetPos => exact moves_execFbSetPos _ _ s
  case fbStream => exact moves_execFbStream _ _ s
  case fbEssRead => exact moves_execFbEssRead _ _ s
  case fbEssWrite => exact moves_execFbEssWrite _ _ s
  case emuEnable => exact moves_execEmuEnable _ _ _ s
  case emuStart => exact moves_execEmuStart _ _ s
  case emuStop => exact moves_execEmuStop _ _ s
  case pierEnable => exact moves_execPierEnable _ _ s
  case pierDisable => exact moves_execPierDisable _ _ s
  case pierAlign => exact moves_execPierAlign _ _ s
  case pierAlignDone => exact moves_execPierAlignDone _ _ s
  case pierMove => exact moves_execPierMove _ _ s
  case pierJog => exact moves_execPierJog _ _ s
  case pierTorque => exact moves_execPierTorque _ _ s
  case pierStop => exact moves_execPierStop _ _ s
  case pierCoef => exact moves_execPierCoef _ _ s
  case pierFilter => exact moves_execPierFilter _ _ s
  case pierVolt => exact moves_execPierVolt _ _ s
  case pierClear => exact moves_execPierClear _ _ s
  case pierCommOffWrite => exact moves_execPierCommOffWrite _ _ _ _ s
  case profileMove => exact moves_execProfileMove _ _ s
  case axisStopCfg => exact moves_execAxisStopCfg _ _ s
  case groupOpen => exact moves_execGroupOpen _ _ s
  case groupClose => exact moves_execGroupClose _ _ s
  case segAppend => exact moves_execSegAppend _ _ s
  case groupCtrlStop => exact moves_execGroupCtrlStop _ _ s
  case groupCtrlHold => exact moves_execGroupCtrlHold _ _ s
  case groupCtrlResume => exact moves_execGroupCtrlResume _ _ s
  case groupCtrlOverride => exact moves_execGroupCtrlOverride _ _ s
  case stayOpen => exact moves_execStayOpen _ _ s
  case stayEngage => exact moves_execStayEngage _ _ s
  case stayRelease => exact moves_execStayRelease _ _ s
  case stayClose => exact moves_execStayClose _ _ s
  case stayCoastExpiry => exact moves_execStayCoastExpiry _ s
  case camLoad => exact moves_execCamLoad _ _ s
  case latchArm => exact moves_execLatchArm _ _ s
  case latchDisarm => exact moves_execLatchDisarm _ _ s
  case linkInfo => exact moves_execLinkInfo _ _ s
  case probeEdge => exact moves_execProbeEdge _ _ _ s
  case sgEnable => exact moves_execSgEnable _ _ s
  case sgDisable => exact moves_execSgDisable _ _ s
  case sgMove => exact moves_execSgMove _ _ s
  case sgJog => exact moves_execSgJog _ _ s
  case sgStop => exact moves_execSgStop _ _ s
  case sgSetPos => exact moves_execSgSetPos _ _ s
  case sgRate => exact moves_execSgRate _ _ s
  case sgCoil => exact moves_execSgCoil _ _ s
  case sgClear => exact moves_execSgClear _ _ s
  case stepEmit => exact moves_execStepEmit _ _ s
  case stepPulseEnd => exact moves_execStepPulseEnd _ _ s
  case sgStandstill => exact moves_execSgStandstill _ s
  case limitInput => exact moves_execLimitInput _ _ _ s
  case pwmCompareEdge => exact moves_execPwmCompareEdge _ _ _ _ s
  case desat => exact moves_execDesat _ _ _ _ _ s
  case overcurrent => exact moves_execOvercurrent _ _ _ _ s
  case busOv => exact moves_execBusOv _ _ _ s
  case gateUv => exact moves_execGateUv _ _ _ s
  case footingOvertemp => exact moves_execFootingOvertemp _ _ _ s
  case xflt => exact moves_execXflt _ _ _ s
  case gdEnLow => exact moves_execGdEnLow _ _ s
  case gdEnHigh => exact moves_execGdEnHigh _ _ s
  case ginChange => exact moves_execGinChange _ _ _ s
  case pwmxDriveWrite => exact moves_execPwmxDriveWrite _ _ _ s
  case pwmRaw => exact moves_execPwmRaw _ _ s
  case gateMask => exact moves_execGateMask _ _ s
  case pwmHalt => exact moves_execPwmHalt _ _ s
  case pwmResume => exact moves_execPwmResume _ _ s
  case pwmRestart => exact moves_execPwmRestart s
  case auxDuty => exact moves_execAuxDuty _ _ s
  case blockDuty => exact moves_execBlockDuty _ _ s
  case groupInfo => exact moves_execGroupInfo _ _ s
  case frozenOnExpiry => exact moves_execFrozenOnExpiry _ _ s
  case canTx => exact moves_execCanTx _ _ _ s
  case canTxXl => exact moves_execCanTxXl _ _ s
  case canTxXlDataArrival => exact moves_execCanTxXlDataArrival _ _ _ s
  case canFilter => exact moves_execCanFilter _ _ s
  case canTap => exact moves_execCanTap _ _ s
  case canStart => exact moves_execCanStart _ _ s
  case canStop => exact moves_execCanStop _ _ _ s
  case canSleep => exact moves_execCanSleep _ _ _ s
  case canRecover => exact moves_execCanRecover _ _ s
  case canConfig => exact moves_execCanConfig _ _ s
  case canInfo => exact moves_execCanInfo _ _ s
  case canFrameReceived => exact moves_execCanFrameReceived _ _ _ _ s
  case canFrameTransmitted => exact moves_execCanFrameTransmitted _ _ _ s
  case oneShotArbLost => exact moves_execOneShotArbLost _ _ _ _ _ s
  case canBusError => exact moves_execCanBusError _ _ _ _ s
  case canRxError => exact moves_execCanRxError _ _ _ s
  case busOff => exact moves_execBusOff _ _ s
  case busOffRecovered => exact moves_execBusOffRecovered _ _ s
  case busStuck => exact moves_execBusStuck _ _ s
  case rxdRecessive => exact moves_execRxdRecessive _ _ s
  case canWake => exact moves_execCanWake _ _ _ _ s
  case modeRequest => exact moves_execModeRequest _ _ s
  case modeRequestEval => exact Bool.noConfusion h
  case softwareSafeHold => exact moves_execSoftwareSafeHold _ s
  case safeNLow => exact moves_execSafeNLow _ s
  case safeNGone => exact moves_execSafeNGone _ s
  case heartbeatMiss => exact moves_execHeartbeatMiss _ s
  case clockFault => exact moves_execClockFault _ _ s
  case clockRestored => exact moves_execClockRestored _ s
  case supplyFault => exact moves_execSupplyFault _ _ s
  case supplyRestored => exact moves_execSupplyRestored _ s
  case lockstep => exact moves_execLockstep _ s
  case parapetSensorRead => exact moves_execParapetSensorRead _ _ _ _ _ s
  case ppUnsafeAck => exact moves_execPpUnsafeAck _ _ s
  case fieldSupplyChange => exact moves_execFieldSupplyChange _ _ _ s
  case logicSupplyChange => exact moves_execLogicSupplyChange _ _ _ s
  case bootImageSelect => exact moves_execBootImageSelect _ s
  case imageVerified => exact moves_execImageVerified _ s
  case firmwareReady => exact moves_execFirmwareReady _ s
  case recovery => exact moves_execRecovery _ s
  case stage => exact moves_execStage _ s
  case stageDone => exact moves_execStageDone _ _ s
  case activate => exact moves_execActivate _ s
  case cancel => exact moves_execCancel _ s
  case confirm => exact moves_execConfirm _ s
  case svnCommit => exact moves_execSvnCommit _ s
  case firmwareActivation => exact moves_execFirmwareActivation _ s
  case trialReadyTimeout => exact moves_execTrialReadyTimeout _ s
  case tnPubSelWrite => exact moves_execTnPubSelWrite _ _ _ s
  case tnPubDataRead => exact moves_execTnPubDataRead _ _ s
  case avsEvaluation => exact moves_execAvsEvaluation _ _ s
  case avsRetryRead => exact moves_execAvsRetryRead _ _ s
  case avsDisable => exact moves_execAvsDisable _ s
  case ageMeasurement => exact moves_execAgeMeasurement _ _ s
  case camReceiverLock => exact moves_execCamReceiverLock _ _ _ s
  case hopRestored => exact moves_execHopRestored _ _ s
  case satelliteWatchdog => exact moves_execSatelliteWatchdog _ _ s
  case vfEnableSet => exact moves_execVfEnableSet _ _ s

end Sys2Proof.Machine
end

