-- ==== Sys2Proof/Laws/Opcode.lean ====
section
/-!
SUPPORT. What every opcode command does, said once: the descriptor is taken, its family's checks are made on it, and it completes
with the failing check's status or has its effect.
-/
namespace Sys2Proof.Machine

/-- The job an opcode command works on carries the command's descriptor. -/
theorem taken_desc (s : State) (t op : Nat) (d : Desc) : (Safety.taken s t op d).2.d = { d with op := BitVec.ofNat 8 op } := by
  unfold Safety.taken takeJob
  split
  · rename_i j h
    have := List.find?_some h
    simp only [Bool.and_eq_true, beq_iff_eq] at this
    exact this.2
  · rfl

/-- Taking a descriptor keeps what `Keeps` names. -/
theorem keeps_taken (s : State) (t op : Nat) (d : Desc) : Keeps (advance s t) (Safety.taken s t op d).1 :=
  keeps_takeJob (Keeps.refl _) _

/-- The checks pass: the descriptor has its effect, and then G work is planned where there is room. -/
theorem runOp_pass {s a : State} {t op : Nat} {d : Desc} {j : Job} {check : State → Desc → Verdict} (eff : State → Job → State)
    (h : Safety.taken s t op d = (a, j)) (hc : check a j.d = none) : runOp s t op d check eff = planNow (eff a j) j := by
  have hd := taken_desc s t op d
  rw [h] at hd
  unfold Safety.taken at h
  unfold runOp
  dsimp only at hd ⊢
  rw [h]
  dsimp only
  rw [← hd, hc]

/-- A check fails: the descriptor completes with its status and RESULT. -/
theorem runOp_stop {s a : State} {t op : Nat} {d : Desc} {j : Job} {check : State → Desc → Verdict} {st res : Nat}
    (eff : State → Job → State) (h : Safety.taken s t op d = (a, j)) (hc : check a j.d = some (st, res)) :
    runOp s t op d check eff = complete a j st res := by
  have hd := taken_desc s t op d
  rw [h] at hd
  unfold Safety.taken at h
  unfold runOp
  dsimp only at hd ⊢
  rw [h]
  dsimp only
  rw [← hd, hc]

/-- The first failing check decides. -/
theorem firstFail_none {l : List (Bool × Nat × Nat)} (h : ∀ x ∈ l, x.1 = false) : firstFail l = none := by
  induction l with
  | nil => rfl
  | cons x l ih =>
    obtain ⟨c, st, res⟩ := x
    have : c = false := h (c, st, res) (by simp)
    subst this
    exact ih fun y hy => h y (by simp [hy])

end Sys2Proof.Machine
end

