-- ==== Sys2Proof/WellFormed.lean ====
section
/-!
DEFINITION. Which commands are well formed: operands that the buses, the wires and the host can carry. The machine gives
every command an effect; a command that is not well formed cannot reach the device.
-/
namespace Sys2Proof

/-- A descriptor carries 20 parameter bytes in S1 and 32 in S2 (Tables 04-2 and 04-3), and an S1 slot has no cookie. -/
def Desc.wf (d : Desc) : Bool :=
  d.params.length == (if d.s2 then 32 else 20) && (d.s2 || d.cookie == 0#64)

/-- A host write covers 1 to 4,096 bytes within the BAR it names (Table 19-1). -/
def Target.wf (fn : Nat) (len : Nat) : Target → Bool
  | .bar0 off => decide (1 ≤ len) && decide (off + len ≤ if fn = 0 then 0x100000 else 0x1000)
  | .bar2 off => decide (1 ≤ len) && decide (off + len ≤ 0x1000)
  | .bar4 off => decide (1 ≤ len) && decide (off + len ≤ 0x1000)
  | .command => decide (len = 2)
  | .msixControl => decide (len = 2)
  | .ptmControl => decide (len = 4)

/-- A doorbell write: 1 to 64 bits, in whole bytes, within the 4 KiB page (Table 04-1). -/
def bellWf (off width value : Nat) : Bool :=
  decide (8 ≤ width) && decide (width ≤ 64) && width % 8 == 0 && decide (off + width / 8 ≤ 0x1000) && decide (value < 2 ^ width)

/-- A CAN frame keeps to the limits of its format (Table 16-3): its identifier, its length, its data. -/
def CanFrame.wf (f : CanFrame) : Bool :=
  decide (f.fmt < 3) && decide (f.id < if f.ide then 2 ^ 29 else 2 ^ 11) && !(f.fmt == 2 && f.ide) && !(f.fmt != 0 && f.rtr) &&
    (if f.rtr then decide (f.len ≤ 8) && f.data.isEmpty
    else f.data.length == f.len &&
      (if f.fmt = 0 then decide (f.len ≤ 8)
      else if f.fmt = 1 then decide (f.len ≤ 8) || [12, 16, 20, 24, 32, 48, 64].contains f.len
      else decide (1 ≤ f.len) && decide (f.len ≤ 2048)))

/-- What link-up learns fits its registers (R355, Table 10-4): a ring has up to 16 nodes. -/
def nodesWf (l : List NodeInfo) : Bool :=
  decide (l.length ≤ 16) && l.all fun n => decide (n.delayE < 2 ^ 20) && decide (n.delayW < 2 ^ 20)

/-- One reply segment (Table 10-1). -/
def Reply.wf (r : Reply) : Bool :=
  decide (r.flags < 256) && decide (r.mgmtResult < 256) && decide (r.mgmtValue < 2 ^ 32) && decide (r.sigOutput < 256)

/-- A current in Q1.15. -/
def q15Wf (x : Int) : Bool := decide (-32768 ≤ x) && decide (x ≤ 32767)

/-- What the sense converters return: at most one value per leg, per modulator and per group. -/
def Measured.wf (m : Measured) : Bool :=
  decide (m.legs.length ≤ 64) && decide (m.xsd.length ≤ 64) && decide (m.buses.length ≤ 16) && m.legs.all q15Wf && m.xsd.all q15Wf

/-- A data item carries at least one byte and names one of 32 lanes (Table 06-2). -/
def Offer.wf (o : Offer) : Bool := !o.payload.isEmpty && decide (o.lane < 32) && decide (o.src < 256)

/-- The bits a serial word can have (Table 11-7). -/
def SerRx.wf : SerRx → Bool
  | .ssi _ word _ => decide (word < 2 ^ 40)
  | .ess bytes _ _ => decide (bytes.length ≤ 64)

/-- The descriptor a descriptor command executes. -/
def Instr.desc? : Instr → Option Desc
  | .nop _ d | .heartbeat _ d | .tenantHold _ d | .tenantRelease _ d | .publish _ d | .loadAll _ d | .holdOtherHold _ d
  | .holdOtherRelease _ d | .queueRead _ d | .queueMark _ d | .queueRewind _ d | .queueRelease _ d | .queueFlush _ d
  | .camTrigger _ d | .frameRead _ d | .visStart _ d | .visStop _ d | .visClassLoad _ d | .visBgCapture _ d | .visParam _ d
  | .ejectStart _ d | .ejectStop _ d | .ejectTrim _ d | .valveTest _ d | .ejectAt _ d | .valveLatSet _ d | .valveSig _ d
  | .valveClear _ d _ | .trSweepReport _ d | .trNodeRead _ d | .trNodeWrite _ d | .trRelink _ d | .fbSetPos _ d | .fbStream _ d
  | .fbEssRead _ d | .fbEssWrite _ d | .emuStart _ d | .emuStop _ d | .pierEnable _ d | .pierDisable _ d | .pierAlign _ d
  | .pierMove _ d | .pierJog _ d | .pierTorque _ d | .pierStop _ d | .pierCoef _ d | .pierFilter _ d | .pierVolt _ d
  | .pierClear _ d | .profileMove _ d | .axisStopCfg _ d | .groupOpen _ d | .groupClose _ d | .segAppend _ d | .groupCtrlStop _ d
  | .groupCtrlHold _ d | .groupCtrlResume _ d | .groupCtrlOverride _ d | .stayOpen _ d | .stayEngage _ d | .stayRelease _ d
  | .stayClose _ d | .camLoad _ d | .latchArm _ d | .latchDisarm _ d | .linkInfo _ d | .sgEnable _ d | .sgDisable _ d
  | .sgMove _ d | .sgJog _ d | .sgStop _ d | .sgSetPos _ d | .sgRate _ d | .sgCoil _ d | .sgClear _ d | .pwmRaw _ d
  | .gateMask _ d | .pwmHalt _ d | .pwmResume _ d | .auxDuty _ d | .blockDuty _ d | .groupInfo _ d | .canTx _ d _
  | .canTxXl _ d | .canFilter _ d | .canTap _ d | .canStart _ d | .canStop _ d _ | .canSleep _ d _ | .canRecover _ d
  | .canConfig _ d | .canInfo _ d => some d
  | _ => none

/-- The well-formed commands. -/
def Instr.wf (i : Instr) : Bool :=
  ((i.desc?.map (·.wf)).getD true) &&
  match i with
  | .sampleInstant m => m.wf
  | .computeDeadline missed => decide missed.Nodup
  | .loadAllDoorbell _ _ width align => bellWf (0x200 + align) width 0
  | .sqTailDoorbell _ _ off width value => bellWf off width value
  | .cqHeadDoorbell _ _ off width value => bellWf off width value
  | .loRegisterRead _ fn off len => (Target.bar0 off).wf fn len
  | .registerWrite _ fn target data _ => target.wf fn data.length
  | .w1cClear _ fn off _ _ => off % 4 == 0 && (Target.bar0 off).wf fn 4
  | .descriptorFetch _ _ _ (.data bytes) => bytes.length == 32 || bytes.length == 64
  | .queueOffer _ _ _ it => it.wf
  | .linkUpDone _ nodes hops _ => nodesWf nodes && decide (hops.length ≤ 17)
  | .hopRejoin _ _ nodes => nodesWf nodes
  | .sweepReturn _ _ _ _ replies => decide (replies.length ≤ 16) && replies.all (·.wf)
  | .serialTransactionDone _ _ rx => rx.wf
  | .overcurrent _ _ _ i => q15Wf i
  | .pwmCompareEdge _ _ _ sense => q15Wf sense
  | .canFrameReceived _ _ _ f => f.wf
  | .canWake _ _ _ frame => (frame.map (·.wf)).getD true
  | _ => true

end Sys2Proof
end

