-- ==== Sys2Proof/Laws/PerInstr.lean ====
section
/-!
SUPPORT. Statements about every command as syntax, one lemma per constructor: a command that executes a descriptor is well
formed exactly when its descriptor is.
-/
namespace Sys2Proof.Laws

set_option Elab.async false

/-- A command that executes a descriptor is well formed exactly when the descriptor is. -/
def Descriptor.Statement (i : Instr) : Prop := ∀ d, i.desc? = some d → i.wf = d.wf

theorem Descriptor.porstNAssert : Descriptor.Statement .porstNAssert := fun _ (h : none = some _) => nomatch h
theorem Descriptor.porstNRelease : Descriptor.Statement .porstNRelease := fun _ (h : none = some _) => nomatch h
theorem Descriptor.timebasePllLock : Descriptor.Statement .timebasePllLock := fun _ (h : none = some _) => nomatch h
theorem Descriptor.spanBoundary : Descriptor.Statement .spanBoundary := fun _ (h : none = some _) => nomatch h
theorem Descriptor.spanCfgWrite : ∀ a0 a1, Descriptor.Statement (.spanCfgWrite a0 a1) := fun _ _ _ (h : none = some _) => nomatch h
theorem Descriptor.sampleInstant : ∀ a0, Descriptor.Statement (.sampleInstant a0) := fun _ _ (h : none = some _) => nomatch h
theorem Descriptor.computeDeadline : ∀ a0, Descriptor.Statement (.computeDeadline a0) := fun _ _ (h : none = some _) => nomatch h
theorem Descriptor.pwmPeriodStart : ∀ a0 a1, Descriptor.Statement (.pwmPeriodStart a0 a1) := fun _ _ _ (h : none = some _) => nomatch h
theorem Descriptor.loadAllDoorbell : ∀ a0 a1 a2 a3, Descriptor.Statement (.loadAllDoorbell a0 a1 a2 a3) := fun _ _ _ _ _ (h : none = some _) => nomatch h
theorem Descriptor.loRegisterRead : ∀ a0 a1 a2 a3, Descriptor.Statement (.loRegisterRead a0 a1 a2 a3) := fun _ _ _ _ _ (h : none = some _) => nomatch h
theorem Descriptor.w1cClear : ∀ a0 a1 a2 a3 a4, Descriptor.Statement (.w1cClear a0 a1 a2 a3 a4) := fun _ _ _ _ _ _ (h : none = some _) => nomatch h
theorem Descriptor.registerWrite : ∀ a0 a1 a2 a3 a4, Descriptor.Statement (.registerWrite a0 a1 a2 a3 a4) := fun _ _ _ _ _ _ (h : none = some _) => nomatch h
theorem Descriptor.holdoverExpiry : Descriptor.Statement .holdoverExpiry := fun _ (h : none = some _) => nomatch h
theorem Descriptor.syncInEdge : ∀ a0 a1, Descriptor.Statement (.syncInEdge a0 a1) := fun _ _ _ (h : none = some _) => nomatch h
theorem Descriptor.syncInLost : Descriptor.Statement .syncInLost := fun _ (h : none = some _) => nomatch h
theorem Descriptor.syncLenMismatch : Descriptor.Statement .syncLenMismatch := fun _ (h : none = some _) => nomatch h
theorem Descriptor.syncOutPulseEnd : ∀ a0, Descriptor.Statement (.syncOutPulseEnd a0) := fun _ _ (h : none = some _) => nomatch h
theorem Descriptor.ptmRequest : Descriptor.Statement .ptmRequest := fun _ (h : none = some _) => nomatch h
theorem Descriptor.ptmExchangeDone : ∀ a0 a1 a2 a3, Descriptor.Statement (.ptmExchangeDone a0 a1 a2 a3) := fun _ _ _ _ _ (h : none = some _) => nomatch h
theorem Descriptor.ptmTimeout : Descriptor.Statement .ptmTimeout := fun _ (h : none = some _) => nomatch h
theorem Descriptor.grantCommitWrite : ∀ a0 a1, Descriptor.Statement (.grantCommitWrite a0 a1) := fun _ _ _ (h : none = some _) => nomatch h
theorem Descriptor.grantCommitCheck : Descriptor.Statement .grantCommitCheck := fun _ (h : none = some _) => nomatch h
theorem Descriptor.grantLoad : ∀ a0 a1, Descriptor.Statement (.grantLoad a0 a1) := fun _ _ _ (h : none = some _) => nomatch h
theorem Descriptor.grantLoadClear : ∀ a0 a1, Descriptor.Statement (.grantLoadClear a0 a1) := fun _ _ _ (h : none = some _) => nomatch h
theorem Descriptor.attach : ∀ a0 a1, Descriptor.Statement (.attach a0 a1) := fun _ _ _ (h : none = some _) => nomatch h
theorem Descriptor.attachEvaluation : ∀ a0, Descriptor.Statement (.attachEvaluation a0) := fun _ _ (h : none = some _) => nomatch h
theorem Descriptor.detach : ∀ a0 a1, Descriptor.Statement (.detach a0 a1) := fun _ _ _ (h : none = some _) => nomatch h
theorem Descriptor.detachComplete : ∀ a0 a1, Descriptor.Statement (.detachComplete a0 a1) := fun _ _ _ (h : none = some _) => nomatch h
theorem Descriptor.release : ∀ a0 a1 a2, Descriptor.Statement (.release a0 a1 a2) := fun _ _ _ _ (h : none = some _) => nomatch h
theorem Descriptor.linkDown : ∀ a0, Descriptor.Statement (.linkDown a0) := fun _ _ (h : none = some _) => nomatch h
theorem Descriptor.perstNAssert : ∀ a0, Descriptor.Statement (.perstNAssert a0) := fun _ _ (h : none = some _) => nomatch h
theorem Descriptor.perstNRelease : ∀ a0, Descriptor.Statement (.perstNRelease a0) := fun _ _ (h : none = some _) => nomatch h
theorem Descriptor.linkTrained : ∀ a0 a1 a2, Descriptor.Statement (.linkTrained a0 a1 a2) := fun _ _ _ _ (h : none = some _) => nomatch h
theorem Descriptor.linkRetrain : ∀ a0 a1 a2, Descriptor.Statement (.linkRetrain a0 a1 a2) := fun _ _ _ _ (h : none = some _) => nomatch h
theorem Descriptor.flr : ∀ a0 a1, Descriptor.Statement (.flr a0 a1) := fun _ _ _ (h : none = some _) => nomatch h
theorem Descriptor.busMasterEnableClear : ∀ a0 a1, Descriptor.Statement (.busMasterEnableClear a0 a1) := fun _ _ _ (h : none = some _) => nomatch h
theorem Descriptor.vfEnableClear : ∀ a0, Descriptor.Statement (.vfEnableClear a0) := fun _ _ (h : none = some _) => nomatch h
theorem Descriptor.heartbeatExpiry : ∀ a0, Descriptor.Statement (.heartbeatExpiry a0) := fun _ _ (h : none = some _) => nomatch h
theorem Descriptor.orphanEntry : ∀ a0, Descriptor.Statement (.orphanEntry a0) := fun _ _ (h : none = some _) => nomatch h
theorem Descriptor.orphanLimitExpiry : ∀ a0, Descriptor.Statement (.orphanLimitExpiry a0) := fun _ _ (h : none = some _) => nomatch h
theorem Descriptor.tnHeartbeat : ∀ a0 a1, Descriptor.Statement (.tnHeartbeat a0 a1) := fun _ _ _ (h : none = some _) => nomatch h
theorem Descriptor.nop : ∀ a0 a1, Descriptor.Statement (.nop a0 a1) :=
  fun _ _ _ h => (Bool.and_true _).trans (congrArg Desc.wf (Option.some.inj h))
theorem Descriptor.heartbeat : ∀ a0 a1, Descriptor.Statement (.heartbeat a0 a1) :=
  fun _ _ _ h => (Bool.and_true _).trans (congrArg Desc.wf (Option.some.inj h))
theorem Descriptor.tenantHold : ∀ a0 a1, Descriptor.Statement (.tenantHold a0 a1) :=
  fun _ _ _ h => (Bool.and_true _).trans (congrArg Desc.wf (Option.some.inj h))
theorem Descriptor.holdTakesEffect : ∀ a0, Descriptor.Statement (.holdTakesEffect a0) := fun _ _ (h : none = some _) => nomatch h
theorem Descriptor.tenantHoldDone : ∀ a0, Descriptor.Statement (.tenantHoldDone a0) := fun _ _ (h : none = some _) => nomatch h
theorem Descriptor.tenantRelease : ∀ a0 a1, Descriptor.Statement (.tenantRelease a0 a1) :=
  fun _ _ _ h => (Bool.and_true _).trans (congrArg Desc.wf (Option.some.inj h))
theorem Descriptor.publish : ∀ a0 a1, Descriptor.Statement (.publish a0 a1) :=
  fun _ _ _ h => (Bool.and_true _).trans (congrArg Desc.wf (Option.some.inj h))
theorem Descriptor.loadAll : ∀ a0 a1, Descriptor.Statement (.loadAll a0 a1) :=
  fun _ _ _ h => (Bool.and_true _).trans (congrArg Desc.wf (Option.some.inj h))
theorem Descriptor.holdOtherHold : ∀ a0 a1, Descriptor.Statement (.holdOtherHold a0 a1) :=
  fun _ _ _ h => (Bool.and_true _).trans (congrArg Desc.wf (Option.some.inj h))
theorem Descriptor.holdOtherRelease : ∀ a0 a1, Descriptor.Statement (.holdOtherRelease a0 a1) :=
  fun _ _ _ h => (Bool.and_true _).trans (congrArg Desc.wf (Option.some.inj h))
theorem Descriptor.sqTailDoorbell : ∀ a0 a1 a2 a3 a4, Descriptor.Statement (.sqTailDoorbell a0 a1 a2 a3 a4) := fun _ _ _ _ _ _ (h : none = some _) => nomatch h
theorem Descriptor.cqHeadDoorbell : ∀ a0 a1 a2 a3 a4, Descriptor.Statement (.cqHeadDoorbell a0 a1 a2 a3 a4) := fun _ _ _ _ _ _ (h : none = some _) => nomatch h
theorem Descriptor.sqEnable : ∀ a0 a1 a2 a3, Descriptor.Statement (.sqEnable a0 a1 a2 a3) := fun _ _ _ _ _ (h : none = some _) => nomatch h
theorem Descriptor.sqDisable : ∀ a0 a1 a2 a3, Descriptor.Statement (.sqDisable a0 a1 a2 a3) := fun _ _ _ _ _ (h : none = some _) => nomatch h
theorem Descriptor.cqEnable : ∀ a0 a1 a2 a3, Descriptor.Statement (.cqEnable a0 a1 a2 a3) := fun _ _ _ _ _ (h : none = some _) => nomatch h
theorem Descriptor.cqDisable : ∀ a0 a1 a2 a3, Descriptor.Statement (.cqDisable a0 a1 a2 a3) := fun _ _ _ _ _ (h : none = some _) => nomatch h
theorem Descriptor.descriptorFetch : ∀ a0 a1 a2 a3, Descriptor.Statement (.descriptorFetch a0 a1 a2 a3) := fun _ _ _ _ _ (h : none = some _) => nomatch h
theorem Descriptor.applySpanAdmission : ∀ a0, Descriptor.Statement (.applySpanAdmission a0) := fun _ _ (h : none = some _) => nomatch h
theorem Descriptor.fenceAdmission : ∀ a0 a1, Descriptor.Statement (.fenceAdmission a0 a1) := fun _ _ _ (h : none = some _) => nomatch h
theorem Descriptor.cqAgeExpiry : ∀ a0 a1, Descriptor.Statement (.cqAgeExpiry a0 a1) := fun _ _ _ (h : none = some _) => nomatch h
theorem Descriptor.msixVectorUnmask : ∀ a0 a1 a2, Descriptor.Statement (.msixVectorUnmask a0 a1 a2) := fun _ _ _ _ (h : none = some _) => nomatch h
theorem Descriptor.shed : ∀ a0, Descriptor.Statement (.shed a0) := fun _ _ (h : none = some _) => nomatch h
theorem Descriptor.bShed : ∀ a0, Descriptor.Statement (.bShed a0) := fun _ _ (h : none = some _) => nomatch h
theorem Descriptor.sliceComplete : ∀ a0 a1 a2 a3, Descriptor.Statement (.sliceComplete a0 a1 a2 a3) := fun _ _ _ _ _ (h : none = some _) => nomatch h
theorem Descriptor.queueOffer : ∀ a0 a1 a2 a3, Descriptor.Statement (.queueOffer a0 a1 a2 a3) := fun _ _ _ _ _ (h : none = some _) => nomatch h
theorem Descriptor.qEnable : ∀ a0 a1 a2 a3, Descriptor.Statement (.qEnable a0 a1 a2 a3) := fun _ _ _ _ _ (h : none = some _) => nomatch h
theorem Descriptor.qDisable : ∀ a0 a1 a2 a3, Descriptor.Statement (.qDisable a0 a1 a2 a3) := fun _ _ _ _ _ (h : none = some _) => nomatch h
theorem Descriptor.qCtrlFlush : ∀ a0 a1 a2, Descriptor.Statement (.qCtrlFlush a0 a1 a2) := fun _ _ _ _ (h : none = some _) => nomatch h
theorem Descriptor.queueRead : ∀ a0 a1, Descriptor.Statement (.queueRead a0 a1) :=
  fun _ _ _ h => (Bool.and_true _).trans (congrArg Desc.wf (Option.some.inj h))
theorem Descriptor.queueMark : ∀ a0 a1, Descriptor.Statement (.queueMark a0 a1) :=
  fun _ _ _ h => (Bool.and_true _).trans (congrArg Desc.wf (Option.some.inj h))
theorem Descriptor.queueRewind : ∀ a0 a1, Descriptor.Statement (.queueRewind a0 a1) :=
  fun _ _ _ h => (Bool.and_true _).trans (congrArg Desc.wf (Option.some.inj h))
theorem Descriptor.queueRelease : ∀ a0 a1, Descriptor.Statement (.queueRelease a0 a1) :=
  fun _ _ _ h => (Bool.and_true _).trans (congrArg Desc.wf (Option.some.inj h))
theorem Descriptor.queueFlush : ∀ a0 a1, Descriptor.Statement (.queueFlush a0 a1) :=
  fun _ _ _ h => (Bool.and_true _).trans (congrArg Desc.wf (Option.some.inj h))
theorem Descriptor.camEnable : ∀ a0 a1 a2, Descriptor.Statement (.camEnable a0 a1 a2) := fun _ _ _ _ (h : none = some _) => nomatch h
theorem Descriptor.camVcRingEnable : ∀ a0 a1 a2 a3, Descriptor.Statement (.camVcRingEnable a0 a1 a2 a3) := fun _ _ _ _ _ (h : none = some _) => nomatch h
theorem Descriptor.deskewReceived : ∀ a0 a1, Descriptor.Statement (.deskewReceived a0 a1) := fun _ _ _ (h : none = some _) => nomatch h
theorem Descriptor.frameStart : ∀ a0 a1 a2 a3, Descriptor.Statement (.frameStart a0 a1 a2 a3) := fun _ _ _ _ _ (h : none = some _) => nomatch h
theorem Descriptor.longPacket : ∀ a0 a1 a2 a3 a4 a5 a6, Descriptor.Statement (.longPacket a0 a1 a2 a3 a4 a5 a6) := fun _ _ _ _ _ _ _ _ (h : none = some _) => nomatch h
theorem Descriptor.frameEnd : ∀ a0 a1 a2 a3, Descriptor.Statement (.frameEnd a0 a1 a2 a3) := fun _ _ _ _ _ (h : none = some _) => nomatch h
theorem Descriptor.camTrigRise : ∀ a0 a1, Descriptor.Statement (.camTrigRise a0 a1) := fun _ _ _ (h : none = some _) => nomatch h
theorem Descriptor.camTrigPulseEnd : ∀ a0 a1, Descriptor.Statement (.camTrigPulseEnd a0 a1) := fun _ _ _ (h : none = some _) => nomatch h
theorem Descriptor.exposureEvent : ∀ a0 a1, Descriptor.Statement (.exposureEvent a0 a1) := fun _ _ _ (h : none = some _) => nomatch h
theorem Descriptor.portLost : ∀ a0, Descriptor.Statement (.portLost a0) := fun _ _ (h : none = some _) => nomatch h
theorem Descriptor.deckScrubRead : ∀ a0 a1, Descriptor.Statement (.deckScrubRead a0 a1) := fun _ _ _ (h : none = some _) => nomatch h
theorem Descriptor.camTrigger : ∀ a0 a1, Descriptor.Statement (.camTrigger a0 a1) :=
  fun _ _ _ h => (Bool.and_true _).trans (congrArg Desc.wf (Option.some.inj h))
theorem Descriptor.frameRead : ∀ a0 a1, Descriptor.Statement (.frameRead a0 a1) :=
  fun _ _ _ h => (Bool.and_true _).trans (congrArg Desc.wf (Option.some.inj h))
theorem Descriptor.frameReadCopyDone : ∀ a0 a1, Descriptor.Statement (.frameReadCopyDone a0 a1) := fun _ _ _ (h : none = some _) => nomatch h
theorem Descriptor.pyramidDone : ∀ a0 a1 a2, Descriptor.Statement (.pyramidDone a0 a1 a2) := fun _ _ _ _ (h : none = some _) => nomatch h
theorem Descriptor.motionEstimationDone : ∀ a0 a1, Descriptor.Statement (.motionEstimationDone a0 a1) := fun _ _ _ (h : none = some _) => nomatch h
theorem Descriptor.blobClassifyDone : ∀ a0 a1, Descriptor.Statement (.blobClassifyDone a0 a1) := fun _ _ _ (h : none = some _) => nomatch h
theorem Descriptor.trackerRun : ∀ a0 a1, Descriptor.Statement (.trackerRun a0 a1) := fun _ _ _ (h : none = some _) => nomatch h
theorem Descriptor.visStart : ∀ a0 a1, Descriptor.Statement (.visStart a0 a1) :=
  fun _ _ _ h => (Bool.and_true _).trans (congrArg Desc.wf (Option.some.inj h))
theorem Descriptor.visStop : ∀ a0 a1, Descriptor.Statement (.visStop a0 a1) :=
  fun _ _ _ h => (Bool.and_true _).trans (congrArg Desc.wf (Option.some.inj h))
theorem Descriptor.visStopDone : ∀ a0 a1, Descriptor.Statement (.visStopDone a0 a1) := fun _ _ _ (h : none = some _) => nomatch h
theorem Descriptor.visClassLoad : ∀ a0 a1, Descriptor.Statement (.visClassLoad a0 a1) :=
  fun _ _ _ h => (Bool.and_true _).trans (congrArg Desc.wf (Option.some.inj h))
theorem Descriptor.visBgCapture : ∀ a0 a1, Descriptor.Statement (.visBgCapture a0 a1) :=
  fun _ _ _ h => (Bool.and_true _).trans (congrArg Desc.wf (Option.some.inj h))
theorem Descriptor.visParam : ∀ a0 a1, Descriptor.Statement (.visParam a0 a1) :=
  fun _ _ _ h => (Bool.and_true _).trans (congrArg Desc.wf (Option.some.inj h))
theorem Descriptor.nrEnable : ∀ a0 a1 a2, Descriptor.Statement (.nrEnable a0 a1 a2) := fun _ _ _ _ (h : none = some _) => nomatch h
theorem Descriptor.nrDisable : ∀ a0 a1 a2, Descriptor.Statement (.nrDisable a0 a1 a2) := fun _ _ _ _ (h : none = some _) => nomatch h
theorem Descriptor.ejectStart : ∀ a0 a1, Descriptor.Statement (.ejectStart a0 a1) :=
  fun _ _ _ h => (Bool.and_true _).trans (congrArg Desc.wf (Option.some.inj h))
theorem Descriptor.ejectStop : ∀ a0 a1, Descriptor.Statement (.ejectStop a0 a1) :=
  fun _ _ _ h => (Bool.and_true _).trans (congrArg Desc.wf (Option.some.inj h))
theorem Descriptor.ejectTrim : ∀ a0 a1, Descriptor.Statement (.ejectTrim a0 a1) :=
  fun _ _ _ h => (Bool.and_true _).trans (congrArg Desc.wf (Option.some.inj h))
theorem Descriptor.valveTest : ∀ a0 a1, Descriptor.Statement (.valveTest a0 a1) :=
  fun _ _ _ h => (Bool.and_true _).trans (congrArg Desc.wf (Option.some.inj h))
theorem Descriptor.ejectAt : ∀ a0 a1, Descriptor.Statement (.ejectAt a0 a1) :=
  fun _ _ _ h => (Bool.and_true _).trans (congrArg Desc.wf (Option.some.inj h))
theorem Descriptor.valveLatSet : ∀ a0 a1, Descriptor.Statement (.valveLatSet a0 a1) :=
  fun _ _ _ h => (Bool.and_true _).trans (congrArg Desc.wf (Option.some.inj h))
theorem Descriptor.valveSig : ∀ a0 a1, Descriptor.Statement (.valveSig a0 a1) :=
  fun _ _ _ h => (Bool.and_true _).trans (congrArg Desc.wf (Option.some.inj h))
theorem Descriptor.valveClear : ∀ a0 a1 a2, Descriptor.Statement (.valveClear a0 a1 a2) :=
  fun _ _ _ _ h => (Bool.and_true _).trans (congrArg Desc.wf (Option.some.inj h))
theorem Descriptor.arcFit : ∀ a0 a1, Descriptor.Statement (.arcFit a0 a1) := fun _ _ _ (h : none = some _) => nomatch h
theorem Descriptor.eventInsert : ∀ a0, Descriptor.Statement (.eventInsert a0) := fun _ _ (h : none = some _) => nomatch h
theorem Descriptor.valveOpen : ∀ a0 a1, Descriptor.Statement (.valveOpen a0 a1) := fun _ _ _ (h : none = some _) => nomatch h
theorem Descriptor.valvePeakEnd : ∀ a0 a1, Descriptor.Statement (.valvePeakEnd a0 a1) := fun _ _ _ (h : none = some _) => nomatch h
theorem Descriptor.valveClose : ∀ a0 a1 a2, Descriptor.Statement (.valveClose a0 a1 a2) := fun _ _ _ _ (h : none = some _) => nomatch h
theorem Descriptor.valveFault : ∀ a0 a1 a2, Descriptor.Statement (.valveFault a0 a1 a2) := fun _ _ _ _ (h : none = some _) => nomatch h
theorem Descriptor.valveEnable : ∀ a0 a1 a2, Descriptor.Statement (.valveEnable a0 a1 a2) := fun _ _ _ _ (h : none = some _) => nomatch h
theorem Descriptor.valveDisable : ∀ a0 a1 a2, Descriptor.Statement (.valveDisable a0 a1 a2) := fun _ _ _ _ (h : none = some _) => nomatch h
theorem Descriptor.trestleEnable : ∀ a0 a1, Descriptor.Statement (.trestleEnable a0 a1) := fun _ _ _ (h : none = some _) => nomatch h
theorem Descriptor.linkUpDone : ∀ a0 a1 a2 a3, Descriptor.Statement (.linkUpDone a0 a1 a2 a3) := fun _ _ _ _ _ (h : none = some _) => nomatch h
theorem Descriptor.linkUpTimeout : Descriptor.Statement .linkUpTimeout := fun _ (h : none = some _) => nomatch h
theorem Descriptor.edgeFreeze : ∀ a0, Descriptor.Statement (.edgeFreeze a0) := fun _ _ (h : none = some _) => nomatch h
theorem Descriptor.sweepSend : ∀ a0, Descriptor.Statement (.sweepSend a0) := fun _ _ (h : none = some _) => nomatch h
theorem Descriptor.sweepReturn : ∀ a0 a1 a2 a3 a4, Descriptor.Statement (.sweepReturn a0 a1 a2 a3 a4) := fun _ _ _ _ _ _ (h : none = some _) => nomatch h
theorem Descriptor.westHalfSend : ∀ a0, Descriptor.Statement (.westHalfSend a0) := fun _ _ (h : none = some _) => nomatch h
theorem Descriptor.hopBreak : ∀ a0 a1, Descriptor.Statement (.hopBreak a0 a1) := fun _ _ _ (h : none = some _) => nomatch h
theorem Descriptor.hopRejoin : ∀ a0 a1 a2, Descriptor.Statement (.hopRejoin a0 a1 a2) := fun _ _ _ _ (h : none = some _) => nomatch h
theorem Descriptor.trSweepReport : ∀ a0 a1, Descriptor.Statement (.trSweepReport a0 a1) :=
  fun _ _ _ h => (Bool.and_true _).trans (congrArg Desc.wf (Option.some.inj h))
theorem Descriptor.trNodeRead : ∀ a0 a1, Descriptor.Statement (.trNodeRead a0 a1) :=
  fun _ _ _ h => (Bool.and_true _).trans (congrArg Desc.wf (Option.some.inj h))
theorem Descriptor.trNodeWrite : ∀ a0 a1, Descriptor.Statement (.trNodeWrite a0 a1) :=
  fun _ _ _ h => (Bool.and_true _).trans (congrArg Desc.wf (Option.some.inj h))
theorem Descriptor.trRelink : ∀ a0 a1, Descriptor.Statement (.trRelink a0 a1) :=
  fun _ _ _ h => (Bool.and_true _).trans (congrArg Desc.wf (Option.some.inj h))
theorem Descriptor.fbEnable : ∀ a0 a1 a2, Descriptor.Statement (.fbEnable a0 a1 a2) := fun _ _ _ _ (h : none = some _) => nomatch h
theorem Descriptor.quadratureEdge : ∀ a0 a1 a2 a3, Descriptor.Statement (.quadratureEdge a0 a1 a2 a3) := fun _ _ _ _ _ (h : none = some _) => nomatch h
theorem Descriptor.emuPulseEnd : ∀ a0 a1, Descriptor.Statement (.emuPulseEnd a0 a1) := fun _ _ _ (h : none = some _) => nomatch h
theorem Descriptor.indexEdge : ∀ a0 a1, Descriptor.Statement (.indexEdge a0 a1) := fun _ _ _ (h : none = some _) => nomatch h
theorem Descriptor.hallCodeChange : ∀ a0 a1 a2, Descriptor.Statement (.hallCodeChange a0 a1 a2) := fun _ _ _ _ (h : none = some _) => nomatch h
theorem Descriptor.hallFault : ∀ a0 a1, Descriptor.Statement (.hallFault a0 a1) := fun _ _ _ (h : none = some _) => nomatch h
theorem Descriptor.hallFaultClear : ∀ a0 a1, Descriptor.Statement (.hallFaultClear a0 a1) := fun _ _ _ (h : none = some _) => nomatch h
theorem Descriptor.serialTransactionStart : ∀ a0 a1, Descriptor.Statement (.serialTransactionStart a0 a1) := fun _ _ _ (h : none = some _) => nomatch h
theorem Descriptor.serialTransactionDone : ∀ a0 a1 a2, Descriptor.Statement (.serialTransactionDone a0 a1 a2) := fun _ _ _ _ (h : none = some _) => nomatch h
theorem Descriptor.startTimeout : ∀ a0 a1 a2, Descriptor.Statement (.startTimeout a0 a1 a2) := fun _ _ _ _ (h : none = some _) => nomatch h
theorem Descriptor.still : ∀ a0 a1, Descriptor.Statement (.still a0 a1) := fun _ _ _ (h : none = some _) => nomatch h
theorem Descriptor.fbSetPos : ∀ a0 a1, Descriptor.Statement (.fbSetPos a0 a1) :=
  fun _ _ _ h => (Bool.and_true _).trans (congrArg Desc.wf (Option.some.inj h))
theorem Descriptor.fbStream : ∀ a0 a1, Descriptor.Statement (.fbStream a0 a1) :=
  fun _ _ _ h => (Bool.and_true _).trans (congrArg Desc.wf (Option.some.inj h))
theorem Descriptor.fbEssRead : ∀ a0 a1, Descriptor.Statement (.fbEssRead a0 a1) :=
  fun _ _ _ h => (Bool.and_true _).trans (congrArg Desc.wf (Option.some.inj h))
theorem Descriptor.fbEssWrite : ∀ a0 a1, Descriptor.Statement (.fbEssWrite a0 a1) :=
  fun _ _ _ h => (Bool.and_true _).trans (congrArg Desc.wf (Option.some.inj h))
theorem Descriptor.emuEnable : ∀ a0 a1 a2, Descriptor.Statement (.emuEnable a0 a1 a2) := fun _ _ _ _ (h : none = some _) => nomatch h
theorem Descriptor.emuStart : ∀ a0 a1, Descriptor.Statement (.emuStart a0 a1) :=
  fun _ _ _ h => (Bool.and_true _).trans (congrArg Desc.wf (Option.some.inj h))
theorem Descriptor.emuStop : ∀ a0 a1, Descriptor.Statement (.emuStop a0 a1) :=
  fun _ _ _ h => (Bool.and_true _).trans (congrArg Desc.wf (Option.some.inj h))
theorem Descriptor.pierEnable : ∀ a0 a1, Descriptor.Statement (.pierEnable a0 a1) :=
  fun _ _ _ h => (Bool.and_true _).trans (congrArg Desc.wf (Option.some.inj h))
theorem Descriptor.pierDisable : ∀ a0 a1, Descriptor.Statement (.pierDisable a0 a1) :=
  fun _ _ _ h => (Bool.and_true _).trans (congrArg Desc.wf (Option.some.inj h))
theorem Descriptor.pierAlign : ∀ a0 a1, Descriptor.Statement (.pierAlign a0 a1) :=
  fun _ _ _ h => (Bool.and_true _).trans (congrArg Desc.wf (Option.some.inj h))
theorem Descriptor.pierAlignDone : ∀ a0 a1, Descriptor.Statement (.pierAlignDone a0 a1) := fun _ _ _ (h : none = some _) => nomatch h
theorem Descriptor.pierMove : ∀ a0 a1, Descriptor.Statement (.pierMove a0 a1) :=
  fun _ _ _ h => (Bool.and_true _).trans (congrArg Desc.wf (Option.some.inj h))
theorem Descriptor.pierJog : ∀ a0 a1, Descriptor.Statement (.pierJog a0 a1) :=
  fun _ _ _ h => (Bool.and_true _).trans (congrArg Desc.wf (Option.some.inj h))
theorem Descriptor.pierTorque : ∀ a0 a1, Descriptor.Statement (.pierTorque a0 a1) :=
  fun _ _ _ h => (Bool.and_true _).trans (congrArg Desc.wf (Option.some.inj h))
theorem Descriptor.pierStop : ∀ a0 a1, Descriptor.Statement (.pierStop a0 a1) :=
  fun _ _ _ h => (Bool.and_true _).trans (congrArg Desc.wf (Option.some.inj h))
theorem Descriptor.pierCoef : ∀ a0 a1, Descriptor.Statement (.pierCoef a0 a1) :=
  fun _ _ _ h => (Bool.and_true _).trans (congrArg Desc.wf (Option.some.inj h))
theorem Descriptor.pierFilter : ∀ a0 a1, Descriptor.Statement (.pierFilter a0 a1) :=
  fun _ _ _ h => (Bool.and_true _).trans (congrArg Desc.wf (Option.some.inj h))
theorem Descriptor.pierVolt : ∀ a0 a1, Descriptor.Statement (.pierVolt a0 a1) :=
  fun _ _ _ h => (Bool.and_true _).trans (congrArg Desc.wf (Option.some.inj h))
theorem Descriptor.pierClear : ∀ a0 a1, Descriptor.Statement (.pierClear a0 a1) :=
  fun _ _ _ h => (Bool.and_true _).trans (congrArg Desc.wf (Option.some.inj h))
theorem Descriptor.pierCommOffWrite : ∀ a0 a1 a2 a3, Descriptor.Statement (.pierCommOffWrite a0 a1 a2 a3) := fun _ _ _ _ _ (h : none = some _) => nomatch h
theorem Descriptor.profileMove : ∀ a0 a1, Descriptor.Statement (.profileMove a0 a1) :=
  fun _ _ _ h => (Bool.and_true _).trans (congrArg Desc.wf (Option.some.inj h))
theorem Descriptor.axisStopCfg : ∀ a0 a1, Descriptor.Statement (.axisStopCfg a0 a1) :=
  fun _ _ _ h => (Bool.and_true _).trans (congrArg Desc.wf (Option.some.inj h))
theorem Descriptor.groupOpen : ∀ a0 a1, Descriptor.Statement (.groupOpen a0 a1) :=
  fun _ _ _ h => (Bool.and_true _).trans (congrArg Desc.wf (Option.some.inj h))
theorem Descriptor.groupClose : ∀ a0 a1, Descriptor.Statement (.groupClose a0 a1) :=
  fun _ _ _ h => (Bool.and_true _).trans (congrArg Desc.wf (Option.some.inj h))
theorem Descriptor.segAppend : ∀ a0 a1, Descriptor.Statement (.segAppend a0 a1) :=
  fun _ _ _ h => (Bool.and_true _).trans (congrArg Desc.wf (Option.some.inj h))
theorem Descriptor.groupCtrlStop : ∀ a0 a1, Descriptor.Statement (.groupCtrlStop a0 a1) :=
  fun _ _ _ h => (Bool.and_true _).trans (congrArg Desc.wf (Option.some.inj h))
theorem Descriptor.groupCtrlHold : ∀ a0 a1, Descriptor.Statement (.groupCtrlHold a0 a1) :=
  fun _ _ _ h => (Bool.and_true _).trans (congrArg Desc.wf (Option.some.inj h))
theorem Descriptor.groupCtrlResume : ∀ a0 a1, Descriptor.Statement (.groupCtrlResume a0 a1) :=
  fun _ _ _ h => (Bool.and_true _).trans (congrArg Desc.wf (Option.some.inj h))
theorem Descriptor.groupCtrlOverride : ∀ a0 a1, Descriptor.Statement (.groupCtrlOverride a0 a1) :=
  fun _ _ _ h => (Bool.and_true _).trans (congrArg Desc.wf (Option.some.inj h))
theorem Descriptor.stayOpen : ∀ a0 a1, Descriptor.Statement (.stayOpen a0 a1) :=
  fun _ _ _ h => (Bool.and_true _).trans (congrArg Desc.wf (Option.some.inj h))
theorem Descriptor.stayEngage : ∀ a0 a1, Descriptor.Statement (.stayEngage a0 a1) :=
  fun _ _ _ h => (Bool.and_true _).trans (congrArg Desc.wf (Option.some.inj h))
theorem Descriptor.stayRelease : ∀ a0 a1, Descriptor.Statement (.stayRelease a0 a1) :=
  fun _ _ _ h => (Bool.and_true _).trans (congrArg Desc.wf (Option.some.inj h))
theorem Descriptor.stayClose : ∀ a0 a1, Descriptor.Statement (.stayClose a0 a1) :=
  fun _ _ _ h => (Bool.and_true _).trans (congrArg Desc.wf (Option.some.inj h))
theorem Descriptor.stayCoastExpiry : ∀ a0, Descriptor.Statement (.stayCoastExpiry a0) := fun _ _ (h : none = some _) => nomatch h
theorem Descriptor.camLoad : ∀ a0 a1, Descriptor.Statement (.camLoad a0 a1) :=
  fun _ _ _ h => (Bool.and_true _).trans (congrArg Desc.wf (Option.some.inj h))
theorem Descriptor.latchArm : ∀ a0 a1, Descriptor.Statement (.latchArm a0 a1) :=
  fun _ _ _ h => (Bool.and_true _).trans (congrArg Desc.wf (Option.some.inj h))
theorem Descriptor.latchDisarm : ∀ a0 a1, Descriptor.Statement (.latchDisarm a0 a1) :=
  fun _ _ _ h => (Bool.and_true _).trans (congrArg Desc.wf (Option.some.inj h))
theorem Descriptor.linkInfo : ∀ a0 a1, Descriptor.Statement (.linkInfo a0 a1) :=
  fun _ _ _ h => (Bool.and_true _).trans (congrArg Desc.wf (Option.some.inj h))
theorem Descriptor.probeEdge : ∀ a0 a1 a2, Descriptor.Statement (.probeEdge a0 a1 a2) := fun _ _ _ _ (h : none = some _) => nomatch h
theorem Descriptor.sgEnable : ∀ a0 a1, Descriptor.Statement (.sgEnable a0 a1) :=
  fun _ _ _ h => (Bool.and_true _).trans (congrArg Desc.wf (Option.some.inj h))
theorem Descriptor.sgDisable : ∀ a0 a1, Descriptor.Statement (.sgDisable a0 a1) :=
  fun _ _ _ h => (Bool.and_true _).trans (congrArg Desc.wf (Option.some.inj h))
theorem Descriptor.sgMove : ∀ a0 a1, Descriptor.Statement (.sgMove a0 a1) :=
  fun _ _ _ h => (Bool.and_true _).trans (congrArg Desc.wf (Option.some.inj h))
theorem Descriptor.sgJog : ∀ a0 a1, Descriptor.Statement (.sgJog a0 a1) :=
  fun _ _ _ h => (Bool.and_true _).trans (congrArg Desc.wf (Option.some.inj h))
theorem Descriptor.sgStop : ∀ a0 a1, Descriptor.Statement (.sgStop a0 a1) :=
  fun _ _ _ h => (Bool.and_true _).trans (congrArg Desc.wf (Option.some.inj h))
theorem Descriptor.sgSetPos : ∀ a0 a1, Descriptor.Statement (.sgSetPos a0 a1) :=
  fun _ _ _ h => (Bool.and_true _).trans (congrArg Desc.wf (Option.some.inj h))
theorem Descriptor.sgRate : ∀ a0 a1, Descriptor.Statement (.sgRate a0 a1) :=
  fun _ _ _ h => (Bool.and_true _).trans (congrArg Desc.wf (Option.some.inj h))
theorem Descriptor.sgCoil : ∀ a0 a1, Descriptor.Statement (.sgCoil a0 a1) :=
  fun _ _ _ h => (Bool.and_true _).trans (congrArg Desc.wf (Option.some.inj h))
theorem Descriptor.sgClear : ∀ a0 a1, Descriptor.Statement (.sgClear a0 a1) :=
  fun _ _ _ h => (Bool.and_true _).trans (congrArg Desc.wf (Option.some.inj h))
theorem Descriptor.stepEmit : ∀ a0 a1, Descriptor.Statement (.stepEmit a0 a1) := fun _ _ _ (h : none = some _) => nomatch h
theorem Descriptor.stepPulseEnd : ∀ a0 a1, Descriptor.Statement (.stepPulseEnd a0 a1) := fun _ _ _ (h : none = some _) => nomatch h
theorem Descriptor.sgStandstill : ∀ a0, Descriptor.Statement (.sgStandstill a0) := fun _ _ (h : none = some _) => nomatch h
theorem Descriptor.limitInput : ∀ a0 a1 a2, Descriptor.Statement (.limitInput a0 a1 a2) := fun _ _ _ _ (h : none = some _) => nomatch h
theorem Descriptor.pwmCompareEdge : ∀ a0 a1 a2 a3, Descriptor.Statement (.pwmCompareEdge a0 a1 a2 a3) := fun _ _ _ _ _ (h : none = some _) => nomatch h
theorem Descriptor.desat : ∀ a0 a1 a2 a3 a4, Descriptor.Statement (.desat a0 a1 a2 a3 a4) := fun _ _ _ _ _ _ (h : none = some _) => nomatch h
theorem Descriptor.overcurrent : ∀ a0 a1 a2 a3, Descriptor.Statement (.overcurrent a0 a1 a2 a3) := fun _ _ _ _ _ (h : none = some _) => nomatch h
theorem Descriptor.busOv : ∀ a0 a1 a2, Descriptor.Statement (.busOv a0 a1 a2) := fun _ _ _ _ (h : none = some _) => nomatch h
theorem Descriptor.gateUv : ∀ a0 a1 a2, Descriptor.Statement (.gateUv a0 a1 a2) := fun _ _ _ _ (h : none = some _) => nomatch h
theorem Descriptor.footingOvertemp : ∀ a0 a1 a2, Descriptor.Statement (.footingOvertemp a0 a1 a2) := fun _ _ _ _ (h : none = some _) => nomatch h
theorem Descriptor.xflt : ∀ a0 a1 a2, Descriptor.Statement (.xflt a0 a1 a2) := fun _ _ _ _ (h : none = some _) => nomatch h
theorem Descriptor.gdEnLow : ∀ a0 a1, Descriptor.Statement (.gdEnLow a0 a1) := fun _ _ _ (h : none = some _) => nomatch h
theorem Descriptor.gdEnHigh : ∀ a0 a1, Descriptor.Statement (.gdEnHigh a0 a1) := fun _ _ _ (h : none = some _) => nomatch h
theorem Descriptor.ginChange : ∀ a0 a1 a2, Descriptor.Statement (.ginChange a0 a1 a2) := fun _ _ _ _ (h : none = some _) => nomatch h
theorem Descriptor.pwmxDriveWrite : ∀ a0 a1 a2, Descriptor.Statement (.pwmxDriveWrite a0 a1 a2) := fun _ _ _ _ (h : none = some _) => nomatch h
theorem Descriptor.pwmRaw : ∀ a0 a1, Descriptor.Statement (.pwmRaw a0 a1) :=
  fun _ _ _ h => (Bool.and_true _).trans (congrArg Desc.wf (Option.some.inj h))
theorem Descriptor.gateMask : ∀ a0 a1, Descriptor.Statement (.gateMask a0 a1) :=
  fun _ _ _ h => (Bool.and_true _).trans (congrArg Desc.wf (Option.some.inj h))
theorem Descriptor.pwmHalt : ∀ a0 a1, Descriptor.Statement (.pwmHalt a0 a1) :=
  fun _ _ _ h => (Bool.and_true _).trans (congrArg Desc.wf (Option.some.inj h))
theorem Descriptor.pwmResume : ∀ a0 a1, Descriptor.Statement (.pwmResume a0 a1) :=
  fun _ _ _ h => (Bool.and_true _).trans (congrArg Desc.wf (Option.some.inj h))
theorem Descriptor.pwmRestart : Descriptor.Statement .pwmRestart := fun _ (h : none = some _) => nomatch h
theorem Descriptor.auxDuty : ∀ a0 a1, Descriptor.Statement (.auxDuty a0 a1) :=
  fun _ _ _ h => (Bool.and_true _).trans (congrArg Desc.wf (Option.some.inj h))
theorem Descriptor.blockDuty : ∀ a0 a1, Descriptor.Statement (.blockDuty a0 a1) :=
  fun _ _ _ h => (Bool.and_true _).trans (congrArg Desc.wf (Option.some.inj h))
theorem Descriptor.groupInfo : ∀ a0 a1, Descriptor.Statement (.groupInfo a0 a1) :=
  fun _ _ _ h => (Bool.and_true _).trans (congrArg Desc.wf (Option.some.inj h))
theorem Descriptor.frozenOnExpiry : ∀ a0 a1, Descriptor.Statement (.frozenOnExpiry a0 a1) := fun _ _ _ (h : none = some _) => nomatch h
theorem Descriptor.canTx : ∀ a0 a1 a2, Descriptor.Statement (.canTx a0 a1 a2) :=
  fun _ _ _ _ h => (Bool.and_true _).trans (congrArg Desc.wf (Option.some.inj h))
theorem Descriptor.canTxXl : ∀ a0 a1, Descriptor.Statement (.canTxXl a0 a1) :=
  fun _ _ _ h => (Bool.and_true _).trans (congrArg Desc.wf (Option.some.inj h))
theorem Descriptor.canTxXlDataArrival : ∀ a0 a1 a2, Descriptor.Statement (.canTxXlDataArrival a0 a1 a2) := fun _ _ _ _ (h : none = some _) => nomatch h
theorem Descriptor.canFilter : ∀ a0 a1, Descriptor.Statement (.canFilter a0 a1) :=
  fun _ _ _ h => (Bool.and_true _).trans (congrArg Desc.wf (Option.some.inj h))
theorem Descriptor.canTap : ∀ a0 a1, Descriptor.Statement (.canTap a0 a1) :=
  fun _ _ _ h => (Bool.and_true _).trans (congrArg Desc.wf (Option.some.inj h))
theorem Descriptor.canStart : ∀ a0 a1, Descriptor.Statement (.canStart a0 a1) :=
  fun _ _ _ h => (Bool.and_true _).trans (congrArg Desc.wf (Option.some.inj h))
theorem Descriptor.canStop : ∀ a0 a1 a2, Descriptor.Statement (.canStop a0 a1 a2) :=
  fun _ _ _ _ h => (Bool.and_true _).trans (congrArg Desc.wf (Option.some.inj h))
theorem Descriptor.canSleep : ∀ a0 a1 a2, Descriptor.Statement (.canSleep a0 a1 a2) :=
  fun _ _ _ _ h => (Bool.and_true _).trans (congrArg Desc.wf (Option.some.inj h))
theorem Descriptor.canRecover : ∀ a0 a1, Descriptor.Statement (.canRecover a0 a1) :=
  fun _ _ _ h => (Bool.and_true _).trans (congrArg Desc.wf (Option.some.inj h))
theorem Descriptor.canConfig : ∀ a0 a1, Descriptor.Statement (.canConfig a0 a1) :=
  fun _ _ _ h => (Bool.and_true _).trans (congrArg Desc.wf (Option.some.inj h))
theorem Descriptor.canInfo : ∀ a0 a1, Descriptor.Statement (.canInfo a0 a1) :=
  fun _ _ _ h => (Bool.and_true _).trans (congrArg Desc.wf (Option.some.inj h))
theorem Descriptor.canFrameReceived : ∀ a0 a1 a2 a3, Descriptor.Statement (.canFrameReceived a0 a1 a2 a3) := fun _ _ _ _ _ (h : none = some _) => nomatch h
theorem Descriptor.canFrameTransmitted : ∀ a0 a1 a2, Descriptor.Statement (.canFrameTransmitted a0 a1 a2) := fun _ _ _ _ (h : none = some _) => nomatch h
theorem Descriptor.oneShotArbLost : ∀ a0 a1 a2 a3 a4, Descriptor.Statement (.oneShotArbLost a0 a1 a2 a3 a4) := fun _ _ _ _ _ _ (h : none = some _) => nomatch h
theorem Descriptor.canBusError : ∀ a0 a1 a2 a3, Descriptor.Statement (.canBusError a0 a1 a2 a3) := fun _ _ _ _ _ (h : none = some _) => nomatch h
theorem Descriptor.canRxError : ∀ a0 a1 a2, Descriptor.Statement (.canRxError a0 a1 a2) := fun _ _ _ _ (h : none = some _) => nomatch h
theorem Descriptor.busOff : ∀ a0 a1, Descriptor.Statement (.busOff a0 a1) := fun _ _ _ (h : none = some _) => nomatch h
theorem Descriptor.busOffRecovered : ∀ a0 a1, Descriptor.Statement (.busOffRecovered a0 a1) := fun _ _ _ (h : none = some _) => nomatch h
theorem Descriptor.busStuck : ∀ a0 a1, Descriptor.Statement (.busStuck a0 a1) := fun _ _ _ (h : none = some _) => nomatch h
theorem Descriptor.rxdRecessive : ∀ a0 a1, Descriptor.Statement (.rxdRecessive a0 a1) := fun _ _ _ (h : none = some _) => nomatch h
theorem Descriptor.canWake : ∀ a0 a1 a2 a3, Descriptor.Statement (.canWake a0 a1 a2 a3) := fun _ _ _ _ _ (h : none = some _) => nomatch h
theorem Descriptor.modeRequest : ∀ a0 a1, Descriptor.Statement (.modeRequest a0 a1) := fun _ _ _ (h : none = some _) => nomatch h
theorem Descriptor.modeRequestEval : Descriptor.Statement .modeRequestEval := fun _ (h : none = some _) => nomatch h
theorem Descriptor.softwareSafeHold : ∀ a0, Descriptor.Statement (.softwareSafeHold a0) := fun _ _ (h : none = some _) => nomatch h
theorem Descriptor.safeNLow : ∀ a0, Descriptor.Statement (.safeNLow a0) := fun _ _ (h : none = some _) => nomatch h
theorem Descriptor.safeNGone : ∀ a0, Descriptor.Statement (.safeNGone a0) := fun _ _ (h : none = some _) => nomatch h
theorem Descriptor.heartbeatMiss : ∀ a0, Descriptor.Statement (.heartbeatMiss a0) := fun _ _ (h : none = some _) => nomatch h
theorem Descriptor.clockFault : ∀ a0 a1, Descriptor.Statement (.clockFault a0 a1) := fun _ _ _ (h : none = some _) => nomatch h
theorem Descriptor.clockRestored : ∀ a0, Descriptor.Statement (.clockRestored a0) := fun _ _ (h : none = some _) => nomatch h
theorem Descriptor.supplyFault : ∀ a0 a1, Descriptor.Statement (.supplyFault a0 a1) := fun _ _ _ (h : none = some _) => nomatch h
theorem Descriptor.supplyRestored : ∀ a0, Descriptor.Statement (.supplyRestored a0) := fun _ _ (h : none = some _) => nomatch h
theorem Descriptor.lockstep : ∀ a0, Descriptor.Statement (.lockstep a0) := fun _ _ (h : none = some _) => nomatch h
theorem Descriptor.parapetSensorRead : ∀ a0 a1 a2 a3 a4, Descriptor.Statement (.parapetSensorRead a0 a1 a2 a3 a4) := fun _ _ _ _ _ _ (h : none = some _) => nomatch h
theorem Descriptor.ppUnsafeAck : ∀ a0 a1, Descriptor.Statement (.ppUnsafeAck a0 a1) := fun _ _ _ (h : none = some _) => nomatch h
theorem Descriptor.fieldSupplyChange : ∀ a0 a1 a2, Descriptor.Statement (.fieldSupplyChange a0 a1 a2) := fun _ _ _ _ (h : none = some _) => nomatch h
theorem Descriptor.logicSupplyChange : ∀ a0 a1 a2, Descriptor.Statement (.logicSupplyChange a0 a1 a2) := fun _ _ _ _ (h : none = some _) => nomatch h
theorem Descriptor.bootImageSelect : ∀ a0, Descriptor.Statement (.bootImageSelect a0) := fun _ _ (h : none = some _) => nomatch h
theorem Descriptor.imageVerified : ∀ a0, Descriptor.Statement (.imageVerified a0) := fun _ _ (h : none = some _) => nomatch h
theorem Descriptor.firmwareReady : ∀ a0, Descriptor.Statement (.firmwareReady a0) := fun _ _ (h : none = some _) => nomatch h
theorem Descriptor.recovery : ∀ a0, Descriptor.Statement (.recovery a0) := fun _ _ (h : none = some _) => nomatch h
theorem Descriptor.stage : ∀ a0, Descriptor.Statement (.stage a0) := fun _ _ (h : none = some _) => nomatch h
theorem Descriptor.stageDone : ∀ a0 a1, Descriptor.Statement (.stageDone a0 a1) := fun _ _ _ (h : none = some _) => nomatch h
theorem Descriptor.activate : ∀ a0, Descriptor.Statement (.activate a0) := fun _ _ (h : none = some _) => nomatch h
theorem Descriptor.cancel : ∀ a0, Descriptor.Statement (.cancel a0) := fun _ _ (h : none = some _) => nomatch h
theorem Descriptor.confirm : ∀ a0, Descriptor.Statement (.confirm a0) := fun _ _ (h : none = some _) => nomatch h
theorem Descriptor.svnCommit : ∀ a0, Descriptor.Statement (.svnCommit a0) := fun _ _ (h : none = some _) => nomatch h
theorem Descriptor.firmwareActivation : ∀ a0, Descriptor.Statement (.firmwareActivation a0) := fun _ _ (h : none = some _) => nomatch h
theorem Descriptor.trialReadyTimeout : ∀ a0, Descriptor.Statement (.trialReadyTimeout a0) := fun _ _ (h : none = some _) => nomatch h
theorem Descriptor.tnPubSelWrite : ∀ a0 a1 a2, Descriptor.Statement (.tnPubSelWrite a0 a1 a2) := fun _ _ _ _ (h : none = some _) => nomatch h
theorem Descriptor.tnPubDataRead : ∀ a0 a1, Descriptor.Statement (.tnPubDataRead a0 a1) := fun _ _ _ (h : none = some _) => nomatch h
theorem Descriptor.avsEvaluation : ∀ a0 a1, Descriptor.Statement (.avsEvaluation a0 a1) := fun _ _ _ (h : none = some _) => nomatch h
theorem Descriptor.avsRetryRead : ∀ a0 a1, Descriptor.Statement (.avsRetryRead a0 a1) := fun _ _ _ (h : none = some _) => nomatch h
theorem Descriptor.avsDisable : ∀ a0, Descriptor.Statement (.avsDisable a0) := fun _ _ (h : none = some _) => nomatch h
theorem Descriptor.ageMeasurement : ∀ a0 a1, Descriptor.Statement (.ageMeasurement a0 a1) := fun _ _ _ (h : none = some _) => nomatch h
theorem Descriptor.camReceiverLock : ∀ a0 a1 a2, Descriptor.Statement (.camReceiverLock a0 a1 a2) := fun _ _ _ _ (h : none = some _) => nomatch h
theorem Descriptor.hopRestored : ∀ a0 a1, Descriptor.Statement (.hopRestored a0 a1) := fun _ _ _ (h : none = some _) => nomatch h
theorem Descriptor.satelliteWatchdog : ∀ a0 a1, Descriptor.Statement (.satelliteWatchdog a0 a1) := fun _ _ _ (h : none = some _) => nomatch h
theorem Descriptor.vfEnableSet : ∀ a0 a1, Descriptor.Statement (.vfEnableSet a0 a1) := fun _ _ _ (h : none = some _) => nomatch h

end Sys2Proof.Laws
end

