-- ==== Sys2Proof/Laws/Pivotal.lean ====
section
/-!
SUPPORT. The eight commands that `exec_moves` leaves out: what reset, the instants of a span, a grant commit and a mode request
keep of the invariant of the block.
-/
namespace Sys2Proof.Machine

theorem tables_advance {s : State} (h : Safety.Tables s) (t : Nat) : Safety.Tables (advance s t) := by
  unfold advance; split
  · exact { h with }
  · exact h

theorem clock_of_keeps {s u : State} {t : Nat} (k : Keeps (advance s t) u) (h : Safety.Clock s) : Safety.Clock u := by
  have hp : (advance s t).power = s.power := by unfold advance; split <;> rfl
  have hb : (advance s t).tb.boundary = s.tb.boundary := by unfold advance; split <;> rfl
  have hs : (advance s t).tb.spanIx = s.tb.spanIx := by unfold advance; split <;> rfl
  have hl : (advance s t).tb.len = s.tb.len := by unfold advance; split <;> rfl
  have ho : (advance s t).tb.offset = s.tb.offset := by unfold advance; split <;> rfl
  have hc : (advance s t).tb.pct = s.tb.pct := by unfold advance; split <;> rfl
  have hw : (advance s t).tb.lenWrite = s.tb.lenWrite := by unfold advance; split <;> rfl
  have hn : s.tb.now ≤ (advance s t).tb.now := by unfold advance; split <;> simp
  refine ⟨fun p => ?_, ?_, ?_, ?_, k.writes ?_⟩
  · have p' : s.power.pll = false := by rw [← hp, ← k.pll]; exact p
    have ha : advance s t = s := by simp [advance, p']
    rw [k.now, k.boundary, k.spanIx, ha]; exact h.held p'
  · rw [k.now, k.boundary, hb]; exact le_trans h.boundary hn
  · rw [k.len, hl]; exact h.length
  · rw [k.len, k.offset, k.pct, hl, ho, hc]; exact h.deadline
  · unfold Safety.LenWrites; rw [hw]; exact h.writes

theorem exclusive_of_grants {s u : State} (e : u.grants = s.grants) (h : Safety.Exclusive s) : Safety.Exclusive u := by
  unfold Safety.Exclusive State.gw at *; rw [e]; exact h

theorem grants_advance (s : State) (t : Nat) : (advance s t).grants = s.grants := by unfold advance; split <;> rfl

theorem inv_of_keeps {s u : State} {t : Nat} (k : Keeps (advance s t) u) (h : Safety.Inv s) : Safety.Inv u :=
  ⟨k.tables (tables_advance h.tables t), clock_of_keeps k h.clock, exclusive_of_grants (k.grants.trans (grants_advance s t)) h.exclusive⟩

theorem inv_of_keeps0 {s u : State} (k : Keeps s u) (h : Safety.Inv s) : Safety.Inv u :=
  inv_of_keeps (t := 0) (by rwa [advance_zero]) h

theorem gw_nil (s : State) (h : s.grants = []) : Safety.Exclusive s := by
  intro a b off _ _ _ _ _
  simp [State.gw, h]

theorem tables_empty {s : State} : Safety.Tables (porstLow s) := by
  constructor <;> rfl

theorem inv_porstLow (s : State) : Safety.Inv (porstLow s) := by
  refine ⟨tables_empty, ⟨fun _ => ⟨rfl, rfl, rfl⟩, Nat.le_refl _, ⟨show 4000 ≤ 12500 by decide, show 12500 ≤ 40000 by decide, show 12500 % 4 = 0 by decide⟩, show 200 + 1000 ≤ computeTick 12500 70 by decide, ?_⟩, gw_nil _ rfl⟩
  intro w hw
  exact absurd hw (by simp [porstLow, State.reset, TimeBase.reset])

theorem dueLen_mem (b : TimeBase) (q : Nat) (h : b.dueLen = some q) : ∃ w ∈ b.lenWrite, w.1 = q := by
  unfold TimeBase.dueLen at h
  rw [Option.map_eq_some_iff] at h
  obtain ⟨w, hw, rfl⟩ := h
  have := List.mem_of_getLast? hw
  exact ⟨w, (List.mem_filter.1 this).1, rfl⟩

theorem inv_spanSettings (s : State) (h : Safety.Inv s) : Safety.Inv (spanSettings s) := by
  have hlen : ∀ q, s.tb.dueLen = some q → 1000 ≤ q ∧ q ≤ 10000 := by
    intro q hq
    obtain ⟨w, hw, rfl⟩ := dueLen_mem _ _ hq
    exact h.clock.writes w hw
  have hl : ∀ l, l = (s.tb.dueLen.map (4 * ·)).getD s.tb.len → 4000 ≤ l ∧ l ≤ 40000 ∧ l % 4 = 0 := by
    intro l e
    cases hd : s.tb.dueLen with
    | none => rw [hd] at e; subst e; exact h.clock.length
    | some q => rw [hd] at e; subst e; have := hlen q hd; simp only [Option.map_some, Option.getD_some]; omega
  have hw : Safety.LenWrites { s.tb with lenWrite := s.tb.lenWrite.filter fun x => !decide (x.2 + 64 ≤ s.tb.boundary) } := by
    intro w hw
    exact h.clock.writes w (List.mem_filter.1 hw).1
  unfold spanSettings
  extract_lets b len off pct later s1
  have h1 : Safety.Inv s1 := ⟨{ h.tables with }, ⟨h.clock.held, h.clock.boundary, h.clock.length, h.clock.deadline, hw⟩, h.exclusive⟩
  split
  · exact h1
  · split
    · rename_i hd
      exact ⟨{ h1.tables with }, ⟨h.clock.held, h.clock.boundary, hl _ rfl, hd, hw⟩, h1.exclusive⟩
    · refine inv_of_keeps0 ?_ h1
      have k2 := keeps_setFld (keeps_setFld (Keeps.refl s1) 0x2014 0 12 b.offset) 0x2010 16 7 b.pct
      exact keeps_flag (Keeps.ite (keeps_setFld k2 _ _ _ _) k2) _ _

theorem spanSettings_power (s : State) : (spanSettings s).power.pll = s.power.pll := by
  unfold spanSettings
  extract_lets b len off pct later s1
  split
  · rfl
  · split
    · rfl
    · have k : Keeps s1 s1 := Keeps.refl _
      have k2 := keeps_setFld (keeps_setFld k 0x2014 0 12 b.offset) 0x2010 16 7 b.pct
      exact (keeps_flag (Keeps.ite (c := later.isEmpty = true) (keeps_setFld k2 0x2010 0 14 (b.len / 4)) k2) kSpan 4).pll


theorem inv_spanBoundary (s : State) (hp : s.power.pll = true) (h : Safety.Inv s) : Safety.Inv (spanBoundary s) := by
  unfold spanBoundary
  extract_lets len b tb0 s1 s2 changed s3 pw s4 s5
  have h1 : Safety.Inv s1 := by
    refine ⟨{ h.tables with }, ⟨fun p => ?_, le_max_right _ _, h.clock.length, h.clock.deadline, h.clock.writes⟩, h.exclusive⟩
    exact absurd (hp.symm.trans p) (by decide)
  have h2 : Safety.Inv s2 := inv_spanSettings _ (inv_of_keeps0 (keeps_summaryIrq (Keeps.refl _)) h1)
  have k3 : Keeps s2 s3 := Keeps.foldl (fun s x hs => keeps_tenantBoundary hs x) _ (keeps_ppHeartbeat (Keeps.refl _))
  have k4 : Keeps s2 s4 := by
    show Keeps s2 (if _ then _ else _)
    exact Keeps.ite (Keeps.upd k3 rfl) k3
  exact inv_of_keeps0 (keeps_ageSpan (keeps_workBoundary (keeps_unitsBoundary k4 _ _) _ _) _) h2

theorem inv_sampleInstant (s : State) (m : Measured) (hp : s.power.pll = true) (h : Safety.Inv s) : Safety.Inv (sampleInstant s m) := by
  unfold sampleInstant
  extract_lets tb0 s1 s2 s3 s4 s5 s6 s7
  have h1 : Safety.Inv s1 := by
    refine ⟨{ h.tables with }, ⟨fun p => ?_, ?_, h.clock.length, h.clock.deadline, h.clock.writes⟩, h.exclusive⟩
    · exact absurd (hp.symm.trans p) (by decide)
    · exact le_trans h.clock.boundary (le_max_left _ _)
  refine inv_of_keeps0 ?_ h1
  refine Keeps.foldl (fun s x hs => keeps_sgSample hs _ _) _ ?_
  refine Keeps.foldl (fun s x hs => keeps_pierSample hs _ _) _ ?_
  refine keeps_allRefs ?_
  refine Keeps.foldl (fun s x hs => keeps_pierLimit hs _) _ ?_
  refine Keeps.foldl (fun s x hs => keeps_pubWrite hs _) _ ?_
  refine Keeps.foldl (fun s x hs => keeps_fbSnapshot hs _) _ ?_
  exact keeps_busSense (Keeps.refl _) _

theorem inv_computeDeadline (s : State) (m : List Nat) (hp : s.power.pll = true) (h : Safety.Inv s) : Safety.Inv (computeDeadline s m) := by
  unfold computeDeadline
  extract_lets tb0 s1 late s2 stages s3
  have h1 : Safety.Inv s1 := by
    refine ⟨{ h.tables with }, ⟨fun p => ?_, ?_, h.clock.length, h.clock.deadline, h.clock.writes⟩, h.exclusive⟩
    · exact absurd (hp.symm.trans p) (by decide)
    · exact le_trans h.clock.boundary (le_max_left _ _)
  refine inv_of_keeps0 ?_ h1
  refine Keeps.foldl (fun s x hs => keeps_loadAll hs _ _ _) _ ?_
  refine Keeps.foldl (fun s x hs => keeps_pierDeadline hs _ _) _ ?_
  exact keeps_flagIf (keeps_countN (Keeps.refl _) _ _) _ _ _

theorem inv_enterMode (s : State) (m : Mode) (h : Safety.Inv s) : Safety.Inv (enterMode s m) := by
  have h' : Safety.Inv (updPp s fun p => { p with mode := m, unsafeAck := false }) :=
    ⟨{ h.tables with }, ⟨h.clock.held, h.clock.boundary, h.clock.length, h.clock.deadline, h.clock.writes⟩, h.exclusive⟩
  exact inv_of_keeps0 (keeps_enterMode s m) h'

theorem inv_modeEval (s : State) (h : Safety.Inv s) : Safety.Inv (modeEval s) := by
  unfold modeEval
  split
  · exact h
  · dsimp only
    have k := fun r c => inv_of_keeps0 (keeps_modeResult (Keeps.refl s) r c) h
    split
    · exact h
    · split
      · exact k _ _
      · split
        · exact k _ _
        · split
          · exact k _ _
          · split
            · exact k _ _
            · split
              · exact inv_of_keeps0 (keeps_modeResult (keeps_checkFlags (Keeps.refl s) _) _ _) h
              · exact inv_of_keeps0 (keeps_modeResult (Keeps.refl _) _ _) (inv_enterMode _ _ h)


theorem gw_put (g : Store Word) (o k : Nat) (v : Word) (hg : storeWf (fun _ => (0 : Word)) g = true) :
    storeGet (fun _ => (0 : Word)) (storePut (fun _ => (0 : Word)) g o v) k = if k = o then v else storeGet (fun _ => (0 : Word)) g k := by
  split
  · rename_i e; subst e; exact storeGet_storePut_self _ hg _ _
  · rename_i e; exact storeGet_storePut_of_ne _ _ _ e

/-- Words put at a list of keys. -/
theorem foldPut (f : Nat → Nat) (v : Nat → Word) (l : List Nat) (hf : ∀ a b, f a = f b → a = b) (g : Store Word)
    (hg : storeWf (fun _ => (0 : Word)) g = true) :
    storeWf (fun _ => (0 : Word)) (l.foldl (fun g o => storePut (fun _ => (0 : Word)) g (f o) (v o)) g) = true ∧
    (∀ o ∈ l, storeGet (fun _ => (0 : Word)) (l.foldl (fun g o => storePut (fun _ => (0 : Word)) g (f o) (v o)) g) (f o) = v o) ∧
    (∀ k, (∀ o ∈ l, k ≠ f o) → storeGet (fun _ => (0 : Word)) (l.foldl (fun g o => storePut (fun _ => (0 : Word)) g (f o) (v o)) g) k =
      storeGet (fun _ => (0 : Word)) g k) := by
  induction l generalizing g with
  | nil => exact ⟨hg, by simp, by simp⟩
  | cons x l ih =>
    obtain ⟨a, b, c⟩ := ih (storePut (fun _ => (0 : Word)) g (f x) (v x)) (storeWf_storePut _ hg _ _)
    refine ⟨a, ?_, ?_⟩
    · intro o ho
      simp only [List.foldl_cons]
      by_cases hx : o ∈ l
      · exact b o hx
      · have : o = x := by simpa [hx] using ho
        subst this
        rw [c _ (fun p hp e => hx (by rw [hf _ _ e]; exact hp))]
        exact storeGet_storePut_self _ hg _ _
    · intro k hk
      simp only [List.foldl_cons]
      rw [c k (fun o ho => hk o (List.mem_cons_of_mem _ ho))]
      exact storeGet_storePut_of_ne _ _ _ (hk x (by simp))

theorem inv_applyGrant (s : State) (tn : Nat) (h : Safety.Inv s)
    (hv : ∀ off ∈ imageOffsets, s.conflictWith tn off = none) : Safety.Inv (applyGrant s tn) := by
  unfold applyGrant
  extract_lets new s1
  obtain ⟨hw, hin, hout⟩ := foldPut (fun off => 0x400 * tn + off) (fun off => BitVec.ofNat 32 (s.stg off)) imageOffsets
    (fun a b e => by simpa using e) s.grants h.tables.grants
  change storeWf _ new = true at hw
  change ∀ o ∈ imageOffsets, storeGet _ new _ = _ at hin
  change ∀ k, _ → storeGet _ new k = _ at hout
  clear_value new
  have hs1 : Safety.Inv { s with grants := new } := by
    refine ⟨{ h.tables with grants := hw }, ⟨h.clock.held, h.clock.boundary, h.clock.length, h.clock.deadline, h.clock.writes⟩, ?_⟩
    have other : ∀ a off, a < 256 → off < 0x140 → a ≠ tn → State.gw { s with grants := new } a off = s.gw a off := by
      intro a off ha ho hne
      unfold State.gw
      rw [show ({ s with grants := new } : State).grants = new from rfl, hout]
      intro o ho' e
      have : o < 0x380 := by
        simp only [imageOffsets, List.mem_map, List.mem_range] at ho'
        obtain ⟨i, hi, rfl⟩ := ho'
        omega
      have : a = tn := by
        omega
      exact hne this
    have mine : ∀ off, off < 0x140 → off % 4 = 0 → State.gw { s with grants := new } tn off = s.stg off % 2 ^ 32 := by
      intro off ho h4
      unfold State.gw
      have hm : off ∈ imageOffsets := by
        simp only [imageOffsets, List.mem_map, List.mem_range]
        exact ⟨off / 4, by omega, by omega⟩
      rw [show ({ s with grants := new } : State).grants = new from rfl, hin off hm]
      simp
    have key : ∀ a off, a < 256 → a ≠ tn → off < 0x140 → off % 4 = 0 → (s.stg off % 2 ^ 32) &&& s.gw a off &&& exclusiveMask off = 0 := by
      intro a off ha hne ho h4
      have hm : off ∈ imageOffsets := by
        simp only [imageOffsets, List.mem_map, List.mem_range]
        exact ⟨off / 4, by omega, by omega⟩
      have hc := hv off hm
      unfold State.conflictWith tenantFind at hc
      rw [List.find?_eq_none] at hc
      have := hc a (by simpa using ha)
      unfold State.conflictAt at this
      simp [ho, hne] at this
      have hlt : s.stg off < 2 ^ 32 := by unfold State.stg State.rd; exact BitVec.isLt _
      rw [Nat.mod_eq_of_lt hlt]
      exact this
    intro a b off ha hb hab ho h4
    by_cases e : a = tn
    · subst e
      rw [mine off ho h4, other b off hb ho (Ne.symm hab)]
      exact key b off hb (Ne.symm hab) ho h4
    · rw [other a off ha ho e]
      by_cases e' : b = tn
      · subst e'
        rw [mine off ho h4, Nat.and_comm (s.gw a off)]
        exact key a off ha hab ho h4
      · rw [other b off hb ho e']
        exact h.exclusive a b off ha hb hab ho h4
  have k1 : Keeps { s with grants := new } s1 := keeps_count (Keeps.refl _) _
  split
  · exact inv_of_keeps0 k1 hs1
  · exact inv_of_keeps0 (keeps_revoke (keeps_flagRaw (keeps_count k1 _) _ _) _ _) hs1


theorem inv_grantCheck (s : State) (h : Safety.Inv s) : Safety.Inv (grantCheck s) := by
  unfold grantCheck
  split
  · exact h
  · split
    · exact h
    · extract_lets tn v cm s1
      have h1 : Safety.Inv s1 := inv_of_keeps0 (Keeps.upd (Keeps.refl s) rfl) h
      split
      · rename_i hv
        refine inv_applyGrant s1 tn h1 ?_
        have hv' : s.commitVerdict tn = (0, v.2) := Prod.ext hv rfl
        intro off hoff
        show s.conflictWith tn off = none
        unfold State.commitVerdict at hv'
        split at hv'
        · cases hv'
        · split at hv'
          · cases hv'
          · split at hv'
            · cases hv'
            · split at hv'
              · cases hv'
              · rename_i hc
                rw [List.find?_eq_none] at hc
                have := hc off hoff
                simpa using this
      · exact h1

theorem inv_act {s t : State} {f : State → State} (h : act s f = .next t) (hs : Safety.Inv s) (hf : Safety.Inv (f s)) : Safety.Inv t := by
  unfold act at h
  injection h with h
  subst h
  split
  · exact hf
  · exact hs

end Sys2Proof.Machine
end

