-- ==== Sys2Proof/Laws/State.lean ====
section
/-!
SUPPORT. What each update of the state leaves in each field. With these no proof needs to unfold a record update.
-/
namespace Sys2Proof.Machine
set_option Elab.async false

@[simp] theorem State.setFn_power (s : State) (k : Nat) (x : Fn) : (s.setFn k x).power = s.power := rfl
@[simp] theorem State.setFn_tb (s : State) (k : Nat) (x : Fn) : (s.setFn k x).tb = s.tb := rfl
@[simp] theorem State.setFn_refs (s : State) (k : Nat) (x : Fn) : (s.setFn k x).refs = s.refs := rfl
@[simp] theorem State.setFn_link (s : State) (k : Nat) (x : Fn) : (s.setFn k x).link = s.link := rfl
@[simp] theorem State.setFn_fns (s : State) (k : Nat) (x : Fn) : (s.setFn k x).fns = storePut (fun _ => Fn.reset) s.fns k x := rfl
@[simp] theorem State.setFn_regs (s : State) (k : Nat) (x : Fn) : (s.setFn k x).regs = s.regs := rfl
@[simp] theorem State.setFn_grants (s : State) (k : Nat) (x : Fn) : (s.setFn k x).grants = s.grants := rfl
@[simp] theorem State.setFn_commit (s : State) (k : Nat) (x : Fn) : (s.setFn k x).commit = s.commit := rfl
@[simp] theorem State.setFn_irqPend (s : State) (k : Nat) (x : Fn) : (s.setFn k x).irqPend = s.irqPend := rfl
@[simp] theorem State.setFn_tns (s : State) (k : Nat) (x : Fn) : (s.setFn k x).tns = s.tns := rfl
@[simp] theorem State.setFn_sqs (s : State) (k : Nat) (x : Fn) : (s.setFn k x).sqs = s.sqs := rfl
@[simp] theorem State.setFn_cqs (s : State) (k : Nat) (x : Fn) : (s.setFn k x).cqs = s.cqs := rfl
@[simp] theorem State.setFn_jobs (s : State) (k : Nat) (x : Fn) : (s.setFn k x).jobs = s.jobs := rfl
@[simp] theorem State.setFn_nextId (s : State) (k : Nat) (x : Fn) : (s.setFn k x).nextId = s.nextId := rfl
@[simp] theorem State.setFn_ks (s : State) (k : Nat) (x : Fn) : (s.setFn k x).ks = s.ks := rfl
@[simp] theorem State.setFn_queues (s : State) (k : Nat) (x : Fn) : (s.setFn k x).queues = s.queues := rfl
@[simp] theorem State.setFn_deck (s : State) (k : Nat) (x : Fn) : (s.setFn k x).deck = s.deck := rfl
@[simp] theorem State.setFn_scrub (s : State) (k : Nat) (x : Fn) : (s.setFn k x).scrub = s.scrub := rfl
@[simp] theorem State.setFn_cams (s : State) (k : Nat) (x : Fn) : (s.setFn k x).cams = s.cams := rfl
@[simp] theorem State.setFn_vcs (s : State) (k : Nat) (x : Fn) : (s.setFn k x).vcs = s.vcs := rfl
@[simp] theorem State.setFn_pipes (s : State) (k : Nat) (x : Fn) : (s.setFn k x).pipes = s.pipes := rfl
@[simp] theorem State.setFn_trackReuse (s : State) (k : Nat) (x : Fn) : (s.setFn k x).trackReuse = s.trackReuse := rfl
@[simp] theorem State.setFn_valves (s : State) (k : Nat) (x : Fn) : (s.setFn k x).valves = s.valves := rfl
@[simp] theorem State.setFn_rows (s : State) (k : Nat) (x : Fn) : (s.setFn k x).rows = s.rows := rfl
@[simp] theorem State.setFn_wheel (s : State) (k : Nat) (x : Fn) : (s.setFn k x).wheel = s.wheel := rfl
@[simp] theorem State.setFn_ring (s : State) (k : Nat) (x : Fn) : (s.setFn k x).ring = s.ring := rfl
@[simp] theorem State.setFn_pubOn (s : State) (k : Nat) (x : Fn) : (s.setFn k x).pubOn = s.pubOn := rfl
@[simp] theorem State.setFn_pubRec (s : State) (k : Nat) (x : Fn) : (s.setFn k x).pubRec = s.pubRec := rfl
@[simp] theorem State.setFn_fbs (s : State) (k : Nat) (x : Fn) : (s.setFn k x).fbs = s.fbs := rfl
@[simp] theorem State.setFn_emus (s : State) (k : Nat) (x : Fn) : (s.setFn k x).emus = s.emus := rfl
@[simp] theorem State.setFn_axes (s : State) (k : Nat) (x : Fn) : (s.setFn k x).axes = s.axes := rfl
@[simp] theorem State.setFn_piers (s : State) (k : Nat) (x : Fn) : (s.setFn k x).piers = s.piers := rfl
@[simp] theorem State.setFn_groups (s : State) (k : Nat) (x : Fn) : (s.setFn k x).groups = s.groups := rfl
@[simp] theorem State.setFn_stays (s : State) (k : Nat) (x : Fn) : (s.setFn k x).stays = s.stays := rfl
@[simp] theorem State.setFn_camTabs (s : State) (k : Nat) (x : Fn) : (s.setFn k x).camTabs = s.camTabs := rfl
@[simp] theorem State.setFn_latches (s : State) (k : Nat) (x : Fn) : (s.setFn k x).latches = s.latches := rfl
@[simp] theorem State.setFn_probeCnts (s : State) (k : Nat) (x : Fn) : (s.setFn k x).probeCnts = s.probeCnts := rfl
@[simp] theorem State.setFn_sgs (s : State) (k : Nat) (x : Fn) : (s.setFn k x).sgs = s.sgs := rfl
@[simp] theorem State.setFn_limLevels (s : State) (k : Nat) (x : Fn) : (s.setFn k x).limLevels = s.limLevels := rfl
@[simp] theorem State.setFn_pwms (s : State) (k : Nat) (x : Fn) : (s.setFn k x).pwms = s.pwms := rfl
@[simp] theorem State.setFn_stages (s : State) (k : Nat) (x : Fn) : (s.setFn k x).stages = s.stages := rfl
@[simp] theorem State.setFn_auxs (s : State) (k : Nat) (x : Fn) : (s.setFn k x).auxs = s.auxs := rfl
@[simp] theorem State.setFn_footings (s : State) (k : Nat) (x : Fn) : (s.setFn k x).footings = s.footings := rfl
@[simp] theorem State.setFn_cans (s : State) (k : Nat) (x : Fn) : (s.setFn k x).cans = s.cans := rfl
@[simp] theorem State.setFn_pp (s : State) (k : Nat) (x : Fn) : (s.setFn k x).pp = s.pp := rfl
@[simp] theorem State.setFn_fw (s : State) (k : Nat) (x : Fn) : (s.setFn k x).fw = s.fw := rfl
@[simp] theorem State.setFn_life (s : State) (k : Nat) (x : Fn) : (s.setFn k x).life = s.life := rfl
@[simp] theorem State.setFn_out (s : State) (k : Nat) (x : Fn) : (s.setFn k x).out = s.out := rfl
@[simp] theorem State.setFn_freeCtr (s : State) (k : Nat) (x : Fn) : (s.setFn k x).freeCtr = s.freeCtr := rfl
@[simp] theorem State.setFn_pending (s : State) (k : Nat) (x : Fn) : (s.setFn k x).pending = s.pending := rfl
theorem State.updFn_eq (s : State) (k : Nat) (f : Fn → Fn) : s.updFn k f = s.setFn k (f (s.fn k)) := rfl
@[simp] theorem State.setTn_power (s : State) (k : Nat) (x : Tenant) : (s.setTn k x).power = s.power := rfl
@[simp] theorem State.setTn_tb (s : State) (k : Nat) (x : Tenant) : (s.setTn k x).tb = s.tb := rfl
@[simp] theorem State.setTn_refs (s : State) (k : Nat) (x : Tenant) : (s.setTn k x).refs = s.refs := rfl
@[simp] theorem State.setTn_link (s : State) (k : Nat) (x : Tenant) : (s.setTn k x).link = s.link := rfl
@[simp] theorem State.setTn_fns (s : State) (k : Nat) (x : Tenant) : (s.setTn k x).fns = s.fns := rfl
@[simp] theorem State.setTn_regs (s : State) (k : Nat) (x : Tenant) : (s.setTn k x).regs = s.regs := rfl
@[simp] theorem State.setTn_grants (s : State) (k : Nat) (x : Tenant) : (s.setTn k x).grants = s.grants := rfl
@[simp] theorem State.setTn_commit (s : State) (k : Nat) (x : Tenant) : (s.setTn k x).commit = s.commit := rfl
@[simp] theorem State.setTn_irqPend (s : State) (k : Nat) (x : Tenant) : (s.setTn k x).irqPend = s.irqPend := rfl
@[simp] theorem State.setTn_tns (s : State) (k : Nat) (x : Tenant) : (s.setTn k x).tns = storePut (fun _ => Tenant.reset) s.tns k x := rfl
@[simp] theorem State.setTn_sqs (s : State) (k : Nat) (x : Tenant) : (s.setTn k x).sqs = s.sqs := rfl
@[simp] theorem State.setTn_cqs (s : State) (k : Nat) (x : Tenant) : (s.setTn k x).cqs = s.cqs := rfl
@[simp] theorem State.setTn_jobs (s : State) (k : Nat) (x : Tenant) : (s.setTn k x).jobs = s.jobs := rfl
@[simp] theorem State.setTn_nextId (s : State) (k : Nat) (x : Tenant) : (s.setTn k x).nextId = s.nextId := rfl
@[simp] theorem State.setTn_ks (s : State) (k : Nat) (x : Tenant) : (s.setTn k x).ks = s.ks := rfl
@[simp] theorem State.setTn_queues (s : State) (k : Nat) (x : Tenant) : (s.setTn k x).queues = s.queues := rfl
@[simp] theorem State.setTn_deck (s : State) (k : Nat) (x : Tenant) : (s.setTn k x).deck = s.deck := rfl
@[simp] theorem State.setTn_scrub (s : State) (k : Nat) (x : Tenant) : (s.setTn k x).scrub = s.scrub := rfl
@[simp] theorem State.setTn_cams (s : State) (k : Nat) (x : Tenant) : (s.setTn k x).cams = s.cams := rfl
@[simp] theorem State.setTn_vcs (s : State) (k : Nat) (x : Tenant) : (s.setTn k x).vcs = s.vcs := rfl
@[simp] theorem State.setTn_pipes (s : State) (k : Nat) (x : Tenant) : (s.setTn k x).pipes = s.pipes := rfl
@[simp] theorem State.setTn_trackReuse (s : State) (k : Nat) (x : Tenant) : (s.setTn k x).trackReuse = s.trackReuse := rfl
@[simp] theorem State.setTn_valves (s : State) (k : Nat) (x : Tenant) : (s.setTn k x).valves = s.valves := rfl
@[simp] theorem State.setTn_rows (s : State) (k : Nat) (x : Tenant) : (s.setTn k x).rows = s.rows := rfl
@[simp] theorem State.setTn_wheel (s : State) (k : Nat) (x : Tenant) : (s.setTn k x).wheel = s.wheel := rfl
@[simp] theorem State.setTn_ring (s : State) (k : Nat) (x : Tenant) : (s.setTn k x).ring = s.ring := rfl
@[simp] theorem State.setTn_pubOn (s : State) (k : Nat) (x : Tenant) : (s.setTn k x).pubOn = s.pubOn := rfl
@[simp] theorem State.setTn_pubRec (s : State) (k : Nat) (x : Tenant) : (s.setTn k x).pubRec = s.pubRec := rfl
@[simp] theorem State.setTn_fbs (s : State) (k : Nat) (x : Tenant) : (s.setTn k x).fbs = s.fbs := rfl
@[simp] theorem State.setTn_emus (s : State) (k : Nat) (x : Tenant) : (s.setTn k x).emus = s.emus := rfl
@[simp] theorem State.setTn_axes (s : State) (k : Nat) (x : Tenant) : (s.setTn k x).axes = s.axes := rfl
@[simp] theorem State.setTn_piers (s : State) (k : Nat) (x : Tenant) : (s.setTn k x).piers = s.piers := rfl
@[simp] theorem State.setTn_groups (s : State) (k : Nat) (x : Tenant) : (s.setTn k x).groups = s.groups := rfl
@[simp] theorem State.setTn_stays (s : State) (k : Nat) (x : Tenant) : (s.setTn k x).stays = s.stays := rfl
@[simp] theorem State.setTn_camTabs (s : State) (k : Nat) (x : Tenant) : (s.setTn k x).camTabs = s.camTabs := rfl
@[simp] theorem State.setTn_latches (s : State) (k : Nat) (x : Tenant) : (s.setTn k x).latches = s.latches := rfl
@[simp] theorem State.setTn_probeCnts (s : State) (k : Nat) (x : Tenant) : (s.setTn k x).probeCnts = s.probeCnts := rfl
@[simp] theorem State.setTn_sgs (s : State) (k : Nat) (x : Tenant) : (s.setTn k x).sgs = s.sgs := rfl
@[simp] theorem State.setTn_limLevels (s : State) (k : Nat) (x : Tenant) : (s.setTn k x).limLevels = s.limLevels := rfl
@[simp] theorem State.setTn_pwms (s : State) (k : Nat) (x : Tenant) : (s.setTn k x).pwms = s.pwms := rfl
@[simp] theorem State.setTn_stages (s : State) (k : Nat) (x : Tenant) : (s.setTn k x).stages = s.stages := rfl
@[simp] theorem State.setTn_auxs (s : State) (k : Nat) (x : Tenant) : (s.setTn k x).auxs = s.auxs := rfl
@[simp] theorem State.setTn_footings (s : State) (k : Nat) (x : Tenant) : (s.setTn k x).footings = s.footings := rfl
@[simp] theorem State.setTn_cans (s : State) (k : Nat) (x : Tenant) : (s.setTn k x).cans = s.cans := rfl
@[simp] theorem State.setTn_pp (s : State) (k : Nat) (x : Tenant) : (s.setTn k x).pp = s.pp := rfl
@[simp] theorem State.setTn_fw (s : State) (k : Nat) (x : Tenant) : (s.setTn k x).fw = s.fw := rfl
@[simp] theorem State.setTn_life (s : State) (k : Nat) (x : Tenant) : (s.setTn k x).life = s.life := rfl
@[simp] theorem State.setTn_out (s : State) (k : Nat) (x : Tenant) : (s.setTn k x).out = s.out := rfl
@[simp] theorem State.setTn_freeCtr (s : State) (k : Nat) (x : Tenant) : (s.setTn k x).freeCtr = s.freeCtr := rfl
@[simp] theorem State.setTn_pending (s : State) (k : Nat) (x : Tenant) : (s.setTn k x).pending = s.pending := rfl
theorem State.updTn_eq (s : State) (k : Nat) (f : Tenant → Tenant) : s.updTn k f = s.setTn k (f (s.tn k)) := rfl
@[simp] theorem State.setSq_power (s : State) (k : Nat) (x : Sq) : (s.setSq k x).power = s.power := rfl
@[simp] theorem State.setSq_tb (s : State) (k : Nat) (x : Sq) : (s.setSq k x).tb = s.tb := rfl
@[simp] theorem State.setSq_refs (s : State) (k : Nat) (x : Sq) : (s.setSq k x).refs = s.refs := rfl
@[simp] theorem State.setSq_link (s : State) (k : Nat) (x : Sq) : (s.setSq k x).link = s.link := rfl
@[simp] theorem State.setSq_fns (s : State) (k : Nat) (x : Sq) : (s.setSq k x).fns = s.fns := rfl
@[simp] theorem State.setSq_regs (s : State) (k : Nat) (x : Sq) : (s.setSq k x).regs = s.regs := rfl
@[simp] theorem State.setSq_grants (s : State) (k : Nat) (x : Sq) : (s.setSq k x).grants = s.grants := rfl
@[simp] theorem State.setSq_commit (s : State) (k : Nat) (x : Sq) : (s.setSq k x).commit = s.commit := rfl
@[simp] theorem State.setSq_irqPend (s : State) (k : Nat) (x : Sq) : (s.setSq k x).irqPend = s.irqPend := rfl
@[simp] theorem State.setSq_tns (s : State) (k : Nat) (x : Sq) : (s.setSq k x).tns = s.tns := rfl
@[simp] theorem State.setSq_sqs (s : State) (k : Nat) (x : Sq) : (s.setSq k x).sqs = storePut (fun _ => Sq.reset) s.sqs k x := rfl
@[simp] theorem State.setSq_cqs (s : State) (k : Nat) (x : Sq) : (s.setSq k x).cqs = s.cqs := rfl
@[simp] theorem State.setSq_jobs (s : State) (k : Nat) (x : Sq) : (s.setSq k x).jobs = s.jobs := rfl
@[simp] theorem State.setSq_nextId (s : State) (k : Nat) (x : Sq) : (s.setSq k x).nextId = s.nextId := rfl
@[simp] theorem State.setSq_ks (s : State) (k : Nat) (x : Sq) : (s.setSq k x).ks = s.ks := rfl
@[simp] theorem State.setSq_queues (s : State) (k : Nat) (x : Sq) : (s.setSq k x).queues = s.queues := rfl
@[simp] theorem State.setSq_deck (s : State) (k : Nat) (x : Sq) : (s.setSq k x).deck = s.deck := rfl
@[simp] theorem State.setSq_scrub (s : State) (k : Nat) (x : Sq) : (s.setSq k x).scrub = s.scrub := rfl
@[simp] theorem State.setSq_cams (s : State) (k : Nat) (x : Sq) : (s.setSq k x).cams = s.cams := rfl
@[simp] theorem State.setSq_vcs (s : State) (k : Nat) (x : Sq) : (s.setSq k x).vcs = s.vcs := rfl
@[simp] theorem State.setSq_pipes (s : State) (k : Nat) (x : Sq) : (s.setSq k x).pipes = s.pipes := rfl
@[simp] theorem State.setSq_trackReuse (s : State) (k : Nat) (x : Sq) : (s.setSq k x).trackReuse = s.trackReuse := rfl
@[simp] theorem State.setSq_valves (s : State) (k : Nat) (x : Sq) : (s.setSq k x).valves = s.valves := rfl
@[simp] theorem State.setSq_rows (s : State) (k : Nat) (x : Sq) : (s.setSq k x).rows = s.rows := rfl
@[simp] theorem State.setSq_wheel (s : State) (k : Nat) (x : Sq) : (s.setSq k x).wheel = s.wheel := rfl
@[simp] theorem State.setSq_ring (s : State) (k : Nat) (x : Sq) : (s.setSq k x).ring = s.ring := rfl
@[simp] theorem State.setSq_pubOn (s : State) (k : Nat) (x : Sq) : (s.setSq k x).pubOn = s.pubOn := rfl
@[simp] theorem State.setSq_pubRec (s : State) (k : Nat) (x : Sq) : (s.setSq k x).pubRec = s.pubRec := rfl
@[simp] theorem State.setSq_fbs (s : State) (k : Nat) (x : Sq) : (s.setSq k x).fbs = s.fbs := rfl
@[simp] theorem State.setSq_emus (s : State) (k : Nat) (x : Sq) : (s.setSq k x).emus = s.emus := rfl
@[simp] theorem State.setSq_axes (s : State) (k : Nat) (x : Sq) : (s.setSq k x).axes = s.axes := rfl
@[simp] theorem State.setSq_piers (s : State) (k : Nat) (x : Sq) : (s.setSq k x).piers = s.piers := rfl
@[simp] theorem State.setSq_groups (s : State) (k : Nat) (x : Sq) : (s.setSq k x).groups = s.groups := rfl
@[simp] theorem State.setSq_stays (s : State) (k : Nat) (x : Sq) : (s.setSq k x).stays = s.stays := rfl
@[simp] theorem State.setSq_camTabs (s : State) (k : Nat) (x : Sq) : (s.setSq k x).camTabs = s.camTabs := rfl
@[simp] theorem State.setSq_latches (s : State) (k : Nat) (x : Sq) : (s.setSq k x).latches = s.latches := rfl
@[simp] theorem State.setSq_probeCnts (s : State) (k : Nat) (x : Sq) : (s.setSq k x).probeCnts = s.probeCnts := rfl
@[simp] theorem State.setSq_sgs (s : State) (k : Nat) (x : Sq) : (s.setSq k x).sgs = s.sgs := rfl
@[simp] theorem State.setSq_limLevels (s : State) (k : Nat) (x : Sq) : (s.setSq k x).limLevels = s.limLevels := rfl
@[simp] theorem State.setSq_pwms (s : State) (k : Nat) (x : Sq) : (s.setSq k x).pwms = s.pwms := rfl
@[simp] theorem State.setSq_stages (s : State) (k : Nat) (x : Sq) : (s.setSq k x).stages = s.stages := rfl
@[simp] theorem State.setSq_auxs (s : State) (k : Nat) (x : Sq) : (s.setSq k x).auxs = s.auxs := rfl
@[simp] theorem State.setSq_footings (s : State) (k : Nat) (x : Sq) : (s.setSq k x).footings = s.footings := rfl
@[simp] theorem State.setSq_cans (s : State) (k : Nat) (x : Sq) : (s.setSq k x).cans = s.cans := rfl
@[simp] theorem State.setSq_pp (s : State) (k : Nat) (x : Sq) : (s.setSq k x).pp = s.pp := rfl
@[simp] theorem State.setSq_fw (s : State) (k : Nat) (x : Sq) : (s.setSq k x).fw = s.fw := rfl
@[simp] theorem State.setSq_life (s : State) (k : Nat) (x : Sq) : (s.setSq k x).life = s.life := rfl
@[simp] theorem State.setSq_out (s : State) (k : Nat) (x : Sq) : (s.setSq k x).out = s.out := rfl
@[simp] theorem State.setSq_freeCtr (s : State) (k : Nat) (x : Sq) : (s.setSq k x).freeCtr = s.freeCtr := rfl
@[simp] theorem State.setSq_pending (s : State) (k : Nat) (x : Sq) : (s.setSq k x).pending = s.pending := rfl
theorem State.updSq_eq (s : State) (k : Nat) (f : Sq → Sq) : s.updSq k f = s.setSq k (f (s.sq k)) := rfl
@[simp] theorem State.setCq_power (s : State) (k : Nat) (x : Cq) : (s.setCq k x).power = s.power := rfl
@[simp] theorem State.setCq_tb (s : State) (k : Nat) (x : Cq) : (s.setCq k x).tb = s.tb := rfl
@[simp] theorem State.setCq_refs (s : State) (k : Nat) (x : Cq) : (s.setCq k x).refs = s.refs := rfl
@[simp] theorem State.setCq_link (s : State) (k : Nat) (x : Cq) : (s.setCq k x).link = s.link := rfl
@[simp] theorem State.setCq_fns (s : State) (k : Nat) (x : Cq) : (s.setCq k x).fns = s.fns := rfl
@[simp] theorem State.setCq_regs (s : State) (k : Nat) (x : Cq) : (s.setCq k x).regs = s.regs := rfl
@[simp] theorem State.setCq_grants (s : State) (k : Nat) (x : Cq) : (s.setCq k x).grants = s.grants := rfl
@[simp] theorem State.setCq_commit (s : State) (k : Nat) (x : Cq) : (s.setCq k x).commit = s.commit := rfl
@[simp] theorem State.setCq_irqPend (s : State) (k : Nat) (x : Cq) : (s.setCq k x).irqPend = s.irqPend := rfl
@[simp] theorem State.setCq_tns (s : State) (k : Nat) (x : Cq) : (s.setCq k x).tns = s.tns := rfl
@[simp] theorem State.setCq_sqs (s : State) (k : Nat) (x : Cq) : (s.setCq k x).sqs = s.sqs := rfl
@[simp] theorem State.setCq_cqs (s : State) (k : Nat) (x : Cq) : (s.setCq k x).cqs = storePut (fun _ => Cq.reset) s.cqs k x := rfl
@[simp] theorem State.setCq_jobs (s : State) (k : Nat) (x : Cq) : (s.setCq k x).jobs = s.jobs := rfl
@[simp] theorem State.setCq_nextId (s : State) (k : Nat) (x : Cq) : (s.setCq k x).nextId = s.nextId := rfl
@[simp] theorem State.setCq_ks (s : State) (k : Nat) (x : Cq) : (s.setCq k x).ks = s.ks := rfl
@[simp] theorem State.setCq_queues (s : State) (k : Nat) (x : Cq) : (s.setCq k x).queues = s.queues := rfl
@[simp] theorem State.setCq_deck (s : State) (k : Nat) (x : Cq) : (s.setCq k x).deck = s.deck := rfl
@[simp] theorem State.setCq_scrub (s : State) (k : Nat) (x : Cq) : (s.setCq k x).scrub = s.scrub := rfl
@[simp] theorem State.setCq_cams (s : State) (k : Nat) (x : Cq) : (s.setCq k x).cams = s.cams := rfl
@[simp] theorem State.setCq_vcs (s : State) (k : Nat) (x : Cq) : (s.setCq k x).vcs = s.vcs := rfl
@[simp] theorem State.setCq_pipes (s : State) (k : Nat) (x : Cq) : (s.setCq k x).pipes = s.pipes := rfl
@[simp] theorem State.setCq_trackReuse (s : State) (k : Nat) (x : Cq) : (s.setCq k x).trackReuse = s.trackReuse := rfl
@[simp] theorem State.setCq_valves (s : State) (k : Nat) (x : Cq) : (s.setCq k x).valves = s.valves := rfl
@[simp] theorem State.setCq_rows (s : State) (k : Nat) (x : Cq) : (s.setCq k x).rows = s.rows := rfl
@[simp] theorem State.setCq_wheel (s : State) (k : Nat) (x : Cq) : (s.setCq k x).wheel = s.wheel := rfl
@[simp] theorem State.setCq_ring (s : State) (k : Nat) (x : Cq) : (s.setCq k x).ring = s.ring := rfl
@[simp] theorem State.setCq_pubOn (s : State) (k : Nat) (x : Cq) : (s.setCq k x).pubOn = s.pubOn := rfl
@[simp] theorem State.setCq_pubRec (s : State) (k : Nat) (x : Cq) : (s.setCq k x).pubRec = s.pubRec := rfl
@[simp] theorem State.setCq_fbs (s : State) (k : Nat) (x : Cq) : (s.setCq k x).fbs = s.fbs := rfl
@[simp] theorem State.setCq_emus (s : State) (k : Nat) (x : Cq) : (s.setCq k x).emus = s.emus := rfl
@[simp] theorem State.setCq_axes (s : State) (k : Nat) (x : Cq) : (s.setCq k x).axes = s.axes := rfl
@[simp] theorem State.setCq_piers (s : State) (k : Nat) (x : Cq) : (s.setCq k x).piers = s.piers := rfl
@[simp] theorem State.setCq_groups (s : State) (k : Nat) (x : Cq) : (s.setCq k x).groups = s.groups := rfl
@[simp] theorem State.setCq_stays (s : State) (k : Nat) (x : Cq) : (s.setCq k x).stays = s.stays := rfl
@[simp] theorem State.setCq_camTabs (s : State) (k : Nat) (x : Cq) : (s.setCq k x).camTabs = s.camTabs := rfl
@[simp] theorem State.setCq_latches (s : State) (k : Nat) (x : Cq) : (s.setCq k x).latches = s.latches := rfl
@[simp] theorem State.setCq_probeCnts (s : State) (k : Nat) (x : Cq) : (s.setCq k x).probeCnts = s.probeCnts := rfl
@[simp] theorem State.setCq_sgs (s : State) (k : Nat) (x : Cq) : (s.setCq k x).sgs = s.sgs := rfl
@[simp] theorem State.setCq_limLevels (s : State) (k : Nat) (x : Cq) : (s.setCq k x).limLevels = s.limLevels := rfl
@[simp] theorem State.setCq_pwms (s : State) (k : Nat) (x : Cq) : (s.setCq k x).pwms = s.pwms := rfl
@[simp] theorem State.setCq_stages (s : State) (k : Nat) (x : Cq) : (s.setCq k x).stages = s.stages := rfl
@[simp] theorem State.setCq_auxs (s : State) (k : Nat) (x : Cq) : (s.setCq k x).auxs = s.auxs := rfl
@[simp] theorem State.setCq_footings (s : State) (k : Nat) (x : Cq) : (s.setCq k x).footings = s.footings := rfl
@[simp] theorem State.setCq_cans (s : State) (k : Nat) (x : Cq) : (s.setCq k x).cans = s.cans := rfl
@[simp] theorem State.setCq_pp (s : State) (k : Nat) (x : Cq) : (s.setCq k x).pp = s.pp := rfl
@[simp] theorem State.setCq_fw (s : State) (k : Nat) (x : Cq) : (s.setCq k x).fw = s.fw := rfl
@[simp] theorem State.setCq_life (s : State) (k : Nat) (x : Cq) : (s.setCq k x).life = s.life := rfl
@[simp] theorem State.setCq_out (s : State) (k : Nat) (x : Cq) : (s.setCq k x).out = s.out := rfl
@[simp] theorem State.setCq_freeCtr (s : State) (k : Nat) (x : Cq) : (s.setCq k x).freeCtr = s.freeCtr := rfl
@[simp] theorem State.setCq_pending (s : State) (k : Nat) (x : Cq) : (s.setCq k x).pending = s.pending := rfl
theorem State.updCq_eq (s : State) (k : Nat) (f : Cq → Cq) : s.updCq k f = s.setCq k (f (s.cq k)) := rfl
@[simp] theorem State.setQueue_power (s : State) (k : Nat) (x : Queue) : (s.setQueue k x).power = s.power := rfl
@[simp] theorem State.setQueue_tb (s : State) (k : Nat) (x : Queue) : (s.setQueue k x).tb = s.tb := rfl
@[simp] theorem State.setQueue_refs (s : State) (k : Nat) (x : Queue) : (s.setQueue k x).refs = s.refs := rfl
@[simp] theorem State.setQueue_link (s : State) (k : Nat) (x : Queue) : (s.setQueue k x).link = s.link := rfl
@[simp] theorem State.setQueue_fns (s : State) (k : Nat) (x : Queue) : (s.setQueue k x).fns = s.fns := rfl
@[simp] theorem State.setQueue_regs (s : State) (k : Nat) (x : Queue) : (s.setQueue k x).regs = s.regs := rfl
@[simp] theorem State.setQueue_grants (s : State) (k : Nat) (x : Queue) : (s.setQueue k x).grants = s.grants := rfl
@[simp] theorem State.setQueue_commit (s : State) (k : Nat) (x : Queue) : (s.setQueue k x).commit = s.commit := rfl
@[simp] theorem State.setQueue_irqPend (s : State) (k : Nat) (x : Queue) : (s.setQueue k x).irqPend = s.irqPend := rfl
@[simp] theorem State.setQueue_tns (s : State) (k : Nat) (x : Queue) : (s.setQueue k x).tns = s.tns := rfl
@[simp] theorem State.setQueue_sqs (s : State) (k : Nat) (x : Queue) : (s.setQueue k x).sqs = s.sqs := rfl
@[simp] theorem State.setQueue_cqs (s : State) (k : Nat) (x : Queue) : (s.setQueue k x).cqs = s.cqs := rfl
@[simp] theorem State.setQueue_jobs (s : State) (k : Nat) (x : Queue) : (s.setQueue k x).jobs = s.jobs := rfl
@[simp] theorem State.setQueue_nextId (s : State) (k : Nat) (x : Queue) : (s.setQueue k x).nextId = s.nextId := rfl
@[simp] theorem State.setQueue_ks (s : State) (k : Nat) (x : Queue) : (s.setQueue k x).ks = s.ks := rfl
@[simp] theorem State.setQueue_queues (s : State) (k : Nat) (x : Queue) : (s.setQueue k x).queues = storePut (fun _ => Queue.reset) s.queues k x := rfl
@[simp] theorem State.setQueue_deck (s : State) (k : Nat) (x : Queue) : (s.setQueue k x).deck = s.deck := rfl
@[simp] theorem State.setQueue_scrub (s : State) (k : Nat) (x : Queue) : (s.setQueue k x).scrub = s.scrub := rfl
@[simp] theorem State.setQueue_cams (s : State) (k : Nat) (x : Queue) : (s.setQueue k x).cams = s.cams := rfl
@[simp] theorem State.setQueue_vcs (s : State) (k : Nat) (x : Queue) : (s.setQueue k x).vcs = s.vcs := rfl
@[simp] theorem State.setQueue_pipes (s : State) (k : Nat) (x : Queue) : (s.setQueue k x).pipes = s.pipes := rfl
@[simp] theorem State.setQueue_trackReuse (s : State) (k : Nat) (x : Queue) : (s.setQueue k x).trackReuse = s.trackReuse := rfl
@[simp] theorem State.setQueue_valves (s : State) (k : Nat) (x : Queue) : (s.setQueue k x).valves = s.valves := rfl
@[simp] theorem State.setQueue_rows (s : State) (k : Nat) (x : Queue) : (s.setQueue k x).rows = s.rows := rfl
@[simp] theorem State.setQueue_wheel (s : State) (k : Nat) (x : Queue) : (s.setQueue k x).wheel = s.wheel := rfl
@[simp] theorem State.setQueue_ring (s : State) (k : Nat) (x : Queue) : (s.setQueue k x).ring = s.ring := rfl
@[simp] theorem State.setQueue_pubOn (s : State) (k : Nat) (x : Queue) : (s.setQueue k x).pubOn = s.pubOn := rfl
@[simp] theorem State.setQueue_pubRec (s : State) (k : Nat) (x : Queue) : (s.setQueue k x).pubRec = s.pubRec := rfl
@[simp] theorem State.setQueue_fbs (s : State) (k : Nat) (x : Queue) : (s.setQueue k x).fbs = s.fbs := rfl
@[simp] theorem State.setQueue_emus (s : State) (k : Nat) (x : Queue) : (s.setQueue k x).emus = s.emus := rfl
@[simp] theorem State.setQueue_axes (s : State) (k : Nat) (x : Queue) : (s.setQueue k x).axes = s.axes := rfl
@[simp] theorem State.setQueue_piers (s : State) (k : Nat) (x : Queue) : (s.setQueue k x).piers = s.piers := rfl
@[simp] theorem State.setQueue_groups (s : State) (k : Nat) (x : Queue) : (s.setQueue k x).groups = s.groups := rfl
@[simp] theorem State.setQueue_stays (s : State) (k : Nat) (x : Queue) : (s.setQueue k x).stays = s.stays := rfl
@[simp] theorem State.setQueue_camTabs (s : State) (k : Nat) (x : Queue) : (s.setQueue k x).camTabs = s.camTabs := rfl
@[simp] theorem State.setQueue_latches (s : State) (k : Nat) (x : Queue) : (s.setQueue k x).latches = s.latches := rfl
@[simp] theorem State.setQueue_probeCnts (s : State) (k : Nat) (x : Queue) : (s.setQueue k x).probeCnts = s.probeCnts := rfl
@[simp] theorem State.setQueue_sgs (s : State) (k : Nat) (x : Queue) : (s.setQueue k x).sgs = s.sgs := rfl
@[simp] theorem State.setQueue_limLevels (s : State) (k : Nat) (x : Queue) : (s.setQueue k x).limLevels = s.limLevels := rfl
@[simp] theorem State.setQueue_pwms (s : State) (k : Nat) (x : Queue) : (s.setQueue k x).pwms = s.pwms := rfl
@[simp] theorem State.setQueue_stages (s : State) (k : Nat) (x : Queue) : (s.setQueue k x).stages = s.stages := rfl
@[simp] theorem State.setQueue_auxs (s : State) (k : Nat) (x : Queue) : (s.setQueue k x).auxs = s.auxs := rfl
@[simp] theorem State.setQueue_footings (s : State) (k : Nat) (x : Queue) : (s.setQueue k x).footings = s.footings := rfl
@[simp] theorem State.setQueue_cans (s : State) (k : Nat) (x : Queue) : (s.setQueue k x).cans = s.cans := rfl
@[simp] theorem State.setQueue_pp (s : State) (k : Nat) (x : Queue) : (s.setQueue k x).pp = s.pp := rfl
@[simp] theorem State.setQueue_fw (s : State) (k : Nat) (x : Queue) : (s.setQueue k x).fw = s.fw := rfl
@[simp] theorem State.setQueue_life (s : State) (k : Nat) (x : Queue) : (s.setQueue k x).life = s.life := rfl
@[simp] theorem State.setQueue_out (s : State) (k : Nat) (x : Queue) : (s.setQueue k x).out = s.out := rfl
@[simp] theorem State.setQueue_freeCtr (s : State) (k : Nat) (x : Queue) : (s.setQueue k x).freeCtr = s.freeCtr := rfl
@[simp] theorem State.setQueue_pending (s : State) (k : Nat) (x : Queue) : (s.setQueue k x).pending = s.pending := rfl
theorem State.updQueue_eq (s : State) (k : Nat) (f : Queue → Queue) : s.updQueue k f = s.setQueue k (f (s.queue k)) := rfl
@[simp] theorem State.setCam_power (s : State) (k : Nat) (x : Cam) : (s.setCam k x).power = s.power := rfl
@[simp] theorem State.setCam_tb (s : State) (k : Nat) (x : Cam) : (s.setCam k x).tb = s.tb := rfl
@[simp] theorem State.setCam_refs (s : State) (k : Nat) (x : Cam) : (s.setCam k x).refs = s.refs := rfl
@[simp] theorem State.setCam_link (s : State) (k : Nat) (x : Cam) : (s.setCam k x).link = s.link := rfl
@[simp] theorem State.setCam_fns (s : State) (k : Nat) (x : Cam) : (s.setCam k x).fns = s.fns := rfl
@[simp] theorem State.setCam_regs (s : State) (k : Nat) (x : Cam) : (s.setCam k x).regs = s.regs := rfl
@[simp] theorem State.setCam_grants (s : State) (k : Nat) (x : Cam) : (s.setCam k x).grants = s.grants := rfl
@[simp] theorem State.setCam_commit (s : State) (k : Nat) (x : Cam) : (s.setCam k x).commit = s.commit := rfl
@[simp] theorem State.setCam_irqPend (s : State) (k : Nat) (x : Cam) : (s.setCam k x).irqPend = s.irqPend := rfl
@[simp] theorem State.setCam_tns (s : State) (k : Nat) (x : Cam) : (s.setCam k x).tns = s.tns := rfl
@[simp] theorem State.setCam_sqs (s : State) (k : Nat) (x : Cam) : (s.setCam k x).sqs = s.sqs := rfl
@[simp] theorem State.setCam_cqs (s : State) (k : Nat) (x : Cam) : (s.setCam k x).cqs = s.cqs := rfl
@[simp] theorem State.setCam_jobs (s : State) (k : Nat) (x : Cam) : (s.setCam k x).jobs = s.jobs := rfl
@[simp] theorem State.setCam_nextId (s : State) (k : Nat) (x : Cam) : (s.setCam k x).nextId = s.nextId := rfl
@[simp] theorem State.setCam_ks (s : State) (k : Nat) (x : Cam) : (s.setCam k x).ks = s.ks := rfl
@[simp] theorem State.setCam_queues (s : State) (k : Nat) (x : Cam) : (s.setCam k x).queues = s.queues := rfl
@[simp] theorem State.setCam_deck (s : State) (k : Nat) (x : Cam) : (s.setCam k x).deck = s.deck := rfl
@[simp] theorem State.setCam_scrub (s : State) (k : Nat) (x : Cam) : (s.setCam k x).scrub = s.scrub := rfl
@[simp] theorem State.setCam_cams (s : State) (k : Nat) (x : Cam) : (s.setCam k x).cams = storePut (fun _ => Cam.reset) s.cams k x := rfl
@[simp] theorem State.setCam_vcs (s : State) (k : Nat) (x : Cam) : (s.setCam k x).vcs = s.vcs := rfl
@[simp] theorem State.setCam_pipes (s : State) (k : Nat) (x : Cam) : (s.setCam k x).pipes = s.pipes := rfl
@[simp] theorem State.setCam_trackReuse (s : State) (k : Nat) (x : Cam) : (s.setCam k x).trackReuse = s.trackReuse := rfl
@[simp] theorem State.setCam_valves (s : State) (k : Nat) (x : Cam) : (s.setCam k x).valves = s.valves := rfl
@[simp] theorem State.setCam_rows (s : State) (k : Nat) (x : Cam) : (s.setCam k x).rows = s.rows := rfl
@[simp] theorem State.setCam_wheel (s : State) (k : Nat) (x : Cam) : (s.setCam k x).wheel = s.wheel := rfl
@[simp] theorem State.setCam_ring (s : State) (k : Nat) (x : Cam) : (s.setCam k x).ring = s.ring := rfl
@[simp] theorem State.setCam_pubOn (s : State) (k : Nat) (x : Cam) : (s.setCam k x).pubOn = s.pubOn := rfl
@[simp] theorem State.setCam_pubRec (s : State) (k : Nat) (x : Cam) : (s.setCam k x).pubRec = s.pubRec := rfl
@[simp] theorem State.setCam_fbs (s : State) (k : Nat) (x : Cam) : (s.setCam k x).fbs = s.fbs := rfl
@[simp] theorem State.setCam_emus (s : State) (k : Nat) (x : Cam) : (s.setCam k x).emus = s.emus := rfl
@[simp] theorem State.setCam_axes (s : State) (k : Nat) (x : Cam) : (s.setCam k x).axes = s.axes := rfl
@[simp] theorem State.setCam_piers (s : State) (k : Nat) (x : Cam) : (s.setCam k x).piers = s.piers := rfl
@[simp] theorem State.setCam_groups (s : State) (k : Nat) (x : Cam) : (s.setCam k x).groups = s.groups := rfl
@[simp] theorem State.setCam_stays (s : State) (k : Nat) (x : Cam) : (s.setCam k x).stays = s.stays := rfl
@[simp] theorem State.setCam_camTabs (s : State) (k : Nat) (x : Cam) : (s.setCam k x).camTabs = s.camTabs := rfl
@[simp] theorem State.setCam_latches (s : State) (k : Nat) (x : Cam) : (s.setCam k x).latches = s.latches := rfl
@[simp] theorem State.setCam_probeCnts (s : State) (k : Nat) (x : Cam) : (s.setCam k x).probeCnts = s.probeCnts := rfl
@[simp] theorem State.setCam_sgs (s : State) (k : Nat) (x : Cam) : (s.setCam k x).sgs = s.sgs := rfl
@[simp] theorem State.setCam_limLevels (s : State) (k : Nat) (x : Cam) : (s.setCam k x).limLevels = s.limLevels := rfl
@[simp] theorem State.setCam_pwms (s : State) (k : Nat) (x : Cam) : (s.setCam k x).pwms = s.pwms := rfl
@[simp] theorem State.setCam_stages (s : State) (k : Nat) (x : Cam) : (s.setCam k x).stages = s.stages := rfl
@[simp] theorem State.setCam_auxs (s : State) (k : Nat) (x : Cam) : (s.setCam k x).auxs = s.auxs := rfl
@[simp] theorem State.setCam_footings (s : State) (k : Nat) (x : Cam) : (s.setCam k x).footings = s.footings := rfl
@[simp] theorem State.setCam_cans (s : State) (k : Nat) (x : Cam) : (s.setCam k x).cans = s.cans := rfl
@[simp] theorem State.setCam_pp (s : State) (k : Nat) (x : Cam) : (s.setCam k x).pp = s.pp := rfl
@[simp] theorem State.setCam_fw (s : State) (k : Nat) (x : Cam) : (s.setCam k x).fw = s.fw := rfl
@[simp] theorem State.setCam_life (s : State) (k : Nat) (x : Cam) : (s.setCam k x).life = s.life := rfl
@[simp] theorem State.setCam_out (s : State) (k : Nat) (x : Cam) : (s.setCam k x).out = s.out := rfl
@[simp] theorem State.setCam_freeCtr (s : State) (k : Nat) (x : Cam) : (s.setCam k x).freeCtr = s.freeCtr := rfl
@[simp] theorem State.setCam_pending (s : State) (k : Nat) (x : Cam) : (s.setCam k x).pending = s.pending := rfl
theorem State.updCam_eq (s : State) (k : Nat) (f : Cam → Cam) : s.updCam k f = s.setCam k (f (s.cam k)) := rfl
@[simp] theorem State.setVc_power (s : State) (k : Nat) (x : Vc) : (s.setVc k x).power = s.power := rfl
@[simp] theorem State.setVc_tb (s : State) (k : Nat) (x : Vc) : (s.setVc k x).tb = s.tb := rfl
@[simp] theorem State.setVc_refs (s : State) (k : Nat) (x : Vc) : (s.setVc k x).refs = s.refs := rfl
@[simp] theorem State.setVc_link (s : State) (k : Nat) (x : Vc) : (s.setVc k x).link = s.link := rfl
@[simp] theorem State.setVc_fns (s : State) (k : Nat) (x : Vc) : (s.setVc k x).fns = s.fns := rfl
@[simp] theorem State.setVc_regs (s : State) (k : Nat) (x : Vc) : (s.setVc k x).regs = s.regs := rfl
@[simp] theorem State.setVc_grants (s : State) (k : Nat) (x : Vc) : (s.setVc k x).grants = s.grants := rfl
@[simp] theorem State.setVc_commit (s : State) (k : Nat) (x : Vc) : (s.setVc k x).commit = s.commit := rfl
@[simp] theorem State.setVc_irqPend (s : State) (k : Nat) (x : Vc) : (s.setVc k x).irqPend = s.irqPend := rfl
@[simp] theorem State.setVc_tns (s : State) (k : Nat) (x : Vc) : (s.setVc k x).tns = s.tns := rfl
@[simp] theorem State.setVc_sqs (s : State) (k : Nat) (x : Vc) : (s.setVc k x).sqs = s.sqs := rfl
@[simp] theorem State.setVc_cqs (s : State) (k : Nat) (x : Vc) : (s.setVc k x).cqs = s.cqs := rfl
@[simp] theorem State.setVc_jobs (s : State) (k : Nat) (x : Vc) : (s.setVc k x).jobs = s.jobs := rfl
@[simp] theorem State.setVc_nextId (s : State) (k : Nat) (x : Vc) : (s.setVc k x).nextId = s.nextId := rfl
@[simp] theorem State.setVc_ks (s : State) (k : Nat) (x : Vc) : (s.setVc k x).ks = s.ks := rfl
@[simp] theorem State.setVc_queues (s : State) (k : Nat) (x : Vc) : (s.setVc k x).queues = s.queues := rfl
@[simp] theorem State.setVc_deck (s : State) (k : Nat) (x : Vc) : (s.setVc k x).deck = s.deck := rfl
@[simp] theorem State.setVc_scrub (s : State) (k : Nat) (x : Vc) : (s.setVc k x).scrub = s.scrub := rfl
@[simp] theorem State.setVc_cams (s : State) (k : Nat) (x : Vc) : (s.setVc k x).cams = s.cams := rfl
@[simp] theorem State.setVc_vcs (s : State) (k : Nat) (x : Vc) : (s.setVc k x).vcs = storePut (fun _ => Vc.reset) s.vcs k x := rfl
@[simp] theorem State.setVc_pipes (s : State) (k : Nat) (x : Vc) : (s.setVc k x).pipes = s.pipes := rfl
@[simp] theorem State.setVc_trackReuse (s : State) (k : Nat) (x : Vc) : (s.setVc k x).trackReuse = s.trackReuse := rfl
@[simp] theorem State.setVc_valves (s : State) (k : Nat) (x : Vc) : (s.setVc k x).valves = s.valves := rfl
@[simp] theorem State.setVc_rows (s : State) (k : Nat) (x : Vc) : (s.setVc k x).rows = s.rows := rfl
@[simp] theorem State.setVc_wheel (s : State) (k : Nat) (x : Vc) : (s.setVc k x).wheel = s.wheel := rfl
@[simp] theorem State.setVc_ring (s : State) (k : Nat) (x : Vc) : (s.setVc k x).ring = s.ring := rfl
@[simp] theorem State.setVc_pubOn (s : State) (k : Nat) (x : Vc) : (s.setVc k x).pubOn = s.pubOn := rfl
@[simp] theorem State.setVc_pubRec (s : State) (k : Nat) (x : Vc) : (s.setVc k x).pubRec = s.pubRec := rfl
@[simp] theorem State.setVc_fbs (s : State) (k : Nat) (x : Vc) : (s.setVc k x).fbs = s.fbs := rfl
@[simp] theorem State.setVc_emus (s : State) (k : Nat) (x : Vc) : (s.setVc k x).emus = s.emus := rfl
@[simp] theorem State.setVc_axes (s : State) (k : Nat) (x : Vc) : (s.setVc k x).axes = s.axes := rfl
@[simp] theorem State.setVc_piers (s : State) (k : Nat) (x : Vc) : (s.setVc k x).piers = s.piers := rfl
@[simp] theorem State.setVc_groups (s : State) (k : Nat) (x : Vc) : (s.setVc k x).groups = s.groups := rfl
@[simp] theorem State.setVc_stays (s : State) (k : Nat) (x : Vc) : (s.setVc k x).stays = s.stays := rfl
@[simp] theorem State.setVc_camTabs (s : State) (k : Nat) (x : Vc) : (s.setVc k x).camTabs = s.camTabs := rfl
@[simp] theorem State.setVc_latches (s : State) (k : Nat) (x : Vc) : (s.setVc k x).latches = s.latches := rfl
@[simp] theorem State.setVc_probeCnts (s : State) (k : Nat) (x : Vc) : (s.setVc k x).probeCnts = s.probeCnts := rfl
@[simp] theorem State.setVc_sgs (s : State) (k : Nat) (x : Vc) : (s.setVc k x).sgs = s.sgs := rfl
@[simp] theorem State.setVc_limLevels (s : State) (k : Nat) (x : Vc) : (s.setVc k x).limLevels = s.limLevels := rfl
@[simp] theorem State.setVc_pwms (s : State) (k : Nat) (x : Vc) : (s.setVc k x).pwms = s.pwms := rfl
@[simp] theorem State.setVc_stages (s : State) (k : Nat) (x : Vc) : (s.setVc k x).stages = s.stages := rfl
@[simp] theorem State.setVc_auxs (s : State) (k : Nat) (x : Vc) : (s.setVc k x).auxs = s.auxs := rfl
@[simp] theorem State.setVc_footings (s : State) (k : Nat) (x : Vc) : (s.setVc k x).footings = s.footings := rfl
@[simp] theorem State.setVc_cans (s : State) (k : Nat) (x : Vc) : (s.setVc k x).cans = s.cans := rfl
@[simp] theorem State.setVc_pp (s : State) (k : Nat) (x : Vc) : (s.setVc k x).pp = s.pp := rfl
@[simp] theorem State.setVc_fw (s : State) (k : Nat) (x : Vc) : (s.setVc k x).fw = s.fw := rfl
@[simp] theorem State.setVc_life (s : State) (k : Nat) (x : Vc) : (s.setVc k x).life = s.life := rfl
@[simp] theorem State.setVc_out (s : State) (k : Nat) (x : Vc) : (s.setVc k x).out = s.out := rfl
@[simp] theorem State.setVc_freeCtr (s : State) (k : Nat) (x : Vc) : (s.setVc k x).freeCtr = s.freeCtr := rfl
@[simp] theorem State.setVc_pending (s : State) (k : Nat) (x : Vc) : (s.setVc k x).pending = s.pending := rfl
theorem State.updVc_eq (s : State) (k : Nat) (f : Vc → Vc) : s.updVc k f = s.setVc k (f (s.vc k)) := rfl
@[simp] theorem State.setPipe_power (s : State) (k : Nat) (x : Pipe) : (s.setPipe k x).power = s.power := rfl
@[simp] theorem State.setPipe_tb (s : State) (k : Nat) (x : Pipe) : (s.setPipe k x).tb = s.tb := rfl
@[simp] theorem State.setPipe_refs (s : State) (k : Nat) (x : Pipe) : (s.setPipe k x).refs = s.refs := rfl
@[simp] theorem State.setPipe_link (s : State) (k : Nat) (x : Pipe) : (s.setPipe k x).link = s.link := rfl
@[simp] theorem State.setPipe_fns (s : State) (k : Nat) (x : Pipe) : (s.setPipe k x).fns = s.fns := rfl
@[simp] theorem State.setPipe_regs (s : State) (k : Nat) (x : Pipe) : (s.setPipe k x).regs = s.regs := rfl
@[simp] theorem State.setPipe_grants (s : State) (k : Nat) (x : Pipe) : (s.setPipe k x).grants = s.grants := rfl
@[simp] theorem State.setPipe_commit (s : State) (k : Nat) (x : Pipe) : (s.setPipe k x).commit = s.commit := rfl
@[simp] theorem State.setPipe_irqPend (s : State) (k : Nat) (x : Pipe) : (s.setPipe k x).irqPend = s.irqPend := rfl
@[simp] theorem State.setPipe_tns (s : State) (k : Nat) (x : Pipe) : (s.setPipe k x).tns = s.tns := rfl
@[simp] theorem State.setPipe_sqs (s : State) (k : Nat) (x : Pipe) : (s.setPipe k x).sqs = s.sqs := rfl
@[simp] theorem State.setPipe_cqs (s : State) (k : Nat) (x : Pipe) : (s.setPipe k x).cqs = s.cqs := rfl
@[simp] theorem State.setPipe_jobs (s : State) (k : Nat) (x : Pipe) : (s.setPipe k x).jobs = s.jobs := rfl
@[simp] theorem State.setPipe_nextId (s : State) (k : Nat) (x : Pipe) : (s.setPipe k x).nextId = s.nextId := rfl
@[simp] theorem State.setPipe_ks (s : State) (k : Nat) (x : Pipe) : (s.setPipe k x).ks = s.ks := rfl
@[simp] theorem State.setPipe_queues (s : State) (k : Nat) (x : Pipe) : (s.setPipe k x).queues = s.queues := rfl
@[simp] theorem State.setPipe_deck (s : State) (k : Nat) (x : Pipe) : (s.setPipe k x).deck = s.deck := rfl
@[simp] theorem State.setPipe_scrub (s : State) (k : Nat) (x : Pipe) : (s.setPipe k x).scrub = s.scrub := rfl
@[simp] theorem State.setPipe_cams (s : State) (k : Nat) (x : Pipe) : (s.setPipe k x).cams = s.cams := rfl
@[simp] theorem State.setPipe_vcs (s : State) (k : Nat) (x : Pipe) : (s.setPipe k x).vcs = s.vcs := rfl
@[simp] theorem State.setPipe_pipes (s : State) (k : Nat) (x : Pipe) : (s.setPipe k x).pipes = storePut (fun _ => Pipe.reset) s.pipes k x := rfl
@[simp] theorem State.setPipe_trackReuse (s : State) (k : Nat) (x : Pipe) : (s.setPipe k x).trackReuse = s.trackReuse := rfl
@[simp] theorem State.setPipe_valves (s : State) (k : Nat) (x : Pipe) : (s.setPipe k x).valves = s.valves := rfl
@[simp] theorem State.setPipe_rows (s : State) (k : Nat) (x : Pipe) : (s.setPipe k x).rows = s.rows := rfl
@[simp] theorem State.setPipe_wheel (s : State) (k : Nat) (x : Pipe) : (s.setPipe k x).wheel = s.wheel := rfl
@[simp] theorem State.setPipe_ring (s : State) (k : Nat) (x : Pipe) : (s.setPipe k x).ring = s.ring := rfl
@[simp] theorem State.setPipe_pubOn (s : State) (k : Nat) (x : Pipe) : (s.setPipe k x).pubOn = s.pubOn := rfl
@[simp] theorem State.setPipe_pubRec (s : State) (k : Nat) (x : Pipe) : (s.setPipe k x).pubRec = s.pubRec := rfl
@[simp] theorem State.setPipe_fbs (s : State) (k : Nat) (x : Pipe) : (s.setPipe k x).fbs = s.fbs := rfl
@[simp] theorem State.setPipe_emus (s : State) (k : Nat) (x : Pipe) : (s.setPipe k x).emus = s.emus := rfl
@[simp] theorem State.setPipe_axes (s : State) (k : Nat) (x : Pipe) : (s.setPipe k x).axes = s.axes := rfl
@[simp] theorem State.setPipe_piers (s : State) (k : Nat) (x : Pipe) : (s.setPipe k x).piers = s.piers := rfl
@[simp] theorem State.setPipe_groups (s : State) (k : Nat) (x : Pipe) : (s.setPipe k x).groups = s.groups := rfl
@[simp] theorem State.setPipe_stays (s : State) (k : Nat) (x : Pipe) : (s.setPipe k x).stays = s.stays := rfl
@[simp] theorem State.setPipe_camTabs (s : State) (k : Nat) (x : Pipe) : (s.setPipe k x).camTabs = s.camTabs := rfl
@[simp] theorem State.setPipe_latches (s : State) (k : Nat) (x : Pipe) : (s.setPipe k x).latches = s.latches := rfl
@[simp] theorem State.setPipe_probeCnts (s : State) (k : Nat) (x : Pipe) : (s.setPipe k x).probeCnts = s.probeCnts := rfl
@[simp] theorem State.setPipe_sgs (s : State) (k : Nat) (x : Pipe) : (s.setPipe k x).sgs = s.sgs := rfl
@[simp] theorem State.setPipe_limLevels (s : State) (k : Nat) (x : Pipe) : (s.setPipe k x).limLevels = s.limLevels := rfl
@[simp] theorem State.setPipe_pwms (s : State) (k : Nat) (x : Pipe) : (s.setPipe k x).pwms = s.pwms := rfl
@[simp] theorem State.setPipe_stages (s : State) (k : Nat) (x : Pipe) : (s.setPipe k x).stages = s.stages := rfl
@[simp] theorem State.setPipe_auxs (s : State) (k : Nat) (x : Pipe) : (s.setPipe k x).auxs = s.auxs := rfl
@[simp] theorem State.setPipe_footings (s : State) (k : Nat) (x : Pipe) : (s.setPipe k x).footings = s.footings := rfl
@[simp] theorem State.setPipe_cans (s : State) (k : Nat) (x : Pipe) : (s.setPipe k x).cans = s.cans := rfl
@[simp] theorem State.setPipe_pp (s : State) (k : Nat) (x : Pipe) : (s.setPipe k x).pp = s.pp := rfl
@[simp] theorem State.setPipe_fw (s : State) (k : Nat) (x : Pipe) : (s.setPipe k x).fw = s.fw := rfl
@[simp] theorem State.setPipe_life (s : State) (k : Nat) (x : Pipe) : (s.setPipe k x).life = s.life := rfl
@[simp] theorem State.setPipe_out (s : State) (k : Nat) (x : Pipe) : (s.setPipe k x).out = s.out := rfl
@[simp] theorem State.setPipe_freeCtr (s : State) (k : Nat) (x : Pipe) : (s.setPipe k x).freeCtr = s.freeCtr := rfl
@[simp] theorem State.setPipe_pending (s : State) (k : Nat) (x : Pipe) : (s.setPipe k x).pending = s.pending := rfl
theorem State.updPipe_eq (s : State) (k : Nat) (f : Pipe → Pipe) : s.updPipe k f = s.setPipe k (f (s.pipe k)) := rfl
@[simp] theorem State.setValve_power (s : State) (k : Nat) (x : Valve) : (s.setValve k x).power = s.power := rfl
@[simp] theorem State.setValve_tb (s : State) (k : Nat) (x : Valve) : (s.setValve k x).tb = s.tb := rfl
@[simp] theorem State.setValve_refs (s : State) (k : Nat) (x : Valve) : (s.setValve k x).refs = s.refs := rfl
@[simp] theorem State.setValve_link (s : State) (k : Nat) (x : Valve) : (s.setValve k x).link = s.link := rfl
@[simp] theorem State.setValve_fns (s : State) (k : Nat) (x : Valve) : (s.setValve k x).fns = s.fns := rfl
@[simp] theorem State.setValve_regs (s : State) (k : Nat) (x : Valve) : (s.setValve k x).regs = s.regs := rfl
@[simp] theorem State.setValve_grants (s : State) (k : Nat) (x : Valve) : (s.setValve k x).grants = s.grants := rfl
@[simp] theorem State.setValve_commit (s : State) (k : Nat) (x : Valve) : (s.setValve k x).commit = s.commit := rfl
@[simp] theorem State.setValve_irqPend (s : State) (k : Nat) (x : Valve) : (s.setValve k x).irqPend = s.irqPend := rfl
@[simp] theorem State.setValve_tns (s : State) (k : Nat) (x : Valve) : (s.setValve k x).tns = s.tns := rfl
@[simp] theorem State.setValve_sqs (s : State) (k : Nat) (x : Valve) : (s.setValve k x).sqs = s.sqs := rfl
@[simp] theorem State.setValve_cqs (s : State) (k : Nat) (x : Valve) : (s.setValve k x).cqs = s.cqs := rfl
@[simp] theorem State.setValve_jobs (s : State) (k : Nat) (x : Valve) : (s.setValve k x).jobs = s.jobs := rfl
@[simp] theorem State.setValve_nextId (s : State) (k : Nat) (x : Valve) : (s.setValve k x).nextId = s.nextId := rfl
@[simp] theorem State.setValve_ks (s : State) (k : Nat) (x : Valve) : (s.setValve k x).ks = s.ks := rfl
@[simp] theorem State.setValve_queues (s : State) (k : Nat) (x : Valve) : (s.setValve k x).queues = s.queues := rfl
@[simp] theorem State.setValve_deck (s : State) (k : Nat) (x : Valve) : (s.setValve k x).deck = s.deck := rfl
@[simp] theorem State.setValve_scrub (s : State) (k : Nat) (x : Valve) : (s.setValve k x).scrub = s.scrub := rfl
@[simp] theorem State.setValve_cams (s : State) (k : Nat) (x : Valve) : (s.setValve k x).cams = s.cams := rfl
@[simp] theorem State.setValve_vcs (s : State) (k : Nat) (x : Valve) : (s.setValve k x).vcs = s.vcs := rfl
@[simp] theorem State.setValve_pipes (s : State) (k : Nat) (x : Valve) : (s.setValve k x).pipes = s.pipes := rfl
@[simp] theorem State.setValve_trackReuse (s : State) (k : Nat) (x : Valve) : (s.setValve k x).trackReuse = s.trackReuse := rfl
@[simp] theorem State.setValve_valves (s : State) (k : Nat) (x : Valve) : (s.setValve k x).valves = storePut (fun _ => Valve.reset) s.valves k x := rfl
@[simp] theorem State.setValve_rows (s : State) (k : Nat) (x : Valve) : (s.setValve k x).rows = s.rows := rfl
@[simp] theorem State.setValve_wheel (s : State) (k : Nat) (x : Valve) : (s.setValve k x).wheel = s.wheel := rfl
@[simp] theorem State.setValve_ring (s : State) (k : Nat) (x : Valve) : (s.setValve k x).ring = s.ring := rfl
@[simp] theorem State.setValve_pubOn (s : State) (k : Nat) (x : Valve) : (s.setValve k x).pubOn = s.pubOn := rfl
@[simp] theorem State.setValve_pubRec (s : State) (k : Nat) (x : Valve) : (s.setValve k x).pubRec = s.pubRec := rfl
@[simp] theorem State.setValve_fbs (s : State) (k : Nat) (x : Valve) : (s.setValve k x).fbs = s.fbs := rfl
@[simp] theorem State.setValve_emus (s : State) (k : Nat) (x : Valve) : (s.setValve k x).emus = s.emus := rfl
@[simp] theorem State.setValve_axes (s : State) (k : Nat) (x : Valve) : (s.setValve k x).axes = s.axes := rfl
@[simp] theorem State.setValve_piers (s : State) (k : Nat) (x : Valve) : (s.setValve k x).piers = s.piers := rfl
@[simp] theorem State.setValve_groups (s : State) (k : Nat) (x : Valve) : (s.setValve k x).groups = s.groups := rfl
@[simp] theorem State.setValve_stays (s : State) (k : Nat) (x : Valve) : (s.setValve k x).stays = s.stays := rfl
@[simp] theorem State.setValve_camTabs (s : State) (k : Nat) (x : Valve) : (s.setValve k x).camTabs = s.camTabs := rfl
@[simp] theorem State.setValve_latches (s : State) (k : Nat) (x : Valve) : (s.setValve k x).latches = s.latches := rfl
@[simp] theorem State.setValve_probeCnts (s : State) (k : Nat) (x : Valve) : (s.setValve k x).probeCnts = s.probeCnts := rfl
@[simp] theorem State.setValve_sgs (s : State) (k : Nat) (x : Valve) : (s.setValve k x).sgs = s.sgs := rfl
@[simp] theorem State.setValve_limLevels (s : State) (k : Nat) (x : Valve) : (s.setValve k x).limLevels = s.limLevels := rfl
@[simp] theorem State.setValve_pwms (s : State) (k : Nat) (x : Valve) : (s.setValve k x).pwms = s.pwms := rfl
@[simp] theorem State.setValve_stages (s : State) (k : Nat) (x : Valve) : (s.setValve k x).stages = s.stages := rfl
@[simp] theorem State.setValve_auxs (s : State) (k : Nat) (x : Valve) : (s.setValve k x).auxs = s.auxs := rfl
@[simp] theorem State.setValve_footings (s : State) (k : Nat) (x : Valve) : (s.setValve k x).footings = s.footings := rfl
@[simp] theorem State.setValve_cans (s : State) (k : Nat) (x : Valve) : (s.setValve k x).cans = s.cans := rfl
@[simp] theorem State.setValve_pp (s : State) (k : Nat) (x : Valve) : (s.setValve k x).pp = s.pp := rfl
@[simp] theorem State.setValve_fw (s : State) (k : Nat) (x : Valve) : (s.setValve k x).fw = s.fw := rfl
@[simp] theorem State.setValve_life (s : State) (k : Nat) (x : Valve) : (s.setValve k x).life = s.life := rfl
@[simp] theorem State.setValve_out (s : State) (k : Nat) (x : Valve) : (s.setValve k x).out = s.out := rfl
@[simp] theorem State.setValve_freeCtr (s : State) (k : Nat) (x : Valve) : (s.setValve k x).freeCtr = s.freeCtr := rfl
@[simp] theorem State.setValve_pending (s : State) (k : Nat) (x : Valve) : (s.setValve k x).pending = s.pending := rfl
theorem State.updValve_eq (s : State) (k : Nat) (f : Valve → Valve) : s.updValve k f = s.setValve k (f (s.valve k)) := rfl
@[simp] theorem State.setRow_power (s : State) (k : Nat) (x : NozzleRow) : (s.setRow k x).power = s.power := rfl
@[simp] theorem State.setRow_tb (s : State) (k : Nat) (x : NozzleRow) : (s.setRow k x).tb = s.tb := rfl
@[simp] theorem State.setRow_refs (s : State) (k : Nat) (x : NozzleRow) : (s.setRow k x).refs = s.refs := rfl
@[simp] theorem State.setRow_link (s : State) (k : Nat) (x : NozzleRow) : (s.setRow k x).link = s.link := rfl
@[simp] theorem State.setRow_fns (s : State) (k : Nat) (x : NozzleRow) : (s.setRow k x).fns = s.fns := rfl
@[simp] theorem State.setRow_regs (s : State) (k : Nat) (x : NozzleRow) : (s.setRow k x).regs = s.regs := rfl
@[simp] theorem State.setRow_grants (s : State) (k : Nat) (x : NozzleRow) : (s.setRow k x).grants = s.grants := rfl
@[simp] theorem State.setRow_commit (s : State) (k : Nat) (x : NozzleRow) : (s.setRow k x).commit = s.commit := rfl
@[simp] theorem State.setRow_irqPend (s : State) (k : Nat) (x : NozzleRow) : (s.setRow k x).irqPend = s.irqPend := rfl
@[simp] theorem State.setRow_tns (s : State) (k : Nat) (x : NozzleRow) : (s.setRow k x).tns = s.tns := rfl
@[simp] theorem State.setRow_sqs (s : State) (k : Nat) (x : NozzleRow) : (s.setRow k x).sqs = s.sqs := rfl
@[simp] theorem State.setRow_cqs (s : State) (k : Nat) (x : NozzleRow) : (s.setRow k x).cqs = s.cqs := rfl
@[simp] theorem State.setRow_jobs (s : State) (k : Nat) (x : NozzleRow) : (s.setRow k x).jobs = s.jobs := rfl
@[simp] theorem State.setRow_nextId (s : State) (k : Nat) (x : NozzleRow) : (s.setRow k x).nextId = s.nextId := rfl
@[simp] theorem State.setRow_ks (s : State) (k : Nat) (x : NozzleRow) : (s.setRow k x).ks = s.ks := rfl
@[simp] theorem State.setRow_queues (s : State) (k : Nat) (x : NozzleRow) : (s.setRow k x).queues = s.queues := rfl
@[simp] theorem State.setRow_deck (s : State) (k : Nat) (x : NozzleRow) : (s.setRow k x).deck = s.deck := rfl
@[simp] theorem State.setRow_scrub (s : State) (k : Nat) (x : NozzleRow) : (s.setRow k x).scrub = s.scrub := rfl
@[simp] theorem State.setRow_cams (s : State) (k : Nat) (x : NozzleRow) : (s.setRow k x).cams = s.cams := rfl
@[simp] theorem State.setRow_vcs (s : State) (k : Nat) (x : NozzleRow) : (s.setRow k x).vcs = s.vcs := rfl
@[simp] theorem State.setRow_pipes (s : State) (k : Nat) (x : NozzleRow) : (s.setRow k x).pipes = s.pipes := rfl
@[simp] theorem State.setRow_trackReuse (s : State) (k : Nat) (x : NozzleRow) : (s.setRow k x).trackReuse = s.trackReuse := rfl
@[simp] theorem State.setRow_valves (s : State) (k : Nat) (x : NozzleRow) : (s.setRow k x).valves = s.valves := rfl
@[simp] theorem State.setRow_rows (s : State) (k : Nat) (x : NozzleRow) : (s.setRow k x).rows = storePut (fun _ => NozzleRow.reset) s.rows k x := rfl
@[simp] theorem State.setRow_wheel (s : State) (k : Nat) (x : NozzleRow) : (s.setRow k x).wheel = s.wheel := rfl
@[simp] theorem State.setRow_ring (s : State) (k : Nat) (x : NozzleRow) : (s.setRow k x).ring = s.ring := rfl
@[simp] theorem State.setRow_pubOn (s : State) (k : Nat) (x : NozzleRow) : (s.setRow k x).pubOn = s.pubOn := rfl
@[simp] theorem State.setRow_pubRec (s : State) (k : Nat) (x : NozzleRow) : (s.setRow k x).pubRec = s.pubRec := rfl
@[simp] theorem State.setRow_fbs (s : State) (k : Nat) (x : NozzleRow) : (s.setRow k x).fbs = s.fbs := rfl
@[simp] theorem State.setRow_emus (s : State) (k : Nat) (x : NozzleRow) : (s.setRow k x).emus = s.emus := rfl
@[simp] theorem State.setRow_axes (s : State) (k : Nat) (x : NozzleRow) : (s.setRow k x).axes = s.axes := rfl
@[simp] theorem State.setRow_piers (s : State) (k : Nat) (x : NozzleRow) : (s.setRow k x).piers = s.piers := rfl
@[simp] theorem State.setRow_groups (s : State) (k : Nat) (x : NozzleRow) : (s.setRow k x).groups = s.groups := rfl
@[simp] theorem State.setRow_stays (s : State) (k : Nat) (x : NozzleRow) : (s.setRow k x).stays = s.stays := rfl
@[simp] theorem State.setRow_camTabs (s : State) (k : Nat) (x : NozzleRow) : (s.setRow k x).camTabs = s.camTabs := rfl
@[simp] theorem State.setRow_latches (s : State) (k : Nat) (x : NozzleRow) : (s.setRow k x).latches = s.latches := rfl
@[simp] theorem State.setRow_probeCnts (s : State) (k : Nat) (x : NozzleRow) : (s.setRow k x).probeCnts = s.probeCnts := rfl
@[simp] theorem State.setRow_sgs (s : State) (k : Nat) (x : NozzleRow) : (s.setRow k x).sgs = s.sgs := rfl
@[simp] theorem State.setRow_limLevels (s : State) (k : Nat) (x : NozzleRow) : (s.setRow k x).limLevels = s.limLevels := rfl
@[simp] theorem State.setRow_pwms (s : State) (k : Nat) (x : NozzleRow) : (s.setRow k x).pwms = s.pwms := rfl
@[simp] theorem State.setRow_stages (s : State) (k : Nat) (x : NozzleRow) : (s.setRow k x).stages = s.stages := rfl
@[simp] theorem State.setRow_auxs (s : State) (k : Nat) (x : NozzleRow) : (s.setRow k x).auxs = s.auxs := rfl
@[simp] theorem State.setRow_footings (s : State) (k : Nat) (x : NozzleRow) : (s.setRow k x).footings = s.footings := rfl
@[simp] theorem State.setRow_cans (s : State) (k : Nat) (x : NozzleRow) : (s.setRow k x).cans = s.cans := rfl
@[simp] theorem State.setRow_pp (s : State) (k : Nat) (x : NozzleRow) : (s.setRow k x).pp = s.pp := rfl
@[simp] theorem State.setRow_fw (s : State) (k : Nat) (x : NozzleRow) : (s.setRow k x).fw = s.fw := rfl
@[simp] theorem State.setRow_life (s : State) (k : Nat) (x : NozzleRow) : (s.setRow k x).life = s.life := rfl
@[simp] theorem State.setRow_out (s : State) (k : Nat) (x : NozzleRow) : (s.setRow k x).out = s.out := rfl
@[simp] theorem State.setRow_freeCtr (s : State) (k : Nat) (x : NozzleRow) : (s.setRow k x).freeCtr = s.freeCtr := rfl
@[simp] theorem State.setRow_pending (s : State) (k : Nat) (x : NozzleRow) : (s.setRow k x).pending = s.pending := rfl
theorem State.updRow_eq (s : State) (k : Nat) (f : NozzleRow → NozzleRow) : s.updRow k f = s.setRow k (f (s.row k)) := rfl
@[simp] theorem State.setFb_power (s : State) (k : Nat) (x : Fb) : (s.setFb k x).power = s.power := rfl
@[simp] theorem State.setFb_tb (s : State) (k : Nat) (x : Fb) : (s.setFb k x).tb = s.tb := rfl
@[simp] theorem State.setFb_refs (s : State) (k : Nat) (x : Fb) : (s.setFb k x).refs = s.refs := rfl
@[simp] theorem State.setFb_link (s : State) (k : Nat) (x : Fb) : (s.setFb k x).link = s.link := rfl
@[simp] theorem State.setFb_fns (s : State) (k : Nat) (x : Fb) : (s.setFb k x).fns = s.fns := rfl
@[simp] theorem State.setFb_regs (s : State) (k : Nat) (x : Fb) : (s.setFb k x).regs = s.regs := rfl
@[simp] theorem State.setFb_grants (s : State) (k : Nat) (x : Fb) : (s.setFb k x).grants = s.grants := rfl
@[simp] theorem State.setFb_commit (s : State) (k : Nat) (x : Fb) : (s.setFb k x).commit = s.commit := rfl
@[simp] theorem State.setFb_irqPend (s : State) (k : Nat) (x : Fb) : (s.setFb k x).irqPend = s.irqPend := rfl
@[simp] theorem State.setFb_tns (s : State) (k : Nat) (x : Fb) : (s.setFb k x).tns = s.tns := rfl
@[simp] theorem State.setFb_sqs (s : State) (k : Nat) (x : Fb) : (s.setFb k x).sqs = s.sqs := rfl
@[simp] theorem State.setFb_cqs (s : State) (k : Nat) (x : Fb) : (s.setFb k x).cqs = s.cqs := rfl
@[simp] theorem State.setFb_jobs (s : State) (k : Nat) (x : Fb) : (s.setFb k x).jobs = s.jobs := rfl
@[simp] theorem State.setFb_nextId (s : State) (k : Nat) (x : Fb) : (s.setFb k x).nextId = s.nextId := rfl
@[simp] theorem State.setFb_ks (s : State) (k : Nat) (x : Fb) : (s.setFb k x).ks = s.ks := rfl
@[simp] theorem State.setFb_queues (s : State) (k : Nat) (x : Fb) : (s.setFb k x).queues = s.queues := rfl
@[simp] theorem State.setFb_deck (s : State) (k : Nat) (x : Fb) : (s.setFb k x).deck = s.deck := rfl
@[simp] theorem State.setFb_scrub (s : State) (k : Nat) (x : Fb) : (s.setFb k x).scrub = s.scrub := rfl
@[simp] theorem State.setFb_cams (s : State) (k : Nat) (x : Fb) : (s.setFb k x).cams = s.cams := rfl
@[simp] theorem State.setFb_vcs (s : State) (k : Nat) (x : Fb) : (s.setFb k x).vcs = s.vcs := rfl
@[simp] theorem State.setFb_pipes (s : State) (k : Nat) (x : Fb) : (s.setFb k x).pipes = s.pipes := rfl
@[simp] theorem State.setFb_trackReuse (s : State) (k : Nat) (x : Fb) : (s.setFb k x).trackReuse = s.trackReuse := rfl
@[simp] theorem State.setFb_valves (s : State) (k : Nat) (x : Fb) : (s.setFb k x).valves = s.valves := rfl
@[simp] theorem State.setFb_rows (s : State) (k : Nat) (x : Fb) : (s.setFb k x).rows = s.rows := rfl
@[simp] theorem State.setFb_wheel (s : State) (k : Nat) (x : Fb) : (s.setFb k x).wheel = s.wheel := rfl
@[simp] theorem State.setFb_ring (s : State) (k : Nat) (x : Fb) : (s.setFb k x).ring = s.ring := rfl
@[simp] theorem State.setFb_pubOn (s : State) (k : Nat) (x : Fb) : (s.setFb k x).pubOn = s.pubOn := rfl
@[simp] theorem State.setFb_pubRec (s : State) (k : Nat) (x : Fb) : (s.setFb k x).pubRec = s.pubRec := rfl
@[simp] theorem State.setFb_fbs (s : State) (k : Nat) (x : Fb) : (s.setFb k x).fbs = storePut (fun _ => Fb.reset) s.fbs k x := rfl
@[simp] theorem State.setFb_emus (s : State) (k : Nat) (x : Fb) : (s.setFb k x).emus = s.emus := rfl
@[simp] theorem State.setFb_axes (s : State) (k : Nat) (x : Fb) : (s.setFb k x).axes = s.axes := rfl
@[simp] theorem State.setFb_piers (s : State) (k : Nat) (x : Fb) : (s.setFb k x).piers = s.piers := rfl
@[simp] theorem State.setFb_groups (s : State) (k : Nat) (x : Fb) : (s.setFb k x).groups = s.groups := rfl
@[simp] theorem State.setFb_stays (s : State) (k : Nat) (x : Fb) : (s.setFb k x).stays = s.stays := rfl
@[simp] theorem State.setFb_camTabs (s : State) (k : Nat) (x : Fb) : (s.setFb k x).camTabs = s.camTabs := rfl
@[simp] theorem State.setFb_latches (s : State) (k : Nat) (x : Fb) : (s.setFb k x).latches = s.latches := rfl
@[simp] theorem State.setFb_probeCnts (s : State) (k : Nat) (x : Fb) : (s.setFb k x).probeCnts = s.probeCnts := rfl
@[simp] theorem State.setFb_sgs (s : State) (k : Nat) (x : Fb) : (s.setFb k x).sgs = s.sgs := rfl
@[simp] theorem State.setFb_limLevels (s : State) (k : Nat) (x : Fb) : (s.setFb k x).limLevels = s.limLevels := rfl
@[simp] theorem State.setFb_pwms (s : State) (k : Nat) (x : Fb) : (s.setFb k x).pwms = s.pwms := rfl
@[simp] theorem State.setFb_stages (s : State) (k : Nat) (x : Fb) : (s.setFb k x).stages = s.stages := rfl
@[simp] theorem State.setFb_auxs (s : State) (k : Nat) (x : Fb) : (s.setFb k x).auxs = s.auxs := rfl
@[simp] theorem State.setFb_footings (s : State) (k : Nat) (x : Fb) : (s.setFb k x).footings = s.footings := rfl
@[simp] theorem State.setFb_cans (s : State) (k : Nat) (x : Fb) : (s.setFb k x).cans = s.cans := rfl
@[simp] theorem State.setFb_pp (s : State) (k : Nat) (x : Fb) : (s.setFb k x).pp = s.pp := rfl
@[simp] theorem State.setFb_fw (s : State) (k : Nat) (x : Fb) : (s.setFb k x).fw = s.fw := rfl
@[simp] theorem State.setFb_life (s : State) (k : Nat) (x : Fb) : (s.setFb k x).life = s.life := rfl
@[simp] theorem State.setFb_out (s : State) (k : Nat) (x : Fb) : (s.setFb k x).out = s.out := rfl
@[simp] theorem State.setFb_freeCtr (s : State) (k : Nat) (x : Fb) : (s.setFb k x).freeCtr = s.freeCtr := rfl
@[simp] theorem State.setFb_pending (s : State) (k : Nat) (x : Fb) : (s.setFb k x).pending = s.pending := rfl
theorem State.updFb_eq (s : State) (k : Nat) (f : Fb → Fb) : s.updFb k f = s.setFb k (f (s.fb k)) := rfl
@[simp] theorem State.setEmu_power (s : State) (k : Nat) (x : Emu) : (s.setEmu k x).power = s.power := rfl
@[simp] theorem State.setEmu_tb (s : State) (k : Nat) (x : Emu) : (s.setEmu k x).tb = s.tb := rfl
@[simp] theorem State.setEmu_refs (s : State) (k : Nat) (x : Emu) : (s.setEmu k x).refs = s.refs := rfl
@[simp] theorem State.setEmu_link (s : State) (k : Nat) (x : Emu) : (s.setEmu k x).link = s.link := rfl
@[simp] theorem State.setEmu_fns (s : State) (k : Nat) (x : Emu) : (s.setEmu k x).fns = s.fns := rfl
@[simp] theorem State.setEmu_regs (s : State) (k : Nat) (x : Emu) : (s.setEmu k x).regs = s.regs := rfl
@[simp] theorem State.setEmu_grants (s : State) (k : Nat) (x : Emu) : (s.setEmu k x).grants = s.grants := rfl
@[simp] theorem State.setEmu_commit (s : State) (k : Nat) (x : Emu) : (s.setEmu k x).commit = s.commit := rfl
@[simp] theorem State.setEmu_irqPend (s : State) (k : Nat) (x : Emu) : (s.setEmu k x).irqPend = s.irqPend := rfl
@[simp] theorem State.setEmu_tns (s : State) (k : Nat) (x : Emu) : (s.setEmu k x).tns = s.tns := rfl
@[simp] theorem State.setEmu_sqs (s : State) (k : Nat) (x : Emu) : (s.setEmu k x).sqs = s.sqs := rfl
@[simp] theorem State.setEmu_cqs (s : State) (k : Nat) (x : Emu) : (s.setEmu k x).cqs = s.cqs := rfl
@[simp] theorem State.setEmu_jobs (s : State) (k : Nat) (x : Emu) : (s.setEmu k x).jobs = s.jobs := rfl
@[simp] theorem State.setEmu_nextId (s : State) (k : Nat) (x : Emu) : (s.setEmu k x).nextId = s.nextId := rfl
@[simp] theorem State.setEmu_ks (s : State) (k : Nat) (x : Emu) : (s.setEmu k x).ks = s.ks := rfl
@[simp] theorem State.setEmu_queues (s : State) (k : Nat) (x : Emu) : (s.setEmu k x).queues = s.queues := rfl
@[simp] theorem State.setEmu_deck (s : State) (k : Nat) (x : Emu) : (s.setEmu k x).deck = s.deck := rfl
@[simp] theorem State.setEmu_scrub (s : State) (k : Nat) (x : Emu) : (s.setEmu k x).scrub = s.scrub := rfl
@[simp] theorem State.setEmu_cams (s : State) (k : Nat) (x : Emu) : (s.setEmu k x).cams = s.cams := rfl
@[simp] theorem State.setEmu_vcs (s : State) (k : Nat) (x : Emu) : (s.setEmu k x).vcs = s.vcs := rfl
@[simp] theorem State.setEmu_pipes (s : State) (k : Nat) (x : Emu) : (s.setEmu k x).pipes = s.pipes := rfl
@[simp] theorem State.setEmu_trackReuse (s : State) (k : Nat) (x : Emu) : (s.setEmu k x).trackReuse = s.trackReuse := rfl
@[simp] theorem State.setEmu_valves (s : State) (k : Nat) (x : Emu) : (s.setEmu k x).valves = s.valves := rfl
@[simp] theorem State.setEmu_rows (s : State) (k : Nat) (x : Emu) : (s.setEmu k x).rows = s.rows := rfl
@[simp] theorem State.setEmu_wheel (s : State) (k : Nat) (x : Emu) : (s.setEmu k x).wheel = s.wheel := rfl
@[simp] theorem State.setEmu_ring (s : State) (k : Nat) (x : Emu) : (s.setEmu k x).ring = s.ring := rfl
@[simp] theorem State.setEmu_pubOn (s : State) (k : Nat) (x : Emu) : (s.setEmu k x).pubOn = s.pubOn := rfl
@[simp] theorem State.setEmu_pubRec (s : State) (k : Nat) (x : Emu) : (s.setEmu k x).pubRec = s.pubRec := rfl
@[simp] theorem State.setEmu_fbs (s : State) (k : Nat) (x : Emu) : (s.setEmu k x).fbs = s.fbs := rfl
@[simp] theorem State.setEmu_emus (s : State) (k : Nat) (x : Emu) : (s.setEmu k x).emus = storePut (fun _ => Emu.reset) s.emus k x := rfl
@[simp] theorem State.setEmu_axes (s : State) (k : Nat) (x : Emu) : (s.setEmu k x).axes = s.axes := rfl
@[simp] theorem State.setEmu_piers (s : State) (k : Nat) (x : Emu) : (s.setEmu k x).piers = s.piers := rfl
@[simp] theorem State.setEmu_groups (s : State) (k : Nat) (x : Emu) : (s.setEmu k x).groups = s.groups := rfl
@[simp] theorem State.setEmu_stays (s : State) (k : Nat) (x : Emu) : (s.setEmu k x).stays = s.stays := rfl
@[simp] theorem State.setEmu_camTabs (s : State) (k : Nat) (x : Emu) : (s.setEmu k x).camTabs = s.camTabs := rfl
@[simp] theorem State.setEmu_latches (s : State) (k : Nat) (x : Emu) : (s.setEmu k x).latches = s.latches := rfl
@[simp] theorem State.setEmu_probeCnts (s : State) (k : Nat) (x : Emu) : (s.setEmu k x).probeCnts = s.probeCnts := rfl
@[simp] theorem State.setEmu_sgs (s : State) (k : Nat) (x : Emu) : (s.setEmu k x).sgs = s.sgs := rfl
@[simp] theorem State.setEmu_limLevels (s : State) (k : Nat) (x : Emu) : (s.setEmu k x).limLevels = s.limLevels := rfl
@[simp] theorem State.setEmu_pwms (s : State) (k : Nat) (x : Emu) : (s.setEmu k x).pwms = s.pwms := rfl
@[simp] theorem State.setEmu_stages (s : State) (k : Nat) (x : Emu) : (s.setEmu k x).stages = s.stages := rfl
@[simp] theorem State.setEmu_auxs (s : State) (k : Nat) (x : Emu) : (s.setEmu k x).auxs = s.auxs := rfl
@[simp] theorem State.setEmu_footings (s : State) (k : Nat) (x : Emu) : (s.setEmu k x).footings = s.footings := rfl
@[simp] theorem State.setEmu_cans (s : State) (k : Nat) (x : Emu) : (s.setEmu k x).cans = s.cans := rfl
@[simp] theorem State.setEmu_pp (s : State) (k : Nat) (x : Emu) : (s.setEmu k x).pp = s.pp := rfl
@[simp] theorem State.setEmu_fw (s : State) (k : Nat) (x : Emu) : (s.setEmu k x).fw = s.fw := rfl
@[simp] theorem State.setEmu_life (s : State) (k : Nat) (x : Emu) : (s.setEmu k x).life = s.life := rfl
@[simp] theorem State.setEmu_out (s : State) (k : Nat) (x : Emu) : (s.setEmu k x).out = s.out := rfl
@[simp] theorem State.setEmu_freeCtr (s : State) (k : Nat) (x : Emu) : (s.setEmu k x).freeCtr = s.freeCtr := rfl
@[simp] theorem State.setEmu_pending (s : State) (k : Nat) (x : Emu) : (s.setEmu k x).pending = s.pending := rfl
theorem State.updEmu_eq (s : State) (k : Nat) (f : Emu → Emu) : s.updEmu k f = s.setEmu k (f (s.emu k)) := rfl
@[simp] theorem State.setAxis_power (s : State) (k : Nat) (x : Axis) : (s.setAxis k x).power = s.power := rfl
@[simp] theorem State.setAxis_tb (s : State) (k : Nat) (x : Axis) : (s.setAxis k x).tb = s.tb := rfl
@[simp] theorem State.setAxis_refs (s : State) (k : Nat) (x : Axis) : (s.setAxis k x).refs = s.refs := rfl
@[simp] theorem State.setAxis_link (s : State) (k : Nat) (x : Axis) : (s.setAxis k x).link = s.link := rfl
@[simp] theorem State.setAxis_fns (s : State) (k : Nat) (x : Axis) : (s.setAxis k x).fns = s.fns := rfl
@[simp] theorem State.setAxis_regs (s : State) (k : Nat) (x : Axis) : (s.setAxis k x).regs = s.regs := rfl
@[simp] theorem State.setAxis_grants (s : State) (k : Nat) (x : Axis) : (s.setAxis k x).grants = s.grants := rfl
@[simp] theorem State.setAxis_commit (s : State) (k : Nat) (x : Axis) : (s.setAxis k x).commit = s.commit := rfl
@[simp] theorem State.setAxis_irqPend (s : State) (k : Nat) (x : Axis) : (s.setAxis k x).irqPend = s.irqPend := rfl
@[simp] theorem State.setAxis_tns (s : State) (k : Nat) (x : Axis) : (s.setAxis k x).tns = s.tns := rfl
@[simp] theorem State.setAxis_sqs (s : State) (k : Nat) (x : Axis) : (s.setAxis k x).sqs = s.sqs := rfl
@[simp] theorem State.setAxis_cqs (s : State) (k : Nat) (x : Axis) : (s.setAxis k x).cqs = s.cqs := rfl
@[simp] theorem State.setAxis_jobs (s : State) (k : Nat) (x : Axis) : (s.setAxis k x).jobs = s.jobs := rfl
@[simp] theorem State.setAxis_nextId (s : State) (k : Nat) (x : Axis) : (s.setAxis k x).nextId = s.nextId := rfl
@[simp] theorem State.setAxis_ks (s : State) (k : Nat) (x : Axis) : (s.setAxis k x).ks = s.ks := rfl
@[simp] theorem State.setAxis_queues (s : State) (k : Nat) (x : Axis) : (s.setAxis k x).queues = s.queues := rfl
@[simp] theorem State.setAxis_deck (s : State) (k : Nat) (x : Axis) : (s.setAxis k x).deck = s.deck := rfl
@[simp] theorem State.setAxis_scrub (s : State) (k : Nat) (x : Axis) : (s.setAxis k x).scrub = s.scrub := rfl
@[simp] theorem State.setAxis_cams (s : State) (k : Nat) (x : Axis) : (s.setAxis k x).cams = s.cams := rfl
@[simp] theorem State.setAxis_vcs (s : State) (k : Nat) (x : Axis) : (s.setAxis k x).vcs = s.vcs := rfl
@[simp] theorem State.setAxis_pipes (s : State) (k : Nat) (x : Axis) : (s.setAxis k x).pipes = s.pipes := rfl
@[simp] theorem State.setAxis_trackReuse (s : State) (k : Nat) (x : Axis) : (s.setAxis k x).trackReuse = s.trackReuse := rfl
@[simp] theorem State.setAxis_valves (s : State) (k : Nat) (x : Axis) : (s.setAxis k x).valves = s.valves := rfl
@[simp] theorem State.setAxis_rows (s : State) (k : Nat) (x : Axis) : (s.setAxis k x).rows = s.rows := rfl
@[simp] theorem State.setAxis_wheel (s : State) (k : Nat) (x : Axis) : (s.setAxis k x).wheel = s.wheel := rfl
@[simp] theorem State.setAxis_ring (s : State) (k : Nat) (x : Axis) : (s.setAxis k x).ring = s.ring := rfl
@[simp] theorem State.setAxis_pubOn (s : State) (k : Nat) (x : Axis) : (s.setAxis k x).pubOn = s.pubOn := rfl
@[simp] theorem State.setAxis_pubRec (s : State) (k : Nat) (x : Axis) : (s.setAxis k x).pubRec = s.pubRec := rfl
@[simp] theorem State.setAxis_fbs (s : State) (k : Nat) (x : Axis) : (s.setAxis k x).fbs = s.fbs := rfl
@[simp] theorem State.setAxis_emus (s : State) (k : Nat) (x : Axis) : (s.setAxis k x).emus = s.emus := rfl
@[simp] theorem State.setAxis_axes (s : State) (k : Nat) (x : Axis) : (s.setAxis k x).axes = storePut (fun _ => Axis.reset) s.axes k x := rfl
@[simp] theorem State.setAxis_piers (s : State) (k : Nat) (x : Axis) : (s.setAxis k x).piers = s.piers := rfl
@[simp] theorem State.setAxis_groups (s : State) (k : Nat) (x : Axis) : (s.setAxis k x).groups = s.groups := rfl
@[simp] theorem State.setAxis_stays (s : State) (k : Nat) (x : Axis) : (s.setAxis k x).stays = s.stays := rfl
@[simp] theorem State.setAxis_camTabs (s : State) (k : Nat) (x : Axis) : (s.setAxis k x).camTabs = s.camTabs := rfl
@[simp] theorem State.setAxis_latches (s : State) (k : Nat) (x : Axis) : (s.setAxis k x).latches = s.latches := rfl
@[simp] theorem State.setAxis_probeCnts (s : State) (k : Nat) (x : Axis) : (s.setAxis k x).probeCnts = s.probeCnts := rfl
@[simp] theorem State.setAxis_sgs (s : State) (k : Nat) (x : Axis) : (s.setAxis k x).sgs = s.sgs := rfl
@[simp] theorem State.setAxis_limLevels (s : State) (k : Nat) (x : Axis) : (s.setAxis k x).limLevels = s.limLevels := rfl
@[simp] theorem State.setAxis_pwms (s : State) (k : Nat) (x : Axis) : (s.setAxis k x).pwms = s.pwms := rfl
@[simp] theorem State.setAxis_stages (s : State) (k : Nat) (x : Axis) : (s.setAxis k x).stages = s.stages := rfl
@[simp] theorem State.setAxis_auxs (s : State) (k : Nat) (x : Axis) : (s.setAxis k x).auxs = s.auxs := rfl
@[simp] theorem State.setAxis_footings (s : State) (k : Nat) (x : Axis) : (s.setAxis k x).footings = s.footings := rfl
@[simp] theorem State.setAxis_cans (s : State) (k : Nat) (x : Axis) : (s.setAxis k x).cans = s.cans := rfl
@[simp] theorem State.setAxis_pp (s : State) (k : Nat) (x : Axis) : (s.setAxis k x).pp = s.pp := rfl
@[simp] theorem State.setAxis_fw (s : State) (k : Nat) (x : Axis) : (s.setAxis k x).fw = s.fw := rfl
@[simp] theorem State.setAxis_life (s : State) (k : Nat) (x : Axis) : (s.setAxis k x).life = s.life := rfl
@[simp] theorem State.setAxis_out (s : State) (k : Nat) (x : Axis) : (s.setAxis k x).out = s.out := rfl
@[simp] theorem State.setAxis_freeCtr (s : State) (k : Nat) (x : Axis) : (s.setAxis k x).freeCtr = s.freeCtr := rfl
@[simp] theorem State.setAxis_pending (s : State) (k : Nat) (x : Axis) : (s.setAxis k x).pending = s.pending := rfl
theorem State.updAxis_eq (s : State) (k : Nat) (f : Axis → Axis) : s.updAxis k f = s.setAxis k (f (s.axis k)) := rfl
@[simp] theorem State.setPier_power (s : State) (k : Nat) (x : Pier) : (s.setPier k x).power = s.power := rfl
@[simp] theorem State.setPier_tb (s : State) (k : Nat) (x : Pier) : (s.setPier k x).tb = s.tb := rfl
@[simp] theorem State.setPier_refs (s : State) (k : Nat) (x : Pier) : (s.setPier k x).refs = s.refs := rfl
@[simp] theorem State.setPier_link (s : State) (k : Nat) (x : Pier) : (s.setPier k x).link = s.link := rfl
@[simp] theorem State.setPier_fns (s : State) (k : Nat) (x : Pier) : (s.setPier k x).fns = s.fns := rfl
@[simp] theorem State.setPier_regs (s : State) (k : Nat) (x : Pier) : (s.setPier k x).regs = s.regs := rfl
@[simp] theorem State.setPier_grants (s : State) (k : Nat) (x : Pier) : (s.setPier k x).grants = s.grants := rfl
@[simp] theorem State.setPier_commit (s : State) (k : Nat) (x : Pier) : (s.setPier k x).commit = s.commit := rfl
@[simp] theorem State.setPier_irqPend (s : State) (k : Nat) (x : Pier) : (s.setPier k x).irqPend = s.irqPend := rfl
@[simp] theorem State.setPier_tns (s : State) (k : Nat) (x : Pier) : (s.setPier k x).tns = s.tns := rfl
@[simp] theorem State.setPier_sqs (s : State) (k : Nat) (x : Pier) : (s.setPier k x).sqs = s.sqs := rfl
@[simp] theorem State.setPier_cqs (s : State) (k : Nat) (x : Pier) : (s.setPier k x).cqs = s.cqs := rfl
@[simp] theorem State.setPier_jobs (s : State) (k : Nat) (x : Pier) : (s.setPier k x).jobs = s.jobs := rfl
@[simp] theorem State.setPier_nextId (s : State) (k : Nat) (x : Pier) : (s.setPier k x).nextId = s.nextId := rfl
@[simp] theorem State.setPier_ks (s : State) (k : Nat) (x : Pier) : (s.setPier k x).ks = s.ks := rfl
@[simp] theorem State.setPier_queues (s : State) (k : Nat) (x : Pier) : (s.setPier k x).queues = s.queues := rfl
@[simp] theorem State.setPier_deck (s : State) (k : Nat) (x : Pier) : (s.setPier k x).deck = s.deck := rfl
@[simp] theorem State.setPier_scrub (s : State) (k : Nat) (x : Pier) : (s.setPier k x).scrub = s.scrub := rfl
@[simp] theorem State.setPier_cams (s : State) (k : Nat) (x : Pier) : (s.setPier k x).cams = s.cams := rfl
@[simp] theorem State.setPier_vcs (s : State) (k : Nat) (x : Pier) : (s.setPier k x).vcs = s.vcs := rfl
@[simp] theorem State.setPier_pipes (s : State) (k : Nat) (x : Pier) : (s.setPier k x).pipes = s.pipes := rfl
@[simp] theorem State.setPier_trackReuse (s : State) (k : Nat) (x : Pier) : (s.setPier k x).trackReuse = s.trackReuse := rfl
@[simp] theorem State.setPier_valves (s : State) (k : Nat) (x : Pier) : (s.setPier k x).valves = s.valves := rfl
@[simp] theorem State.setPier_rows (s : State) (k : Nat) (x : Pier) : (s.setPier k x).rows = s.rows := rfl
@[simp] theorem State.setPier_wheel (s : State) (k : Nat) (x : Pier) : (s.setPier k x).wheel = s.wheel := rfl
@[simp] theorem State.setPier_ring (s : State) (k : Nat) (x : Pier) : (s.setPier k x).ring = s.ring := rfl
@[simp] theorem State.setPier_pubOn (s : State) (k : Nat) (x : Pier) : (s.setPier k x).pubOn = s.pubOn := rfl
@[simp] theorem State.setPier_pubRec (s : State) (k : Nat) (x : Pier) : (s.setPier k x).pubRec = s.pubRec := rfl
@[simp] theorem State.setPier_fbs (s : State) (k : Nat) (x : Pier) : (s.setPier k x).fbs = s.fbs := rfl
@[simp] theorem State.setPier_emus (s : State) (k : Nat) (x : Pier) : (s.setPier k x).emus = s.emus := rfl
@[simp] theorem State.setPier_axes (s : State) (k : Nat) (x : Pier) : (s.setPier k x).axes = s.axes := rfl
@[simp] theorem State.setPier_piers (s : State) (k : Nat) (x : Pier) : (s.setPier k x).piers = storePut (fun _ => Pier.reset) s.piers k x := rfl
@[simp] theorem State.setPier_groups (s : State) (k : Nat) (x : Pier) : (s.setPier k x).groups = s.groups := rfl
@[simp] theorem State.setPier_stays (s : State) (k : Nat) (x : Pier) : (s.setPier k x).stays = s.stays := rfl
@[simp] theorem State.setPier_camTabs (s : State) (k : Nat) (x : Pier) : (s.setPier k x).camTabs = s.camTabs := rfl
@[simp] theorem State.setPier_latches (s : State) (k : Nat) (x : Pier) : (s.setPier k x).latches = s.latches := rfl
@[simp] theorem State.setPier_probeCnts (s : State) (k : Nat) (x : Pier) : (s.setPier k x).probeCnts = s.probeCnts := rfl
@[simp] theorem State.setPier_sgs (s : State) (k : Nat) (x : Pier) : (s.setPier k x).sgs = s.sgs := rfl
@[simp] theorem State.setPier_limLevels (s : State) (k : Nat) (x : Pier) : (s.setPier k x).limLevels = s.limLevels := rfl
@[simp] theorem State.setPier_pwms (s : State) (k : Nat) (x : Pier) : (s.setPier k x).pwms = s.pwms := rfl
@[simp] theorem State.setPier_stages (s : State) (k : Nat) (x : Pier) : (s.setPier k x).stages = s.stages := rfl
@[simp] theorem State.setPier_auxs (s : State) (k : Nat) (x : Pier) : (s.setPier k x).auxs = s.auxs := rfl
@[simp] theorem State.setPier_footings (s : State) (k : Nat) (x : Pier) : (s.setPier k x).footings = s.footings := rfl
@[simp] theorem State.setPier_cans (s : State) (k : Nat) (x : Pier) : (s.setPier k x).cans = s.cans := rfl
@[simp] theorem State.setPier_pp (s : State) (k : Nat) (x : Pier) : (s.setPier k x).pp = s.pp := rfl
@[simp] theorem State.setPier_fw (s : State) (k : Nat) (x : Pier) : (s.setPier k x).fw = s.fw := rfl
@[simp] theorem State.setPier_life (s : State) (k : Nat) (x : Pier) : (s.setPier k x).life = s.life := rfl
@[simp] theorem State.setPier_out (s : State) (k : Nat) (x : Pier) : (s.setPier k x).out = s.out := rfl
@[simp] theorem State.setPier_freeCtr (s : State) (k : Nat) (x : Pier) : (s.setPier k x).freeCtr = s.freeCtr := rfl
@[simp] theorem State.setPier_pending (s : State) (k : Nat) (x : Pier) : (s.setPier k x).pending = s.pending := rfl
theorem State.updPier_eq (s : State) (k : Nat) (f : Pier → Pier) : s.updPier k f = s.setPier k (f (s.pier k)) := rfl
@[simp] theorem State.setGroup_power (s : State) (k : Nat) (x : Group) : (s.setGroup k x).power = s.power := rfl
@[simp] theorem State.setGroup_tb (s : State) (k : Nat) (x : Group) : (s.setGroup k x).tb = s.tb := rfl
@[simp] theorem State.setGroup_refs (s : State) (k : Nat) (x : Group) : (s.setGroup k x).refs = s.refs := rfl
@[simp] theorem State.setGroup_link (s : State) (k : Nat) (x : Group) : (s.setGroup k x).link = s.link := rfl
@[simp] theorem State.setGroup_fns (s : State) (k : Nat) (x : Group) : (s.setGroup k x).fns = s.fns := rfl
@[simp] theorem State.setGroup_regs (s : State) (k : Nat) (x : Group) : (s.setGroup k x).regs = s.regs := rfl
@[simp] theorem State.setGroup_grants (s : State) (k : Nat) (x : Group) : (s.setGroup k x).grants = s.grants := rfl
@[simp] theorem State.setGroup_commit (s : State) (k : Nat) (x : Group) : (s.setGroup k x).commit = s.commit := rfl
@[simp] theorem State.setGroup_irqPend (s : State) (k : Nat) (x : Group) : (s.setGroup k x).irqPend = s.irqPend := rfl
@[simp] theorem State.setGroup_tns (s : State) (k : Nat) (x : Group) : (s.setGroup k x).tns = s.tns := rfl
@[simp] theorem State.setGroup_sqs (s : State) (k : Nat) (x : Group) : (s.setGroup k x).sqs = s.sqs := rfl
@[simp] theorem State.setGroup_cqs (s : State) (k : Nat) (x : Group) : (s.setGroup k x).cqs = s.cqs := rfl
@[simp] theorem State.setGroup_jobs (s : State) (k : Nat) (x : Group) : (s.setGroup k x).jobs = s.jobs := rfl
@[simp] theorem State.setGroup_nextId (s : State) (k : Nat) (x : Group) : (s.setGroup k x).nextId = s.nextId := rfl
@[simp] theorem State.setGroup_ks (s : State) (k : Nat) (x : Group) : (s.setGroup k x).ks = s.ks := rfl
@[simp] theorem State.setGroup_queues (s : State) (k : Nat) (x : Group) : (s.setGroup k x).queues = s.queues := rfl
@[simp] theorem State.setGroup_deck (s : State) (k : Nat) (x : Group) : (s.setGroup k x).deck = s.deck := rfl
@[simp] theorem State.setGroup_scrub (s : State) (k : Nat) (x : Group) : (s.setGroup k x).scrub = s.scrub := rfl
@[simp] theorem State.setGroup_cams (s : State) (k : Nat) (x : Group) : (s.setGroup k x).cams = s.cams := rfl
@[simp] theorem State.setGroup_vcs (s : State) (k : Nat) (x : Group) : (s.setGroup k x).vcs = s.vcs := rfl
@[simp] theorem State.setGroup_pipes (s : State) (k : Nat) (x : Group) : (s.setGroup k x).pipes = s.pipes := rfl
@[simp] theorem State.setGroup_trackReuse (s : State) (k : Nat) (x : Group) : (s.setGroup k x).trackReuse = s.trackReuse := rfl
@[simp] theorem State.setGroup_valves (s : State) (k : Nat) (x : Group) : (s.setGroup k x).valves = s.valves := rfl
@[simp] theorem State.setGroup_rows (s : State) (k : Nat) (x : Group) : (s.setGroup k x).rows = s.rows := rfl
@[simp] theorem State.setGroup_wheel (s : State) (k : Nat) (x : Group) : (s.setGroup k x).wheel = s.wheel := rfl
@[simp] theorem State.setGroup_ring (s : State) (k : Nat) (x : Group) : (s.setGroup k x).ring = s.ring := rfl
@[simp] theorem State.setGroup_pubOn (s : State) (k : Nat) (x : Group) : (s.setGroup k x).pubOn = s.pubOn := rfl
@[simp] theorem State.setGroup_pubRec (s : State) (k : Nat) (x : Group) : (s.setGroup k x).pubRec = s.pubRec := rfl
@[simp] theorem State.setGroup_fbs (s : State) (k : Nat) (x : Group) : (s.setGroup k x).fbs = s.fbs := rfl
@[simp] theorem State.setGroup_emus (s : State) (k : Nat) (x : Group) : (s.setGroup k x).emus = s.emus := rfl
@[simp] theorem State.setGroup_axes (s : State) (k : Nat) (x : Group) : (s.setGroup k x).axes = s.axes := rfl
@[simp] theorem State.setGroup_piers (s : State) (k : Nat) (x : Group) : (s.setGroup k x).piers = s.piers := rfl
@[simp] theorem State.setGroup_groups (s : State) (k : Nat) (x : Group) : (s.setGroup k x).groups = storePut (fun _ => Group.reset) s.groups k x := rfl
@[simp] theorem State.setGroup_stays (s : State) (k : Nat) (x : Group) : (s.setGroup k x).stays = s.stays := rfl
@[simp] theorem State.setGroup_camTabs (s : State) (k : Nat) (x : Group) : (s.setGroup k x).camTabs = s.camTabs := rfl
@[simp] theorem State.setGroup_latches (s : State) (k : Nat) (x : Group) : (s.setGroup k x).latches = s.latches := rfl
@[simp] theorem State.setGroup_probeCnts (s : State) (k : Nat) (x : Group) : (s.setGroup k x).probeCnts = s.probeCnts := rfl
@[simp] theorem State.setGroup_sgs (s : State) (k : Nat) (x : Group) : (s.setGroup k x).sgs = s.sgs := rfl
@[simp] theorem State.setGroup_limLevels (s : State) (k : Nat) (x : Group) : (s.setGroup k x).limLevels = s.limLevels := rfl
@[simp] theorem State.setGroup_pwms (s : State) (k : Nat) (x : Group) : (s.setGroup k x).pwms = s.pwms := rfl
@[simp] theorem State.setGroup_stages (s : State) (k : Nat) (x : Group) : (s.setGroup k x).stages = s.stages := rfl
@[simp] theorem State.setGroup_auxs (s : State) (k : Nat) (x : Group) : (s.setGroup k x).auxs = s.auxs := rfl
@[simp] theorem State.setGroup_footings (s : State) (k : Nat) (x : Group) : (s.setGroup k x).footings = s.footings := rfl
@[simp] theorem State.setGroup_cans (s : State) (k : Nat) (x : Group) : (s.setGroup k x).cans = s.cans := rfl
@[simp] theorem State.setGroup_pp (s : State) (k : Nat) (x : Group) : (s.setGroup k x).pp = s.pp := rfl
@[simp] theorem State.setGroup_fw (s : State) (k : Nat) (x : Group) : (s.setGroup k x).fw = s.fw := rfl
@[simp] theorem State.setGroup_life (s : State) (k : Nat) (x : Group) : (s.setGroup k x).life = s.life := rfl
@[simp] theorem State.setGroup_out (s : State) (k : Nat) (x : Group) : (s.setGroup k x).out = s.out := rfl
@[simp] theorem State.setGroup_freeCtr (s : State) (k : Nat) (x : Group) : (s.setGroup k x).freeCtr = s.freeCtr := rfl
@[simp] theorem State.setGroup_pending (s : State) (k : Nat) (x : Group) : (s.setGroup k x).pending = s.pending := rfl
theorem State.updGroup_eq (s : State) (k : Nat) (f : Group → Group) : s.updGroup k f = s.setGroup k (f (s.group k)) := rfl
@[simp] theorem State.setStay_power (s : State) (k : Nat) (x : Stay) : (s.setStay k x).power = s.power := rfl
@[simp] theorem State.setStay_tb (s : State) (k : Nat) (x : Stay) : (s.setStay k x).tb = s.tb := rfl
@[simp] theorem State.setStay_refs (s : State) (k : Nat) (x : Stay) : (s.setStay k x).refs = s.refs := rfl
@[simp] theorem State.setStay_link (s : State) (k : Nat) (x : Stay) : (s.setStay k x).link = s.link := rfl
@[simp] theorem State.setStay_fns (s : State) (k : Nat) (x : Stay) : (s.setStay k x).fns = s.fns := rfl
@[simp] theorem State.setStay_regs (s : State) (k : Nat) (x : Stay) : (s.setStay k x).regs = s.regs := rfl
@[simp] theorem State.setStay_grants (s : State) (k : Nat) (x : Stay) : (s.setStay k x).grants = s.grants := rfl
@[simp] theorem State.setStay_commit (s : State) (k : Nat) (x : Stay) : (s.setStay k x).commit = s.commit := rfl
@[simp] theorem State.setStay_irqPend (s : State) (k : Nat) (x : Stay) : (s.setStay k x).irqPend = s.irqPend := rfl
@[simp] theorem State.setStay_tns (s : State) (k : Nat) (x : Stay) : (s.setStay k x).tns = s.tns := rfl
@[simp] theorem State.setStay_sqs (s : State) (k : Nat) (x : Stay) : (s.setStay k x).sqs = s.sqs := rfl
@[simp] theorem State.setStay_cqs (s : State) (k : Nat) (x : Stay) : (s.setStay k x).cqs = s.cqs := rfl
@[simp] theorem State.setStay_jobs (s : State) (k : Nat) (x : Stay) : (s.setStay k x).jobs = s.jobs := rfl
@[simp] theorem State.setStay_nextId (s : State) (k : Nat) (x : Stay) : (s.setStay k x).nextId = s.nextId := rfl
@[simp] theorem State.setStay_ks (s : State) (k : Nat) (x : Stay) : (s.setStay k x).ks = s.ks := rfl
@[simp] theorem State.setStay_queues (s : State) (k : Nat) (x : Stay) : (s.setStay k x).queues = s.queues := rfl
@[simp] theorem State.setStay_deck (s : State) (k : Nat) (x : Stay) : (s.setStay k x).deck = s.deck := rfl
@[simp] theorem State.setStay_scrub (s : State) (k : Nat) (x : Stay) : (s.setStay k x).scrub = s.scrub := rfl
@[simp] theorem State.setStay_cams (s : State) (k : Nat) (x : Stay) : (s.setStay k x).cams = s.cams := rfl
@[simp] theorem State.setStay_vcs (s : State) (k : Nat) (x : Stay) : (s.setStay k x).vcs = s.vcs := rfl
@[simp] theorem State.setStay_pipes (s : State) (k : Nat) (x : Stay) : (s.setStay k x).pipes = s.pipes := rfl
@[simp] theorem State.setStay_trackReuse (s : State) (k : Nat) (x : Stay) : (s.setStay k x).trackReuse = s.trackReuse := rfl
@[simp] theorem State.setStay_valves (s : State) (k : Nat) (x : Stay) : (s.setStay k x).valves = s.valves := rfl
@[simp] theorem State.setStay_rows (s : State) (k : Nat) (x : Stay) : (s.setStay k x).rows = s.rows := rfl
@[simp] theorem State.setStay_wheel (s : State) (k : Nat) (x : Stay) : (s.setStay k x).wheel = s.wheel := rfl
@[simp] theorem State.setStay_ring (s : State) (k : Nat) (x : Stay) : (s.setStay k x).ring = s.ring := rfl
@[simp] theorem State.setStay_pubOn (s : State) (k : Nat) (x : Stay) : (s.setStay k x).pubOn = s.pubOn := rfl
@[simp] theorem State.setStay_pubRec (s : State) (k : Nat) (x : Stay) : (s.setStay k x).pubRec = s.pubRec := rfl
@[simp] theorem State.setStay_fbs (s : State) (k : Nat) (x : Stay) : (s.setStay k x).fbs = s.fbs := rfl
@[simp] theorem State.setStay_emus (s : State) (k : Nat) (x : Stay) : (s.setStay k x).emus = s.emus := rfl
@[simp] theorem State.setStay_axes (s : State) (k : Nat) (x : Stay) : (s.setStay k x).axes = s.axes := rfl
@[simp] theorem State.setStay_piers (s : State) (k : Nat) (x : Stay) : (s.setStay k x).piers = s.piers := rfl
@[simp] theorem State.setStay_groups (s : State) (k : Nat) (x : Stay) : (s.setStay k x).groups = s.groups := rfl
@[simp] theorem State.setStay_stays (s : State) (k : Nat) (x : Stay) : (s.setStay k x).stays = storePut (fun _ => Stay.reset) s.stays k x := rfl
@[simp] theorem State.setStay_camTabs (s : State) (k : Nat) (x : Stay) : (s.setStay k x).camTabs = s.camTabs := rfl
@[simp] theorem State.setStay_latches (s : State) (k : Nat) (x : Stay) : (s.setStay k x).latches = s.latches := rfl
@[simp] theorem State.setStay_probeCnts (s : State) (k : Nat) (x : Stay) : (s.setStay k x).probeCnts = s.probeCnts := rfl
@[simp] theorem State.setStay_sgs (s : State) (k : Nat) (x : Stay) : (s.setStay k x).sgs = s.sgs := rfl
@[simp] theorem State.setStay_limLevels (s : State) (k : Nat) (x : Stay) : (s.setStay k x).limLevels = s.limLevels := rfl
@[simp] theorem State.setStay_pwms (s : State) (k : Nat) (x : Stay) : (s.setStay k x).pwms = s.pwms := rfl
@[simp] theorem State.setStay_stages (s : State) (k : Nat) (x : Stay) : (s.setStay k x).stages = s.stages := rfl
@[simp] theorem State.setStay_auxs (s : State) (k : Nat) (x : Stay) : (s.setStay k x).auxs = s.auxs := rfl
@[simp] theorem State.setStay_footings (s : State) (k : Nat) (x : Stay) : (s.setStay k x).footings = s.footings := rfl
@[simp] theorem State.setStay_cans (s : State) (k : Nat) (x : Stay) : (s.setStay k x).cans = s.cans := rfl
@[simp] theorem State.setStay_pp (s : State) (k : Nat) (x : Stay) : (s.setStay k x).pp = s.pp := rfl
@[simp] theorem State.setStay_fw (s : State) (k : Nat) (x : Stay) : (s.setStay k x).fw = s.fw := rfl
@[simp] theorem State.setStay_life (s : State) (k : Nat) (x : Stay) : (s.setStay k x).life = s.life := rfl
@[simp] theorem State.setStay_out (s : State) (k : Nat) (x : Stay) : (s.setStay k x).out = s.out := rfl
@[simp] theorem State.setStay_freeCtr (s : State) (k : Nat) (x : Stay) : (s.setStay k x).freeCtr = s.freeCtr := rfl
@[simp] theorem State.setStay_pending (s : State) (k : Nat) (x : Stay) : (s.setStay k x).pending = s.pending := rfl
theorem State.updStay_eq (s : State) (k : Nat) (f : Stay → Stay) : s.updStay k f = s.setStay k (f (s.stay k)) := rfl
@[simp] theorem State.setCamTab_power (s : State) (k : Nat) (x : CamTab) : (s.setCamTab k x).power = s.power := rfl
@[simp] theorem State.setCamTab_tb (s : State) (k : Nat) (x : CamTab) : (s.setCamTab k x).tb = s.tb := rfl
@[simp] theorem State.setCamTab_refs (s : State) (k : Nat) (x : CamTab) : (s.setCamTab k x).refs = s.refs := rfl
@[simp] theorem State.setCamTab_link (s : State) (k : Nat) (x : CamTab) : (s.setCamTab k x).link = s.link := rfl
@[simp] theorem State.setCamTab_fns (s : State) (k : Nat) (x : CamTab) : (s.setCamTab k x).fns = s.fns := rfl
@[simp] theorem State.setCamTab_regs (s : State) (k : Nat) (x : CamTab) : (s.setCamTab k x).regs = s.regs := rfl
@[simp] theorem State.setCamTab_grants (s : State) (k : Nat) (x : CamTab) : (s.setCamTab k x).grants = s.grants := rfl
@[simp] theorem State.setCamTab_commit (s : State) (k : Nat) (x : CamTab) : (s.setCamTab k x).commit = s.commit := rfl
@[simp] theorem State.setCamTab_irqPend (s : State) (k : Nat) (x : CamTab) : (s.setCamTab k x).irqPend = s.irqPend := rfl
@[simp] theorem State.setCamTab_tns (s : State) (k : Nat) (x : CamTab) : (s.setCamTab k x).tns = s.tns := rfl
@[simp] theorem State.setCamTab_sqs (s : State) (k : Nat) (x : CamTab) : (s.setCamTab k x).sqs = s.sqs := rfl
@[simp] theorem State.setCamTab_cqs (s : State) (k : Nat) (x : CamTab) : (s.setCamTab k x).cqs = s.cqs := rfl
@[simp] theorem State.setCamTab_jobs (s : State) (k : Nat) (x : CamTab) : (s.setCamTab k x).jobs = s.jobs := rfl
@[simp] theorem State.setCamTab_nextId (s : State) (k : Nat) (x : CamTab) : (s.setCamTab k x).nextId = s.nextId := rfl
@[simp] theorem State.setCamTab_ks (s : State) (k : Nat) (x : CamTab) : (s.setCamTab k x).ks = s.ks := rfl
@[simp] theorem State.setCamTab_queues (s : State) (k : Nat) (x : CamTab) : (s.setCamTab k x).queues = s.queues := rfl
@[simp] theorem State.setCamTab_deck (s : State) (k : Nat) (x : CamTab) : (s.setCamTab k x).deck = s.deck := rfl
@[simp] theorem State.setCamTab_scrub (s : State) (k : Nat) (x : CamTab) : (s.setCamTab k x).scrub = s.scrub := rfl
@[simp] theorem State.setCamTab_cams (s : State) (k : Nat) (x : CamTab) : (s.setCamTab k x).cams = s.cams := rfl
@[simp] theorem State.setCamTab_vcs (s : State) (k : Nat) (x : CamTab) : (s.setCamTab k x).vcs = s.vcs := rfl
@[simp] theorem State.setCamTab_pipes (s : State) (k : Nat) (x : CamTab) : (s.setCamTab k x).pipes = s.pipes := rfl
@[simp] theorem State.setCamTab_trackReuse (s : State) (k : Nat) (x : CamTab) : (s.setCamTab k x).trackReuse = s.trackReuse := rfl
@[simp] theorem State.setCamTab_valves (s : State) (k : Nat) (x : CamTab) : (s.setCamTab k x).valves = s.valves := rfl
@[simp] theorem State.setCamTab_rows (s : State) (k : Nat) (x : CamTab) : (s.setCamTab k x).rows = s.rows := rfl
@[simp] theorem State.setCamTab_wheel (s : State) (k : Nat) (x : CamTab) : (s.setCamTab k x).wheel = s.wheel := rfl
@[simp] theorem State.setCamTab_ring (s : State) (k : Nat) (x : CamTab) : (s.setCamTab k x).ring = s.ring := rfl
@[simp] theorem State.setCamTab_pubOn (s : State) (k : Nat) (x : CamTab) : (s.setCamTab k x).pubOn = s.pubOn := rfl
@[simp] theorem State.setCamTab_pubRec (s : State) (k : Nat) (x : CamTab) : (s.setCamTab k x).pubRec = s.pubRec := rfl
@[simp] theorem State.setCamTab_fbs (s : State) (k : Nat) (x : CamTab) : (s.setCamTab k x).fbs = s.fbs := rfl
@[simp] theorem State.setCamTab_emus (s : State) (k : Nat) (x : CamTab) : (s.setCamTab k x).emus = s.emus := rfl
@[simp] theorem State.setCamTab_axes (s : State) (k : Nat) (x : CamTab) : (s.setCamTab k x).axes = s.axes := rfl
@[simp] theorem State.setCamTab_piers (s : State) (k : Nat) (x : CamTab) : (s.setCamTab k x).piers = s.piers := rfl
@[simp] theorem State.setCamTab_groups (s : State) (k : Nat) (x : CamTab) : (s.setCamTab k x).groups = s.groups := rfl
@[simp] theorem State.setCamTab_stays (s : State) (k : Nat) (x : CamTab) : (s.setCamTab k x).stays = s.stays := rfl
@[simp] theorem State.setCamTab_camTabs (s : State) (k : Nat) (x : CamTab) : (s.setCamTab k x).camTabs = storePut (fun _ => CamTab.reset) s.camTabs k x := rfl
@[simp] theorem State.setCamTab_latches (s : State) (k : Nat) (x : CamTab) : (s.setCamTab k x).latches = s.latches := rfl
@[simp] theorem State.setCamTab_probeCnts (s : State) (k : Nat) (x : CamTab) : (s.setCamTab k x).probeCnts = s.probeCnts := rfl
@[simp] theorem State.setCamTab_sgs (s : State) (k : Nat) (x : CamTab) : (s.setCamTab k x).sgs = s.sgs := rfl
@[simp] theorem State.setCamTab_limLevels (s : State) (k : Nat) (x : CamTab) : (s.setCamTab k x).limLevels = s.limLevels := rfl
@[simp] theorem State.setCamTab_pwms (s : State) (k : Nat) (x : CamTab) : (s.setCamTab k x).pwms = s.pwms := rfl
@[simp] theorem State.setCamTab_stages (s : State) (k : Nat) (x : CamTab) : (s.setCamTab k x).stages = s.stages := rfl
@[simp] theorem State.setCamTab_auxs (s : State) (k : Nat) (x : CamTab) : (s.setCamTab k x).auxs = s.auxs := rfl
@[simp] theorem State.setCamTab_footings (s : State) (k : Nat) (x : CamTab) : (s.setCamTab k x).footings = s.footings := rfl
@[simp] theorem State.setCamTab_cans (s : State) (k : Nat) (x : CamTab) : (s.setCamTab k x).cans = s.cans := rfl
@[simp] theorem State.setCamTab_pp (s : State) (k : Nat) (x : CamTab) : (s.setCamTab k x).pp = s.pp := rfl
@[simp] theorem State.setCamTab_fw (s : State) (k : Nat) (x : CamTab) : (s.setCamTab k x).fw = s.fw := rfl
@[simp] theorem State.setCamTab_life (s : State) (k : Nat) (x : CamTab) : (s.setCamTab k x).life = s.life := rfl
@[simp] theorem State.setCamTab_out (s : State) (k : Nat) (x : CamTab) : (s.setCamTab k x).out = s.out := rfl
@[simp] theorem State.setCamTab_freeCtr (s : State) (k : Nat) (x : CamTab) : (s.setCamTab k x).freeCtr = s.freeCtr := rfl
@[simp] theorem State.setCamTab_pending (s : State) (k : Nat) (x : CamTab) : (s.setCamTab k x).pending = s.pending := rfl
theorem State.updCamTab_eq (s : State) (k : Nat) (f : CamTab → CamTab) : s.updCamTab k f = s.setCamTab k (f (s.camTab k)) := rfl
@[simp] theorem State.setLatch_power (s : State) (k : Nat) (x : Latch) : (s.setLatch k x).power = s.power := rfl
@[simp] theorem State.setLatch_tb (s : State) (k : Nat) (x : Latch) : (s.setLatch k x).tb = s.tb := rfl
@[simp] theorem State.setLatch_refs (s : State) (k : Nat) (x : Latch) : (s.setLatch k x).refs = s.refs := rfl
@[simp] theorem State.setLatch_link (s : State) (k : Nat) (x : Latch) : (s.setLatch k x).link = s.link := rfl
@[simp] theorem State.setLatch_fns (s : State) (k : Nat) (x : Latch) : (s.setLatch k x).fns = s.fns := rfl
@[simp] theorem State.setLatch_regs (s : State) (k : Nat) (x : Latch) : (s.setLatch k x).regs = s.regs := rfl
@[simp] theorem State.setLatch_grants (s : State) (k : Nat) (x : Latch) : (s.setLatch k x).grants = s.grants := rfl
@[simp] theorem State.setLatch_commit (s : State) (k : Nat) (x : Latch) : (s.setLatch k x).commit = s.commit := rfl
@[simp] theorem State.setLatch_irqPend (s : State) (k : Nat) (x : Latch) : (s.setLatch k x).irqPend = s.irqPend := rfl
@[simp] theorem State.setLatch_tns (s : State) (k : Nat) (x : Latch) : (s.setLatch k x).tns = s.tns := rfl
@[simp] theorem State.setLatch_sqs (s : State) (k : Nat) (x : Latch) : (s.setLatch k x).sqs = s.sqs := rfl
@[simp] theorem State.setLatch_cqs (s : State) (k : Nat) (x : Latch) : (s.setLatch k x).cqs = s.cqs := rfl
@[simp] theorem State.setLatch_jobs (s : State) (k : Nat) (x : Latch) : (s.setLatch k x).jobs = s.jobs := rfl
@[simp] theorem State.setLatch_nextId (s : State) (k : Nat) (x : Latch) : (s.setLatch k x).nextId = s.nextId := rfl
@[simp] theorem State.setLatch_ks (s : State) (k : Nat) (x : Latch) : (s.setLatch k x).ks = s.ks := rfl
@[simp] theorem State.setLatch_queues (s : State) (k : Nat) (x : Latch) : (s.setLatch k x).queues = s.queues := rfl
@[simp] theorem State.setLatch_deck (s : State) (k : Nat) (x : Latch) : (s.setLatch k x).deck = s.deck := rfl
@[simp] theorem State.setLatch_scrub (s : State) (k : Nat) (x : Latch) : (s.setLatch k x).scrub = s.scrub := rfl
@[simp] theorem State.setLatch_cams (s : State) (k : Nat) (x : Latch) : (s.setLatch k x).cams = s.cams := rfl
@[simp] theorem State.setLatch_vcs (s : State) (k : Nat) (x : Latch) : (s.setLatch k x).vcs = s.vcs := rfl
@[simp] theorem State.setLatch_pipes (s : State) (k : Nat) (x : Latch) : (s.setLatch k x).pipes = s.pipes := rfl
@[simp] theorem State.setLatch_trackReuse (s : State) (k : Nat) (x : Latch) : (s.setLatch k x).trackReuse = s.trackReuse := rfl
@[simp] theorem State.setLatch_valves (s : State) (k : Nat) (x : Latch) : (s.setLatch k x).valves = s.valves := rfl
@[simp] theorem State.setLatch_rows (s : State) (k : Nat) (x : Latch) : (s.setLatch k x).rows = s.rows := rfl
@[simp] theorem State.setLatch_wheel (s : State) (k : Nat) (x : Latch) : (s.setLatch k x).wheel = s.wheel := rfl
@[simp] theorem State.setLatch_ring (s : State) (k : Nat) (x : Latch) : (s.setLatch k x).ring = s.ring := rfl
@[simp] theorem State.setLatch_pubOn (s : State) (k : Nat) (x : Latch) : (s.setLatch k x).pubOn = s.pubOn := rfl
@[simp] theorem State.setLatch_pubRec (s : State) (k : Nat) (x : Latch) : (s.setLatch k x).pubRec = s.pubRec := rfl
@[simp] theorem State.setLatch_fbs (s : State) (k : Nat) (x : Latch) : (s.setLatch k x).fbs = s.fbs := rfl
@[simp] theorem State.setLatch_emus (s : State) (k : Nat) (x : Latch) : (s.setLatch k x).emus = s.emus := rfl
@[simp] theorem State.setLatch_axes (s : State) (k : Nat) (x : Latch) : (s.setLatch k x).axes = s.axes := rfl
@[simp] theorem State.setLatch_piers (s : State) (k : Nat) (x : Latch) : (s.setLatch k x).piers = s.piers := rfl
@[simp] theorem State.setLatch_groups (s : State) (k : Nat) (x : Latch) : (s.setLatch k x).groups = s.groups := rfl
@[simp] theorem State.setLatch_stays (s : State) (k : Nat) (x : Latch) : (s.setLatch k x).stays = s.stays := rfl
@[simp] theorem State.setLatch_camTabs (s : State) (k : Nat) (x : Latch) : (s.setLatch k x).camTabs = s.camTabs := rfl
@[simp] theorem State.setLatch_latches (s : State) (k : Nat) (x : Latch) : (s.setLatch k x).latches = storePut (fun _ => Latch.reset) s.latches k x := rfl
@[simp] theorem State.setLatch_probeCnts (s : State) (k : Nat) (x : Latch) : (s.setLatch k x).probeCnts = s.probeCnts := rfl
@[simp] theorem State.setLatch_sgs (s : State) (k : Nat) (x : Latch) : (s.setLatch k x).sgs = s.sgs := rfl
@[simp] theorem State.setLatch_limLevels (s : State) (k : Nat) (x : Latch) : (s.setLatch k x).limLevels = s.limLevels := rfl
@[simp] theorem State.setLatch_pwms (s : State) (k : Nat) (x : Latch) : (s.setLatch k x).pwms = s.pwms := rfl
@[simp] theorem State.setLatch_stages (s : State) (k : Nat) (x : Latch) : (s.setLatch k x).stages = s.stages := rfl
@[simp] theorem State.setLatch_auxs (s : State) (k : Nat) (x : Latch) : (s.setLatch k x).auxs = s.auxs := rfl
@[simp] theorem State.setLatch_footings (s : State) (k : Nat) (x : Latch) : (s.setLatch k x).footings = s.footings := rfl
@[simp] theorem State.setLatch_cans (s : State) (k : Nat) (x : Latch) : (s.setLatch k x).cans = s.cans := rfl
@[simp] theorem State.setLatch_pp (s : State) (k : Nat) (x : Latch) : (s.setLatch k x).pp = s.pp := rfl
@[simp] theorem State.setLatch_fw (s : State) (k : Nat) (x : Latch) : (s.setLatch k x).fw = s.fw := rfl
@[simp] theorem State.setLatch_life (s : State) (k : Nat) (x : Latch) : (s.setLatch k x).life = s.life := rfl
@[simp] theorem State.setLatch_out (s : State) (k : Nat) (x : Latch) : (s.setLatch k x).out = s.out := rfl
@[simp] theorem State.setLatch_freeCtr (s : State) (k : Nat) (x : Latch) : (s.setLatch k x).freeCtr = s.freeCtr := rfl
@[simp] theorem State.setLatch_pending (s : State) (k : Nat) (x : Latch) : (s.setLatch k x).pending = s.pending := rfl
theorem State.updLatch_eq (s : State) (k : Nat) (f : Latch → Latch) : s.updLatch k f = s.setLatch k (f (s.latch k)) := rfl
@[simp] theorem State.setSg_power (s : State) (k : Nat) (x : Sg) : (s.setSg k x).power = s.power := rfl
@[simp] theorem State.setSg_tb (s : State) (k : Nat) (x : Sg) : (s.setSg k x).tb = s.tb := rfl
@[simp] theorem State.setSg_refs (s : State) (k : Nat) (x : Sg) : (s.setSg k x).refs = s.refs := rfl
@[simp] theorem State.setSg_link (s : State) (k : Nat) (x : Sg) : (s.setSg k x).link = s.link := rfl
@[simp] theorem State.setSg_fns (s : State) (k : Nat) (x : Sg) : (s.setSg k x).fns = s.fns := rfl
@[simp] theorem State.setSg_regs (s : State) (k : Nat) (x : Sg) : (s.setSg k x).regs = s.regs := rfl
@[simp] theorem State.setSg_grants (s : State) (k : Nat) (x : Sg) : (s.setSg k x).grants = s.grants := rfl
@[simp] theorem State.setSg_commit (s : State) (k : Nat) (x : Sg) : (s.setSg k x).commit = s.commit := rfl
@[simp] theorem State.setSg_irqPend (s : State) (k : Nat) (x : Sg) : (s.setSg k x).irqPend = s.irqPend := rfl
@[simp] theorem State.setSg_tns (s : State) (k : Nat) (x : Sg) : (s.setSg k x).tns = s.tns := rfl
@[simp] theorem State.setSg_sqs (s : State) (k : Nat) (x : Sg) : (s.setSg k x).sqs = s.sqs := rfl
@[simp] theorem State.setSg_cqs (s : State) (k : Nat) (x : Sg) : (s.setSg k x).cqs = s.cqs := rfl
@[simp] theorem State.setSg_jobs (s : State) (k : Nat) (x : Sg) : (s.setSg k x).jobs = s.jobs := rfl
@[simp] theorem State.setSg_nextId (s : State) (k : Nat) (x : Sg) : (s.setSg k x).nextId = s.nextId := rfl
@[simp] theorem State.setSg_ks (s : State) (k : Nat) (x : Sg) : (s.setSg k x).ks = s.ks := rfl
@[simp] theorem State.setSg_queues (s : State) (k : Nat) (x : Sg) : (s.setSg k x).queues = s.queues := rfl
@[simp] theorem State.setSg_deck (s : State) (k : Nat) (x : Sg) : (s.setSg k x).deck = s.deck := rfl
@[simp] theorem State.setSg_scrub (s : State) (k : Nat) (x : Sg) : (s.setSg k x).scrub = s.scrub := rfl
@[simp] theorem State.setSg_cams (s : State) (k : Nat) (x : Sg) : (s.setSg k x).cams = s.cams := rfl
@[simp] theorem State.setSg_vcs (s : State) (k : Nat) (x : Sg) : (s.setSg k x).vcs = s.vcs := rfl
@[simp] theorem State.setSg_pipes (s : State) (k : Nat) (x : Sg) : (s.setSg k x).pipes = s.pipes := rfl
@[simp] theorem State.setSg_trackReuse (s : State) (k : Nat) (x : Sg) : (s.setSg k x).trackReuse = s.trackReuse := rfl
@[simp] theorem State.setSg_valves (s : State) (k : Nat) (x : Sg) : (s.setSg k x).valves = s.valves := rfl
@[simp] theorem State.setSg_rows (s : State) (k : Nat) (x : Sg) : (s.setSg k x).rows = s.rows := rfl
@[simp] theorem State.setSg_wheel (s : State) (k : Nat) (x : Sg) : (s.setSg k x).wheel = s.wheel := rfl
@[simp] theorem State.setSg_ring (s : State) (k : Nat) (x : Sg) : (s.setSg k x).ring = s.ring := rfl
@[simp] theorem State.setSg_pubOn (s : State) (k : Nat) (x : Sg) : (s.setSg k x).pubOn = s.pubOn := rfl
@[simp] theorem State.setSg_pubRec (s : State) (k : Nat) (x : Sg) : (s.setSg k x).pubRec = s.pubRec := rfl
@[simp] theorem State.setSg_fbs (s : State) (k : Nat) (x : Sg) : (s.setSg k x).fbs = s.fbs := rfl
@[simp] theorem State.setSg_emus (s : State) (k : Nat) (x : Sg) : (s.setSg k x).emus = s.emus := rfl
@[simp] theorem State.setSg_axes (s : State) (k : Nat) (x : Sg) : (s.setSg k x).axes = s.axes := rfl
@[simp] theorem State.setSg_piers (s : State) (k : Nat) (x : Sg) : (s.setSg k x).piers = s.piers := rfl
@[simp] theorem State.setSg_groups (s : State) (k : Nat) (x : Sg) : (s.setSg k x).groups = s.groups := rfl
@[simp] theorem State.setSg_stays (s : State) (k : Nat) (x : Sg) : (s.setSg k x).stays = s.stays := rfl
@[simp] theorem State.setSg_camTabs (s : State) (k : Nat) (x : Sg) : (s.setSg k x).camTabs = s.camTabs := rfl
@[simp] theorem State.setSg_latches (s : State) (k : Nat) (x : Sg) : (s.setSg k x).latches = s.latches := rfl
@[simp] theorem State.setSg_probeCnts (s : State) (k : Nat) (x : Sg) : (s.setSg k x).probeCnts = s.probeCnts := rfl
@[simp] theorem State.setSg_sgs (s : State) (k : Nat) (x : Sg) : (s.setSg k x).sgs = storePut (fun _ => Sg.reset) s.sgs k x := rfl
@[simp] theorem State.setSg_limLevels (s : State) (k : Nat) (x : Sg) : (s.setSg k x).limLevels = s.limLevels := rfl
@[simp] theorem State.setSg_pwms (s : State) (k : Nat) (x : Sg) : (s.setSg k x).pwms = s.pwms := rfl
@[simp] theorem State.setSg_stages (s : State) (k : Nat) (x : Sg) : (s.setSg k x).stages = s.stages := rfl
@[simp] theorem State.setSg_auxs (s : State) (k : Nat) (x : Sg) : (s.setSg k x).auxs = s.auxs := rfl
@[simp] theorem State.setSg_footings (s : State) (k : Nat) (x : Sg) : (s.setSg k x).footings = s.footings := rfl
@[simp] theorem State.setSg_cans (s : State) (k : Nat) (x : Sg) : (s.setSg k x).cans = s.cans := rfl
@[simp] theorem State.setSg_pp (s : State) (k : Nat) (x : Sg) : (s.setSg k x).pp = s.pp := rfl
@[simp] theorem State.setSg_fw (s : State) (k : Nat) (x : Sg) : (s.setSg k x).fw = s.fw := rfl
@[simp] theorem State.setSg_life (s : State) (k : Nat) (x : Sg) : (s.setSg k x).life = s.life := rfl
@[simp] theorem State.setSg_out (s : State) (k : Nat) (x : Sg) : (s.setSg k x).out = s.out := rfl
@[simp] theorem State.setSg_freeCtr (s : State) (k : Nat) (x : Sg) : (s.setSg k x).freeCtr = s.freeCtr := rfl
@[simp] theorem State.setSg_pending (s : State) (k : Nat) (x : Sg) : (s.setSg k x).pending = s.pending := rfl
theorem State.updSg_eq (s : State) (k : Nat) (f : Sg → Sg) : s.updSg k f = s.setSg k (f (s.sg k)) := rfl
@[simp] theorem State.setPwm_power (s : State) (k : Nat) (x : Pwm) : (s.setPwm k x).power = s.power := rfl
@[simp] theorem State.setPwm_tb (s : State) (k : Nat) (x : Pwm) : (s.setPwm k x).tb = s.tb := rfl
@[simp] theorem State.setPwm_refs (s : State) (k : Nat) (x : Pwm) : (s.setPwm k x).refs = s.refs := rfl
@[simp] theorem State.setPwm_link (s : State) (k : Nat) (x : Pwm) : (s.setPwm k x).link = s.link := rfl
@[simp] theorem State.setPwm_fns (s : State) (k : Nat) (x : Pwm) : (s.setPwm k x).fns = s.fns := rfl
@[simp] theorem State.setPwm_regs (s : State) (k : Nat) (x : Pwm) : (s.setPwm k x).regs = s.regs := rfl
@[simp] theorem State.setPwm_grants (s : State) (k : Nat) (x : Pwm) : (s.setPwm k x).grants = s.grants := rfl
@[simp] theorem State.setPwm_commit (s : State) (k : Nat) (x : Pwm) : (s.setPwm k x).commit = s.commit := rfl
@[simp] theorem State.setPwm_irqPend (s : State) (k : Nat) (x : Pwm) : (s.setPwm k x).irqPend = s.irqPend := rfl
@[simp] theorem State.setPwm_tns (s : State) (k : Nat) (x : Pwm) : (s.setPwm k x).tns = s.tns := rfl
@[simp] theorem State.setPwm_sqs (s : State) (k : Nat) (x : Pwm) : (s.setPwm k x).sqs = s.sqs := rfl
@[simp] theorem State.setPwm_cqs (s : State) (k : Nat) (x : Pwm) : (s.setPwm k x).cqs = s.cqs := rfl
@[simp] theorem State.setPwm_jobs (s : State) (k : Nat) (x : Pwm) : (s.setPwm k x).jobs = s.jobs := rfl
@[simp] theorem State.setPwm_nextId (s : State) (k : Nat) (x : Pwm) : (s.setPwm k x).nextId = s.nextId := rfl
@[simp] theorem State.setPwm_ks (s : State) (k : Nat) (x : Pwm) : (s.setPwm k x).ks = s.ks := rfl
@[simp] theorem State.setPwm_queues (s : State) (k : Nat) (x : Pwm) : (s.setPwm k x).queues = s.queues := rfl
@[simp] theorem State.setPwm_deck (s : State) (k : Nat) (x : Pwm) : (s.setPwm k x).deck = s.deck := rfl
@[simp] theorem State.setPwm_scrub (s : State) (k : Nat) (x : Pwm) : (s.setPwm k x).scrub = s.scrub := rfl
@[simp] theorem State.setPwm_cams (s : State) (k : Nat) (x : Pwm) : (s.setPwm k x).cams = s.cams := rfl
@[simp] theorem State.setPwm_vcs (s : State) (k : Nat) (x : Pwm) : (s.setPwm k x).vcs = s.vcs := rfl
@[simp] theorem State.setPwm_pipes (s : State) (k : Nat) (x : Pwm) : (s.setPwm k x).pipes = s.pipes := rfl
@[simp] theorem State.setPwm_trackReuse (s : State) (k : Nat) (x : Pwm) : (s.setPwm k x).trackReuse = s.trackReuse := rfl
@[simp] theorem State.setPwm_valves (s : State) (k : Nat) (x : Pwm) : (s.setPwm k x).valves = s.valves := rfl
@[simp] theorem State.setPwm_rows (s : State) (k : Nat) (x : Pwm) : (s.setPwm k x).rows = s.rows := rfl
@[simp] theorem State.setPwm_wheel (s : State) (k : Nat) (x : Pwm) : (s.setPwm k x).wheel = s.wheel := rfl
@[simp] theorem State.setPwm_ring (s : State) (k : Nat) (x : Pwm) : (s.setPwm k x).ring = s.ring := rfl
@[simp] theorem State.setPwm_pubOn (s : State) (k : Nat) (x : Pwm) : (s.setPwm k x).pubOn = s.pubOn := rfl
@[simp] theorem State.setPwm_pubRec (s : State) (k : Nat) (x : Pwm) : (s.setPwm k x).pubRec = s.pubRec := rfl
@[simp] theorem State.setPwm_fbs (s : State) (k : Nat) (x : Pwm) : (s.setPwm k x).fbs = s.fbs := rfl
@[simp] theorem State.setPwm_emus (s : State) (k : Nat) (x : Pwm) : (s.setPwm k x).emus = s.emus := rfl
@[simp] theorem State.setPwm_axes (s : State) (k : Nat) (x : Pwm) : (s.setPwm k x).axes = s.axes := rfl
@[simp] theorem State.setPwm_piers (s : State) (k : Nat) (x : Pwm) : (s.setPwm k x).piers = s.piers := rfl
@[simp] theorem State.setPwm_groups (s : State) (k : Nat) (x : Pwm) : (s.setPwm k x).groups = s.groups := rfl
@[simp] theorem State.setPwm_stays (s : State) (k : Nat) (x : Pwm) : (s.setPwm k x).stays = s.stays := rfl
@[simp] theorem State.setPwm_camTabs (s : State) (k : Nat) (x : Pwm) : (s.setPwm k x).camTabs = s.camTabs := rfl
@[simp] theorem State.setPwm_latches (s : State) (k : Nat) (x : Pwm) : (s.setPwm k x).latches = s.latches := rfl
@[simp] theorem State.setPwm_probeCnts (s : State) (k : Nat) (x : Pwm) : (s.setPwm k x).probeCnts = s.probeCnts := rfl
@[simp] theorem State.setPwm_sgs (s : State) (k : Nat) (x : Pwm) : (s.setPwm k x).sgs = s.sgs := rfl
@[simp] theorem State.setPwm_limLevels (s : State) (k : Nat) (x : Pwm) : (s.setPwm k x).limLevels = s.limLevels := rfl
@[simp] theorem State.setPwm_pwms (s : State) (k : Nat) (x : Pwm) : (s.setPwm k x).pwms = storePut (fun _ => Pwm.reset) s.pwms k x := rfl
@[simp] theorem State.setPwm_stages (s : State) (k : Nat) (x : Pwm) : (s.setPwm k x).stages = s.stages := rfl
@[simp] theorem State.setPwm_auxs (s : State) (k : Nat) (x : Pwm) : (s.setPwm k x).auxs = s.auxs := rfl
@[simp] theorem State.setPwm_footings (s : State) (k : Nat) (x : Pwm) : (s.setPwm k x).footings = s.footings := rfl
@[simp] theorem State.setPwm_cans (s : State) (k : Nat) (x : Pwm) : (s.setPwm k x).cans = s.cans := rfl
@[simp] theorem State.setPwm_pp (s : State) (k : Nat) (x : Pwm) : (s.setPwm k x).pp = s.pp := rfl
@[simp] theorem State.setPwm_fw (s : State) (k : Nat) (x : Pwm) : (s.setPwm k x).fw = s.fw := rfl
@[simp] theorem State.setPwm_life (s : State) (k : Nat) (x : Pwm) : (s.setPwm k x).life = s.life := rfl
@[simp] theorem State.setPwm_out (s : State) (k : Nat) (x : Pwm) : (s.setPwm k x).out = s.out := rfl
@[simp] theorem State.setPwm_freeCtr (s : State) (k : Nat) (x : Pwm) : (s.setPwm k x).freeCtr = s.freeCtr := rfl
@[simp] theorem State.setPwm_pending (s : State) (k : Nat) (x : Pwm) : (s.setPwm k x).pending = s.pending := rfl
theorem State.updPwm_eq (s : State) (k : Nat) (f : Pwm → Pwm) : s.updPwm k f = s.setPwm k (f (s.pwm k)) := rfl
@[simp] theorem State.setStage_power (s : State) (k : Nat) (x : Stage) : (s.setStage k x).power = s.power := rfl
@[simp] theorem State.setStage_tb (s : State) (k : Nat) (x : Stage) : (s.setStage k x).tb = s.tb := rfl
@[simp] theorem State.setStage_refs (s : State) (k : Nat) (x : Stage) : (s.setStage k x).refs = s.refs := rfl
@[simp] theorem State.setStage_link (s : State) (k : Nat) (x : Stage) : (s.setStage k x).link = s.link := rfl
@[simp] theorem State.setStage_fns (s : State) (k : Nat) (x : Stage) : (s.setStage k x).fns = s.fns := rfl
@[simp] theorem State.setStage_regs (s : State) (k : Nat) (x : Stage) : (s.setStage k x).regs = s.regs := rfl
@[simp] theorem State.setStage_grants (s : State) (k : Nat) (x : Stage) : (s.setStage k x).grants = s.grants := rfl
@[simp] theorem State.setStage_commit (s : State) (k : Nat) (x : Stage) : (s.setStage k x).commit = s.commit := rfl
@[simp] theorem State.setStage_irqPend (s : State) (k : Nat) (x : Stage) : (s.setStage k x).irqPend = s.irqPend := rfl
@[simp] theorem State.setStage_tns (s : State) (k : Nat) (x : Stage) : (s.setStage k x).tns = s.tns := rfl
@[simp] theorem State.setStage_sqs (s : State) (k : Nat) (x : Stage) : (s.setStage k x).sqs = s.sqs := rfl
@[simp] theorem State.setStage_cqs (s : State) (k : Nat) (x : Stage) : (s.setStage k x).cqs = s.cqs := rfl
@[simp] theorem State.setStage_jobs (s : State) (k : Nat) (x : Stage) : (s.setStage k x).jobs = s.jobs := rfl
@[simp] theorem State.setStage_nextId (s : State) (k : Nat) (x : Stage) : (s.setStage k x).nextId = s.nextId := rfl
@[simp] theorem State.setStage_ks (s : State) (k : Nat) (x : Stage) : (s.setStage k x).ks = s.ks := rfl
@[simp] theorem State.setStage_queues (s : State) (k : Nat) (x : Stage) : (s.setStage k x).queues = s.queues := rfl
@[simp] theorem State.setStage_deck (s : State) (k : Nat) (x : Stage) : (s.setStage k x).deck = s.deck := rfl
@[simp] theorem State.setStage_scrub (s : State) (k : Nat) (x : Stage) : (s.setStage k x).scrub = s.scrub := rfl
@[simp] theorem State.setStage_cams (s : State) (k : Nat) (x : Stage) : (s.setStage k x).cams = s.cams := rfl
@[simp] theorem State.setStage_vcs (s : State) (k : Nat) (x : Stage) : (s.setStage k x).vcs = s.vcs := rfl
@[simp] theorem State.setStage_pipes (s : State) (k : Nat) (x : Stage) : (s.setStage k x).pipes = s.pipes := rfl
@[simp] theorem State.setStage_trackReuse (s : State) (k : Nat) (x : Stage) : (s.setStage k x).trackReuse = s.trackReuse := rfl
@[simp] theorem State.setStage_valves (s : State) (k : Nat) (x : Stage) : (s.setStage k x).valves = s.valves := rfl
@[simp] theorem State.setStage_rows (s : State) (k : Nat) (x : Stage) : (s.setStage k x).rows = s.rows := rfl
@[simp] theorem State.setStage_wheel (s : State) (k : Nat) (x : Stage) : (s.setStage k x).wheel = s.wheel := rfl
@[simp] theorem State.setStage_ring (s : State) (k : Nat) (x : Stage) : (s.setStage k x).ring = s.ring := rfl
@[simp] theorem State.setStage_pubOn (s : State) (k : Nat) (x : Stage) : (s.setStage k x).pubOn = s.pubOn := rfl
@[simp] theorem State.setStage_pubRec (s : State) (k : Nat) (x : Stage) : (s.setStage k x).pubRec = s.pubRec := rfl
@[simp] theorem State.setStage_fbs (s : State) (k : Nat) (x : Stage) : (s.setStage k x).fbs = s.fbs := rfl
@[simp] theorem State.setStage_emus (s : State) (k : Nat) (x : Stage) : (s.setStage k x).emus = s.emus := rfl
@[simp] theorem State.setStage_axes (s : State) (k : Nat) (x : Stage) : (s.setStage k x).axes = s.axes := rfl
@[simp] theorem State.setStage_piers (s : State) (k : Nat) (x : Stage) : (s.setStage k x).piers = s.piers := rfl
@[simp] theorem State.setStage_groups (s : State) (k : Nat) (x : Stage) : (s.setStage k x).groups = s.groups := rfl
@[simp] theorem State.setStage_stays (s : State) (k : Nat) (x : Stage) : (s.setStage k x).stays = s.stays := rfl
@[simp] theorem State.setStage_camTabs (s : State) (k : Nat) (x : Stage) : (s.setStage k x).camTabs = s.camTabs := rfl
@[simp] theorem State.setStage_latches (s : State) (k : Nat) (x : Stage) : (s.setStage k x).latches = s.latches := rfl
@[simp] theorem State.setStage_probeCnts (s : State) (k : Nat) (x : Stage) : (s.setStage k x).probeCnts = s.probeCnts := rfl
@[simp] theorem State.setStage_sgs (s : State) (k : Nat) (x : Stage) : (s.setStage k x).sgs = s.sgs := rfl
@[simp] theorem State.setStage_limLevels (s : State) (k : Nat) (x : Stage) : (s.setStage k x).limLevels = s.limLevels := rfl
@[simp] theorem State.setStage_pwms (s : State) (k : Nat) (x : Stage) : (s.setStage k x).pwms = s.pwms := rfl
@[simp] theorem State.setStage_stages (s : State) (k : Nat) (x : Stage) : (s.setStage k x).stages = storePut (fun _ => Stage.reset) s.stages k x := rfl
@[simp] theorem State.setStage_auxs (s : State) (k : Nat) (x : Stage) : (s.setStage k x).auxs = s.auxs := rfl
@[simp] theorem State.setStage_footings (s : State) (k : Nat) (x : Stage) : (s.setStage k x).footings = s.footings := rfl
@[simp] theorem State.setStage_cans (s : State) (k : Nat) (x : Stage) : (s.setStage k x).cans = s.cans := rfl
@[simp] theorem State.setStage_pp (s : State) (k : Nat) (x : Stage) : (s.setStage k x).pp = s.pp := rfl
@[simp] theorem State.setStage_fw (s : State) (k : Nat) (x : Stage) : (s.setStage k x).fw = s.fw := rfl
@[simp] theorem State.setStage_life (s : State) (k : Nat) (x : Stage) : (s.setStage k x).life = s.life := rfl
@[simp] theorem State.setStage_out (s : State) (k : Nat) (x : Stage) : (s.setStage k x).out = s.out := rfl
@[simp] theorem State.setStage_freeCtr (s : State) (k : Nat) (x : Stage) : (s.setStage k x).freeCtr = s.freeCtr := rfl
@[simp] theorem State.setStage_pending (s : State) (k : Nat) (x : Stage) : (s.setStage k x).pending = s.pending := rfl
theorem State.updStage_eq (s : State) (k : Nat) (f : Stage → Stage) : s.updStage k f = s.setStage k (f (s.stage k)) := rfl
@[simp] theorem State.setAux_power (s : State) (k : Nat) (x : Aux) : (s.setAux k x).power = s.power := rfl
@[simp] theorem State.setAux_tb (s : State) (k : Nat) (x : Aux) : (s.setAux k x).tb = s.tb := rfl
@[simp] theorem State.setAux_refs (s : State) (k : Nat) (x : Aux) : (s.setAux k x).refs = s.refs := rfl
@[simp] theorem State.setAux_link (s : State) (k : Nat) (x : Aux) : (s.setAux k x).link = s.link := rfl
@[simp] theorem State.setAux_fns (s : State) (k : Nat) (x : Aux) : (s.setAux k x).fns = s.fns := rfl
@[simp] theorem State.setAux_regs (s : State) (k : Nat) (x : Aux) : (s.setAux k x).regs = s.regs := rfl
@[simp] theorem State.setAux_grants (s : State) (k : Nat) (x : Aux) : (s.setAux k x).grants = s.grants := rfl
@[simp] theorem State.setAux_commit (s : State) (k : Nat) (x : Aux) : (s.setAux k x).commit = s.commit := rfl
@[simp] theorem State.setAux_irqPend (s : State) (k : Nat) (x : Aux) : (s.setAux k x).irqPend = s.irqPend := rfl
@[simp] theorem State.setAux_tns (s : State) (k : Nat) (x : Aux) : (s.setAux k x).tns = s.tns := rfl
@[simp] theorem State.setAux_sqs (s : State) (k : Nat) (x : Aux) : (s.setAux k x).sqs = s.sqs := rfl
@[simp] theorem State.setAux_cqs (s : State) (k : Nat) (x : Aux) : (s.setAux k x).cqs = s.cqs := rfl
@[simp] theorem State.setAux_jobs (s : State) (k : Nat) (x : Aux) : (s.setAux k x).jobs = s.jobs := rfl
@[simp] theorem State.setAux_nextId (s : State) (k : Nat) (x : Aux) : (s.setAux k x).nextId = s.nextId := rfl
@[simp] theorem State.setAux_ks (s : State) (k : Nat) (x : Aux) : (s.setAux k x).ks = s.ks := rfl
@[simp] theorem State.setAux_queues (s : State) (k : Nat) (x : Aux) : (s.setAux k x).queues = s.queues := rfl
@[simp] theorem State.setAux_deck (s : State) (k : Nat) (x : Aux) : (s.setAux k x).deck = s.deck := rfl
@[simp] theorem State.setAux_scrub (s : State) (k : Nat) (x : Aux) : (s.setAux k x).scrub = s.scrub := rfl
@[simp] theorem State.setAux_cams (s : State) (k : Nat) (x : Aux) : (s.setAux k x).cams = s.cams := rfl
@[simp] theorem State.setAux_vcs (s : State) (k : Nat) (x : Aux) : (s.setAux k x).vcs = s.vcs := rfl
@[simp] theorem State.setAux_pipes (s : State) (k : Nat) (x : Aux) : (s.setAux k x).pipes = s.pipes := rfl
@[simp] theorem State.setAux_trackReuse (s : State) (k : Nat) (x : Aux) : (s.setAux k x).trackReuse = s.trackReuse := rfl
@[simp] theorem State.setAux_valves (s : State) (k : Nat) (x : Aux) : (s.setAux k x).valves = s.valves := rfl
@[simp] theorem State.setAux_rows (s : State) (k : Nat) (x : Aux) : (s.setAux k x).rows = s.rows := rfl
@[simp] theorem State.setAux_wheel (s : State) (k : Nat) (x : Aux) : (s.setAux k x).wheel = s.wheel := rfl
@[simp] theorem State.setAux_ring (s : State) (k : Nat) (x : Aux) : (s.setAux k x).ring = s.ring := rfl
@[simp] theorem State.setAux_pubOn (s : State) (k : Nat) (x : Aux) : (s.setAux k x).pubOn = s.pubOn := rfl
@[simp] theorem State.setAux_pubRec (s : State) (k : Nat) (x : Aux) : (s.setAux k x).pubRec = s.pubRec := rfl
@[simp] theorem State.setAux_fbs (s : State) (k : Nat) (x : Aux) : (s.setAux k x).fbs = s.fbs := rfl
@[simp] theorem State.setAux_emus (s : State) (k : Nat) (x : Aux) : (s.setAux k x).emus = s.emus := rfl
@[simp] theorem State.setAux_axes (s : State) (k : Nat) (x : Aux) : (s.setAux k x).axes = s.axes := rfl
@[simp] theorem State.setAux_piers (s : State) (k : Nat) (x : Aux) : (s.setAux k x).piers = s.piers := rfl
@[simp] theorem State.setAux_groups (s : State) (k : Nat) (x : Aux) : (s.setAux k x).groups = s.groups := rfl
@[simp] theorem State.setAux_stays (s : State) (k : Nat) (x : Aux) : (s.setAux k x).stays = s.stays := rfl
@[simp] theorem State.setAux_camTabs (s : State) (k : Nat) (x : Aux) : (s.setAux k x).camTabs = s.camTabs := rfl
@[simp] theorem State.setAux_latches (s : State) (k : Nat) (x : Aux) : (s.setAux k x).latches = s.latches := rfl
@[simp] theorem State.setAux_probeCnts (s : State) (k : Nat) (x : Aux) : (s.setAux k x).probeCnts = s.probeCnts := rfl
@[simp] theorem State.setAux_sgs (s : State) (k : Nat) (x : Aux) : (s.setAux k x).sgs = s.sgs := rfl
@[simp] theorem State.setAux_limLevels (s : State) (k : Nat) (x : Aux) : (s.setAux k x).limLevels = s.limLevels := rfl
@[simp] theorem State.setAux_pwms (s : State) (k : Nat) (x : Aux) : (s.setAux k x).pwms = s.pwms := rfl
@[simp] theorem State.setAux_stages (s : State) (k : Nat) (x : Aux) : (s.setAux k x).stages = s.stages := rfl
@[simp] theorem State.setAux_auxs (s : State) (k : Nat) (x : Aux) : (s.setAux k x).auxs = storePut (fun _ => Aux.reset) s.auxs k x := rfl
@[simp] theorem State.setAux_footings (s : State) (k : Nat) (x : Aux) : (s.setAux k x).footings = s.footings := rfl
@[simp] theorem State.setAux_cans (s : State) (k : Nat) (x : Aux) : (s.setAux k x).cans = s.cans := rfl
@[simp] theorem State.setAux_pp (s : State) (k : Nat) (x : Aux) : (s.setAux k x).pp = s.pp := rfl
@[simp] theorem State.setAux_fw (s : State) (k : Nat) (x : Aux) : (s.setAux k x).fw = s.fw := rfl
@[simp] theorem State.setAux_life (s : State) (k : Nat) (x : Aux) : (s.setAux k x).life = s.life := rfl
@[simp] theorem State.setAux_out (s : State) (k : Nat) (x : Aux) : (s.setAux k x).out = s.out := rfl
@[simp] theorem State.setAux_freeCtr (s : State) (k : Nat) (x : Aux) : (s.setAux k x).freeCtr = s.freeCtr := rfl
@[simp] theorem State.setAux_pending (s : State) (k : Nat) (x : Aux) : (s.setAux k x).pending = s.pending := rfl
theorem State.updAux_eq (s : State) (k : Nat) (f : Aux → Aux) : s.updAux k f = s.setAux k (f (s.aux k)) := rfl
@[simp] theorem State.setFooting_power (s : State) (k : Nat) (x : Footing) : (s.setFooting k x).power = s.power := rfl
@[simp] theorem State.setFooting_tb (s : State) (k : Nat) (x : Footing) : (s.setFooting k x).tb = s.tb := rfl
@[simp] theorem State.setFooting_refs (s : State) (k : Nat) (x : Footing) : (s.setFooting k x).refs = s.refs := rfl
@[simp] theorem State.setFooting_link (s : State) (k : Nat) (x : Footing) : (s.setFooting k x).link = s.link := rfl
@[simp] theorem State.setFooting_fns (s : State) (k : Nat) (x : Footing) : (s.setFooting k x).fns = s.fns := rfl
@[simp] theorem State.setFooting_regs (s : State) (k : Nat) (x : Footing) : (s.setFooting k x).regs = s.regs := rfl
@[simp] theorem State.setFooting_grants (s : State) (k : Nat) (x : Footing) : (s.setFooting k x).grants = s.grants := rfl
@[simp] theorem State.setFooting_commit (s : State) (k : Nat) (x : Footing) : (s.setFooting k x).commit = s.commit := rfl
@[simp] theorem State.setFooting_irqPend (s : State) (k : Nat) (x : Footing) : (s.setFooting k x).irqPend = s.irqPend := rfl
@[simp] theorem State.setFooting_tns (s : State) (k : Nat) (x : Footing) : (s.setFooting k x).tns = s.tns := rfl
@[simp] theorem State.setFooting_sqs (s : State) (k : Nat) (x : Footing) : (s.setFooting k x).sqs = s.sqs := rfl
@[simp] theorem State.setFooting_cqs (s : State) (k : Nat) (x : Footing) : (s.setFooting k x).cqs = s.cqs := rfl
@[simp] theorem State.setFooting_jobs (s : State) (k : Nat) (x : Footing) : (s.setFooting k x).jobs = s.jobs := rfl
@[simp] theorem State.setFooting_nextId (s : State) (k : Nat) (x : Footing) : (s.setFooting k x).nextId = s.nextId := rfl
@[simp] theorem State.setFooting_ks (s : State) (k : Nat) (x : Footing) : (s.setFooting k x).ks = s.ks := rfl
@[simp] theorem State.setFooting_queues (s : State) (k : Nat) (x : Footing) : (s.setFooting k x).queues = s.queues := rfl
@[simp] theorem State.setFooting_deck (s : State) (k : Nat) (x : Footing) : (s.setFooting k x).deck = s.deck := rfl
@[simp] theorem State.setFooting_scrub (s : State) (k : Nat) (x : Footing) : (s.setFooting k x).scrub = s.scrub := rfl
@[simp] theorem State.setFooting_cams (s : State) (k : Nat) (x : Footing) : (s.setFooting k x).cams = s.cams := rfl
@[simp] theorem State.setFooting_vcs (s : State) (k : Nat) (x : Footing) : (s.setFooting k x).vcs = s.vcs := rfl
@[simp] theorem State.setFooting_pipes (s : State) (k : Nat) (x : Footing) : (s.setFooting k x).pipes = s.pipes := rfl
@[simp] theorem State.setFooting_trackReuse (s : State) (k : Nat) (x : Footing) : (s.setFooting k x).trackReuse = s.trackReuse := rfl
@[simp] theorem State.setFooting_valves (s : State) (k : Nat) (x : Footing) : (s.setFooting k x).valves = s.valves := rfl
@[simp] theorem State.setFooting_rows (s : State) (k : Nat) (x : Footing) : (s.setFooting k x).rows = s.rows := rfl
@[simp] theorem State.setFooting_wheel (s : State) (k : Nat) (x : Footing) : (s.setFooting k x).wheel = s.wheel := rfl
@[simp] theorem State.setFooting_ring (s : State) (k : Nat) (x : Footing) : (s.setFooting k x).ring = s.ring := rfl
@[simp] theorem State.setFooting_pubOn (s : State) (k : Nat) (x : Footing) : (s.setFooting k x).pubOn = s.pubOn := rfl
@[simp] theorem State.setFooting_pubRec (s : State) (k : Nat) (x : Footing) : (s.setFooting k x).pubRec = s.pubRec := rfl
@[simp] theorem State.setFooting_fbs (s : State) (k : Nat) (x : Footing) : (s.setFooting k x).fbs = s.fbs := rfl
@[simp] theorem State.setFooting_emus (s : State) (k : Nat) (x : Footing) : (s.setFooting k x).emus = s.emus := rfl
@[simp] theorem State.setFooting_axes (s : State) (k : Nat) (x : Footing) : (s.setFooting k x).axes = s.axes := rfl
@[simp] theorem State.setFooting_piers (s : State) (k : Nat) (x : Footing) : (s.setFooting k x).piers = s.piers := rfl
@[simp] theorem State.setFooting_groups (s : State) (k : Nat) (x : Footing) : (s.setFooting k x).groups = s.groups := rfl
@[simp] theorem State.setFooting_stays (s : State) (k : Nat) (x : Footing) : (s.setFooting k x).stays = s.stays := rfl
@[simp] theorem State.setFooting_camTabs (s : State) (k : Nat) (x : Footing) : (s.setFooting k x).camTabs = s.camTabs := rfl
@[simp] theorem State.setFooting_latches (s : State) (k : Nat) (x : Footing) : (s.setFooting k x).latches = s.latches := rfl
@[simp] theorem State.setFooting_probeCnts (s : State) (k : Nat) (x : Footing) : (s.setFooting k x).probeCnts = s.probeCnts := rfl
@[simp] theorem State.setFooting_sgs (s : State) (k : Nat) (x : Footing) : (s.setFooting k x).sgs = s.sgs := rfl
@[simp] theorem State.setFooting_limLevels (s : State) (k : Nat) (x : Footing) : (s.setFooting k x).limLevels = s.limLevels := rfl
@[simp] theorem State.setFooting_pwms (s : State) (k : Nat) (x : Footing) : (s.setFooting k x).pwms = s.pwms := rfl
@[simp] theorem State.setFooting_stages (s : State) (k : Nat) (x : Footing) : (s.setFooting k x).stages = s.stages := rfl
@[simp] theorem State.setFooting_auxs (s : State) (k : Nat) (x : Footing) : (s.setFooting k x).auxs = s.auxs := rfl
@[simp] theorem State.setFooting_footings (s : State) (k : Nat) (x : Footing) : (s.setFooting k x).footings = storePut (fun _ => Footing.reset) s.footings k x := rfl
@[simp] theorem State.setFooting_cans (s : State) (k : Nat) (x : Footing) : (s.setFooting k x).cans = s.cans := rfl
@[simp] theorem State.setFooting_pp (s : State) (k : Nat) (x : Footing) : (s.setFooting k x).pp = s.pp := rfl
@[simp] theorem State.setFooting_fw (s : State) (k : Nat) (x : Footing) : (s.setFooting k x).fw = s.fw := rfl
@[simp] theorem State.setFooting_life (s : State) (k : Nat) (x : Footing) : (s.setFooting k x).life = s.life := rfl
@[simp] theorem State.setFooting_out (s : State) (k : Nat) (x : Footing) : (s.setFooting k x).out = s.out := rfl
@[simp] theorem State.setFooting_freeCtr (s : State) (k : Nat) (x : Footing) : (s.setFooting k x).freeCtr = s.freeCtr := rfl
@[simp] theorem State.setFooting_pending (s : State) (k : Nat) (x : Footing) : (s.setFooting k x).pending = s.pending := rfl
theorem State.updFooting_eq (s : State) (k : Nat) (f : Footing → Footing) : s.updFooting k f = s.setFooting k (f (s.footing k)) := rfl
@[simp] theorem State.setCan_power (s : State) (k : Nat) (x : Can) : (s.setCan k x).power = s.power := rfl
@[simp] theorem State.setCan_tb (s : State) (k : Nat) (x : Can) : (s.setCan k x).tb = s.tb := rfl
@[simp] theorem State.setCan_refs (s : State) (k : Nat) (x : Can) : (s.setCan k x).refs = s.refs := rfl
@[simp] theorem State.setCan_link (s : State) (k : Nat) (x : Can) : (s.setCan k x).link = s.link := rfl
@[simp] theorem State.setCan_fns (s : State) (k : Nat) (x : Can) : (s.setCan k x).fns = s.fns := rfl
@[simp] theorem State.setCan_regs (s : State) (k : Nat) (x : Can) : (s.setCan k x).regs = s.regs := rfl
@[simp] theorem State.setCan_grants (s : State) (k : Nat) (x : Can) : (s.setCan k x).grants = s.grants := rfl
@[simp] theorem State.setCan_commit (s : State) (k : Nat) (x : Can) : (s.setCan k x).commit = s.commit := rfl
@[simp] theorem State.setCan_irqPend (s : State) (k : Nat) (x : Can) : (s.setCan k x).irqPend = s.irqPend := rfl
@[simp] theorem State.setCan_tns (s : State) (k : Nat) (x : Can) : (s.setCan k x).tns = s.tns := rfl
@[simp] theorem State.setCan_sqs (s : State) (k : Nat) (x : Can) : (s.setCan k x).sqs = s.sqs := rfl
@[simp] theorem State.setCan_cqs (s : State) (k : Nat) (x : Can) : (s.setCan k x).cqs = s.cqs := rfl
@[simp] theorem State.setCan_jobs (s : State) (k : Nat) (x : Can) : (s.setCan k x).jobs = s.jobs := rfl
@[simp] theorem State.setCan_nextId (s : State) (k : Nat) (x : Can) : (s.setCan k x).nextId = s.nextId := rfl
@[simp] theorem State.setCan_ks (s : State) (k : Nat) (x : Can) : (s.setCan k x).ks = s.ks := rfl
@[simp] theorem State.setCan_queues (s : State) (k : Nat) (x : Can) : (s.setCan k x).queues = s.queues := rfl
@[simp] theorem State.setCan_deck (s : State) (k : Nat) (x : Can) : (s.setCan k x).deck = s.deck := rfl
@[simp] theorem State.setCan_scrub (s : State) (k : Nat) (x : Can) : (s.setCan k x).scrub = s.scrub := rfl
@[simp] theorem State.setCan_cams (s : State) (k : Nat) (x : Can) : (s.setCan k x).cams = s.cams := rfl
@[simp] theorem State.setCan_vcs (s : State) (k : Nat) (x : Can) : (s.setCan k x).vcs = s.vcs := rfl
@[simp] theorem State.setCan_pipes (s : State) (k : Nat) (x : Can) : (s.setCan k x).pipes = s.pipes := rfl
@[simp] theorem State.setCan_trackReuse (s : State) (k : Nat) (x : Can) : (s.setCan k x).trackReuse = s.trackReuse := rfl
@[simp] theorem State.setCan_valves (s : State) (k : Nat) (x : Can) : (s.setCan k x).valves = s.valves := rfl
@[simp] theorem State.setCan_rows (s : State) (k : Nat) (x : Can) : (s.setCan k x).rows = s.rows := rfl
@[simp] theorem State.setCan_wheel (s : State) (k : Nat) (x : Can) : (s.setCan k x).wheel = s.wheel := rfl
@[simp] theorem State.setCan_ring (s : State) (k : Nat) (x : Can) : (s.setCan k x).ring = s.ring := rfl
@[simp] theorem State.setCan_pubOn (s : State) (k : Nat) (x : Can) : (s.setCan k x).pubOn = s.pubOn := rfl
@[simp] theorem State.setCan_pubRec (s : State) (k : Nat) (x : Can) : (s.setCan k x).pubRec = s.pubRec := rfl
@[simp] theorem State.setCan_fbs (s : State) (k : Nat) (x : Can) : (s.setCan k x).fbs = s.fbs := rfl
@[simp] theorem State.setCan_emus (s : State) (k : Nat) (x : Can) : (s.setCan k x).emus = s.emus := rfl
@[simp] theorem State.setCan_axes (s : State) (k : Nat) (x : Can) : (s.setCan k x).axes = s.axes := rfl
@[simp] theorem State.setCan_piers (s : State) (k : Nat) (x : Can) : (s.setCan k x).piers = s.piers := rfl
@[simp] theorem State.setCan_groups (s : State) (k : Nat) (x : Can) : (s.setCan k x).groups = s.groups := rfl
@[simp] theorem State.setCan_stays (s : State) (k : Nat) (x : Can) : (s.setCan k x).stays = s.stays := rfl
@[simp] theorem State.setCan_camTabs (s : State) (k : Nat) (x : Can) : (s.setCan k x).camTabs = s.camTabs := rfl
@[simp] theorem State.setCan_latches (s : State) (k : Nat) (x : Can) : (s.setCan k x).latches = s.latches := rfl
@[simp] theorem State.setCan_probeCnts (s : State) (k : Nat) (x : Can) : (s.setCan k x).probeCnts = s.probeCnts := rfl
@[simp] theorem State.setCan_sgs (s : State) (k : Nat) (x : Can) : (s.setCan k x).sgs = s.sgs := rfl
@[simp] theorem State.setCan_limLevels (s : State) (k : Nat) (x : Can) : (s.setCan k x).limLevels = s.limLevels := rfl
@[simp] theorem State.setCan_pwms (s : State) (k : Nat) (x : Can) : (s.setCan k x).pwms = s.pwms := rfl
@[simp] theorem State.setCan_stages (s : State) (k : Nat) (x : Can) : (s.setCan k x).stages = s.stages := rfl
@[simp] theorem State.setCan_auxs (s : State) (k : Nat) (x : Can) : (s.setCan k x).auxs = s.auxs := rfl
@[simp] theorem State.setCan_footings (s : State) (k : Nat) (x : Can) : (s.setCan k x).footings = s.footings := rfl
@[simp] theorem State.setCan_cans (s : State) (k : Nat) (x : Can) : (s.setCan k x).cans = storePut (fun _ => Can.reset) s.cans k x := rfl
@[simp] theorem State.setCan_pp (s : State) (k : Nat) (x : Can) : (s.setCan k x).pp = s.pp := rfl
@[simp] theorem State.setCan_fw (s : State) (k : Nat) (x : Can) : (s.setCan k x).fw = s.fw := rfl
@[simp] theorem State.setCan_life (s : State) (k : Nat) (x : Can) : (s.setCan k x).life = s.life := rfl
@[simp] theorem State.setCan_out (s : State) (k : Nat) (x : Can) : (s.setCan k x).out = s.out := rfl
@[simp] theorem State.setCan_freeCtr (s : State) (k : Nat) (x : Can) : (s.setCan k x).freeCtr = s.freeCtr := rfl
@[simp] theorem State.setCan_pending (s : State) (k : Nat) (x : Can) : (s.setCan k x).pending = s.pending := rfl
theorem State.updCan_eq (s : State) (k : Nat) (f : Can → Can) : s.updCan k f = s.setCan k (f (s.can k)) := rfl
@[simp] theorem State.wr_power (s : State) (k v : Nat) : (s.wr k v).power = s.power := rfl
@[simp] theorem State.wr_tb (s : State) (k v : Nat) : (s.wr k v).tb = s.tb := rfl
@[simp] theorem State.wr_refs (s : State) (k v : Nat) : (s.wr k v).refs = s.refs := rfl
@[simp] theorem State.wr_link (s : State) (k v : Nat) : (s.wr k v).link = s.link := rfl
@[simp] theorem State.wr_fns (s : State) (k v : Nat) : (s.wr k v).fns = s.fns := rfl
@[simp] theorem State.wr_regs (s : State) (k v : Nat) : (s.wr k v).regs = storePut resetWord s.regs k (BitVec.ofNat 32 v) := rfl
@[simp] theorem State.wr_grants (s : State) (k v : Nat) : (s.wr k v).grants = s.grants := rfl
@[simp] theorem State.wr_commit (s : State) (k v : Nat) : (s.wr k v).commit = s.commit := rfl
@[simp] theorem State.wr_irqPend (s : State) (k v : Nat) : (s.wr k v).irqPend = s.irqPend := rfl
@[simp] theorem State.wr_tns (s : State) (k v : Nat) : (s.wr k v).tns = s.tns := rfl
@[simp] theorem State.wr_sqs (s : State) (k v : Nat) : (s.wr k v).sqs = s.sqs := rfl
@[simp] theorem State.wr_cqs (s : State) (k v : Nat) : (s.wr k v).cqs = s.cqs := rfl
@[simp] theorem State.wr_jobs (s : State) (k v : Nat) : (s.wr k v).jobs = s.jobs := rfl
@[simp] theorem State.wr_nextId (s : State) (k v : Nat) : (s.wr k v).nextId = s.nextId := rfl
@[simp] theorem State.wr_ks (s : State) (k v : Nat) : (s.wr k v).ks = s.ks := rfl
@[simp] theorem State.wr_queues (s : State) (k v : Nat) : (s.wr k v).queues = s.queues := rfl
@[simp] theorem State.wr_deck (s : State) (k v : Nat) : (s.wr k v).deck = s.deck := rfl
@[simp] theorem State.wr_scrub (s : State) (k v : Nat) : (s.wr k v).scrub = s.scrub := rfl
@[simp] theorem State.wr_cams (s : State) (k v : Nat) : (s.wr k v).cams = s.cams := rfl
@[simp] theorem State.wr_vcs (s : State) (k v : Nat) : (s.wr k v).vcs = s.vcs := rfl
@[simp] theorem State.wr_pipes (s : State) (k v : Nat) : (s.wr k v).pipes = s.pipes := rfl
@[simp] theorem State.wr_trackReuse (s : State) (k v : Nat) : (s.wr k v).trackReuse = s.trackReuse := rfl
@[simp] theorem State.wr_valves (s : State) (k v : Nat) : (s.wr k v).valves = s.valves := rfl
@[simp] theorem State.wr_rows (s : State) (k v : Nat) : (s.wr k v).rows = s.rows := rfl
@[simp] theorem State.wr_wheel (s : State) (k v : Nat) : (s.wr k v).wheel = s.wheel := rfl
@[simp] theorem State.wr_ring (s : State) (k v : Nat) : (s.wr k v).ring = s.ring := rfl
@[simp] theorem State.wr_pubOn (s : State) (k v : Nat) : (s.wr k v).pubOn = s.pubOn := rfl
@[simp] theorem State.wr_pubRec (s : State) (k v : Nat) : (s.wr k v).pubRec = s.pubRec := rfl
@[simp] theorem State.wr_fbs (s : State) (k v : Nat) : (s.wr k v).fbs = s.fbs := rfl
@[simp] theorem State.wr_emus (s : State) (k v : Nat) : (s.wr k v).emus = s.emus := rfl
@[simp] theorem State.wr_axes (s : State) (k v : Nat) : (s.wr k v).axes = s.axes := rfl
@[simp] theorem State.wr_piers (s : State) (k v : Nat) : (s.wr k v).piers = s.piers := rfl
@[simp] theorem State.wr_groups (s : State) (k v : Nat) : (s.wr k v).groups = s.groups := rfl
@[simp] theorem State.wr_stays (s : State) (k v : Nat) : (s.wr k v).stays = s.stays := rfl
@[simp] theorem State.wr_camTabs (s : State) (k v : Nat) : (s.wr k v).camTabs = s.camTabs := rfl
@[simp] theorem State.wr_latches (s : State) (k v : Nat) : (s.wr k v).latches = s.latches := rfl
@[simp] theorem State.wr_probeCnts (s : State) (k v : Nat) : (s.wr k v).probeCnts = s.probeCnts := rfl
@[simp] theorem State.wr_sgs (s : State) (k v : Nat) : (s.wr k v).sgs = s.sgs := rfl
@[simp] theorem State.wr_limLevels (s : State) (k v : Nat) : (s.wr k v).limLevels = s.limLevels := rfl
@[simp] theorem State.wr_pwms (s : State) (k v : Nat) : (s.wr k v).pwms = s.pwms := rfl
@[simp] theorem State.wr_stages (s : State) (k v : Nat) : (s.wr k v).stages = s.stages := rfl
@[simp] theorem State.wr_auxs (s : State) (k v : Nat) : (s.wr k v).auxs = s.auxs := rfl
@[simp] theorem State.wr_footings (s : State) (k v : Nat) : (s.wr k v).footings = s.footings := rfl
@[simp] theorem State.wr_cans (s : State) (k v : Nat) : (s.wr k v).cans = s.cans := rfl
@[simp] theorem State.wr_pp (s : State) (k v : Nat) : (s.wr k v).pp = s.pp := rfl
@[simp] theorem State.wr_fw (s : State) (k v : Nat) : (s.wr k v).fw = s.fw := rfl
@[simp] theorem State.wr_life (s : State) (k v : Nat) : (s.wr k v).life = s.life := rfl
@[simp] theorem State.wr_out (s : State) (k v : Nat) : (s.wr k v).out = s.out := rfl
@[simp] theorem State.wr_freeCtr (s : State) (k v : Nat) : (s.wr k v).freeCtr = s.freeCtr := rfl
@[simp] theorem State.wr_pending (s : State) (k v : Nat) : (s.wr k v).pending = s.pending := rfl

end Sys2Proof.Machine
end

