-- ==== Sys2Proof/Tests/Slice0.lean ====
section
/-!
SUPPORT. Tests: what is not well formed, the numbers of the spec's worked examples, and a state that meets the hypotheses of each
statement, clause by clause (`witness_…`: with `a` the state itself and `t` the tick 0, so that `advance s t` is `s`).
-/
set_option Elab.async false
set_option maxRecDepth 20000
namespace Sys2Proof.Tests
open Machine

/-- A state whose PLL has locked, at device time 200,000 in span 40. -/
def up : State := { State.reset with
  power := { Power.reset with porstHigh := true, pll := true }
  tb := { TimeBase.reset with now := 200000, boundary := 200000, spanIx := 40 } }
/-- Link, functions 0 to 4, tenant 1 attached with rings 0 on, firmware running, mode COMMISSION. -/
def on : State := { up with
  link := { up.link with up := true, perstHigh := true, vfEnable := true, numVfs := 4 }
  fns := [(0, { Fn.reset with memEn := true, bme := true, msixEn := true }), (1, { Fn.reset with memEn := true, bme := true, msixEn := true })]
  tns := [(1, { Tenant.reset with st := .attached })]
  regs := [(sqKey 1 0 8, 0x61), (cqKey 1 0 8, 0x65)]
  fw := { up.fw with phase := .running, ready := true, everReady := true }
  pp := { up.pp with mode := .commission } }
/-- The same with everything granted to tenant 1. -/
def own : State := { on with grants := (List.range 224).map fun i => (0x400 + 4 * i, 0xFFFFFFFF) }
/-- A descriptor of a tenant with parameter bytes given by offset. -/
def dscOf (tn : Fin 256) (op : Nat) (ps : List (Nat × Nat)) : Desc :=
  { tenant := tn, sq := 0, s2 := false, op := BitVec.ofNat 8 op, flags := 0, tag := 7, cls := 0, hdrRsvd := 0, deadline := 0
    applySpan := 0, cookie := 0, params := (List.range 20).map fun i => ((ps.find? fun p => p.1 == i).map fun p => BitVec.ofNat 8 p.2).getD 0 }
/-- A descriptor of tenant 1. -/
def dsc (op : Nat) (ps : List (Nat × Nat)) : Desc := dscOf 1 op ps
/-- An opcode command's state and job. -/
def tk (s : State) (d : Desc) : State × Job := Safety.taken s 0 d.op.toNat d
/-- A state in which commands act, at its own time. -/
abbrev Ready (s : State) : Prop := s.power.porstHigh = true ∧ advance s 0 = s
/-- An opcode command on a state: the descriptor is taken, and nothing is amiss with its format. -/
abbrev Good (s : State) (d : Desc) (named : Nat) (s2 : Bool) : Prop :=
  Ready s ∧ Safety.taken s 0 d.op.toNat d = tk s d ∧ badFormat (tk s d).2.d named s2 = false


/-! Not well formed: one command for each check. -/

/-- An S1 descriptor with too few parameter bytes. -/
theorem test_params_short : (Instr.nop 0 { dsc 0 [] with params := [] }).wf = false := by decide
/-- An S1 descriptor with a cookie. -/
theorem test_s1_cookie : (Instr.nop 0 { dsc 0 [] with cookie := 1#64 }).wf = false := by decide
/-- A write across the end of BAR0. -/
theorem test_bar0_end : (Instr.registerWrite 0 0 (.bar0 0xFFFFD) [1, 2, 3, 4] false).wf = false := by decide
/-- A write across the end of BAR2. -/
theorem test_bar2_end : (Instr.registerWrite 0 1 (.bar2 0xFFF) [1, 2] false).wf = false := by decide
/-- A write of nothing to BAR4. -/
theorem test_bar4_empty : (Instr.registerWrite 0 1 (.bar4 0) [] false).wf = false := by decide
/-- A Command register of three bytes. -/
theorem test_command_width : (Instr.registerWrite 0 1 .command [1, 2, 3] false).wf = false := by decide
/-- An MSI-X control word of one byte. -/
theorem test_msix_width : (Instr.registerWrite 0 1 .msixControl [1] false).wf = false := by decide
/-- A PTM control word of two bytes. -/
theorem test_ptm_width : (Instr.registerWrite 0 0 .ptmControl [1, 2] false).wf = false := by decide
/-- A tail doorbell of 12 bits. -/
theorem test_sq_tail_width : (Instr.sqTailDoorbell 0 1 0 12 5).wf = false := by decide
/-- A head doorbell with a value wider than its write. -/
theorem test_cq_head_value : (Instr.cqHeadDoorbell 0 1 0x100 8 256).wf = false := by decide
/-- A load-all doorbell across the end of the page. -/
theorem test_load_all_end : (Instr.loadAllDoorbell 0 1 64 0xDFC).wf = false := by decide
/-- A read of no bytes. -/
theorem test_read_empty : (Instr.loRegisterRead 0 0 0 0).wf = false := by decide
/-- A W1C clear that is not aligned. -/
theorem test_w1c_unaligned : (Instr.w1cClear 0 0 2 0 0).wf = false := by decide
/-- A descriptor of 33 bytes. -/
theorem test_fetch_length : (Instr.descriptorFetch 0 1 0 (.data (List.replicate 33 0))).wf = false := by decide
/-- A sample of more than 64 legs. -/
theorem test_sample_legs : (Instr.sampleInstant { legs := List.replicate 65 0, xsd := [], buses := [] }).wf = false := by decide
/-- A sample beyond Q1.15. -/
theorem test_sample_range : (Instr.sampleInstant { legs := [], xsd := [32768], buses := [] }).wf = false := by decide
/-- A pier that misses its deadline twice. -/
theorem test_deadline_twice : (Instr.computeDeadline [3, 3]).wf = false := by decide
/-- A data item without payload. -/
theorem test_offer_empty : (Instr.queueOffer 0 1 0 { src := 0, time := 0, payload := [], lane := 0, done := true }).wf = false := by decide
/-- A ring of 17 nodes. -/
theorem test_nodes_many :
    (Instr.linkUpDone 0 (List.replicate 17 { version2 := true, delayE := 0, delayW := 0 }) [] true).wf = false := by decide
/-- A ring of 18 hops. -/
theorem test_hops_many : (Instr.linkUpDone 0 [] (List.replicate 18 0) true).wf = false := by decide
/-- A node's delay wider than its register. -/
theorem test_rejoin_delay : (Instr.hopRejoin 0 0 [{ version2 := true, delayE := 2 ^ 20, delayW := 0 }]).wf = false := by decide
/-- A reply segment with flags wider than a byte. -/
theorem test_reply_flags :
    (Instr.sweepReturn 0 .east none true
      [{ node := 0, crcOk := true, flags := 256, mgmtResult := 0, mgmtValue := 0, reports := [], sigOutput := 0, sig := [] }]).wf =
      false := by decide
/-- An SSI word of 41 bits. -/
theorem test_ssi_word : (Instr.serialTransactionDone 0 32 (.ssi false (2 ^ 40) false)).wf = false := by decide
/-- An ESS response of 65 bytes. -/
theorem test_ess_bytes : (Instr.serialTransactionDone 0 32 (.ess (List.replicate 65 0) false false)).wf = false := by decide
/-- A current beyond Q1.15. -/
theorem test_overcurrent_range : (Instr.overcurrent 0 0 0 (-32769)).wf = false := by decide
/-- A coil sense beyond Q1.15. -/
theorem test_compare_sense : (Instr.pwmCompareEdge 0 (.bridge 0 0) 0 40000).wf = false := by decide
/-- A classic CAN frame with identifier 0x120 and eight data bytes. -/
def frame0 : CanFrame :=
  { fmt := 0, ide := false, rtr := false, brs := false, esi := false, sec := false, id := 0x120, len := 8
    data := List.replicate 8 0, sdt := 0, vcid := 0, af := 0 }
/-- Nine data bytes in a classic frame, nine in an FD frame, an identifier of 12 bits. -/
theorem test_can_classic_long :
    (Instr.canFrameReceived 0 0 0 { frame0 with len := 9, data := List.replicate 9 0 }).wf = false := by decide
theorem test_can_fd_long :
    (Instr.canWake 0 0 0 (some { frame0 with fmt := 1, len := 9, data := List.replicate 9 0 })).wf = false := by decide
theorem test_can_id : (Instr.canFrameReceived 0 0 0 { frame0 with id := 0x800 }).wf = false := by decide
/-- And the frame itself is well formed. -/
theorem test_can_good : (Instr.canFrameReceived 0 0 0 frame0).wf = true := by decide

/-! The spec's worked examples. -/

/-- Example 00-1: the phase current 0xC000 is −16,384, the published position 0x0123_8000 is 291.5 counts. -/
theorem test_q15 : signed 16 0xC000 = -16384 := by decide
theorem test_pos : ofQ 16 0x01238000 = mkRat 583 2 := by decide +kernel
/-- Examples 01-1 and 01-2: compute deadlines. -/
theorem test_deadline_default : computeTick 12500 70 = 8750 := by decide
theorem test_deadline_24k : computeTick 16668 70 = 11667 := by decide
/-- Example 01-1: eight periods of 12,500 ticks, four of 1,563 and four of 1,562. -/
theorem test_periods : (List.range 8).map (periodLen 12500 8) = [1563, 1563, 1563, 1563, 1562, 1562, 1562, 1562] := by decide
/-- Example 01-2: three periods of 16,668 ticks. -/
theorem test_periods_3 : (List.range 3).map (periodLen 16668 3) = [5556, 5556, 5556] := by decide
/-- Example 04-1: the bytes of the completion entry of a PUBLISH. -/
theorem test_completion_entry :
    (entryBytes false true false { dscOf 2 4 [] with tag := 0x51 } 0 18 0 0 0).map BitVec.toNat =
      [0x51, 0, 0, 1, 0, 4, 0x12, 0, 0, 0, 0, 0, 0, 0, 0, 0] := by decide +kernel
/-- R173 with Examples 05-1 and 05-2: the DMA capacity of a full link. -/
theorem test_cap : dmaCap 12500 .x8 .g32 = 976 ∧ dmaCap 4000 .x8 .g32 = 312 := by decide
/-- Example 08-1: pyramid slices of 43 TU, motion rows of 40, labelling bands of 128 and tracking of 16 and 14, 15 work pages. -/
theorem test_pyramid : (pyrSlices 1024 256 3072).map (nth · 1) = List.replicate 15 43 ++ [43] := by decide +kernel
theorem test_motion_rows : meRow 1024 = 40 ∧ (meSlices 1024 256).length = 32 := by decide +kernel
theorem test_bands : (blobSlices 1024 256).map (nth · 3) = [128, 128, 128, 128] := by decide +kernel
theorem test_tracking : (trackSlices 120).map (nth · 3) = [16, 14] := by decide +kernel
theorem test_work_pages : workPages 1024 256 = 15 := by decide
theorem test_deck_frame : dFrame 1024 256 3072 = 41 := by decide
/-- Example 09-1: the line through the three corrected observations, to 10⁻¹⁰ px and 10⁻³ px/s. -/
theorem test_fit :
    (lsLine [(0, mkRat 685 10), (mkRat (-625) 1000000, mkRat 644923359375 10000000000), (mkRat (-1250) 1000000, mkRat 6046934375 100000000)]).map
      (fun l => (ratRound (l.1 * 10000000000), ratRound (l.2 * 1000))) = some (685025546875, 6424525) := by decide +kernel
/-- Example 09-1: the crossing time in ticks, rounded. -/
theorem test_crossing :
    (crossTime (mkRat 685025546875 10000000000) (mkRat 6424525 1000) 39240 300).map (fun x => ratRound (x * 400000000)) =
      some 13102624 := by decide +kernel
/-- Example 11-1: the index error of P_z = 1,230,001 with CPR 10,000 is −1. -/
theorem test_index_error : idxErr 0 10000 1230001 = -1 := by decide
/-- Example 14-1: half a step per span is the increment 11,258,999,068. -/
theorem test_increment : 2 ^ 48 / 2 / 12500 = 11258999068 ∧ 11258999068 ≤ maxInc := by decide
/-- Example 15-1: leg U with duty 0.537, ON 185,200 and OFF 614,800. -/
theorem test_duty : (Cmp.duty (mkRat 537 1000)).high 800000 1 = some (185200, 614800) := by decide +kernel
/-- Example 16-1: 0x11F wins over 0x120. -/
theorem test_arbitration : arbWins (arbField { frame0 with id := 0x11F }) (arbField frame0) = true := by decide
/-- Example 19-2: a clear of OVERRUN meets a second overrun. The flag stays and SPAN_STATUS_SEQ moves from 0x41 to 0x42. -/
theorem test_clear_meets_set :
    let s := w1cClear ((up.wr 0x2018 1).wr 0x201C 0x41) 0x2018 1 1; (s.rd 0x2018, s.rd 0x201C) = (1, 0x42) := by decide +kernel


/-! Witnesses: the block as a whole. -/
theorem witness_IdleStepIsOneClock :
    (up.pending = [] ∧ up.power.porstHigh = true ∧ up.power.pll = true) ∧
    (State.reset.pending = [] ∧ (State.reset.power.porstHigh = false ∨ State.reset.power.pll = false)) := by
  repeat' apply And.intro
  all_goals decide +kernel
theorem witness_ResetState : State.reset.power.porstHigh = true ∧
    ∃ (c : Instr) (s : State), s.power.porstHigh = false ∧ c ≠ .porstNAssert ∧ c ≠ .porstNRelease ∧
      (∀ t rail mv, c ≠ .fieldSupplyChange t rail mv) ∧ (∀ t rail ok, c ≠ .logicSupplyChange t rail ok) :=
  ⟨rfl, .spanBoundary, { up with power := { up.power with porstHigh := false } }, rfl, nofun, nofun, nofun, nofun⟩
theorem witness_AfterPorst : ∃ t, exec .porstNAssert up = .next t := ⟨_, rfl⟩
theorem tables_up : Safety.Tables up := by constructor <;> decide
theorem tables_own : Safety.Tables own := by constructor <;> decide
theorem clock_up : Safety.Clock up := ⟨by decide, by decide, by decide, by decide, nofun⟩
theorem exclusive_up : Safety.Exclusive up := fun _ _ _ _ _ _ _ _ => by simp [State.gw, up, State.reset, storeGet]
theorem witness_StepKeepsInv : Safety.Inv up ∧ ∃ t, step up = .next t := ⟨⟨tables_up, clock_up, exclusive_up⟩, _, rfl⟩
theorem witness_ExecKeepsExclusive : Safety.Tables up ∧ Safety.Exclusive up ∧ ∃ t, exec (.grantCommitWrite 0 0) up = .next t :=
  ⟨tables_up, exclusive_up, _, rfl⟩
theorem witness_OnlyOneCommandChanges : (∃ t, exec (.attach 0 1) on = .next t ∧ (t.pp.mode = .run ∨ t.pp.mode = .commission)) ∧
    Instr.attach 0 1 ≠ .porstNAssert ∧ Instr.attach 0 1 ≠ .modeRequestEval ∧ Instr.attach 0 1 ≠ .grantCommitCheck :=
  ⟨⟨_, rfl, by decide +kernel⟩, nofun, nofun, nofun⟩
theorem witness_BookkeepingFrame : Safety.Tables up ∧ (5 : Nat) ≠ (tk on (dsc 0 [])).2.id ∧
    (0x2018 : Nat) < 0x100000 ∧ (0x2018 : Nat) ≠ kKs ∧ (0x2018 : Nat) ≠ kKs + 4 ∧ (0x2010 : Nat) ≠ kSpan ∧ (0x2010 : Nat) ≠ kSpan + 4 ∧
    (0x2010 : Nat) < 0x100000 := ⟨tables_up, by decide +kernel⟩
theorem witness_DeckReadAfterWrite : Memory.wf up.deck = true ∧ (1 : Nat) ≠ 0 := by
  repeat' apply And.intro
  all_goals decide +kernel

/-! Time and the span. -/
theorem witness_SpanBoundary : up.power.porstHigh = true ∧ up.power.pll = true := by
  repeat' apply And.intro
  all_goals decide +kernel
/-- The states SPAN_CFG is written in: a mode and the same word but for LENGTH_Q and DEADLINE_PCT. -/
abbrev spanWit (s : State) (w : Word) (q pct : Nat) : Prop :=
  Ready s ∧ s.answers = true ∧ q = w.toNat % 2 ^ 14 ∧ pct = w.toNat / 2 ^ 16 % 2 ^ 7
theorem witness_SpanCfgWrite :
    (spanWit on 0x003C03E8 1000 60 ∧ 1000 ≠ on.fld 0x2010 0 14 ∧ on.mode ≠ .standby) ∧
    (let s := { on with pp := { on.pp with mode := .run } };
      spanWit s (BitVec.ofNat 32 (on.fld 0x2010 0 14)) (on.fld 0x2010 0 14) 0 ∧ s.mode = .run) ∧
    (spanWit up 0x003C03E7 999 60 ∧ up.mode = .standby) ∧ (spanWit up 0x003C2711 10001 60 ∧ up.mode = .standby) ∧
    (spanWit up 0x002703E8 1000 39 ∧ up.mode = .standby) ∧ (spanWit up 0x005603E8 1000 86 ∧ up.mode = .standby) ∧
    (spanWit on (BitVec.ofNat 32 (0x280000 + on.fld 0x2010 0 14)) (on.fld 0x2010 0 14) 40 ∧ on.mode ≠ .run ∧
      1000 ≤ on.fld 0x2010 0 14 ∧ on.fld 0x2010 0 14 ≤ 10000) ∧
    (spanWit up 0x00552710 10000 85 ∧ 10000 ≠ up.fld 0x2010 0 14 ∧ up.mode = .standby) := by
  repeat' apply And.intro
  all_goals decide +kernel
theorem witness_SpanInstants :
    (up.fld 0x2014 0 12 + 1000 ≤ computeTick up.tb.len 85 ∧ up.tb.len ≠ 4 * 1000) ∧
    (up.tb.sampled = false ∧ up.tb.judged = false ∧ up.power.pll = true ∧ up.power.porstHigh = true) ∧
    (let s := (up.wr 0x2014 4095).wr 0x2010 (40 * 2 ^ 16 + 1000);
      let s := { s with tb := { s.tb with len := 4000 } };
      computeTick s.tb.len (s.fld 0x2010 16 7) < s.fld 0x2014 0 12 + 1000 ∧ s.fld 0x2014 0 12 ≠ s.tb.offset) ∧
    ({ up with tb := { up.tb with sampled := true, judged := true } }.tb.sampled = true) := by
  repeat' apply And.intro
  all_goals decide +kernel

/-! Registers. -/
theorem witness_FlagSetsBitsAndCounts : Safety.Tables up ∧ (0xFFFFFFFF : Nat) < 2 ^ 32 ∧ (0x2010 : Nat) ≠ kSpan ∧ (0x2010 : Nat) ≠ kSpan + 4 :=
  ⟨tables_up, by decide +kernel⟩
theorem witness_W1cClear : Ready up ∧ keyOf 0 0x2018 = some 0x2018 ∧ up.keyAnswers 0x2018 = true ∧ (0x2018 : Nat) < 0x100000 ∧
    Safety.Tables up ∧ ∃ u e r, regAt 0x2018 = some (u, e, r) ∧ (0 : Word).toNat &&& r.flagMask = 0 ∧ (4 : Word).toNat &&& r.flagMask ≠ 0 ∧
      bit r.flagMask 2 = true ∧ bit r.flagMask 31 = false ∧ bit (4 : Word).toNat 2 = true ∧ bit (4 : Word).toNat 0 = false ∧
      bit (up.setNow 0x2018) 2 = false :=
  ⟨by decide, by decide, by decide, by decide, tables_up, _, _, _, rfl, by decide +kernel⟩
theorem witness_RegisterRead :
    (Ready on ∧ on.reach 0 = true ∧ 0x2010 % 4 = 0 ∧ keyOf 0 0x2010 = some 0x2010 ∧ on.keyAnswers 0x2010 = true ∧ isLo 0x2010 = false) ∧
    (on.reach 0 = true ∧ keyOf 0 0x2000 = some 0x2000 ∧ on.keyAnswers 0x2000 = true ∧ isLo 0x2000 = true) := by
  repeat' apply And.intro
  all_goals decide +kernel
theorem witness_RegisterWrite :
    (Ready on ∧ on.reach 0 = true ∧ [0, 0, 0, 0].length = 4 ∧ keyOf 0 0x2014 = some 0x2014 ∧ on.keyAnswers 0x2014 = true ∧
      (regAt 0x2014).isSome = true ∧ on.link.up = true ∧ on.fw.everReady = true) ∧
    (Ready up ∧ up.link.up = false) ∧
    (∃ u e r, regAt 0x2014 = some (u, e, r) ∧ r.movesLocked (up.rd 0x2014) 200 = false ∧ r.outOfRange 200 = false) ∧
    (∃ u e r, regAt 0x2010 = some (u, e, r) ∧ r.movesLocked (up.rd 0x2010) 0 = true) :=
  ⟨by decide, by decide, ⟨_, _, _, rfl, by decide +kernel⟩, ⟨_, _, _, rfl, by decide +kernel⟩⟩
theorem witness_NamedRegisterAccess :
    (Ready own ∧ own.answers = true ∧ own.fnExists 1 = true) ∧
    (own.hasPub 1 2 39 = true ∧ (158 : Word).toNat % 4 = 2 ∧ (158 : Word).toNat / 4 % 64 = 39 ∧
      storeGet (fun _ => false) { own with pubOn := [(64 * 2 + 39, true)] }.pubOn (64 * 2 + 39) = true) ∧
    (on.fnExists 1 = true ∧ on.hasPub 1 ((158 : Word).toNat % 4) ((158 : Word).toNat / 4 % 64) = false) := by
  repeat' apply And.intro
  all_goals decide +kernel

/-! References. -/
/-- A reference state. -/
def ref (f : Refs → Refs) : State := { up with refs := f up.refs }
theorem witness_References :
    (Ready up ∧ up.refs.syncEn = false) ∧
    (let s := ref fun r => { r with cfg := 3, syncQual := true };
      s.refs.syncEn = true ∧ s.refs.syncQual = true ∧ advance s (64 * 202500 / 64) = { s with tb := { s.tb with now := 202500 } } ∧
      64 * s.tb.len < 8 * ((64 * 200000 : Int) - (64 * 202500 - s.fld 0x204C 0 16)).natAbs ∧
      8 * ((64 * 200000 : Int) - (64 * 200000 - s.fld 0x204C 0 16)).natAbs ≤ 64 * s.tb.len) ∧
    (let s := ref fun r => { r with syncQual := true, syncMiss := 4, target := .syncIn };
      s.refs.syncQual = true ∧ 4 ≤ s.refs.syncMiss ∧ s.refs.target = .syncIn) ∧
    (let s := ref fun r => { r with syncQual := true, syncMiss := 4 };
      s.refs.syncQual = true ∧ 4 ≤ s.refs.syncMiss ∧ s.refs.target ≠ .syncIn) ∧
    (let s := ref fun r => { r with ptmQual := true, ptmAge := 65535, target := .ptm };
      s.refs.ptmQual = true ∧ bits s.refs.ptmCfg.toNat 8 16 ≤ s.refs.ptmAge ∧ s.refs.target = .ptm) ∧
    (let s := ref fun r => { r with ptmQual := true, ptmAge := 65535 };
      s.refs.ptmQual = true ∧ bits s.refs.ptmCfg.toNat 8 16 ≤ s.refs.ptmAge ∧ s.refs.target ≠ .ptm) ∧
    (let s := ref fun r => { r with target := .holdover };
      s.refs.target = .holdover ∧ s.refs.holdLeft = 0) ∧
    (let s := ref fun r => { r with syncMismatch := 16 };
      s.refs.syncMismatch = 16) ∧
    (up.refs.syncOutAt + 40 ≤ up.tb.now) ∧
    (let s := { on with refs := { on.refs with ptmCapable := true, cfg := 0xFFFFFFFF, ptmCount := 255 } };
      Ready s ∧ s.refs.ptmEn = true ∧ s.link.up = true ∧ s.refs.ptmCfg.toNat % 256 ≤ s.refs.ptmCount) := by
  repeat' apply And.intro
  all_goals decide +kernel

/-! Tenants and grants. -/
theorem witness_Grants :
    (Ready on ∧ on.commit.due = none) ∧
    (let s := { on with commit := { on.commit with due := some 0 } }; s.commit.due ≠ none) ∧
    (0x37C < 0x380 ∧ 0x37C % 4 = 0 ∧ 0x8380 ≤ 0x8380) ∧
    (let s := { on with commit := { on.commit with due := some (200000 - 63) } };
      s.power.porstHigh = true ∧ s.tb.boundary < (200000 - 63) + 64) ∧
    (let s := { on with pp := { on.pp with mode := .run }, commit := { on.commit with due := some (200000 - 64), tenant := 1 } };
      (200000 - 64) + 64 ≤ s.tb.boundary ∧ s.mode = .run ∧ s.commitVerdict s.commit.tenant = (4, 0xFFF)) := by
  repeat' apply And.intro
  all_goals decide +kernel
theorem witness_Grants_accepted :
    let s := { up with commit := { up.commit with due := some (200000 - 64), tenant := 1 } };
    Safety.Tables s ∧ s.power.porstHigh = true ∧ s.commit.due = some (200000 - 64) ∧ (200000 - 64) + 64 ≤ s.tb.boundary ∧
      s.commitVerdict s.commit.tenant = (0, 0xFFF) ∧ s.commit.tenant < 256 := ⟨by constructor <;> decide, by decide +kernel⟩
/-- Tenant 1 in another state. -/
def tnt (f : Tenant → Tenant) : State := on.updTn 1 f
theorem witness_Attachment :
    (let s := tnt fun x => { x with st := .detached };
      Ready s ∧ s.fnExists 1 = true ∧ s.canAttach 1 = true ∧ (s.tn 1).attachAt = none ∧ (s.tn 1).st ≠ .attached) ∧
    (Ready { on with fns := [] } ∧ { on with fns := [] }.fnExists 1 = true ∧ { on with fns := [] }.canAttach 1 = false) ∧
    (on.fnExists 255 = false) ∧
    (let s := tnt fun x => { x with st := .detached, attachAt := some (200000 - 64) };
      (s.tn 1).attachAt = some (200000 - 64) ∧ (200000 - 64) + 64 ≤ s.tb.boundary ∧ (s.tn 1).st = .detached ∧ s.canAttach 1 = true) ∧
    (let s := (tnt fun x => { x with st := .orphan, attachAt := some 5, lease := 9 }).wr (tkey 1 0x10) 9;
      (s.tn 1).st = .orphan ∧ s.canAttach 1 = true ∧ (s.tn 1).lease ≠ 0) ∧
    (let s := tnt fun x => { x with st := .orphan, attachAt := some 5, lease := 9 };
      (s.tn 1).st = .orphan ∧ s.canAttach 1 = true ∧ s.leaseIn 1 ≠ (s.tn 1).lease) ∧
    (let s := tnt fun x => { x with attachAt := some 5 }; (s.tn 1).st = .attached ∧ (s.tn 1).attachAt = some 5) ∧
    ((on.tn 1).st = .attached ∧ (on.tn 2).st ≠ .attached ∧ on.fnExists 2 = true ∧ (on.tn 1).detaching = false) ∧
    (let s := tnt fun x => { x with detaching := true }; (s.tn 1).detaching = true ∧ ∀ x ∈ s.axesOf 1, s.axisStill x = true) ∧
    (let s := tnt fun x => { x with st := .orphan };
      (2 : Word).toNat % 4 ≠ 3 ∧ (2 : Word).toNat / 16 % 2 = 0 ∧ (s.wr (ttKey 1 0) 2).rd (ttKey 1 0) = 2 % 4 ∧ (s.tn 1).st = .orphan) ∧
    (let s := tnt fun x => { x with hbLimit := 8, hbGap := 8 };
      (s.tn 1).st = .attached ∧ (s.tn 1).hbLimit ≠ 0 ∧ (s.tn 1).hbLimit ≤ (s.tn 1).hbGap) ∧
    (let s := tnt fun x => { x with hbLimit := 8, hbGap := 7 }; (s.tn 1).hbGap < (s.tn 1).hbLimit) ∧
    (let s := (tnt fun x => { x with lostDue := some 41 }).wr (ttKey 1 0) 0; (s.tn 1).lostDue = some 41 ∧ s.tb.spanIx < 41) ∧
    (let s := (tnt fun x => { x with lostDue := some 40 }).wr (ttKey 1 0) 0;
      (s.tn 1).lostDue = some 40 ∧ 40 ≤ s.tb.spanIx ∧ (s.tn 1).held = false ∧ s.fld (ttKey 1 0) 0 2 = 0) ∧
    (let s := (tnt fun x => { x with lostDue := some 40 }).wr (ttKey 1 0) 1;
      (s.tn 1).st = .attached ∧ (s.tn 1).held = false ∧ s.fld (ttKey 1 0) 0 2 = 1) ∧
    (let s := (tnt fun x => { x with lostDue := some 40 }).wr (ttKey 1 0) 2;
      (s.tn 1).st = .attached ∧ (s.tn 1).held = false ∧ s.fld (ttKey 1 0) 0 2 = 2) ∧
    (let s := tnt fun x => { x with lostDue := some 40, held := true }; (s.tn 1).st = .attached ∧ (s.tn 1).held = true) ∧
    (let s := tnt fun x => { x with st := .orphan, orphLimit := 5 };
      (s.tn 1).st = .orphan ∧ (s.tn 1).policy = 0 ∧ (s.tn 1).orphLimit ≠ 0 ∧ (s.tn 1).orphLeft = 0 ∧ (s.tn 1).orphEnd = false ∧
        (s.tn 1).held = false) ∧
    (let s := tnt fun x => { x with st := .orphan, orphLimit := 5, held := true };
      (s.tn 1).policy = 0 ∧ (s.tn 1).orphLeft = 0 ∧ (s.tn 1).orphEnd = false ∧ (s.tn 1).held = true) := by
  repeat' apply And.intro
  all_goals decide +kernel
theorem witness_Attachment_tables : Safety.Tables up ∧ (∃ w, w = (up.tn 1).lease) := ⟨tables_up, _, rfl⟩
theorem witness_LinkAndFunctions :
    (Ready on ∧ on.fw.inRecovery = false ∧ on.link.perstHigh = true ∧ on.link.up = true ∧ on.fnExists 1 = true ∧ (1 : Fin 256) ≠ 0) ∧
    ({ on with fw := { on.fw with inRecovery := true } }.fw.inRecovery = true) ∧ ({ on with link := { on.link with perstHigh := false } }.link.perstHigh = false) ∧
    ((on.tn 1).st = .attached ∧ (on.tn 1).pathLost = false) ∧ ((on.tn 2).st ≠ .attached ∨ (on.tn 2).pathLost = true) := by
  repeat' apply And.intro
  all_goals decide +kernel
theorem witness_TenantOpcodes :
    Good on (dsc 0 []) 0 false ∧
    (Ready on ∧ badFormat (tk on (dsc 0 [(0, 1)])).2.d 0 false = true ∧ (tk on (dsc 0 [(0, 1)])).1.power.porstHigh = true) ∧
    (Good on (dsc 1 []) 0 false ∧ ((tk on (dsc 1 [])).1.tn 1).st = .attached) ∧
    (Good on (dsc 2 []) 0 false ∧ ((tk on (dsc 2 [])).1.tn 1).holdPend = none) ∧
    (Good on (dsc 3 []) 0 false ∧ ((tk on (dsc 3 [])).1.tn 1).heldByT0 = false) ∧
    (let s := tnt fun x => { x with held := true, heldByT0 := true };
      Good s (dsc 3 []) 0 false ∧ (tk s (dsc 3 [])).2.d.tenant ≠ 0 ∧ ((tk s (dsc 3 [])).1.tn 1).heldByT0 = true) ∧
    (let d := dsc 4 [(0, 1), (1, 15), (2, 1)];
      Good own d (pm 0 2 ||| pb 2 1) false ∧ sourceExists (d.p 0 1) (d.p 1 1) = true ∧
      (tk own d).1.ownsSource 1 (d.p 0 1) (d.p 1 1) = true ∧ d.p 2 1 = 1 ∧
      Good on d (pm 0 2 ||| pb 2 1) false ∧ (tk on d).1.ownsSource 1 (d.p 0 1) (d.p 1 1) = false) ∧
    (let s := own.updTn 1 fun x => { x with pubExpert := true };
      Good s (dsc 5 []) 0 false ∧ (tk s (dsc 5 [])).1.expert 1 = true ∧ ((tk s (dsc 5 [])).1.tn 1).pubExpert = true) ∧
    (Good own (dsc 5 []) 0 false ∧ (tk own (dsc 5 [])).1.expert 1 = true ∧ ((tk own (dsc 5 [])).1.tn 1).pubExpert = false) ∧
    (let d := dscOf 0 6 [(0, 1), (1, 1)];
      Good on d (pm 0 1 ||| pb 1 1) false ∧ (tk on d).2.d.tenant = 0 ∧ d.setP 1 (d.p 1 1 ||| 1) = d) ∧
    (let d := dscOf 0 6 [(0, 1)];
      Good on d (pm 0 1 ||| pb 1 1) false ∧ (tk on d).2.d.tenant = 0 ∧ d.setP 1 (d.p 1 1 / 2 * 2) = d) ∧
    (let s := tnt fun x => { x with holdPend := some (false, 40) }; (s.tn 1).holdPend = some (false, 40) ∧ s.tb.spanIx ≤ 40) ∧
    (let s := tnt fun x => { x with holdPend := some (false, 39) }; (s.tn 1).holdPend = some (false, 39) ∧ 39 < s.tb.spanIx) ∧
    (let s := tnt fun x => { x with held := true }; (s.tn 1).held = true ∧ s.jobs = []) ∧
    (let s := tnt fun x => { x with held := true };
      let j := { (tk s (dsc 2 [])).2 with phase := .active };
      (s.tn 1).held = true ∧ (∀ x ∈ s.axesOf 1, s.axisStill x = true) ∧ { s with jobs := [j] }.jobs = [j] ∧ j.d.op = 0x02#8 ∧
        j.d.tenant = 1 ∧ j.phase = .active) := by
  repeat' apply And.intro
  all_goals decide +kernel

/-! Rings. -/
/-- Tenant 1's rings hold something: SQ head 5, tail 60, CQ head 10, tail 20. -/
def rings : State := { on with sqs := [(16, { Sq.reset with head := 5, tail := 60 })], cqs := [(16, { Cq.reset with head := 10, tail := 20 })] }
theorem witness_Doorbells :
    (Ready rings ∧ rings.fnExists 1 = true ∧ rings.answers = true ∧ (rings.tn 1).st = .attached ∧ rings.sqOn 1 0 = true ∧
      3 < rings.sqSize 1 0 ∧ (3 + rings.sqSize 1 0 - (rings.sq 16).tail) % rings.sqSize 1 0 ≤
        ((rings.sq 16).head + rings.sqSize 1 0 - 1 - (rings.sq 16).tail + rings.sqSize 1 0) % rings.sqSize 1 0) ∧
    (rings.sqSize 1 0 ≤ 64 ∧ 64 < 2 ^ 16) ∧ ((rings.tn 2).st ≠ .attached ∧ rings.fnExists 2 = true) ∧ rings.sqOn 1 1 = false ∧
    (rings.cqOn 1 0 = true ∧ 20 < rings.cqSize 1 0 ∧ (20 + rings.cqSize 1 0 - (rings.cq 16).head) % rings.cqSize 1 0 ≤
        ((rings.cq 16).tail + rings.cqSize 1 0 - (rings.cq 16).head) % rings.cqSize 1 0) ∧
    rings.cqSize 1 0 ≤ 64 ∧ rings.cqOn 1 1 = false ∧ (rings.tn 1).pubExpert = false ∧
    (let s := tnt fun x => { x with pubExpert := true }; Ready s ∧ (s.tn 1).st = .attached ∧ (s.tn 1).pubExpert = true) := by
  repeat' apply And.intro
  all_goals decide +kernel
theorem witness_RingEnables :
    (let s := on.wr (sqKey 1 1 8) 0x60;
      Ready s ∧ s.sqOn 1 1 = false ∧ bits 0x61 4 5 = 6 ∧ s.cqOn 1 (bits 0x61 16 4) = true ∧ bits 0x61 4 5 = s.fld (sqKey 1 1 8) 4 5) ∧
    (on.sqOn 1 1 = false ∧ bits 0x51 4 5 < 6 ∧ 16 < bits 0x111 4 5) ∧
    (on.sqOn 1 1 = false ∧ bits 0x10101 4 5 = 16 ∧ on.cqOn 1 (bits 0x10101 16 4) = false) ∧
    (on.sqOn 1 0 = true ∧ bits 0x60 1 1 = on.fld (sqKey 1 0 8) 1 1 ∧ bits 0x60 4 5 = on.fld (sqKey 1 0 8) 4 5 ∧
      bits 0x60 16 4 = on.fld (sqKey 1 0 8) 16 4 ∧ bits 0x70 4 5 ≠ on.fld (sqKey 1 0 8) 4 5) ∧
    (on.cqOn 1 1 = false ∧ bits 0x1F0061 4 5 = 6 ∧ bits 0x1F0061 16 7 < msixSize 1 ∧ bit 0x1F0061 2 = false) ∧
    (on.cqOn 1 0 = true ∧ bits 0x60 1 1 = on.fld (cqKey 1 0 8) 1 1 ∧ bits 0x60 4 5 = on.fld (cqKey 1 0 8) 4 5 ∧ bits 0x60 16 7 < msixSize 1 ∧
      on.sqOn 1 0 = true ∧ on.boundCq 1 0 = 0) ∧
    (let s := on.wr (sqKey 1 0 8) 0x60; s.cqOn 1 0 = true ∧ (∀ i, i < 16 → s.sqOn 1 i = true → s.boundCq 1 i ≠ 0) ∧ bit 0x60 2 = false) := by
  repeat' apply And.intro
  all_goals decide +kernel
/-- A job of tenant 1 with a class, in a phase. -/
def jb (d : Desc) (f : Job → Job) : Job := f (tk on d).2
theorem witness_DescriptorFetch :
    (Ready rings ∧ rings.canFetch 1 0 = true ∧ rings.boundCq 1 0 = 0 ∧ rings.cqRoom 1 0 = true ∧ rings.heldCount 1 < 1024 ∧
      rings.ebCount 1 < 4096) ∧
    (let s := rings.updCq 16 fun c => { c with head := 21 }; s.canFetch 1 0 = true ∧ s.cqRoom 1 0 = false ∧ (s.cq 16).stall = false) ∧
    (let s := rings.updCq 16 fun c => { c with head := 21, stall := true };
      s.canFetch 1 0 = true ∧ s.cqRoom 1 0 = false ∧ (s.cq 16).stall = true) ∧
    (isApply (dsc 0 []) = false ∧ spanBad on (dsc 0 []) none on.tb.spanIx = false ∧
      descCheck { on with nextId := 1 } (dsc 0 []) = none ∧
      { on with nextId := 1 }.mustWait (dsc 0 []) (on.tn 1).ringGen on.nextId = false) ∧
    (descCheck { on with nextId := 1 } (dsc 0 [(0, 1)]) = some (0x14, 0) ∧ spanBad on (dsc 0 [(0, 1)]) none on.tb.spanIx = false) ∧
    (let s := { on with nextId := 1, jobs := [jb (dsc 0 []) id] };
      let d := { dsc 0 [] with flags := 1 };
      spanBad s d none s.tb.spanIx = false ∧ descCheck { s with nextId := 2 } d = none ∧
      { s with nextId := 2 }.mustWait d (s.tn 1).ringGen s.nextId = true) ∧
    (let j := jb (dsc 0 []) fun x => { x with phase := .fenced };
      let s := { on with nextId := 1, jobs := [j] };
      Ready s ∧ s.job? 0 = some j ∧ j.phase = .fenced ∧ s.mustWait j.d j.gen j.id = false) ∧
    (let j := jb (dsc 0 []) fun x => { x with phase := .held 40 };
      let s := { on with nextId := 1, jobs := [j] };
      s.job? 0 = some j ∧ j.phase = .held 40 ∧ (40 : Int) ≤ s.tb.spanIx ∧
      (∀ i ∈ s.jobs, j.d.sq.val ≤ i.d.sq.val ∧ (i.d.sq = j.d.sq → j.id ≤ i.id)) ∧ descCheck s j.d = none ∧
      s.mustWait j.d j.gen j.id = false) := by
  repeat' apply And.intro
  all_goals decide +kernel
theorem witness_Interrupts :
    (let s := (on.wr (cqKey 1 0 0xC) 0x100).updCq 16 fun c => { c with oldest := some 39 };
      s.power.porstHigh = true ∧ (s.cq 16).oldest = some 39 ∧ s.fld (cqKey 1 0 0xC) 8 8 ≠ 0 ∧
      39 + s.fld (cqKey 1 0 0xC) 8 8 ≤ s.tb.spanIx ∧ s.bitAt (cqKey 1 0 8) 2 = true ∧ s.cqOn 1 0 = true) ∧
    (on.fnExists 1 = true ∧ 31 < msixSize 1 ∧ 32 ≤ msixSize 1 ∧
      (((on.fn 1).setVec 31 { (on.fn 1).vec 31 with masked := false }).vec 31).pend = false) ∧
    (let s := on.setFn 1 ((on.fn 1).setVec 0 { Vec.reset with masked := false });
      (s.tn 1).pathLost = false ∧ (s.tn 1).st ≠ .orphan ∧ s.link.up = true ∧ (s.fn 1).msixEn = true ∧ (s.fn 1).bme = true ∧
      (s.fn 1).msixMask = false ∧ ((s.fn 1).vec 0).masked = false) := by
  repeat' apply And.intro
  all_goals decide +kernel
theorem tables_on : Safety.Tables on := by constructor <;> decide
theorem witness_Interrupts_tables : Safety.Tables on ∧ Ready on := ⟨tables_on, by decide +kernel⟩
theorem witness_Completion :
    (let j := jb (dsc 0 []) id; j.kind = .desc ∧ finalStatus (dropJob on j.id) j 0 = 0 ∧ (countStatus on 1 0).discards j = false ∧ bit j.d.flags.toNat 3 = false ∧
      finalStatus (dropJob on j.id) j 0x14 = 0x14 ∧ (countStatus on 1 0x14).discards j = false) ∧
    (let j := jb { dsc 0 [] with flags := 8 } fun x => { x with deadline := 40 };
      finalStatus (dropJob on j.id) j 0 = 0 ∧ bit j.d.flags.toNat 3 = true) ∧
    (let j := jb (dsc 0 []) fun x => { x with deadline := 40, lost := true };
      finalStatus (dropJob on j.id) j 0 = 0 ∧ bit j.d.flags.toNat 3 = false ∧ (countStatus on 1 0).discards j = true) := by
  repeat' apply And.intro
  all_goals decide +kernel
theorem witness_Completion_tables : Safety.Tables on := tables_on

/-! Keystone and queues. -/
theorem witness_PlanWithinBudget : (0 : Nat) < [[100]].length ∧ [jb (dsc 0 []) id].length = 1 := by
  repeat' apply And.intro
  all_goals decide +kernel
theorem witness_ShedAndSlices :
    (let j := jb { dsc 0 [] with cls := 1 } fun x => { x with phase := .active, slices := [[3]], deadline := 39 };
      let s := { on with jobs := [j] };
      s.job? 0 = some j ∧ j.kind = .desc ∧ j.phase = .active ∧ j.slices ≠ [] ∧ j.d.op ≠ 0x90#8 ∧ j.d.op ≠ 0x51#8 ∧ j.d.op ≠ 0x81#8 ∧
      j.lowE = false ∧ j.d.clsNo = 1 ∧ j.ran = false ∧ j.deadline < s.tb.spanIx ∧ { j with ran := true }.ran = true) ∧
    (let j := jb { dsc 0 [] with cls := 2 } fun x => { x with phase := .active, slices := [[3]], shedAt := 39 };
      j.d.clsNo = 2 ∧ j.shedAt < on.tb.spanIx ∧ { on with jobs := [j] }.job? 0 = some j) ∧
    (let j := jb { dsc 0 [] with cls := 2 } fun x => { x with phase := .active, slices := [[3]], shedAt := 40 };
      j.d.clsNo = 2 ∧ (on.tb.spanIx : Int) ≤ j.shedAt) ∧
    (let j := jb { dsc 0x90 [] with cls := 1 } fun x => { x with phase := .active, slices := [[3]], planned := 1 };
      { on with jobs := [j] }.job? 0 = some j ∧ j.d.clsNo ≠ 0 ∧ 0 < j.planned ∧ j.kind = .desc ∧ j.d.op = 0x90#8) ∧
    (let j := jb { dsc 0 [] with cls := 1 } fun x => { x with kind := .stage, slices := [[3]] };
      j.planned = 0 ∧ j.d.clsNo ≠ 0 ∧ { j with planned := 1 }.kind = .stage ∧ 0 < { j with planned := 1 }.planned) := by
  repeat' apply And.intro
  all_goals decide +kernel
/-- Queue 3 of tenant 1 enabled as a copy queue of 4,096 cells at page 0, with one item read and one to read. -/
def que : State := ({ own with ks := { own.ks with cap := [976, 976, 976, 976, 976, 976, 976] } }.wr (qKey 1 3 0) 0x100003).setQueue 67 { Queue.reset with
  items := [{ src := 0, seq := 0, time := 1, body := .data [1] }, { src := 0, seq := 1, time := 2, body := .data [2, 3] }], readIx := 1, seq := 2 }
/-- An item of one cell of payload. -/
def itm : Offer := { src := 0, lane := 0, time := 200000, payload := [1], done := true }
theorem witness_OfferKeepsRoom :
    que.qEnabled 1 3 = true ∧ que.qKind 1 3 = 1 ∧ que.qCap 1 3 = 4096 ∧ Safety.QueueRoom (que.queue (64 * 1 + 3)) (que.qCap 1 3) ∧
      (que.queue (64 * 1 + 3)).part = 0 := by
  refine ⟨by decide, by decide, by decide, ?_, by decide +kernel⟩
  show (que.queue (64 * 1 + 3)).fill + _ ≤ _
  decide
theorem witness_OfferKeepsRoom_tables : Safety.Tables que := by constructor <;> decide
theorem witness_Queues :
    (Ready que ∧ itm.done = true ∧ (que.queue 67).skip = false ∧ (que.queue 67).part = 0 ∧ que.qEnabled 1 3 = true ∧
      1 + ceilDiv itm.payload.length 16 + 2 ≤ que.qCap 1 3 - (que.queue 67).fill) ∧
    (let s := que.updQueue 67 fun x => { x with items := x.items ++ List.replicate 2045 { src := 0, seq := 2, time := 3, body := .data [1] } };
      s.qEnabled 1 3 = true ∧ s.qCap 1 3 - (s.queue 67).fill < 1 + ceilDiv itm.payload.length 16 + 2) ∧
    (que.qEnabled 1 4 = false ∧ (que.queue 68).skip = false ∧ (que.queue 68).part = 0) ∧
    (qCfgBad 0x100009 = true ∧ qCfgBad 1 = true ∧ qCfgBad 0x10100001 = true) ∧
    (qCfgBad 0x101003 = false ∧ que.qEnabled 1 4 = false ∧ bits 0x101003 8 12 + bits 0x101003 20 9 ≤ que.pageCount 1 ∧
      que.usedByQueue 1 4 (bits 0x101003 8 12, bits 0x101003 20 9) = false ∧
      que.usedByRing 1 32 (bits 0x101003 8 12, bits 0x101003 20 9) = false) ∧
    (on.qEnabled 1 4 = false ∧ Ready on ∧ on.pageCount 1 < bits 0x100003 8 12 + bits 0x100003 20 9 ∧ qCfgBad 0x100003 = false) ∧
    (que.qEnabled 1 3 = true ∧ qCfgBad 0x200002 = false ∧ qCfgFields 0x200002 ≠ qCfgFields (que.rd (qKey 1 3 0)) ∧
      qCfgFields 0x100002 = qCfgFields (que.rd (qKey 1 3 0)) ∧ qCfgBad 0x100002 = false) ∧
    (∀ j ∈ que.jobs, j.midItem 1 3 = false) := by
  repeat' apply And.intro
  all_goals decide +kernel
theorem witness_Queues_opcodes :
    (let d := { dsc 0x90 [(0, 3), (6, 1)] with cls := 1 };
      queueReadCheck (tk que d).1 (tk que d).2.d = none ∧ (tk que d).1.nextRead { (tk que d).2 with aux := [0, 0, 0] } = (1, 32)) ∧
    (let d := { dsc 0x90 [(0, 3), (6, 1)] with cls := 1 };
      let s := que.updQueue 67 fun x => { x with readIx := 2 };
      queueReadCheck (tk s d).1 (tk s d).2.d = none ∧ (tk s d).1.nextRead { (tk s d).2 with aux := [0, 0, 0] } = (0, 0)) ∧
    (Good que (dsc 0x91 [(0, 3)]) (pm 0 1) false ∧ (dsc 0x91 [(0, 3)]).p 0 1 = 3 ∧ (tk que (dsc 0x91 [(0, 3)])).1.qKind 1 3 = 1) ∧
    (Good que (dsc 0x91 [(0, 4)]) (pm 0 1) false ∧ (tk que (dsc 0x91 [(0, 4)])).1.qKind 1 4 ≠ 1) ∧
    (Good que (dsc 0x92 [(0, 3)]) (pm 0 1) false ∧ Good que (dsc 0x93 [(0, 3)]) (pm 0 1) false ∧
      Good que (dsc 0x94 [(0, 63)]) (pm 0 1) false) := by
  repeat' apply And.intro
  all_goals decide +kernel

/-! Cameras and vision. -/
/-- Camera 0 on and locked, VC 0 with 64 × 4 pixels of RAW8 in 4 slots of one page, VC 1 with the same format and no ring. -/
def cam : State := ((((que.wr (camKey 0 0) (0x5DC0 + 1)).wr (vcKey 0 0 0) (64 + 2 ^ 13 * 4)).wr (vcKey 0 0 4) (1 + 2 * 4 + 2 ^ 8 * 16 + 2 ^ 20)).wr
  (vcKey 0 1 0) (64 + 2 ^ 13 * 4)).updCam 0 fun x => { x with linkUp := true }
/-- The same in RUN. -/
def camRun : State := { cam with pp := { cam.pp with mode := .run } }
/-- An open frame. -/
def opn (f : OpenFrame → OpenFrame) : OpenFrame :=
  f { slot := 1, drop := false, untimed := false, exp := 0, fs := 0, trigSeq := 0, got := 0, lines := 0, bad := 0, long := false, crc := false, ue := false }
/-- A frame open on VC 0 of camera 0. -/
def camOpen (f : OpenFrame → OpenFrame) : State := cam.updVc 0 fun x => { x with opened := some (opn f) }
theorem tables_cam : Safety.Tables cam := by constructor <;> decide +kernel
theorem witness_Cameras_enables :
    (Ready camRun ∧ camRun.mode = .run) ∧
    (Ready cam ∧ cam.mode ≠ .run ∧ cam.bitAt (camKey 0 0) 0 = true ∧ camCfgMask (0x5DD1 ||| 1) / 2 ≠ cam.rd (camKey 0 0) / 2 ∧
      camCfgMask (0x5DC0 ||| 1) / 2 = cam.rd (camKey 0 0) / 2) ∧
    (cam.bitAt (camKey 1 0) 0 = false ∧ cam.camOk 1 (camCfgMask (0x5DC0 ||| 1)) = true ∧
      cam.camOk 1 (camCfgMask (79 * 16 + 1)) = false ∧ cam.camOk 1 (camCfgMask (4501 * 16 + 1)) = false) ∧
    (cam.vcOn 0 1 = false ∧ cam.vcOk 0 1 ((2 * 4 + 2 ^ 8 * 32 + 2 ^ 20 ||| 1) % 2 ^ 28) = true ∧
      cam.vcOk 0 1 ((2 * 1 + 2 ^ 8 * 32 + 2 ^ 20 ||| 1) % 2 ^ 28) = false) ∧
    (cam.vcOn 0 0 = true ∧ (2 * 5 + 2 ^ 8 * 16 + 2 ^ 20 ||| 1) % 2 ^ 28 / 2 ≠ cam.rd (vcKey 0 0 4) / 2) ∧
    (let s := cam.updCam 0 fun x => { x with deskewWait := true }; Ready s ∧ (s.cam 0).deskewWait = true) ∧
    ((cam.cam 0).deskewWait = false) := by
  repeat' apply And.intro
  all_goals decide +kernel
theorem witness_Cameras_packets :
    (on.camListens 0 = false ∧ Ready on) ∧ (cam.camListens 0 = true) ∧ (cam.vcOn 0 0 = true ∧ (cam.vc 0).opened = none) ∧
    (let s := camOpen fun f => { f with drop := true }; s.camListens 0 = true ∧ (s.vc 0).opened = some (opn fun f => { f with drop := true }) ∧
      (s.pipe 0).running = false) ∧
    (let s := camOpen fun f => { f with got := 4 };
      (s.vc 0).opened = some (opn fun f => { f with got := 4 }) ∧ s.vcH 0 0 ≤ 4 ∧ (0 : Nat) < 4) ∧
    (let s := camOpen fun f => { f with got := 3 };
      (s.vc 0).opened = some (opn fun f => { f with got := 3 }) ∧ 3 < s.vcH 0 0 ∧ s.vcDt 0 0 ≠ 3 ∧ (List.replicate 64 7).length ≤ s.vcW 0 0) := by
  repeat' apply And.intro
  all_goals decide +kernel
theorem witness_Cameras_tables : Safety.Tables cam ∧ Ready cam := ⟨tables_cam, by decide +kernel⟩
/-- Camera 0 in mode 3 with a trigger state. -/
def trg (f : Cam → Cam) : State := cam.updCam 0 fun x => f { x with cfgTrig := 3 }
theorem witness_Cameras_triggers :
    (Ready cam ∧ cam.trigDue 0 = false) ∧
    (let s := trg fun x => { x with sched := [200000], lastEdge := some 199999, cfgGap := 2 };
      s.trigDue 0 = true ∧ (s.cam 0).lastEdge = some 199999 ∧ s.now - 199999 < (s.cam 0).cfgGap.toNat % 2 ^ 24) ∧
    (let s := trg fun x => { x with sched := [200000] };
      s.trigDue 0 = true ∧ (s.cam 0).lastEdge = none ∧ (s.cam 0).quietSpans = none) ∧
    (let s := trg fun x => { x with lastEdge := some 199990, cfgTime := 0xA0000 };
      (s.cam 0).lastEdge = some 199990 ∧ 199990 + (s.cam 0).cfgTime.toNat / 2 ^ 16 ≤ s.now) ∧
    (let s := trg fun x => { x with lastEdge := some 199991, cfgTime := 0xA0000 }; s.now < 199991 + (s.cam 0).cfgTime.toNat / 2 ^ 16) ∧
    (let s := trg fun x => { x with expDue := [(200000, 5)] }; (s.cam 0).expDue = [(s.now, 5)]) ∧
    (let s := trg id; let d := dsc 0x50 [(4, 0x80), (5, 0x0D), (6, 3)];
      Good s d (pm 0 1 ||| pm 4 8) false ∧ (tk s d).1.hasCam 1 0 = true ∧ (tk s d).1.expert 1 = true ∧ ((tk s d).1.cam 0).mode = 3 ∧
      d.p 4 8 = 200000 + 64 ∧ (tk s d).1.now + 64 ≤ d.p 4 8) ∧
    (let s := trg id; let d := dsc 0x50 [(4, 0x7F), (5, 0x0D), (6, 3)];
      Good s d (pm 0 1 ||| pm 4 8) false ∧ (tk s d).1.hasCam 1 0 = true ∧ ((tk s d).1.cam 0).mode = 3 ∧ d.p 4 8 < (tk s d).1.now + 64) ∧
    (let s := slotWrite cam 0 0 1 0 (leBytes 8 5 ++ List.replicate 26 0 ++ [4, 0, 0, 0, 1, 0]);
      let d := { dsc 0x51 [(4, 5)] with cls := 1 };
      frameReadCheck (tk s d).1 (tk s d).2.d = none ∧ 5 % max 1 ((tk s d).1.vcSlots 0 0) = 1 ∧ (tk s d).1.vcOn 0 0 = true ∧
      (tk s d).1.hdr 0 0 1 0 8 = d.p 4 8 ∧ bit ((tk s d).1.hdr 0 0 1 38 2) 0 = true) ∧
    (let d := { dsc 0x51 [(1, 1), (4, 5)] with cls := 1 };
      frameReadCheck (tk cam d).1 (tk cam d).2.d = none ∧ (tk cam d).1.vcOn 0 1 = false) ∧
    (let j := jb (dsc 0x51 []) fun x => { x with phase := .active };
      let s := { on with jobs := [j] }; s.job? 0 = some j ∧ j.d.op = 0x51#8 ∧ j.phase = .active ∧ j.slices = [] ∧ [[1]] ≠ ([] : List (List Nat))) := by
  repeat' apply And.intro
  all_goals decide +kernel
/-- A frame in the vision pipeline. -/
def frm (f : FrameJob → FrameJob) : FrameJob :=
  f { job := 9, seq := 1, slot := 1, bank := [], fmt := BitVec.ofNat 32 (64 + 2 ^ 13 * 4), flags := 0, lines := 4, exp := 0, params := [], lanes := []
      pyr := none, ref := none, mvs := none, obs := none, missed := false, dead := false }
/-- Pipeline 0 with one frame. -/
def pip (f : FrameJob → FrameJob) : State := cam.updPipe 0 fun x => { x with running := true, frames := [frm f] }
theorem witness_Vision :
    (let s := pip id; Ready s ∧ (s.pipe 0).frames = [frm id] ∧ (frm id).missed = false ∧ (frm id).pyr = none ∧ (s.pipe 0).bgJobs = [] ∧
      bit (frm id).flags 1 = false ∧ s.frameUe 0 (frm id) = false ∧ (frm id).mvs = none ∧ (frm id).obs = none) ∧
    ((frm fun f => { f with pyr := some [] }).pyr ≠ none ∧ (frm fun f => { f with pyr := some [] }).missed = false) ∧
    ((frm fun f => { f with obs := some [], mvs := some [] }).dead = false ∧ (frm fun f => { f with obs := some [], mvs := some [], dead := true }).dead = true) ∧
    ((cam.pipe 0).frames = [] ∧ Ready cam) ∧
    (let s := cam.updCam 0 fun x => { x with cfgTrig := 1, quietSpans := some 7, cfgTimeout := 7 };
      (s.cam 0).mode ≠ 0 ∧ (s.cam 0).portLost = false ∧ (s.cam 0).quietSpans = some 7 ∧ (s.cam 0).cfgTimeout.toNat % 2 ^ 16 ≤ 7) ∧
    ((cam.cam 0).mode = 0) ∧
    (let s := cam.wr (visKey 0 0x1C) (2 ^ 16 * 1 + 32); let d := dsc 0x58 [(2, 1)];
      visStartCheck (tk s d).1 (tk s d).2.d = none ∧ ((tk s d).1.pipe 0).running = false ∧ { (tk s d).1.pipe 0 with running := true }.running = true) ∧
    (Good cam (dsc 0x59 []) (pm 0 2) false ∧ Good cam (dsc 0x5B [(0, 7), (1, 3)]) (pm 0 2) false ∧ (tk cam (dsc 0x5B [(0, 7), (1, 3)])).1.hasCam 1 7 = true) ∧
    (let d := { dsc 0x5A [] with cls := 1 }; visClassLoadCheck (tk cam d).1 (tk cam d).2.d = none) ∧
    (let d := dsc 0x5C [(2, 1), (4, 2)]; visParamCheck (tk cam d).1 (tk cam d).2.d = none ∧ d.p 2 1 ≠ 11 ∧ (2 : Int) = clampI (d.p 4 4) 0 2 ∧ d.p 4 4 = 2) ∧
    (let d := dsc 0x5C [(2, 1), (4, 3)]; visParamCheck (tk cam d).1 (tk cam d).2.d = none ∧ (2 : Int) = clampI (d.p 4 4) 0 2 ∧ d.p 4 4 ≠ 2) ∧
    (let s := pip fun f => { f with dead := true }; Ready s ∧ ∃ f ∈ (s.pipe 0).frames, f.dead = true) ∧
    (let j := jb (dsc 0x59 []) id; let s := { cam with jobs := [j] }.updPipe 0 fun x => { x with stopJobs := [0] };
      (s.pipe 0).frames = [] ∧ (s.pipe 0).stopJobs = [j.id] ∧ s.job? j.id = some j) ∧ ((cam.pipe 0).stopJobs = []) := by
  repeat' apply And.intro
  all_goals decide +kernel

/-! Ejection. -/
/-- Row 0 on, over valves 0 to 9, at 1 pixel a nozzle, line at y = 100, up to 3 valves; valve 2 on; bound to queue 3. -/
def row : State := (((((own.wr (rowKey 0 0) (1 + 2 ^ 11 * 10 + 2 ^ 21 * 3)).wr (rowKey 0 0xC) 65536).wr (rowKey 0 4) (100 * 65536)).wr
  (valveKey 2 0) 1).wr (rowKey 0 0x2C) 25600).setRow 0 { NozzleRow.reset with running := true, tenant := 1, queue := 3, policy := 7 }
/-- A track record of two observations, at (2, 0) and, a millisecond later, at (2, y), whose AREA is 1. -/
def trk (y flags : Nat) : List Byte :=
  (List.replicate 6 0 ++ [BitVec.ofNat 8 flags, 2] ++ List.replicate 4 0 ++ leBytes 4 1 ++ List.replicate 8 0 ++
    leBytes 4 0 ++ leBytes 4 (2 * 65536) ++ leBytes 4 0 ++ leBytes 4 400000 ++ leBytes 4 (2 * 65536) ++ leBytes 4 (y * 65536) ++ List.replicate 16 0)
/-- A row with one item taken. -/
def rowTaken (b : ItemBody) : State := row.updRow 0 fun x => { x with taken := [{ src := 0, seq := 0, time := 0, body := b }] }
/-- The fit of that record. -/
def fit10 : Fit := { x0 := 2, vx := 0, y0 := 0, vy := 10000 }
theorem witness_NozzleRows :
    (let s := { row with pp := { row.pp with mode := .run } }; Ready s ∧ s.mode = .run) ∧
    (Ready row ∧ row.mode ≠ .run ∧ bits ((2 ^ 11 * 10 ||| 1) % 2 ^ 29) 21 3 = 0) ∧
    (let s := row.wr (rowKey 1 0xC) 65536; let w := (2 * 10 + 2 ^ 11 * 566 + 2 ^ 21 ||| 1) % 2 ^ 29;
      bits w 21 3 ≠ 0 ∧ s.rowOk 1 w (s.rd (rowKey 1 0xC)) = true ∧ row.rowOk 1 w (row.rd (rowKey 1 0xC)) = false) ∧
    (row.rowOn 0 = true ∧ row.rowOn 1 = false ∧ bits ((2 ^ 11 * 10 + 2 ^ 21 * 3) / 2 * 2 % 2 ^ 29) 21 3 ≠ 0) ∧
    (let d := dsc 0x60 [(1, 9)]; let s := { row with ks := { row.ks with cap := [9, 9, 9, 9, 976, 9, 9] } };
      ejectStartCheck (tk s d).1 (tk s d).2.d = none) ∧
    (Good row (dsc 0x61 []) (pm 0 1) false ∧ (tk row (dsc 0x61 [])).1.mayRow 1 0 = true ∧
      Good row (dsc 0x61 [(0, 15)]) (pm 0 1) false ∧ (tk row (dsc 0x61 [(0, 15)])).1.mayRow 1 15 = false) ∧
    (let d := dsc 0x62 [(4, 0x80), (5, 0x1A), (6, 6)];
      Good row d (pm 0 1 ||| pm 4 4) false ∧ -400000 ≤ d.pS 4 4 ∧ d.pS 4 4 = 400000) ∧
    (let d := dsc 0x62 [(4, 0x81), (5, 0x1A), (6, 6)]; Good row d (pm 0 1 ||| pm 4 4) false ∧ 400000 < d.pS 4 4) ∧
    ((row.row 0).taken = []) ∧
    ((rowTaken (.data [])).row 0).taken = [{ src := 0, seq := 0, time := 0, body := .data [] }] ∧
    (((rowTaken (.gap 1 2 3)).row 0).taken = [{ src := 0, seq := 0, time := 0, body := .gap 1 2 3 }] ∧ row.bitAt (qKey 1 3 0) 4 = false ∧
      ((rowTaken (.gap 1 2 3)).wr (qKey 1 3 0) 0x11).bitAt (qKey 1 3 0) 4 = true) ∧
    (((rowTaken (.flush 1 2 3)).row 0).taken = [{ src := 0, seq := 0, time := 0, body := .flush 1 2 3 }]) ∧
    (let s := { row with wheel := { row.wheel with fitted := [[{ kind := .blanket 0, valve := 2, opn := 1, cls := 2, score := 0 }]] } };
      Ready s ∧ s.wheel.fitted = [[{ kind := .blanket 0, valve := 2, opn := 1, cls := 2, score := 0 }]] ∧ s.motionMode = true ∧
      up.motionMode = false ∧ (EvKind.blanket 0).rowOf = some (0, 0xFFFFFFFF) ∧ row.wheel.fitted = []) := by
  repeat' apply And.intro
  all_goals decide +kernel
theorem witness_NozzleRows_fit :
    (recU (trk 10 0) 6 1 % 2 = 0 ∧ (row.updRow 0 fun x => { x with policy := 0 }).row 0 = { row.row 0 with policy := 0 }) ∧
    (recU (trk 0 1) 6 1 % 2 = 1 ∧ row.checkPrior 0 (row.fitOf 0 (trk 0 1)) = ({ fit10 with vy := 0 }, false) ∧
      crossTime 0 0 (mkRat (signed 32 (row.rd (rowKey 0 0x10))) 256) (mkRat (signed 32 (row.rd (rowKey 0 4))) 65536) = none) ∧
    (recU (trk 10 1) 6 1 % 2 = 1 ∧ row.checkPrior 0 (row.fitOf 0 (trk 10 1)) = (fit10, false) ∧
      (crossTime 0 10000 (mkRat (signed 32 (row.rd (rowKey 0 0x10))) 256) (mkRat (signed 32 (row.rd (rowKey 0 4))) 65536)).isSome = true ∧
      row.chosen 0 2 0 = [2] ∧ (row.wr (valveKey 2 0) 0).chosen 0 2 0 = []) := by
  repeat' apply And.intro
  all_goals decide +kernel
/-- A job of EJECT_AT. -/
def ejs : State := { row with jobs := [jb (dsc 0x64 []) id] }
/-- One event of valve 2. -/
def evt (f : Event → Event) : Event :=
  f { valve := 2, opn := 199000, cls := 203000, score := 0, arr := 0, srcs := [{ kind := .desc 0, mask := 0, asked := 199000 }], opened := false
      sentOpen := false, sentClose := false }
/-- The wheel with that event. -/
def whl (f : Event → Event) : State := { row with wheel := { row.wheel with events := [evt f] } }
theorem witness_ValveShots :
    (ejs.job? 0 = some (jb (dsc 0x64 []) id) ∧ (jb (dsc 0x64 []) id).d.op = 0x64#8) ∧
    ((5 : Int) = 5 ∧ (4 : Int) < 5) ∧ ((199000 : Int) < ejs.now + ejs.cmdLead 2 ∧ 200065 - (ejs.now + ejs.cmdLead 2 : Int) ≤ ejs.minOn 2) ∧
    ((ejs.now + ejs.cmdLead 2 : Int) ≤ 200064 ∧ (∀ x ∈ ejs.wheel.events, x.valve = 2 → ejs.isPending x = false) ∧
      (let u := { ejs with wheel := { ejs.wheel with events := [evt id] } }; let v := u.wr (0x2F440) 9; v.overLimit (v.manifold 2) 199000 203000 = none)) ∧
    (let s := { row with pp := { row.pp with mode := .run } }; Ready s ∧ s.mode = .run) ∧
    (row.mode ≠ .run ∧ row.valveOn 2 = true ∧ row.valveOn 3 = false ∧ row.wheelFits row.horizon 3 (row.minOn 3) (row.minOff 3) = true ∧
      row.wheelFits row.horizon 3 0 0 = false ∧ ((row.wr (valveKey 3 4) 0).minOn 3 = 0 ∧ (row.wr (valveKey 3 4) 0).minOff 3 = 0)) ∧
    ((row.valve 63).fault = false ∧ (row.updValve 63 fun x => { x with fault := true }).valve 63 = { row.valve 63 with fault := true } ∧
      ∃ i, i < 32 ∧ (row.valve (63 / 32 * 32 + i)).fault = false) ∧
    (let s := whl id; Ready s ∧ s.wheel.events = [evt id] ∧ (evt id).valve = 2 ∧ (evt id).opened = false ∧ (evt id).opn ≤ (s.now : Int) ∧
      (s.now : Int) < (evt id).cls ∧ s.valveOn 2 = true ∧ (s.valve 2).fault = false) ∧
    (row.wheel.events = [] ∧ (row.valve 2).drive ≠ .peak) ∧
    (let s := row.updValve 2 fun x => { x with drive := .peak, openAt := 100 };
      (s.valve 2).drive = .peak ∧ (s.valve 2).openAt + 16 * s.fld (phKey 2 4) 0 16 ≤ s.now) ∧
    (let e := evt fun e => { e with opened := true, cls := 200000 };
      let s := { row with wheel := { row.wheel with events := [e] } }.updValve 2 fun x => { x with drive := .hold };
      Ready s ∧ s.wheel.events = [e] ∧ e.valve = 2 ∧ e.opened = true ∧ e.cls ≤ (s.now : Int) ∧ (s.valve 2).drive ≠ .off) := by
  repeat' apply And.intro
  all_goals decide +kernel
theorem witness_ValveOpcodes :
    (let d := dsc 0x63 [(0, 2), (4, 1)]; valveTestCheck (tk row d).1 (tk row d).2.d = none) ∧
    (let d := dsc 0x64 [(0, 2), (4, 9)]; ejectAtCheck (tk row d).1 (tk row d).2.d = none) ∧
    (let s := { on with grants := [(0x420, 0xFFFFFFFF)] }; let d := dsc 0x64 [(0, 2), (4, 9)];
      Good s d (pm 0 20) false ∧ (tk s d).1.hasValve 1 2 = true ∧ (tk s d).1.expert 1 = false) ∧
    (let d := dsc 0x65 [(0, 0x3F), (1, 2)];
      Good row d (pm 0 2 ||| pm 4 4) false ∧ d.p 0 2 = 575 ∧ (tk row d).1.hasValve 1 575 = true ∧ (tk row d).1.expert 1 = true) ∧
    (let d := dsc 0x66 [(0, 2), (2, 1), (6, 8), (8, 100)]; valveSigCheck (tk row d).1 (tk row d).2.d = none ∧ d.p 2 2 = 1 ∧ d.p 5 1 = 0) ∧
    (let s := row.updValve 2 fun x => { x with fault := true, cause := 1 }; let d := dsc 0x67 [(0, 2)];
      Good s d (pm 0 2) false ∧ (tk s d).1.hasValve 1 2 = true ∧ ((tk s d).1.valve 2).fault = true ∧ (tk s d).1.valveCauseGone 2 true = true) ∧
    (Good row (dsc 0x67 [(0, 2)]) (pm 0 2) false ∧ ((tk row (dsc 0x67 [(0, 2)])).1.valve 2).fault = false) := by
  repeat' apply And.intro
  all_goals decide +kernel

/-! The Trestle ring. -/
/-- A reachable node. -/
def freshNode : Node := { version2 := true, delayE := 0, delayW := 0, reach := true, wrapE := false, wrapW := false, miss := 0, missRun := 0, acked := false, closedHeld := false, served := false }
/-- A ring state. -/
def trs (f : Ring → Ring) : State := { own with ring := f own.ring }
theorem witness_TrestleLink :
    (let w := (0x1400001 ||| 1) % 2 ^ 24 - bits (0x1400001 ||| 1) 2 2 * 4; bit w 0 = true ∧ bits w 4 12 < 64) ∧
    (let w := (0x401 ||| 1) % 2 ^ 24 - bits (0x401 ||| 1) 2 2 * 4; bit w 0 = true ∧ 64 ≤ bits w 4 12 ∧ own.bitAt 0x40000 0 = false ∧
      (own.wr 0x40000 1).bitAt 0x40000 0 = true ∧ own.mode ≠ .run ∧ Ready own) ∧
    (own.ring.linking = false ∧ own.ring.up = false ∧ own.ring.restored = []) ∧
    (let s := trs fun r => { r with linking := true, linkStart := 40 };
      Ready s ∧ s.ring.linking = true ∧ s.tb.spanIx < s.ring.linkStart + 4096 ∧ (∃ h ∈ [4081], 16 * s.fld 0x40000 16 8 < h) ∧
      (∀ h ∈ [16 * s.fld 0x40000 16 8], h ≤ 16 * s.fld 0x40000 16 8) ∧ s.ring.relinkJobs = []) ∧
    (let s := { (trs fun r => { r with linking := true, linkStart := 40 }) with tb := { own.tb with spanIx := 4136 } };
      s.ring.linkStart + 4096 ≤ s.tb.spanIx) ∧
    (let s := trs fun r => { r with up := true, closed := true, nodes := [freshNode, freshNode] };
      s.ring.up = true ∧ s.ring.closed = true ∧ 1 < s.ring.nodes.length ∧ (1 : Fin 17) ≠ 0 ∧ 1 ∉ s.ring.broken ∧ 0 ∉ s.ring.broken ∧
      s.ring.split = false) ∧
    (let s := trs fun r => { r with broken := [1] }; 1 ∈ s.ring.broken) ∧
    (let s := trs fun r => { r with restored := [(1, 0)], broken := [1] };
      s.ring.restored = [((1 : Fin 17).val, 0)] ∧ s.tb.spanIx < 0 + 64 ∧ s.ring.broken = [1]) ∧
    (let s := { (trs fun r => { r with restored := [(1, 0)], broken := [1] }) with tb := { own.tb with spanIx := 64 } };
      s.ring.restored = [((1 : Fin 17).val, 0)] ∧ 0 + 64 ≤ s.tb.spanIx) := by
  repeat' apply And.intro
  all_goals decide +kernel
theorem witness_Sweeps :
    (own.ring.sweeping = false ∧ own.ring.eastOut = false ∧ own.ring.westDue = none ∧ Ready own) ∧
    (let s := { (trs fun r => { r with sweeping := true }).wr 0x40000 (64 * 16) with tb := { own.tb with boundary := 200000, now := 200000 } };
      s.ring.sweeping = true ∧ s.tb.boundary + s.sweepOff ≤ s.now + 64 ∧ s.wheel.events = []) ∧
    (let e := evt fun e => { e with valve := 64, opn := 210000, cls := 400000 };
      let s := { (trs fun r => { r with sweeping := true, nodes := [freshNode] }).wr 0x40000 (64 * 16) with wheel := { own.wheel with events := [e] } };
      Ready s ∧ s.ring.sweeping = true ∧ s.tb.boundary + s.sweepOff ≤ s.now + 64 ∧ s.wheel.events = [e] ∧ 64 ≤ e.valve ∧
      nodeOf e.valve < s.ring.nodes.length ∧ e.sentOpen = false ∧ e.opn < (s.tb.boundary + 2 * s.tb.len : Nat) ∧
      (s.tb.boundary + 2 * s.tb.len : Nat) ≤ e.cls ∧ s.motionMode = true ∧ e.sentClose = false) ∧
    (let s := { (trs fun r => { r with sweeping := true }).wr 0x40000 (64 * 16) with tb := { own.tb with now := 200064 } };
      Ready s ∧ s.ring.sweeping = true ∧ s.ring.eastOut = false ∧ s.ring.westOut = false ∧ s.tb.boundary + s.sweepOff ≤ s.now ∧
      s.ring.split = false) ∧
    (let s := trs fun r => { r with westDue := some 200000 }; s.ring.westDue = some 200000 ∧ 200000 ≤ s.now) ∧
    (let s := trs fun r => { r with eastOut := true }; Ready s ∧ s.ring.eastOut = true ∧ s.ring.westOut = false ∧ s.ring.westDue = none ∧
      s.ring.split = false) := by
  repeat' apply And.intro
  all_goals decide +kernel
theorem witness_TrestleOpcodes :
    (trReportCheck (tk own (dsc 0x70 [])).1 (tk own (dsc 0x70 [])).2.d = none) ∧
    (trNodeCheck (pm 0 1 ||| pm 2 2) false (tk own (dsc 0x71 [(0, 15)])).1 (tk own (dsc 0x71 [(0, 15)])).2.d = none) ∧
    (trNodeCheck (pm 0 1 ||| pm 2 6) true (tk own (dsc 0x72 [])).1 (tk own (dsc 0x72 [])).2.d = none) ∧
    (let s := { own with pp := { own.pp with mode := .run } };
      Good s (dsc 0x72 []) (pm 0 1 ||| pm 2 6) false ∧ (∀ o, o < 32 → (tk s (dsc 0x72 [])).1.hasValve 1 (64 + 32 * 0 + o) = true) ∧
      (tk s (dsc 0x72 [])).1.expert 1 = true ∧ (tk s (dsc 0x72 [])).1.mode = .run) ∧
    (Good own (dscOf 0 0x73 []) 0 false ∧ (tk own (dscOf 0 0x73 [])).2.d.tenant = 0 ∧ (tk own (dscOf 0 0x73 [])).1.mode ≠ .run) ∧
    (Good own (dsc 0x73 []) 0 false ∧ (tk own (dsc 0x73 [])).2.d.tenant ≠ 0) := by
  repeat' apply And.intro
  all_goals decide +kernel

/-! Feedback, EMU outputs and latches. -/
/-- The same as a state in RUN. -/
def inRun (s : State) : State := { s with pp := { s.pp with mode := .run } }
/-- Channel 39 on as quadrature, 5 as Hall, 6 as SSI, 7 as ESS; EMU 0 on channel 39 with a period of one count. -/
def fbs : State := (((((que.wr (fbKey 39 0) 1).wr (fbKey 5 0) 3).wr (fbKey 6 0) 5).wr (fbKey 7 0) 7).wr (emuKey 0 0) (1 + 2 * 39)).wr (emuKey 0 4) 65536
/-- The same without the EMU output. -/
def fbq : State := (fbs.wr (emuKey 0 0) 0).wr (emuKey 0 4) 0
/-- One channel in another state. -/
def fbx (n : Nat) (f : Fb → Fb) : State := fbq.updFb n f
theorem tables_fbq : Safety.Tables fbq := by constructor <;> decide +kernel
theorem witness_FeedbackChannels_enables :
    (Ready (inRun que) ∧ (inRun que).mode = .run) ∧
    (que.mode ≠ .run ∧ que.bitAt (fbKey 39 0) 0 = false ∧ que.fbOwner 39 < 256 ∧ que.fbRanges 39 1 = true ∧ que.serOk 39 1 = true) ∧
    (on.bitAt (fbKey 0 0) 0 = false ∧ on.mode ≠ .run ∧ 256 ≤ on.fbOwner 0 ∧ que.fbRanges 39 0x31 = false) ∧
    (let s := fbq.wr (fbKey 6 0x24) 4095; 0xC7 % 256 = 0xC7 ∧ s.serOk 8 0xC5 = false) ∧
    (fbq.bitAt (fbKey 39 0) 0 = true ∧ fbq.mode ≠ .run ∧ Ready fbq ∧ (9 ||| 1) % 256 / 2 ≠ fbq.rd (fbKey 39 0) / 2 ∧
      (1 ||| 1) % 256 / 2 = fbq.rd (fbKey 39 0) / 2) ∧
    (let s := fbq.wr (emuKey 0 4) 65536; s.mode ≠ .run ∧ s.bitAt (emuKey 0 0) 0 = false ∧ s.fbMode 39 < 2 ∧ 65536 ≤ s.rd (emuKey 0 4) ∧
      ownerBy (s.hasEmu · 0) < 256 ∧ s.hasFb (ownerBy (s.hasEmu · 0)) 39 = true) ∧
    (let s := fbq.wr (emuKey 0 4) 65535; s.bitAt (emuKey 0 0) 0 = false ∧ s.rd (emuKey 0 4) < 65536) ∧
    (fbs.bitAt (emuKey 0 0) 0 = true ∧ Ready fbs ∧ (1 + 2 * 38 ||| 1) % 512 / 2 ≠ fbs.rd (emuKey 0 0) / 2 ∧
      (1 + 2 * 39 ||| 1) % 512 / 2 = fbs.rd (emuKey 0 0) / 2) := by
  repeat' apply And.intro
  all_goals decide +kernel
theorem witness_FeedbackChannels_edges :
    (fbq.bitAt (fbKey 39 0) 0 = true ∧ fbq.fbMode 39 = 0 ∧ (∀ e, e < 8 → fbq.bitAt (emuKey e 0) 0 = false) ∧ (fbq.fb 39).a = false ∧
      (fbq.fb 39).b = false ∧ (fbq.fb 39).lastAB = none ∧ true ≠ (fbq.fb 39).a ∧ true ≠ (fbq.fb 39).b ∧ fbq.bitAt (fbKey 38 0) 0 = false) ∧
    (let s := fbx 39 fun f => { f with lastAB := some (200000 - fbq.fld (fbKey 39 4) 0 12) };
      (s.fb 39).lastAB = some (200000 - fbq.fld (fbKey 39 4) 0 12) ∧ (200000 - fbq.fld (fbKey 39 4) 0 12) + s.fld (fbKey 39 4) 0 12 ≤ s.now) ∧
    (let s := fbx 39 fun f => { f with lastZ := some 199999 };
      (s.fb 39).lastZ = some 199999 ∧ s.now < 199999 + s.fld (fbKey 39 4) 0 12) ∧
    ((fbq.fb 39).lastZ = none ∧ fbq.fld (fbKey 39 0) 4 2 = 0 ∧ (fbq.wr (fbKey 39 0) 0x21).fld (fbKey 39 0) 4 2 = 2) ∧
    (let s := fbx 39 fun f => { f with pos := 65536 * 3 };
      (idxErr (s.rd (fbKey 39 0xC)) (s.rd (fbKey 39 8)) ((s.fb 39).pos / 65536)).natAbs ≤ ((s.wr (fbKey 39 0x10) 3).fld (fbKey 39 0x10) 0 16)) ∧
    (fbq.bitAt (fbKey 5 0) 0 = true ∧ fbq.fbMode 5 = 1 ∧ hallSector 7 = none ∧ hallSector 0 = none ∧ hallSector 5 = some 5 ∧
      (fbq.fb 5).sector = none) ∧
    (let s := { fbx 5 fun f => { f with sector := some 4 } with piers := (List.range 32).map fun p => (p, { Pier.reset with aligned := true }) };
      s.bitAt (fbKey 5 0) 0 = true ∧ s.fbMode 5 = 1 ∧ (s.fb 5).sector = some 4 ∧ (5 + 6 - 4) % 6 ∈ [1, 5] ∧
      (∀ p, p < 32 → (s.pier p).aligned = true) ∧ (∀ e, e < 8 → s.bitAt (emuKey e 0) 0 = false)) ∧
    (let s := fbx 5 fun f => { f with impRun := 8 }; s.bitAt (fbKey 5 0) 0 = true ∧ s.fbMode 5 = 1 ∧ 8 ≤ (s.fb 5).impRun ∧ (s.fb 5).fault = false) ∧
    (let s := fbx 5 fun f => { f with impRun := 7, okRun := 7 }; (s.fb 5).impRun < 8 ∧ (s.fb 5).okRun < 8) ∧
    (let s := fbx 5 fun f => { f with fault := true, okRun := 8 }; (s.fb 5).fault = true ∧ 8 ≤ (s.fb 5).okRun) ∧
    (let s := (fbx 39 fun f => { f with lastMove := 100000 }).wr (fbKey 39 0x2C) 100000;
      s.bitAt (fbKey 39 0) 0 = true ∧ (s.fb 39).lastMove + s.fld (fbKey 39 0x2C) 0 24 ≤ s.now ∧
      s.now < (100001 : Nat) + s.fld (fbKey 39 0x2C) 0 24) ∧
    (let s := fbx 39 fun f => { f with lastAB := some 199999 };
      (s.fb 39).lastAB = some 199999 ∧ 199999 ≤ s.now ∧ s.now < 199999 + s.fld (fbKey 39 4) 0 12) ∧
    ((4 + 6 - 4) % 6 = 0 ∧ (1 + 6 - 4) % 6 ∉ [0, 1, 5] ∧ hallSector 3 = some 1 ∧ hallSector 6 = some 3) ∧
    (let s := (fbq.wr (emuKey 0 4) 65536).updFb 39 fun f => { f with suspect := true };
      (s.fb 39).suspect = true ∧ s.bitAt (emuKey 0 0xC) 1 = false) ∧
    (let s := (fbq.wr (emuKey 0 4) 65536).updFb 39 fun f => { f with suspect := false }; (s.fb 39).suspect = false ∧ (s.fb 39).fault = false) := by
  repeat' apply And.intro
  all_goals decide +kernel
theorem witness_FeedbackChannels_tables : Safety.Tables fbq ∧ Ready fbq := ⟨tables_fbq, by decide +kernel⟩
theorem witness_FeedbackChannels_tables' : Safety.Tables
    { fbx 5 fun f => { f with sector := some 4 } with piers := (List.range 32).map fun p => (p, { Pier.reset with aligned := true }) } := by
  constructor <;> decide +kernel
/-- A running transaction. -/
def ser (c : Nat) : SerRun := { start := 199000, latch := 199100, code := c, job := none }
theorem witness_SerialTransactions :
    (fbq.bitAt (fbKey 8 0) 0 = false) ∧
    (let s := fbx 6 fun f => { f with run := some (ser 0) };
      Ready s ∧ s.bitAt (fbKey 6 0) 0 = true ∧ 2 ≤ s.fbMode 6 ∧ (s.fb 6).run.isSome = true ∧ (s.fb 6).run = some (ser 0) ∧ (ser 0).code = 0 ∧
      s.fbMode 6 = 2 ∧ s.bitAt (fbKey 6 0x18) 7 = false ∧ s.bitAt (fbKey 6 0x18) 6 = false ∧ (s.fb 6).raw = none ∧ (s.fb 6).run.bind (·.job) = none) ∧
    (fbq.fbMode 6 = 2 ∧ (fbq.fb 6).run = none) ∧
    (let s := fbx 7 fun f => { f with essStatus := true }; s.bitAt (fbKey 7 0) 0 = true ∧ s.fbMode 7 = 3 ∧ (s.fb 7).run = none ∧ (s.fb 7).essStatus = true) ∧
    (let s := fbx 7 fun f => { f with run := some (ser 1) }; (s.fb 7).run = some (ser 1) ∧ (ser 1).code ≠ 0 ∧ ([] : List Byte).length ≠ essLen (ser 1).code) := by
  repeat' apply And.intro
  all_goals decide +kernel
theorem witness_SerialTransactions_tables : Safety.Tables (fbx 6 fun f => { f with run := some (ser 0) }) := by constructor <;> decide +kernel
theorem witness_FeedbackOpcodes :
    (let d := dsc 0xA0 [(0, 39)]; let s := { on with grants := [] };
      Good s d (pm 0 1 ||| pb 1 1 ||| pm 4 8) false ∧ d.p 0 1 = 39 ∧ (tk s d).1.hasFb 1 39 = false) ∧
    (let d := dsc 0xA0 [(0, 39)]; let s := (fbq.updPier 3 fun x => { x with mode := .torque }).wr (pierKey 3 4) 39;
      Good s d (pm 0 1 ||| pb 1 1 ||| pm 4 8) false ∧ (tk s d).1.hasFb 1 39 = true ∧ bit (d.p 1 1) 0 = false ∧ (tk s d).1.fbOfLivePier 39 = true) ∧
    (let d := dsc 0xA0 [(0, 39)]; Good fbq d (pm 0 1 ||| pb 1 1 ||| pm 4 8) false ∧ (tk fbq d).1.hasFb 1 39 = true ∧ (tk fbq d).1.fbOfLivePier 39 = false) ∧
    (let d := dsc 0xA1 [(0, 39), (1, 9)]; let s := fbq.wr (qKey 1 9 0) 6;
      Good s d (pm 0 3) false ∧ (tk s d).1.qKind 1 9 = 3 ∧ (tk s d).1.hasFb 1 39 = true ∧ d.p 2 1 = 0) ∧
    (let d := dsc 0xA1 [(0, 39), (1, 9), (2, 1)]; let s := { fbq.wr (qKey 1 9 0) 6 with tb := { fbq.tb with now := 212499, offset := 0 } };
      Good s d (pm 0 3) false ∧ (tk s d).1.qKind 1 9 = 3 ∧ d.p 2 1 ≠ 0 ∧ (tk s d).1.tb.boundary + (tk s d).1.tb.offset ≤ (tk s d).1.now) ∧
    (let d := dsc 0xA2 [(0, 7)]; Good fbq d (pm 0 2) false ∧ (tk fbq d).1.fbMode 7 = 3 ∧ (tk fbq d).1.hasFb 1 7 = true ∧ (tk fbq d).1.expert 1 = true) ∧
    (let d := dsc 0xA3 [(0, 7)]; Good fbq d (pm 0 2 ||| pm 4 4) false ∧ (tk fbq d).1.fbMode 7 = 3 ∧ (tk fbq d).1.mode ≠ .run ∧
      Good (inRun fbq) d (pm 0 2 ||| pm 4 4) false ∧ (tk (inRun fbq) d).1.mode = .run ∧ (tk (inRun fbq) d).1.hasFb 1 7 = true) ∧
    (let d := dsc 0xA4 []; let s := fbs.updFb 39 fun f => { f with suspect := true };
      Good s d (pm 0 1 ||| pm 4 8) false ∧ (tk s d).1.hasEmu 1 0 = true ∧ ((tk s d).1.fb ((tk s d).1.fld (emuKey 0 0) 1 6)).suspect = true) ∧
    (let d := dsc 0xA4 []; let s := fbs.updFb 39 fun f => { f with suspect := false };
      Good s d (pm 0 1 ||| pm 4 8) false ∧ ((tk s d).1.fb 39).suspect = false ∧ ((tk s d).1.fb 39).fault = false ∧
      (tk s d).1.bitAt (emuKey 0 0) 7 = false ∧ 0 ≤ posDiff ((tk s d).1.fb 39).pos (d.pS 4 8) ∧ (tk s d).1.rd (emuKey 0 4) ≠ 0) ∧
    (let d := dsc 0xA4 [(4, 1)]; let s := fbs.updFb 39 fun f => { f with suspect := false };
      Good s d (pm 0 1 ||| pm 4 8) false ∧ posDiff ((tk s d).1.fb 39).pos (d.pS 4 8) < 0) ∧
    (Good fbs (dsc 0xA5 [(0, 7)]) (pm 0 1) false ∧ (tk fbs (dsc 0xA5 [(0, 7)])).1.hasEmu 1 7 = true) ∧
    (let s := (fbs.updEmu 0 fun x => { x with rise := some 199000 }).wr (emuKey 0 8) 1000;
      Ready s ∧ (s.emu 0).rise = some 199000 ∧ 199000 + s.fld (emuKey 0 8) 0 16 ≤ s.now ∧ s.now < 199001 + s.fld (emuKey 0 8) 0 16) ∧
    (let s := (fbs.updFb 39 fun f => { f with suspect := false }).updEmu 0 fun x => { x with suspended := false };
      s.bitAt (emuKey 0 0) 0 = true ∧ s.fld (emuKey 0 0) 1 6 = 39 ∧ (s.fb 39).suspect = false ∧ (s.fb 39).fault = false ∧
      (s.emu 0).suspended = false ∧ (true = !s.bitAt (emuKey 0 0) 7) ∧ (s.rd (emuKey 0 4) : Int) ≤ (s.emu 0).e + 65536 ∧
      (s.emu 0).e + 65536 < (s.wr (emuKey 0 4) 65537).rd (emuKey 0 4)) := by
  repeat' apply And.intro
  all_goals decide +kernel
theorem witness_Latches :
    (let d := dsc 0x2B [(3, 15), (5, 63), (6, 39)];
      Good que d (pm 0 4 ||| pb 4 1 ||| pm 5 2 ||| pm 8 8) false ∧ d.p 3 1 < 16 ∧ d.p 5 1 < 64 ∧ d.p 6 1 < 40 ∧
      (tk que d).1.hasPier 1 0 = true ∧ (tk que d).1.hasProbe 1 15 = true ∧ (tk que d).1.hasFb 1 39 = true) ∧
    (let d := dsc 0x2C [(0, 31), (1, 7)];
      Good que d (pm 0 2) false ∧ (tk que d).1.hasPier 1 31 = true ∧ ((tk que d).1.latch 255).job = none) ∧
    (let d := dsc 0x2C [(0, 31), (1, 7)]; let q := jb (dsc 0x2B []) id;
      let s := { que with nextId := 1, jobs := [q] }.updLatch 255 fun l => { l with armed := true, job := some 0 };
      Good s d (pm 0 2) false ∧ ((tk s d).1.latch 255).job = some 0 ∧ (tk s d).1.job? 0 = some q) ∧
    (let l := { Latch.reset with armed := true, cont := true, inSpan := 8 };
      l.armed = true ∧ l.since ≤ 5 ∧ l.cont = true ∧ l.spanOf = 0 ∧ 8 ≤ l.inSpan ∧ { l with cont := false }.cont = false) := by
  repeat' apply And.intro
  all_goals decide +kernel
theorem witness_Latches_tables : Safety.Tables que ∧ Ready que := ⟨by constructor <;> decide +kernel, by decide +kernel⟩

/-! Piers. -/
/-- Pier 3 in a state. -/
def pie (f : Pier → Pier) : State := que.updPier 3 f
/-- Pier 3 in POSITION; a positive limit, input 0, active or not. -/
def pos (blocked : Bool) : State := (pie fun x => { x with mode := .position }).wr (0x19000 + 4 * 3) (if blocked then 0x14000 else 0x4000)
theorem witness_Piers_motion :
    (let d := dsc 0x10 [(0, 3), (1, 4)]; let s := { que with pp := { que.pp with mode := .standby } };
      Good s d (pm 0 2) false ∧ 2 ≤ d.p 1 1 ∧ d.p 1 1 ≤ 4 ∧ (tk s d).1.hasPier 1 3 = true ∧ (tk s d).1.pierLacks 1 3 = false ∧
      (tk s d).1.motionMode = false) ∧
    (let d := dsc 0x10 [(0, 3), (1, 2)]; let s := pos false;
      Good s d (pm 0 2) false ∧ (tk s d).1.pierLacks 1 3 = false ∧ (tk s d).1.motionMode = true ∧ ((tk s d).1.pier 3).mode ≠ .disabled) ∧
    (let d := dsc 0x10 [(0, 3), (1, 2)];
      Good que d (pm 0 2) false ∧ (tk que d).1.pierLacks 1 3 = false ∧ (tk que d).1.motionMode = true ∧ ((tk que d).1.pier 3).mode = .disabled ∧
      ((tk que d).1.pier 3).aligned = false ∧ (tk que d).1.bitAt (pierKey 3 4) 14 = false) ∧
    (let d := dsc 0x10 [(0, 3), (1, 2)]; let s := pie fun x => { x with aligned := true };
      Good s d (pm 0 2) false ∧ (tk s d).1.pierLacks 1 3 = false ∧ ((tk s d).1.pier 3).mode = .disabled ∧ ((tk s d).1.pier 3).aligned = true) ∧
    (Good que (dsc 0x11 [(0, 31)]) (pm 0 1 ||| pb 1 1) false ∧ (tk que (dsc 0x11 [(0, 31)])).1.hasPier 1 31 = true) ∧
    (let d := dsc 0x13 [(0, 3), (4, 1)]; let s := (tk (pos true) d).1;
      Good (pos true) d (pm 0 1 ||| pm 4 16) false ∧ s.noMotion 1 = false ∧ (s.pier 3).mode.live = true ∧ s.axisFree 3 = true ∧
      s.blocked 3 (ratSign (ofQ 16 (posDiff (d.pS 4 8) (s.axis 3).p))) = true) ∧
    (let d := dsc 0x13 [(0, 3), (4, 1)]; let s := (tk (pos false) d).1;
      Good (pos false) d (pm 0 1 ||| pm 4 16) false ∧ s.noMotion 1 = false ∧ (s.pier 3).mode.live = true ∧ s.axisFree 3 = true ∧
      s.blocked 3 (ratSign (ofQ 16 (posDiff (d.pS 4 8) (s.axis 3).p))) = false) ∧
    (let d := dsc 0x14 [(0, 3), (4, 1)]; let s := (tk (pos true) d).1;
      Good (pos true) d (pm 0 1 ||| pm 4 8) false ∧ s.noMotion 1 = false ∧ s.blocked 3 (ratSign (ofQ 16 (d.pS 4 4))) = true) ∧
    (let d := dsc 0x14 [(0, 3), (4, 1)]; let s := (tk (pos false) d).1;
      Good (pos false) d (pm 0 1 ||| pm 4 8) false ∧ s.blocked 3 (ratSign (ofQ 16 (d.pS 4 4))) = false) ∧
    (let d := dsc 0x15 [(0, 3)]; let s := (tk (pos false) d).1;
      Good (pos false) d (pm 0 1 ||| pm 4 8) false ∧ s.noMotion 1 = false ∧ (s.pier 3).mode.live = true ∧ s.axisFree 3 = true) ∧
    (let d := dsc 0x16 [(0, 3)];
      Good (pos false) d (pm 0 1) false ∧ (tk (pos false) d).1.noMotion 1 = false ∧ ((tk (pos false) d).1.pier 3).mode.live = true ∧
      Good que d (pm 0 1) false ∧ ((tk que d).1.pier 3).mode.live = false) := by
  repeat' apply And.intro
  all_goals decide +kernel
theorem witness_Piers_setup :
    (let d := dsc 0x12 [(0, 3), (8, 1)];
      Good que d (pm 0 1 ||| pm 4 6) false ∧ d.p 8 2 ≠ 0 ∧ (tk que d).1.pierLacks 1 3 = false ∧ (tk que d).1.noMotion 1 = false ∧
      ((tk que d).1.pier 3).mode = .disabled ∧ Good (pos false) d (pm 0 1 ||| pm 4 6) false ∧ ((tk (pos false) d).1.pier 3).mode ≠ .disabled) ∧
    (let s := pie fun x => { x with mode := .aligning }; Ready s ∧ (s.pier 3).mode = .aligning ∧ (s.pier 3).alignLeft = 0) ∧
    ((que.pier 3).mode ≠ .aligning) ∧
    (let d := dsc 0x17 [(0, 3), (1, 12), (4, 1)];
      Good que d (pm 0 2 ||| pm 4 4) false ∧ d.p 1 1 = 12 ∧ (tk que d).1.hasPier 1 3 = true ∧ (tk que d).1.expert 1 = true ∧
      max (coefRange 12).1 (min (d.p 4 4) (coefRange 12).2) = d.p 4 4) ∧
    (let d := dsc 0x17 [(0, 3), (1, 1)]; let s := { on with grants := [(0x400, 8)] };
      Good s d (pm 0 2 ||| pm 4 4) false ∧ (tk s d).1.hasPier 1 3 = true ∧ (tk s d).1.expert 1 = false) ∧
    (let d := { dsc 0x18 [(0, 3), (1, 3)] with s2 := true };
      Good que d (pm 0 2 ||| pm 4 20) true ∧ (tk que d).1.hasPier 1 3 = true ∧ (tk que d).1.expert 1 = true) ∧
    (let d := dsc 0x19 [(0, 3)]; Good (inRun (pos false)) d (pm 0 1 ||| pm 4 12) false ∧ (tk (inRun (pos false)) d).1.mode = .run ∧
      (tk (inRun (pos false)) d).1.expert 1 = true) ∧
    (let d := dsc 0x19 [(0, 3)]; let s := (tk (pos false) d).1;
      Good (pos false) d (pm 0 1 ||| pm 4 12) false ∧ s.mode ≠ .run ∧ s.noMotion 1 = false ∧ (s.pier 3).mode.live = true ∧ (s.axis 3).job = none) ∧
    (let d := dsc 0x1A [(0, 3)]; let s := pie fun x => { x with mode := .fault, cause := 1 };
      Good s d (pm 0 1) false ∧ ((tk s d).1.pier 3).mode = .fault ∧ (tk s d).1.pierGone 3 = true ∧
      Good que d (pm 0 1) false ∧ ((tk que d).1.pier 3).mode ≠ .fault) := by
  repeat' apply And.intro
  all_goals decide +kernel
theorem witness_PierOutputsBounded : Safety.Tables (pos false) ∧
    (let s := (pos false).wr (pierKey 3 0x78) 0x20; (s.pier 3).feRun + 1 < max 1 (s.fld (pierKey 3 0x78) 4 8)) ∧ (-5 : Int) ≤ 5 ∧
    ((pos false).pier 3).mode ≠ .disabled ∧ ((pos false).pier 3).mode ≠ .fault ∧ (que.pier 3).mode = .disabled :=
  ⟨by constructor <;> decide +kernel, by decide +kernel, by decide, by decide +kernel, by decide +kernel, by decide +kernel⟩

/-! Paths, groups, stays, cams. -/
theorem witness_PathsAndGroups_axes :
    (let d := { dsc 0x20 [(0, 3), (4, 1)] with s2 := true }; let s := (tk (pos true) d).1;
      Good (pos true) d (pm 0 1 ||| pm 4 24) true ∧ s.hasAxis 1 3 = true ∧ s.noMotion 1 = false ∧ s.axisOn 3 = true ∧ s.axisFree 3 = true ∧
      s.blocked 3 (ratSign (ofQ 16 (posDiff (d.pS 4 8) (s.axis 3).p))) = true) ∧
    (let d := { dsc 0x20 [(0, 3), (4, 1)] with s2 := true }; let s := (tk (pos false) d).1;
      Good (pos false) d (pm 0 1 ||| pm 4 24) true ∧ s.axisOn 3 = true ∧ s.blocked 3 (ratSign (ofQ 16 (posDiff (d.pS 4 8) (s.axis 3).p))) = false) ∧
    (let d := { dsc 0x20 [(0, 143)] with s2 := true };
      Good que d (pm 0 1 ||| pm 4 24) true ∧ axisOfCode (d.p 0 1) = 47 ∧ (tk que d).1.hasAxis 1 47 = true ∧ (tk que d).1.axisOn 47 = false) ∧
    (Good que (dsc 0x21 [(0, 31)]) (pm 0 1 ||| pm 4 4) false ∧ (dsc 0x21 [(0, 31)]).p 4 4 = 0) ∧
    (Good que (dsc 0x21 [(0, 31), (4, 1)]) (pm 0 1 ||| pm 4 4) false ∧ (tk que (dsc 0x21 [(0, 31), (4, 1)])).1.hasPier 1 31 = true) := by
  repeat' apply And.intro
  all_goals decide +kernel
/-- Group 7 of tenant 1 with axis 3, in a state. -/
def grp (o : Nat) (st : GroupState) : State := que.updGroup 7 fun g => { g with owner := some o, axes := [3], state := st }
theorem witness_PathsAndGroups_groups :
    (let d := dsc 0x22 [(0, 7), (1, 1), (4, 3), (12, 1)]; let s := (tk (pos false) d).1;
      Good (pos false) d (pm 0 2 ||| pm 4 16) false ∧ groupAxes d = [3] ∧ (∀ x ∈ groupAxes d, x ≠ 48) ∧ distinct (groupAxes d) = true ∧
      d.p 12 4 ≠ 0 ∧ (∀ x ∈ groupAxes d, s.hasAxis 1 x = true) ∧ (s.group 7).owner = none ∧
      (∀ x ∈ groupAxes d, s.axisFree x = true ∧ s.axisDead x = false)) ∧
    (let d := dsc 0x22 [(0, 7), (1, 1), (4, 3), (12, 1)];
      Good (grp 2 .idle) d (pm 0 2 ||| pm 4 16) false ∧ ((tk (grp 2 .idle) d).1.group 7).owner = some 2 ∧ (2 : Nat) ≠ 1 ∧
      Good (grp 1 .idle) d (pm 0 2 ||| pm 4 16) false ∧ ((tk (grp 1 .idle) d).1.group 7).owner = some 1) ∧
    (let d := dsc 0x23 [(0, 7)];
      Good (grp 1 .idle) d (pm 0 1) false ∧ ((tk (grp 1 .idle) d).1.group 7).state = .idle ∧
      Good (grp 1 .held) d (pm 0 1) false ∧ ((tk (grp 1 .held) d).1.group 7).state ≠ .idle ∧ ((tk (grp 1 .held) d).1.group 7).owner = some 1) ∧
    (let d := { dsc 0x24 [(0, 7), (1, 32)] with cls := 1 }; let s := (tk (grp 1 .idle) d).1;
      Good (grp 1 .idle) d (pm 0 2 ||| pm 4 8) false ∧ d.p 1 1 = 32 ∧ d.p 4 8 % 64 = 0 ∧ (s.group 7).owner = some 1 ∧
      s.noBudget 1 d.clsNo [1, 0, 0, 0, 0, 0, 0] = false ∧ s.noMotion 1 = false ∧ s.tooLarge 1 d.clsNo [1, 0, 0, 0, 0, 0, 0] = false) ∧
    (∀ n, n < 4 → let d := dsc 0x25 [(0, 7), (1, n), (4, 200)];
      Good (grp 1 .running) d (pm 0 2 ||| pm 4 2) false ∧ d.setP 1 n = d ∧ d.p 1 1 = n ∧ ((tk (grp 1 .running) d).1.group 7).owner = some 1) := by
  refine ⟨?_, ?_, ?_, ?_, by decide +kernel⟩
  all_goals repeat' apply And.intro
  all_goals decide +kernel
/-- Stay 63 of tenant 1 with follower 3 and master source 0 of the feedback channels. -/
def sty (f : Stay → Stay) : State := (pos false).updStay 63 fun x => f { x with owner := some 1, follower := 3, kind := 3, index := 0, state := .released }
theorem witness_StaysAndCams_stays :
    (let d := dsc 0x26 [(0, 63), (1, 3), (2, 3), (3, 39), (8, 1), (12, 1)]; let s := (tk (pos false) d).1;
      Good (pos false) d (pm 0 4 ||| pb 4 3 ||| pm 5 11) false ∧ axisOfCode (d.p 1 1) = 3 ∧ d.p 2 1 ≤ 6 ∧ d.p 3 1 < masterCount (d.p 2 1) ∧
      d.p 12 4 ≠ 0 ∧ bit (d.p 4 1) 0 = false ∧ d.p 8 4 ≠ 0 ∧ s.hasAxis 1 3 = true ∧ s.masterNeed 1 3 39 = true ∧ (s.stay 63).owner = none ∧
      Good (sty id) d (pm 0 4 ||| pb 4 3 ||| pm 5 11) false ∧ ((tk (sty id) d).1.stay 63).owner = some 1) ∧
    (let d := dsc 0x27 [(0, 63), (1, 1), (14, 1)]; let s := (tk (sty id) d).1;
      Good (sty id) d (pm 0 2 ||| pb 2 1 ||| pm 4 16) false ∧ d.p 1 1 = 1 ∧ (s.stay 63).cam = false ∧ 65536 ≤ d.p 12 8 ∧
      (s.stay 63).owner = some 1 ∧ (s.stay 63).follower = 3 ∧ s.hasAxis 1 3 = true ∧ (s.stay 63).state = .released ∧ s.noMotion 1 = false ∧
      s.axisDead 3 = false ∧ s.axisFree 3 = true ∧ (s.axis 3).stands = true ∧ (s.axis 3).p = (s.axis 3).lastP ∧ (s.axis 3).next = [] ∧
      (s.axis 3).job = none ∧ s.axisPos 3 = true) ∧
    (let d := dsc 0x27 [(0, 63), (1, 1), (14, 1)]; let s := sty fun x => { x with state := .engaged };
      Good s d (pm 0 2 ||| pb 2 1 ||| pm 4 16) false ∧ ((tk s d).1.stay 63).state ≠ .released ∧ ((tk s d).1.stay 63).owner = some 1) ∧
    (let d := dsc 0x28 [(0, 63), (1, 1)]; let s := sty fun x => { x with state := .engaged };
      Good que d (pm 0 2 ||| pb 2 1 ||| pm 4 16) false ∧ ((tk que d).1.stay 63).owner = none ∧
      Good s d (pm 0 2 ||| pb 2 1 ||| pm 4 16) false ∧ ((tk s d).1.stay 63).state.drives = true ∧ d.p 1 1 = 1) ∧
    (let d := dsc 0x28 [(0, 63)]; let s := (sty id).updAxis 3 fun x => { x with v := 1 };
      Good s d (pm 0 2 ||| pb 2 1 ||| pm 4 16) false ∧ ((tk s d).1.stay 63).state.drives = false ∧ ((tk s d).1.axis 3).stands = false) ∧
    (let d := dsc 0x29 [(0, 63)]; let s := sty fun x => { x with state := .engaged };
      Good (sty id) d (pm 0 1) false ∧ ((tk (sty id) d).1.stay 63).state = .released ∧
      Good s d (pm 0 1) false ∧ ((tk s d).1.stay 63).state ≠ .released) ∧
    (let s := (sty fun x => { x with state := .coasting }).updFb 0 fun f => { f with suspect := true };
      (s.stay 63).state = .coasting ∧ (s.stay 63).coastLeft = 0 ∧ (s.master (s.stay 63)).2.2 = true ∧ (que.stay 63).state ≠ .coasting) := by
  repeat' apply And.intro
  all_goals decide +kernel
theorem witness_StaysAndCams_tables : Safety.Tables (tk (sty id) (dsc 0x27 [(0, 63), (1, 1), (14, 1)])).1 ∧
    Safety.Tables (tk (sty fun x => { x with state := .engaged }) (dsc 0x28 [(0, 63), (1, 1)])).1 := by
  constructor <;> constructor <;> decide +kernel
theorem witness_StaysAndCams_cams :
    (let d := { dsc 0x2A [(0, 15), (12, 1)] with s2 := true };
      Good que d (pm 0 1 ||| pb 1 3 ||| pm 2 22) true ∧ d.p 2 2 = 0 ∧ d.p 12 8 ≠ 0 ∧ ((tk que d).1.camTab 15).owner = none ∧ (tk que d).1.tableUsed 15 = false) ∧
    (let d := { dsc 0x2A [(0, 15), (3, 16), (12, 1)] with s2 := true, cls := 1 };
      Good que d (pm 0 1 ||| pb 1 3 ||| pm 2 22) true ∧ d.p 2 2 = 4096 ∧ (tk que d).1.tableUsed 15 = false ∧
      (tk que d).1.noBudget 1 d.clsNo [1, 0, 0, 0, 0, 0, 0] = false ∧ (tk que d).1.tooLarge 1 d.clsNo [1, 0, 0, 0, 0, 0, 0] = false) ∧
    (let d := { dsc 0x2A [(0, 15), (12, 1)] with s2 := true }; let s := sty fun x => { x with state := .engaged, cam := true, table := 15 };
      Good s d (pm 0 1 ||| pb 1 3 ||| pm 2 22) true ∧ (tk s d).1.tableUsed 15 = true ∧ ((tk s d).1.camTab 15).owner = none) ∧
    (Good que (dsc 0x2D [(1, 7)]) (pm 0 3) false ∧ claimedByOther ((tk que (dsc 0x2D [(1, 7)])).1.group 7).owner 1 = false) ∧
    (Good que (dsc 0x2D [(0, 1), (1, 63)]) (pm 0 3) false ∧ claimedByOther ((tk que (dsc 0x2D [(0, 1), (1, 63)])).1.stay 63).owner 1 = false) ∧
    (Good que (dsc 0x2D [(0, 2), (1, 15)]) (pm 0 3) false ∧ claimedByOther ((tk que (dsc 0x2D [(0, 2), (1, 15)])).1.camTab 15).owner 1 = false) ∧
    (Good que (dsc 0x2D [(0, 3), (1, 7), (2, 31)]) (pm 0 3) false ∧ (tk que (dsc 0x2D [(0, 3), (1, 7), (2, 31)])).1.hasPier 1 31 = true) ∧
    (Good (grp 2 .idle) (dsc 0x2D [(1, 7)]) (pm 0 3) false ∧ ((tk (grp 2 .idle) (dsc 0x2D [(1, 7)])).1.group 7).owner = some 2) := by
  repeat' apply And.intro
  all_goals decide +kernel

/-! Step generators. -/
/-- Generator 15 in pin mode, enabled, its positive limit, input 0, active or not. -/
def sgn (blocked : Bool) (f : Sg → Sg) : State :=
  ((que.wr (sgKey 15 0) 1).wr (0x19000 + 4 * 47) (if blocked then 0x14000 else 0x4000)).updSg 15 fun x => f { x with enabled := true }
theorem witness_StepGenerators_motion :
    (let d := dsc 0x30 [(0, 15)]; let s := (que.wr (sgKey 15 0) 1).wr (sgKey 15 0x1C) 1;
      let r := { s with pp := { s.pp with mode := .standby } };
      Good r d (pm 0 1) false ∧ (tk r d).1.hasSg 1 15 = true ∧ (tk r d).1.sgLacks 1 15 = false ∧ (tk r d).1.motionMode = false ∧
      Good s d (pm 0 1) false ∧ (tk s d).1.motionMode = true ∧ ((tk s d).1.sg 15).enabled = false ∧ ((tk s d).1.sg 15).fault = false ∧
      (tk s d).1.sgTooFast 15 ((tk s d).1.rd (sgKey 15 0x1C)) ((tk s d).1.fld (sgKey 15 4) 0 12) = false) ∧
    (let d := dsc 0x30 [(0, 15)]; let s := (que.wr (sgKey 15 0) 1).wr (sgKey 15 0x1C) 0xFFFFFFFF;
      Good s d (pm 0 1) false ∧ (tk s d).1.sgTooFast 15 ((tk s d).1.rd (sgKey 15 0x1C)) ((tk s d).1.fld (sgKey 15 4) 0 12) = true) ∧
    (let d := dsc 0x30 [(0, 15)]; Good (sgn false id) d (pm 0 1) false ∧ ((tk (sgn false id) d).1.sg 15).enabled = true) ∧
    (Good que (dsc 0x31 [(0, 15)]) (pm 0 1 ||| pb 1 1) false) ∧
    (let d := dsc 0x32 [(0, 15), (4, 1)]; let s := (tk (sgn true id) d).1; let r := (tk (sgn false id) d).1;
      Good (sgn true id) d (pm 0 1 ||| pm 4 16) false ∧ s.noMotion 1 = false ∧ (s.sg 15).enabled = true ∧ s.axisFree 47 = true ∧
      s.blocked 47 (ratSign (ofQ 16 (posDiff (d.pS 4 8) (s.axis 47).p))) = true ∧
      Good (sgn false id) d (pm 0 1 ||| pm 4 16) false ∧ r.blocked 47 (ratSign (ofQ 16 (posDiff (d.pS 4 8) (r.axis 47).p))) = false) ∧
    (let d := dsc 0x33 [(0, 15), (4, 1)]; let r := (tk (sgn false id) d).1;
      Good (sgn false id) d (pm 0 1 ||| pm 4 8) false ∧ r.blocked 47 (ratSign (ofQ 16 (d.pS 4 4))) = false) ∧
    (let d := dsc 0x34 [(0, 15)]; Good (sgn false id) d (pm 0 1) false ∧ (tk (sgn false id) d).1.noMotion 1 = false ∧
      Good que d (pm 0 1) false ∧ ((tk que d).1.sg 15).enabled = false) := by
  repeat' apply And.intro
  all_goals decide +kernel
theorem witness_StepGenerators_setup :
    (let d := dsc 0x35 [(0, 15), (4, 1)]; let s := sgn false fun x => { x with standstill := false };
      Good que d (pm 0 1 ||| pm 4 8) false ∧ ((tk que d).1.sg 15).enabled = false ∧ ((tk que d).1.sg 15).fault = false ∧
      Good s d (pm 0 1 ||| pm 4 8) false ∧ ((tk s d).1.sg 15).standstill = false ∧ ((tk s d).1.sg 15).enabled = true) ∧
    (let d := dsc 0x36 [(0, 15)]; let s := { on with grants := [(0x404, 0x8000)] };
      Good s d (pm 0 1 ||| pm 4 6 ||| pb 10 1) false ∧ (tk s d).1.hasSg 1 15 = true ∧ (tk s d).1.expert 1 = false ∧
      Good (sgn false id) d (pm 0 1 ||| pm 4 6 ||| pb 10 1) false ∧ (tk (sgn false id) d).1.expert 1 = true ∧
      (tk (sgn false id) d).1.noMotion 1 = false ∧ ((tk (sgn false id) d).1.sg 15).enabled = true ∧ (tk (sgn false id) d).1.axisFree 47 = true) ∧
    (let d := dsc 0x37 [(0, 15)]; let s := (sgn false id).wr (sgKey 15 0) 0;
      Good (inRun s) d (pm 0 1 ||| pm 4 4) false ∧ (tk (inRun s) d).1.mode = .run ∧ (tk (inRun s) d).1.expert 1 = true ∧
      Good s d (pm 0 1 ||| pm 4 4) false ∧ (tk s d).1.mode ≠ .run ∧ (tk s d).1.sgPins 15 = false ∧ ((tk s d).1.sg 15).enabled = true ∧
      (tk s d).1.axisFree 47 = true) ∧
    (let d := dsc 0x38 [(0, 15)]; let s := sgn false fun x => { x with fault := true, cause := 2 };
      Good s d (pm 0 1) false ∧ ((tk s d).1.sg 15).fault = true ∧ ((tk s d).1.sg 15).cause = 2 ∧ Good que d (pm 0 1) false ∧
      ((tk que d).1.sg 15).fault = false) ∧
    (let s := (sgn false fun x => { x with lastStep := 30, standstill := false }).wr (sgKey 15 0x10) 10;
      (s.sg 15).enabled = true ∧ (s.sg 15).standstill = false ∧ (s.sg 15).inc = 0 ∧ s.fld (sgKey 15 0x10) 0 16 ≤ s.tb.spanIx - (s.sg 15).lastStep ∧
      (que.sg 15).enabled = false) := by
  repeat' apply And.intro
  all_goals decide +kernel
theorem witness_StepsAndLimits :
    (que.sg 15).enabled = false ∧
    (let s := (sgn false fun x => { x with phi := 2 ^ 48 }).wr (sgKey 15 0) 0; let x := s.sg 15;
      Ready s ∧ x.enabled = true ∧ x.halted = false ∧ stepsOf (x.phase s.now) ≠ x.steps ∧ x.stopAt = none ∧ s.sgPins 15 = false) ∧
    (let s := sgn false fun x => { x with phi := 2 ^ 48 }; let x := s.sg 15;
      Ready s ∧ stepsOf (x.phase s.now) ≠ x.steps ∧ s.sgPins 15 = true ∧ x.stepHigh = false ∧ x.dirAt = none ∧ x.fallAt = none) ∧
    (let s := sgn false fun x => { x with phi := 2 ^ 48, stepHigh := true, riseAt := some 190000 }; let x := s.sg 15;
      stepsOf (x.phase s.now) ≠ x.steps ∧ x.stepHigh = true ∧ x.riseAt = some 190000 ∧ 190000 + s.fld (sgKey 15 4) 0 12 ≤ s.now) ∧
    (let s := (sgn false fun x => { x with phi := 2 ^ 48, fallAt := some 199999, riseAt := some 199999 }).wr (sgKey 15 4) 2; let x := s.sg 15;
      stepsOf (x.phase s.now) ≠ x.steps ∧ x.fallAt = some 199999 ∧ s.now < 199999 + s.fld (sgKey 15 4) 0 12 ∧ x.stepHigh = false) ∧
    (let s := (sgn false fun x => { x with phi := 2 ^ 48, dirAt := some 199999 }).wr (sgKey 15 4) 0x20000; let x := s.sg 15;
      x.dirAt = some 199999 ∧ s.now < 199999 + s.fld (sgKey 15 4) 16 12) ∧
    ((∀ x, x < 48 → que.bitAt (0x19000 + 4 * x) 14 = false ∧ que.bitAt (0x19000 + 4 * x) 15 = false) ∧
      (∀ x, x < 48 → que.bitAt (0x190C4 + 4 * (x / 32)) (x % 32) = false)) ∧
    (let s := (pos true).updAxis 3 fun x => { x with v := 1 };
      s.limActive 3 true = true ∧ (pos false).limActive 3 true = false ∧ 0 < s.axisDir 3) ∧
    (que.sg 15).inc ≤ 2 ^ 48 / 80 := by
  repeat' apply And.intro
  all_goals decide +kernel

/-! PWM. -/
/-- Group 2 in a state; the default has pier 2 bound to it, in POSITION, and GD_EN of both footings high. -/
def stg (f : Stage → Stage) : State :=
  { (que.updPier 2 fun x => { x with mode := .position }).wr (pierKey 2 0) 4 with
    footings := [(0, { Footing.reset with gdHigh := true }), (1, { Footing.reset with gdHigh := true })] }.updStage 2 f
/-- A faulted group. -/
def flt (at_ : Nat) (c : List Nat) : State := stg fun x => { x with fault := true, faultAt := at_, cause := 8, latched := c }
theorem witness_TripsAndGates_trips :
    ((stg id).stage 2).fault = false ∧ ((flt 5 [1]).stage 2).fault = true ∧ ((flt 5 [1]).stage 2).faultAt ≠ (flt 5 [1]).now ∧
    ((flt 200000 [1]).stage 2).faultAt = (flt 200000 [1]).now ∧ (∀ c ∈ ((flt 5 [1]).stage 2).latched, (flt 5 [1]).causeGone 2 c = true) ∧
    (3 ∈ ((flt 5 [3]).stage 2).latched ∧ ((flt 5 [3]).wr (bgKey 2 0x10) 5).causeGone 2 3 = false) := by
  repeat' apply And.intro
  all_goals decide +kernel
theorem witness_TripsAndGates_conditions :
    (let s := ((stg id).updPwm 8 fun x => { x with hSw := true, lSw := true, hOnAt := 199000, lOnAt := 199000, edgeAt := 199000 }).wr (bgKey 2 8) 3000;
      Ready s ∧ (s.pwm (4 * 2 + 0)).hSw = true ∧ (s.pwm (4 * 2 + 0)).lSw = true ∧ s.rd (bgKey 2 8) % 2 ^ 14 < 3001 ∧
      3000 ≤ s.rd (bgKey 2 8) % 2 ^ 14 ∧ (s.pwm 8).hOnAt + s.rd (bgKey 2 8) / 2 ^ 16 % 2 ^ 12 + 8 ≤ s.now ∧
      (s.pwm 8).lOnAt + s.rd (bgKey 2 8) / 2 ^ 16 % 2 ^ 12 + 8 ≤ s.now) ∧
    (let s := ((stg id).updPwm 8 fun x => { x with edgeAt := 199992 }).wr (bgKey 2 0xC) 100;
      s.rd (bgKey 2 0xC) % 2 ^ 16 < (-101 : Int).natAbs ∧ (100 : Int).natAbs ≤ s.rd (bgKey 2 0xC) % 2 ^ 16 ∧
      (s.pwm 8).edgeAt + s.rd (bgKey 2 0xC) / 2 ^ 16 % 2 ^ 12 + 8 ≤ s.now) ∧
    ((stg id).fld (bgKey 2 0x10) 0 16 < 65536 ∧ 0 ≤ (stg id).fld (bgKey 2 0x10) 0 16 ∧ 9999 < 10000) ∧
    (let s := que; Ready s ∧ (s.footing 1).gdHigh = false ∧ ((stg id).footing 1).gdHigh = true) ∧
    (let s := que.updFooting 1 fun x => { x with lowAt := 199201 }; (s.footing 1).gdHigh = false ∧ s.now < (s.footing 1).lowAt + 800) ∧
    (let s := que.updFooting 1 fun x => { x with lowAt := 199200 }; (s.footing 1).gdHigh = false ∧ (s.footing 1).lowAt + 800 ≤ s.now) ∧
    (hallSector 5 = some 5 ∧ que.bitAt (bgKey 15 0) 0 = false ∧ ((0 : Fin 8) = 0 ∨ (0 : Fin 8) = 7)) ∧
    (Ready (inRun que) ∧ (inRun que).mode = .run ∧ que.mode ≠ .run ∧ (0x30 : Word).toNat / 16 % 4096 < 4 ∧ 4 ≤ (0x40 : Word).toNat / 16 % 4096) := by
  repeat' apply And.intro
  all_goals decide +kernel
/-- PWMX leg 64 of set 0 (pier 0 in POSITION on PWMX), two periods a span, at the end of the first. -/
def pwx (f : Pwm → Pwm) : State :=
  { (((que.updPier 0 fun x => { x with mode := .position }).wr (pierKey 0 0) 1).wr (pxKey 0 0) 2).updPwm 64 fun x =>
      f { x with start := 200000, len := 6250, k := 2, j := 0, active := .low, block := false } with
    footings := [(0, { Footing.reset with gdHigh := true })], power := { que.power with gateHold := false }, tb := { que.tb with now := 206250 } }
theorem witness_PwmChannels_periods :
    (let s := pwx id; let x := s.pwm 64;
      Ready s ∧ chanKey (.pwmx 0 0) = 64 ∧ s.stopped (stageOf 64) = false ∧ s.now ≠ s.tb.boundary ∧ s.now = x.start + x.len ∧ x.j + 1 < x.k ∧
      s.stageOff (stageOf 64) = false ∧ (s.stage (stageOf 64)).masks = 0 ∧ x.block = false ∧
      (false, true) = x.active.commands (64 * x.len) (s.chanStep 64) (64 * 206250 - 64 * x.start)) ∧
    (let s := pwx fun x => { x with start := 200001 }; s.now ≠ s.tb.boundary ∧ s.now ≠ (s.pwm 64).start + (s.pwm 64).len) ∧ (1 ≤ 2) ∧
    ((que.aux 15).frozen = false ∧ (que.aux 15).restart = none) ∧
    (let s := { pwx id with footings := [] }; s.stopped (stageOf 64) = false ∧ s.stageOff (stageOf 64) = true ∧ (s.pwm 64).h = false ∧
      (s.pwm 64).l = false ∧ (s.pwm 64).hSw = false ∧ (s.pwm 64).lSw = false) := by
  repeat' apply And.intro
  all_goals decide +kernel
theorem witness_PwmChannels_opcodes :
    (let d := dsc 0x40 [(0, 15), (1, 3)]; let s := (tk que d).1;
      Good que d (pm 0 2 ||| pb 2 1 ||| pm 4 16) false ∧ s.hasBg 1 15 = true ∧ s.expert 1 = true ∧ s.isRaw 15 = true ∧ d.p 2 1 % 2 = 0) ∧
    (let d := dsc 0x40 [(0, 15), (2, 1)]; Good que d (pm 0 2 ||| pb 2 1 ||| pm 4 16) false ∧ d.p 2 1 % 2 = 1 ∧ (tk que d).1.isRaw 15 = true) ∧
    (let d := dsc 0x40 [(0, 0x4F)]; Good que d (pm 0 2 ||| pb 2 1 ||| pm 4 16) false ∧ d.p 0 1 = 0x4F ∧ d.p 12 8 = 0 ∧
      (tk que d).1.hasAux 1 (0x4F - 0x40) = true ∧ (tk que d).1.expert 1 = true) ∧
    (let d := dsc 0x41 [(0, 0x9F), (4, 1)]; let s := (tk que d).1;
      Good que d (pm 0 1 ||| pm 4 2) false ∧ stageTarget (d.p 0 1) = some 47 ∧ (∀ i, i < 8 → bits (d.p 4 2) (2 * i) 2 ≠ 3) ∧
      s.hasStage 1 47 = true ∧ s.expert 1 = true ∧ s.mode = .commission ∧ (s.stage 47).fault = false) ∧
    (let d := dsc 0x42 [(4, 1), (8, 1), (12, 1)]; let s := (tk que d).1;
      Good que d (pm 4 2 ||| pm 8 6) false ∧ (∀ x ∈ haltStages d, s.hasStage 1 x = true) ∧ (∀ x ∈ haltAux d, s.hasAux 1 x = true) ∧
      haltStages d = [0, 16] ∧ s.expert 1 = true ∧ s.mode = .commission ∧ Good que (dsc 0x43 [(4, 1), (8, 1), (12, 1)]) (pm 4 2 ||| pm 8 6) false) ∧
    (let s := que.updAux 15 fun x => { x with restart := some 199999 }; (s.aux 15).restart = some 199999 ∧ 199999 < s.tb.boundary ∧ s.jobs = []) ∧
    (let d := dsc 0x44 [(0, 0x40)]; Good que d (pm 0 1 ||| pm 4 2) false ∧ (tk que d).1.hasAux 1 0 = true) ∧
    (let d := dsc 0x45 [(0, 2)]; let s := que.wr (bgKey 2 0) 1;
      Good s d (pm 0 1 ||| pb 2 1 ||| pm 4 2) false ∧ (tk s d).1.hasBg 1 2 = true ∧ (tk s d).1.bitAt (bgKey 2 0) 0 = true) ∧
    (let d := dsc 0x46 [(0, 2)]; Good (flt 5 [1]) d (pm 0 1) false ∧ stageTarget 2 = some 2 ∧ (tk (flt 5 [1]) d).1.hasStage 1 2 = true ∧
      ((tk (flt 5 [1]) d).1.stage 2).fault = true) ∧
    (let s := ((stg fun x => { x with frozenAt := some 100, frozenTmo := 50 }).updPwm 8 fun x => { x with hSw := true });
      Ready s ∧ stageKey (.bridge 2) = 2 ∧ (s.stage 2).frozenAt = some 100 ∧ (∃ ch ∈ chansOf 2, (s.pwm ch).hSw = true ∨ (s.pwm ch).lSw = true) ∧
      s.pp.unsafeAck = false ∧ (s.stage 2).frozenTmo * 3880 ≤ s.now - 100) := by
  repeat' apply And.intro
  all_goals decide +kernel
theorem witness_PwmChannels_restart : (∀ st, (que.stage st).restart = none) ∧ (∀ x, (que.aux x).restart = none) ∧
    (∀ y, y ≠ (15 : Fin 16).val → ((que.updAux 15 fun x => { x with restart := some 199999 }).aux y).restart = none) := by
  refine ⟨fun _ => rfl, fun _ => rfl, fun y h => ?_⟩
  have e : (que.updAux 15 fun x => { x with restart := some 199999 }).auxs = [(15, { Aux.reset with restart := some 199999 })] := by decide +kernel
  unfold State.aux
  rw [e]
  simp only [storeGet]
  rw [if_neg (by simpa using h)]
  rfl
theorem witness_PwmChannels_tables : Safety.Tables (tk que (dsc 0x41 [(0, 0x9F), (4, 1)])).1 := by constructor <;> decide +kernel

/-! CAN. -/
/-- Channel 0 wholly tenant 1's, with XL on; its state. -/
def cnl (f : Can → Can) : State :=
  ({ que with grants := que.grants.map fun (e : Nat × Word) => if e.1 = 0x540 then (0x540, 1) else e }.wr (canKey 0 0) 2).updCan 0 fun x => f { x with state := .active }
/-- The same with a filter quota, channel 0 shared. -/
def cns : State := { cnl id with grants := que.grants.map fun (e : Nat × Word) => if e.1 = 0x540 then (0x540, 2 + 256 * 128) else e }
/-- A slot of the transmit set. -/
def slt (one : Bool) : CanSlot :=
  { job := 0, tenant := 1, frame := { fmt := 0, ide := false, id := 5, rtr := false, brs := false, esi := false, sec := false, sdt := 0, vcid := 0
                                      af := 0, len := 0, data := [] }, oneShot := one, adm := 0, since := 0 }
theorem witness_CanSending :
    (let d := dsc 0x80 [(4, 5)]; let s := cnl fun x => { x with state := .stopped };
      Good s d (pm 0 1 ||| pb 1 0xBF ||| pm 2 14) false ∧ canFrameBad (tk s d).1 d = false ∧ (tk s d).1.canUse 1 0 = 1 ∧ (tk s d).1.canClosed 0 ≠ 0) ∧
    (let d := dsc 0x80 [(4, 5)]; let s := (tk (cnl id) d).1;
      Good (cnl id) d (pm 0 1 ||| pb 1 0xBF ||| pm 2 14) false ∧ s.canClosed 0 = 0 ∧ s.canTaken 1 0 < 32 ∧ (tk (cnl id) d).2.phase = .admitted ∧
      (s.can 0).state ≠ .stuck) ∧
    (let d := dsc 0x80 [(4, 5)]; let s := cnl fun x => { x with set := List.replicate 32 (slt false) };
      Good s d (pm 0 1 ||| pb 1 0xBF ||| pm 2 14) false ∧ (tk s d).1.canClosed 0 = 0 ∧ 32 ≤ (tk s d).1.canTaken 1 0) ∧
    (let d := { dsc 0x81 [(3, 8)] with s2 := true, cls := 1 }; let s := (tk (cnl id) d).1;
      Good (cnl id) d (pm 0 1 ||| pb 1 0x21 ||| pm 2 10 ||| pm 16 8) true ∧ d.p 2 2 = 2048 ∧ canFrameBad s d = false ∧ s.canUse 1 0 = 1 ∧
      s.noBudget 1 d.clsNo [ceilDiv (d.p 2 2) 1024, 0, 0, 0, 0, 0, 0] = false ∧ s.canClosed 0 = 0 ∧
      s.tooLarge 1 d.clsNo [ceilDiv (d.p 2 2) 1024, 0, 0, 0, 0, 0, 0] = false ∧ s.canTaken 1 0 < 32) ∧
    (let j := jb (dsc 0x81 []) fun x => { x with phase := .active }; let s := { cnl id with jobs := [j] };
      let r := { cnl (fun x => { x with state := .sleep }) with jobs := [j] };
      Ready s ∧ s.job? 0 = some j ∧ j.kind = .desc ∧ j.d.op = 0x81#8 ∧ j.phase = .active ∧ j.slices = [] ∧ (∀ x ∈ (s.can 0).set, x.job ≠ 0) ∧
      s.canClosed 0 = 0 ∧ (s.can 0).state ≠ .stuck ∧ r.canClosed 0 ≠ 0 ∧ r.job? 0 = some j) ∧ (que.job? 0 = none) := by
  repeat' apply And.intro
  all_goals decide +kernel
theorem witness_CanOpcodes :
    (let d := dsc 0x82 [(1, 127), (4, 9)]; let s := cns.wr (qKey 1 9 0) 4;
      Good s d (pm 0 2 ||| pb 2 7 ||| pb 3 0x3F ||| pm 4 1 ||| pm 8 8) false ∧ (tk s d).1.qKind 1 9 = 2 ∧ 127 < (tk s d).1.canFilterQuota 1 0) ∧
    (let d := dsc 0x82 [(1, 128), (4, 9)]; let s := cns.wr (qKey 1 9 0) 4;
      Good s d (pm 0 2 ||| pb 2 7 ||| pb 3 0x3F ||| pm 4 1 ||| pm 8 8) false ∧ (tk s d).1.canFilterQuota 1 0 ≤ 128) ∧
    (let d := dsc 0x83 [(1, 9), (2, 1)]; let s := (cnl id).wr (qKey 1 9 0) 4;
      Good s d (pm 0 2 ||| pb 2 1) false ∧ (tk s d).1.qKind 1 9 = 2 ∧ (tk s d).1.canUse 1 0 = 1) ∧
    (let d := dsc 0x84 []; let s := cnl fun x => { x with state := .stopped }; let j := { (tk s d).2 with phase := .active };
      Good s d (pm 0 2) false ∧ d.setP 1 0 = d ∧ ((keep (tk s d).1 j).can 0).state = .stopped ∧ (keep (tk s d).1 j).job? j.id = some j ∧
      Good (cnl id) d (pm 0 2) false ∧ ((keep (tk (cnl id) d).1 j).can 0).state ≠ .stopped) ∧
    (let d := dsc 0x84 [(1, 1)]; let j := { (tk (cnl id) d).2 with phase := .active };
      Good (cnl id) d (pm 0 2) false ∧ d.setP 1 1 = d ∧ ((keep (tk (cnl id) d).1 j).can 0).sends = true ∧ (tk (cnl id) d).1.canUse 1 0 = 1) ∧
    (let d := dsc 0x84 [(1, 2)]; let s := cnl fun x => { x with state := .stopped }; let r := cnl fun x => { x with state := .sleep };
      Good s d (pm 0 2) false ∧ ((tk s d).1.can 0).state = .stopped ∧ Good r d (pm 0 2) false ∧ ((tk r d).1.can 0).state = .sleep ∧
      Good (cnl id) d (pm 0 2) false ∧ d.setP 1 2 = d ∧ ((keep (tk (cnl id) d).1 (tk (cnl id) d).2).can 0).sends = true) ∧
    (let d := dsc 0x84 [(1, 3)]; let s := cnl fun x => { x with state := .busOff }; let j := { (tk s d).2 with phase := .active };
      Good s d (pm 0 2) false ∧ d.setP 1 3 = d ∧ ((keep (tk s d).1 j).can 0).state = .busOff ∧ (keep (tk s d).1 j).job? j.id = some j ∧
      ((cnl id).can 0).state ≠ .busOff) := by
  repeat' apply And.intro
  all_goals decide +kernel
theorem witness_CanOpcodes_config :
    (let d := { dsc 0x85 [] with s2 := true, params := leBytes 4 0 ++ leBytes 4 500000 ++ leBytes 4 80 ++ List.replicate 16 0 ++ leBytes 4 100 };
      let s := (cnl fun x => { x with state := .stopped }); let a := (tk s d).1;
      Good s d (pm 0 1 ||| pb 1 0x3F ||| pm 28 2 ||| (pm 4 5 ||| pm 12 5 ||| pm 20 5)) true ∧ (canConfigWords a (tk s d).2.d).isSome = true ∧
      canConfigWords (advance s 0) { d with op := 0x85#8 } ≠ none ∧ bit (d.p 1 1) 0 = false ∧ a.canUse 1 0 = 1 ∧ a.mode ≠ .run ∧
      (a.can 0).state = .stopped ∧ (canConfigWords (tk (inRun s) d).1 (tk (inRun s) d).2.d).isSome = true ∧ (tk (inRun s) d).1.mode = .run) ∧
    (Good (cnl id) (dsc 0x86 []) (pm 0 1) false ∧ (tk (cnl id) (dsc 0x86 [])).1.canUse 1 0 ≠ 0) := by
  repeat' apply And.intro
  all_goals decide +kernel
/-- A channel with no tenant. -/
def cn0 (f : Can → Can) : State := on.updCan 0 fun x => f { x with state := .active }
theorem witness_CanFrameEvents :
    (on.can 0).sends = false ∧
    ((cn0 id).can 0).sends = true ∧ (cn0 id).canFmtOn 0 0 = true ∧ (cn0 id).canFmtOn 0 2 = false ∧ (cn0 id).canTenants 0 = [] ∧
    ((cn0 id).can 0).taps = [] ∧ ((cn0 id).can 0).rxErr < 128 ∧ ((cn0 id).can 0).txErr < 128 ∧ ((cn0 id).can 0).state = .active ∧
    ((cn0 id).can 0).stop = [] ∧ ((cn0 id).can 0).filters = [] ∧ (cn0 id).canListenOnly 0 = false ∧
    ((cn0 id).wr (canKey 0 0) 4).canListenOnly 0 = true ∧ canWinner 5 ((cn0 id).can 0).set = none ∧
    (∀ o, canWinner 5 ((cn0 fun x => { x with set := [slt o] }).can 0).set = some (slt o)) ∧ (slt true).oneShot = true ∧
    (slt false).oneShot = false ∧ CanErr.bit ≠ CanErr.ack := by
  repeat' apply And.intro
  all_goals decide +kernel
theorem witness_CanFrameEvents_tables : Safety.Tables (cn0 id) ∧ Ready (cn0 id) := ⟨by constructor <;> decide +kernel, by decide +kernel⟩
theorem witness_CanChannelStates :
    (Ready on ∧ (on.can 0).sends = false ∧ (on.can 0).state = .stopped) ∧ ((cn0 id).can 0).sends = true ∧ ((cn0 id).can 0).rxdStuck = false ∧
    (let s := cn0 fun x => { x with state := .busOff, recovering := true }; (s.can 0).state = .busOff ∧ (s.can 0).recovering = true ∧
      (s.can 0).state ≠ .stopped ∧ (s.can 0).rxdStuck = false ∧ (s.can 0).sends = false) ∧
    (let s := cn0 fun x => { x with state := .stuck, txErr := 127, rxErr := 127 }; (s.can 0).state = .stuck ∧ (s.can 0).txErr < 128 ∧ (s.can 0).rxErr < 128) ∧
    (let s := cn0 fun x => { x with state := .stuck, txErr := 128 }; (s.can 0).state = .stuck ∧ 128 ≤ (s.can 0).txErr) ∧
    (let s := cn0 fun x => { x with state := .sleep };
      (s.can 0).state = .sleep ∧ s.bitAt (canKey 0 0x18) 0 = false ∧ (s.can 0).masked = false ∧
      (200000 - s.fld (canKey 0 0x18) 4 12) + s.fld (canKey 0 0x18) 4 12 ≤ s.now ∧ (s.can 0).sleepJob = none ∧
      (s.wr (canKey 0 0x18) 1).bitAt (canKey 0 0x18) 0 = true) ∧
    (let s := cn0 fun x => { x with state := .sleep, rxdStuck := true }; (s.can 0).rxdStuck = true ∧ (s.can 0).sends = false) ∧
    (∀ x ∈ [slt true], x.adm < 1 ∨ (x.adm = 1 ∧ x.job ≤ 0)) ∧
    canWinner 5 [slt true] = some (slt true) ∧ (∃ x ∈ [slt true], x.since ≤ 5) := by
  repeat' apply And.intro
  all_goals decide +kernel

/-! Parapet, boot and life. -/
/-- A Parapet state. -/
def par (f : Parapet → Parapet) : State := { on with pp := f on.pp }
theorem witness_CausesAndModes :
    (par fun p => { p with mode := .safeHold }).mode = .safeHold ∧ on.mode ≠ .safeHold ∧ (4 : Nat) / 2 ^ (3 - 1) % 2 = 1 ∧
    (on.pp.hbArmed = false ∧ on.answers = true ∧ Ready on) ∧
    (let s := { par (fun p => { p with hbArmed := true }) with tb := { on.tb with now := 300000 } };
      s.pp.hbArmed = true ∧ 97 * 110 * (s.fld 0x48024 0 4 + 1) * s.tb.len ≤ 10000 * (s.now - s.tb.boundary)) ∧
    { on with life := { on.life with tjMax := some 40 } }.life.tjMax = some 40 ∧ (152 : Int) ≤ 152 ∧ ((142 : Int) ≤ 142 ∧ (142 : Int) < 152) ∧
    (141 : Int) < 142 ∧ ((159 : Int) < 160 ∧ (160 : Int) ≤ 160) ∧ { on with power := { on.power with porstHigh := false } }.power.porstHigh = false ∧
    (8192 * 3072 - 2 + 1 < 8192 * 3072 ∧ 8192 * 3072 - 1 + 1 = 8192 * 3072 ∧ 128 ≤ (8192 * 128) / 8192 ∧ on.scrub + 1 < 8192 * 3072) ∧
    (on.pp.req = none ∧ (par fun p => { p with req := some (1, 0) }).pp.req ≠ none) ∧
    (on.setNow (deckWordKey 0 0) &&& 2 = 0 ∧ (noteSet on (deckWordKey 0 0) 2).setNow (deckWordKey 0 0) &&& 2 ≠ 0) := by
  repeat' apply And.intro
  all_goals decide +kernel
/-- A request written at a time, judged in a state. -/
def req (c w : Nat) (f : Parapet → Parapet) : State := par fun p => f { p with req := some (c, w) }
theorem witness_ModeRequests :
    ((3 : Word).toNat % 4 = 3 ∧ (1 : Word).toNat % 4 ≠ 3 ∧ on.answers = true ∧ on.pp.req = none ∧ (req 1 0 id).pp.req ≠ none ∧
      { on with fw := { on.fw with inRecovery := true } }.answers = false) ∧
    (req 0 199937 id).tb.boundary < 199937 + 64 ∧ 199936 + 64 ≤ (req 0 199936 id).tb.boundary ∧
    (req 0 0 fun p => { p with reqStale := true }).pp.reqStale = true ∧ modeOf 1 = (req 1 0 id).mode ∧
    (let s := req 2 0 fun p => { p with mode := .safeHold }; s.pp.reqStale = false ∧ s.mode = .safeHold ∧ modeOf 2 = .run) ∧
    (let s := req 0 0 fun p => { p with mode := .safeHold, causes := 1 }; s.mode = .safeHold ∧ modeOf 0 ≠ .run ∧ modeOf 0 ≠ .safeHold ∧ s.pp.causes ≠ 0) ∧
    (let s := (req 2 0 id).updStage 3 fun x => { x with frozenAt := some 1 }; s.mode = .commission ∧ modeOf 2 = .run ∧ s.pp.causes = 0 ∧ s.runChecks ≠ 0) ∧
    (let s := req 0 0 id; s.mode ≠ modeOf 0 ∧ s.pp.causes = 0 ∧ modeOf 0 ≠ .run) ∧
    (let s := req 2 0 id; s.mode = .commission ∧ s.pp.causes = 0 ∧ s.runChecks = 0) ∧ ((1 : Nat) < 2 ∧ (2 : Nat) ≤ 2) ∧
    (on.mode = .commission ∧ up.mode ≠ .commission ∧ up.answers = true) := by
  repeat' apply And.intro
  all_goals decide +kernel
/-- A firmware state. -/
def fwr (f : Firmware → Firmware) : State := { on with fw := f on.fw }
/-- A valid image. -/
def img : Image := { magicOk := true, bodyLen := 4, svn := 0, version := 1, steppings := 1, sigOk := true }
theorem witness_BootAndUpdate :
    (up.fw.phase = .reading ∧ up.fw.ctl.st up.fw.ctl.active = .good ∧ Ready up ∧ on.fw.phase ≠ .reading) ∧
    (let s := fwr fun f => { f with phase := .verifying 0 0 }; s.fw.phase = .verifying 0 0 ∧ s.fw.valid 0 = true ∧ s.fw.ctl.active = 0) ∧
    (let s := fwr fun f => { f with phase := .verifying 1 1 }; s.fw.phase = .verifying 1 1 ∧ s.fw.valid 1 = false) ∧
    (let s := fwr fun f => { f with phase := .starting 0 }; s.fw.phase = .starting 0 ∧ (s.fw.img 0).isSome = true) ∧
    (let s := fwr fun f => { f with phase := .noSlot }; s.fw.phase = .noSlot ∧ on.fw.phase ≠ .noSlot) ∧
    (on.fw.phase = .running ∧ (raiseCause on 7).fw.phase = .running ∧ (raiseCause on 7).fw.slot = on.fw.slot ∧
      (raiseCause on 7).fw.ctl.st on.fw.slot ≠ .trial) ∧
    (let s := fwr fun f => { f with restartAt := some 200000 }; s.fw.restartAt = some 200000 ∧ s.now < 200000 + 40000000) ∧
    (let s := { fwr (fun f => { f with restartAt := some 200000, ready := false, ctl0 := { f.ctl0 with stA := .trial } }) with tb := { on.tb with now := 40200000 } };
      Ready s ∧ 200000 + 40000000 ≤ s.now ∧ s.fw.ready = false ∧ s.fw.ctl.st s.fw.ctl.active = .trial) ∧
    ((fwr fun f => { f with busy := some 1 }).fw.busy ≠ none ∧ on.fw.busy = none ∧ on.fw.inRecovery = false ∧ on.fw.trial = false ∧
      (fwr fun f => { f with trial := true }).fw.trial = true) ∧
    (on.fld 0x80014 0 22 < 516 ∧ 516 ≤ (on.wr 0x80014 516).fld 0x80014 0 22 ∧ (on.wr 0x80014 2097152).fld 0x80014 0 22 ≤ 2097152 ∧
      on.bEn 0 0 = false ∧ { on with grants := [(0x110, 0x1000000)] }.bEn 0 0 = true) ∧
    (on.fw.newSlot = none ∧ (fwr fun f => { f with ctl0 := { f.ctl0 with stB := .new } }).fw.newSlot = some 1) ∧
    (on.fw.ctl.st on.fw.slot = .good ∧ (fwr fun f => { f with slot := 1 }).fw.ctl.st 1 ≠ .good) ∧
    (let s := fwr fun f => { f with busy := some 1 }; s.fw.busy = some 1 ∧ s.stageReads = false ∧ imageFailures img s.fw.svnMin = 0 ∧
      imageFailures { img with magicOk := false } s.fw.svnMin ≠ 0 ∧ on.fw.busy ≠ some 1) ∧
    (let s := fwr fun f => { f with actPending := some (200000 - 64), ctl0 := { f.ctl0 with stB := .new } };
      s.fw.actPending = some (200000 - 64) ∧ s.fw.newSlot = some 1 ∧ s.fw.actDue = false ∧ s.mode ≠ .standby ∧
      { s with pp := { s.pp with mode := .standby } }.mode = .standby ∧ 200000 - 64 + 64 ≤ s.tb.boundary ∧
      { s with fw := { s.fw with actDue := true } }.fw.actDue = true) := by
  repeat' apply And.intro
  all_goals decide +kernel
theorem witness_CoreVoltageAndAging :
    (Ready (up.wr 0x100 0) ∧ (up.wr 0x100 0).bitAt 0x100 0 = false) ∧ ({ up with life := { up.life with nackRun := 3 } }.life.nackRun = 3 ∧ up.life.nackRun < 3) ∧
    (let s := up.wr 0x100 (1 + 256 * 8); s.bitAt 0x100 0 = true ∧ 7 < s.fld 0x100 8 8 ∧ s.life.targetMv < 820 ∧
      s.mode ≠ .run ∧ s.rd 0x100 = 1 + 256 * s.fld 0x100 8 8 ∧ 4 ≤ s.fld 0x100 8 8 ∧ s.fld 0x100 8 8 ≤ 20) ∧
    ((inRun on).mode = .run) ∧
    (up.fld 0x10C 0 16 ≤ [up.fld 0x10C 0 16].foldl max 0 ∧ [0].foldl max 0 < (up.wr 0x10C 1).fld 0x10C 0 16) := by
  repeat' apply And.intro
  all_goals decide +kernel

end Sys2Proof.Tests
end

section
/-!
SUPPORT. The span (chapter 01): what the settings at a boundary and the boundary itself leave as it was, and what a write of
`SPAN_CFG` does in each case of R15, R16 and R19.
-/
namespace Sys2Proof.Machine

/-! ## The frame of a boundary (R12, R13) -/

/-- What `Keeps` names, but for the settings a boundary puts in force (length, offset and percentage, with the writes that wait
for it), the mode and the form of the tables. -/
structure KeepsInstants (s t : State) : Prop where
  pll : t.power.pll = s.power.pll
  porst : t.power.porstHigh = s.power.porstHigh
  now : t.tb.now = s.tb.now
  boundary : t.tb.boundary = s.tb.boundary
  spanIx : t.tb.spanIx = s.tb.spanIx
  sampled : t.tb.sampled = s.tb.sampled
  judged : t.tb.judged = s.tb.judged
  grants : t.grants = s.grants
  pending : t.pending = s.pending

theorem Keeps.instants {s t : State} (h : Keeps s t) : KeepsInstants s t :=
  ⟨h.pll, h.porst, h.now, h.boundary, h.spanIx, h.sampled, h.judged, h.grants, h.pending⟩

theorem KeepsInstants.trans {a s t : State} (h : KeepsInstants a s) (k : KeepsInstants s t) : KeepsInstants a t where
  pll := k.pll.trans h.pll
  porst := k.porst.trans h.porst
  now := k.now.trans h.now
  boundary := k.boundary.trans h.boundary
  spanIx := k.spanIx.trans h.spanIx
  sampled := k.sampled.trans h.sampled
  judged := k.judged.trans h.judged
  grants := k.grants.trans h.grants
  pending := k.pending.trans h.pending

/-- Settings taken over at a boundary touch no instant of the span, whatever values they put in force. -/
theorem keepsInstants_settings (s : State) (len off pct : Nat) (writes : List (Nat × Nat)) :
    KeepsInstants s { s with tb := { s.tb with len := len, offset := off, pct := pct, lenWrite := writes } } :=
  ⟨rfl, rfl, rfl, rfl, rfl, rfl, rfl, rfl, rfl⟩

theorem keepsInstants_spanSettings (s : State) : KeepsInstants s (spanSettings s) := by
  unfold spanSettings
  extract_lets b len off pct later due clock kept readBack
  have hdue : KeepsInstants s due := keepsInstants_settings s b.len b.offset b.pct later
  split_ifs
  · exact hdue
  · exact keepsInstants_settings s len off pct later
  · have hkept : Keeps due kept := keeps_setFld (keeps_setFld (Keeps.refl due) _ _ _ _) _ _ _ _
    have hread : Keeps due readBack := Keeps.ite (keeps_setFld hkept _ _ _ _) hkept
    exact hdue.trans (keeps_flag hread kSpan 4).instants

/-- The clock when a span opens, before any unit has done its work of the boundary: the time one length after the last boundary,
the counter one further, the span's instants ahead. -/
def openSpan (s : State) : State :=
  { s with tb := { s.tb with
      now := max s.tb.now (s.tb.boundary + s.tb.len)
      boundary := s.tb.boundary + s.tb.len
      spanIx := s.tb.spanIx + 1
      sampled := false
      judged := false } }

/-- Nothing a boundary does after it has opened the span moves the clock, a grant, a reset level or the queue of commands. -/
theorem keepsInstants_spanBoundary (s : State) : KeepsInstants (openSpan s) (spanBoundary s) := by
  unfold spanBoundary
  extract_lets len b clock opened settled changed tenants power gated worked
  have hopen : KeepsInstants (openSpan s) settled :=
    (keeps_summaryIrq (Keeps.refl opened)).instants.trans (keepsInstants_spanSettings _)
  have htenants : Keeps settled tenants :=
    Keeps.foldl (fun _ tn h => keeps_tenantBoundary h tn) _ (keeps_ppHeartbeat (Keeps.refl _))
  have hgate : Keeps settled gated := Keeps.ite (Keeps.upd htenants rfl) htenants
  have hwork : Keeps settled worked := keeps_workBoundary (keeps_unitsBoundary hgate len changed) len changed
  exact hopen.trans (keeps_ageSpan hwork len).instants

/-- With PORST_N high and the PLL locked the boundary comes (R9). -/
theorem exec_spanBoundary {s : State} (hporst : s.power.porstHigh = true) (hpll : s.power.pll = true) :
    exec .spanBoundary s = .next (spanBoundary s) := by
  show execSpanBoundary s = _
  rw [execSpanBoundary, act_eq _ hporst, if_pos hpll]

/-! ## Writes of `SPAN_CFG` (R15, R16, R19) -/

@[simp] theorem advance_fld (s : State) (t k lo n : Nat) : (advance s t).fld k lo n = s.fld k lo n := by
  unfold advance; split <;> rfl

@[simp] theorem advance_mode (s : State) (t : Nat) : (advance s t).mode = s.mode := by
  unfold advance; split <;> rfl

section WriteSpanCfg
variable {a : State} {w q pct : Nat} (hq : q = bits w 0 14) (hpct : pct = bits w 16 7)

include hq in
/-- R15: outside STANDBY a write that would change the length is ignored whole. -/
theorem writeSpanCfg_lengthLocked (hnew : q ≠ a.fld 0x2010 0 14) (hmode : a.mode ≠ .standby) :
    writeSpanCfg a w = flag a kSpan 8 := by
  subst hq
  simp [writeSpanCfg, hnew, hmode]

include hq in
/-- R15, R628: in RUN a write that keeps the length has no effect. -/
theorem writeSpanCfg_run (hold : q = a.fld 0x2010 0 14) (hmode : a.mode = .run) : writeSpanCfg a w = a := by
  subst hq
  simp [writeSpanCfg, hold, hmode]

include hq hpct in
/-- A write that R15 and R628 let pass is judged by its values (R16, R19); in range it is stored, and a new length waits for its
boundary (R14). -/
theorem writeSpanCfg_judged (hlen : q ≠ a.fld 0x2010 0 14 → a.mode = .standby) (hmode : a.mode ≠ .run) :
    writeSpanCfg a w = if q < 1000 ∨ 10000 < q ∨ pct < 40 ∨ 85 < pct then flag a kSpan 4
      else if q = a.fld 0x2010 0 14 then a.wr 0x2010 (q + 2 ^ 16 * pct)
      else { a.wr 0x2010 (q + 2 ^ 16 * pct) with tb := { a.tb with lenWrite := a.tb.lenWrite ++ [(q, a.now)] } } := by
  subst hq hpct
  have hpass : ¬((bits w 0 14 != a.fld 0x2010 0 14 && a.mode != .standby) = true) := by simpa using hlen
  unfold writeSpanCfg
  dsimp only
  rw [if_neg hpass, if_neg hmode]
  by_cases hold : bits w 0 14 = a.fld 0x2010 0 14
  · rw [if_pos hold, if_neg (c := (_ != _) = true) (by simpa using hold)]
  · rw [if_neg hold, if_pos (c := (_ != _) = true) (by simpa using hold)]
    rfl

end WriteSpanCfg

/-- The write is judged once device time has reached its tick. -/
theorem exec_spanCfgWrite {s : State} (hporst : s.power.porstHigh = true) (hans : s.answers = true) (t : Nat) (w : Word) :
    exec (.spanCfgWrite t w) s = .next (writeSpanCfg (advance s t) w.toNat) := by
  show execSpanCfgWrite t w s = _
  rw [execSpanCfgWrite, act_eq _ hporst, if_pos hans]

end Sys2Proof.Machine

namespace Sys2Proof.Settled
open Machine

/-- Settles O11: the boundary opens the span, and nothing it does after that moves what the statement names. -/
theorem spanBoundary : Obligations.SpanBoundary := by
  refine ⟨⟨rfl, rfl, by decide⟩, fun s hporst hpll => ⟨_, exec_spanBoundary hporst hpll, ?_⟩⟩
  have h := keepsInstants_spanBoundary s
  exact ⟨h.boundary, h.spanIx, congrArg (· % 2 ^ 48) h.spanIx, h.now, h.sampled, h.judged, h.grants, h.pending⟩

/-- Settles O12, by the cases of `writeSpanCfg` in the order in which R15, R16 and R19 judge the write. -/
theorem spanCfgWrite : Obligations.SpanCfgWrite := by
  intro s a t w q pct hporst hans ha hq' hpct
  have hq : q = bits w.toNat 0 14 := by rw [hq', bits, Nat.pow_zero, Nat.div_one]
  have hexec : exec (.spanCfgWrite t w) s = .next (writeSpanCfg a w.toNat) := by rw [exec_spanCfgWrite hporst hans, ha]
  have hfld : s.fld 0x2010 0 14 = a.fld 0x2010 0 14 := by rw [ha, advance_fld]
  have hmode : s.mode = a.mode := by rw [ha, advance_mode]
  rw [hexec, hfld, hmode]
  refine ⟨fun hnew hm => ?_, fun hold hm => ?_, fun hlen hm hbad => ?_, fun hold hm h1 h2 h3 h4 => ?_,
    fun hnew hm h1 h2 h3 h4 => ?_⟩
  · rw [writeSpanCfg_lengthLocked hq hnew hm]
  · rw [writeSpanCfg_run hq hold hm]
  · rw [writeSpanCfg_judged hq hpct hlen hm, if_pos hbad]
  · rw [writeSpanCfg_judged hq hpct (fun hnew => absurd hold hnew) hm, if_neg (by omega), if_pos hold]
  · have hrun : a.mode ≠ .run := by rw [hm]; decide
    rw [writeSpanCfg_judged hq hpct (fun _ => hm) hrun, if_neg (by omega), if_neg hnew]

end Sys2Proof.Settled
end

section
/-!
SUPPORT. What PORST_N leaves (R9, R94, R620, R694): the command, and each of the accessors on the state it puts the device in.
-/
namespace Sys2Proof.Machine

/-- PORST_N going low resets the device from every state; the command is never refused. -/
theorem exec_porstNAssert (s : State) : exec .porstNAssert s = .next (porstLow s) := rfl

/-- No tenant is listed after PORST_N, so each has its reset record. -/
@[simp] theorem porstLow_tn (s : State) (tn : Nat) : (porstLow s).tn tn = Tenant.reset := storeGet_nil _ _

/-- R694: PORST_N clears the tenant pages, and with them every committed grant image. -/
@[simp] theorem porstLow_gw (s : State) (tn off : Nat) : (porstLow s).gw tn off = 0 :=
  congrArg BitVec.toNat (storeGet_nil _ _)

@[simp] theorem porstLow_mode (s : State) : (porstLow s).pp.mode = .standby := rfl

/-- R9: PORST_N leaves the PLL unlocked, and the invariant holds device time and the span counter at 0 until it locks. -/
theorem porstLow_time (s : State) : (porstLow s).tb.now = 0 ∧ (porstLow s).tb.spanIx = 0 := by
  obtain ⟨hnow, -, hspan⟩ := (inv_porstLow s).clock.held rfl
  exact ⟨hnow, hspan⟩

end Sys2Proof.Machine

namespace Sys2Proof.Settled
open Machine

/-- Settles O4: the state after PORST_N is `porstLow s`, and each clause is what an accessor reads there (R94, R620, R9, R694). That
the committed grants are among what PORST_N clears is the deduced reading of entry 13 of the log. -/
theorem afterPorst : Obligations.AfterPorst := by
  intro s t h
  rw [exec_porstNAssert] at h
  obtain rfl : porstLow s = t := Host.Outcome.next.inj h
  obtain ⟨hnow, hspan⟩ := porstLow_time s
  exact ⟨fun tn => congrArg Tenant.st (porstLow_tn s tn), porstLow_mode s, hnow, hspan, porstLow_gw s⟩

end Sys2Proof.Settled
end

section
/-!
SUPPORT. Completion entries (chapter 04): where an entry is written and what a write leaves of its CQ (R157, R158), and the three
outcomes of a final completion (R159).
-/
namespace Sys2Proof.Machine

/-! ## Reads of a CQ after an operation -/

/-- A CQ just written reads back. -/
theorem cq_setCq_self {s : State} (htab : Safety.Tables s) (k : Nat) (c : Cq) : (s.setCq k c).cq k = c :=
  storeGet_storePut_self _ htab.cqs k c

/-- A CQ just changed reads back. -/
theorem cq_updCq_self {s : State} (htab : Safety.Tables s) (k : Nat) (f : Cq → Cq) : (s.updCq k f).cq k = f (s.cq k) :=
  cq_setCq_self htab k _

/-- A message touches no CQ: it is dropped, kept pending in its function's vector, or sent. -/
@[simp] theorem signal_cq (s : State) (fn v k : Nat) : (signal s fn v).cq k = s.cq k := by
  unfold signal
  extract_lets f t
  split_ifs <;> rfl

/-- A message takes back no packet already sent. -/
theorem out_prefix_signal (s : State) (fn v : Nat) : s.out <+: (signal s fn v).out := by
  unfold signal
  extract_lets f t
  split_ifs
  · exact List.prefix_rfl
  · exact List.prefix_rfl
  · exact List.prefix_append s.out [.msix fn v]

/-- Signalling a CQ's vector starts only its unsignalled count again (R163). -/
theorem signalCq_cq {s : State} (htab : Safety.Tables s) (tn n : Nat) :
    (signalCq s tn n).cq (16 * tn + n) = { s.cq (16 * tn + n) with unsig := 0, oldest := none } := by
  rw [signalCq, signal_cq, cq_updCq_self htab]

theorem out_prefix_signalCq (s : State) (tn n : Nat) : s.out <+: (signalCq s tn n).out := by
  rw [signalCq]
  exact out_prefix_signal (s.updCq (16 * tn + n) _) tn _

/-! ## One entry written -/

/-- The packet of an entry: it is aimed at the tail of its CQ and holds the whole entry, PHASE of the present pass included (R157). -/
def entryPacket (s : State) (j : Job) (interim : Bool) (status res tu late : Nat) : Tlp :=
  .memWrite j.d.tenant
    (s.base (cqKey j.d.tenant j.cq 0) +
      (s.cq (16 * j.d.tenant + j.cq)).tail * (if s.bitAt (cqKey j.d.tenant j.cq 8) 1 then 32 else 16))
    (entryBytes (s.bitAt (cqKey j.d.tenant j.cq 8) 1) (s.cq (16 * j.d.tenant + j.cq)).phase interim j.d status
      (s.sq (16 * j.d.tenant + j.d.sq)).head res tu late) false

/-- From `s` to `t` a packet has left, before any other, and CQ `n` of a tenant has moved on by one entry: its tail by one slot, and
at the end of the ring to slot 0 with PHASE inverted (R158). -/
structure EntryWritten (s t : State) (tn n : Nat) (p : Tlp) : Prop where
  out : s.out ++ [p] <+: t.out
  phase : (t.cq (16 * tn + n)).phase =
    ((s.cq (16 * tn + n)).phase != decide (s.cqSize tn n ≤ (s.cq (16 * tn + n)).tail + 1))
  tail : (t.cq (16 * tn + n)).tail =
    if s.cqSize tn n ≤ (s.cq (16 * tn + n)).tail + 1 then 0 else (s.cq (16 * tn + n)).tail + 1

/-- Whatever the new record says of the unsignalled count, an entry is written once the packet is sent and the record moved on. -/
theorem entryWritten_setCq {s : State} (htab : Safety.Tables s) (tn n : Nat) (p : Tlp) {c : Cq}
    (hphase : c.phase = ((s.cq (16 * tn + n)).phase != decide (s.cqSize tn n ≤ (s.cq (16 * tn + n)).tail + 1)))
    (htail : c.tail = if s.cqSize tn n ≤ (s.cq (16 * tn + n)).tail + 1 then 0 else (s.cq (16 * tn + n)).tail + 1) :
    EntryWritten s ((send s p).setCq (16 * tn + n) c) tn n p := by
  have hread : ((send s p).setCq (16 * tn + n) c).cq (16 * tn + n) = c :=
    cq_setCq_self ((keeps_send (Keeps.refl s) p).tables htab) _ c
  exact ⟨List.prefix_rfl, by rw [hread, hphase], by rw [hread, htail]⟩

/-- The message that may follow an entry leaves the packet, the tail and PHASE as they are. -/
theorem EntryWritten.signalCq {s t : State} {tn n : Nat} {p : Tlp} (h : EntryWritten s t tn n p) (htab : Safety.Tables t) :
    EntryWritten s (signalCq t tn n) tn n p where
  out := h.out.trans (out_prefix_signalCq t tn n)
  phase := by rw [signalCq_cq htab, h.phase]
  tail := by rw [signalCq_cq htab, h.tail]

/-- An entry is written whether or not its CQ has interrupts on, and whether or not it is signalled. -/
theorem entryWritten_writeEntry {s : State} (htab : Safety.Tables s) (j : Job) (interim : Bool) (status res tu late : Nat) :
    EntryWritten s (writeEntry s j interim status res tu late) j.d.tenant j.cq (entryPacket s j interim status res tu late) := by
  have hmoved (c : Cq) := entryWritten_setCq htab j.d.tenant j.cq (entryPacket s j interim status res tu late) (c := c)
  unfold writeEntry
  extract_lets d tn n c s2 len head sent wrap moved counted stored
  have htail : moved.tail = if s.cqSize tn n ≤ c.tail + 1 then 0 else c.tail + 1 := by
    simp only [moved, wrap, decide_eq_true_eq]
    rfl
  have hstored : EntryWritten s stored tn n (entryPacket s j interim status res tu late) := hmoved counted rfl htail
  split_ifs
  · have hkeeps : Keeps s stored := keeps_setCq (keeps_send (Keeps.refl s) _) _ _
    exact hstored.signalCq (hkeeps.tables htab)
  · exact hstored
  · exact hmoved moved rfl htail

/-! ## The final completion of a descriptor -/

/-- R159: the job leaves and its final status is counted; its reserved entry is given back; then a QUIET completion DONE ends there,
one to be discarded is counted, and any other is written, a refusal with no charge and no lateness (R161). -/
theorem complete_desc {s u : State} {j : Job} {status fin : Nat} (hkind : j.kind = .desc)
    (hfin : fin = finalStatus (dropJob s j.id) j status) (hu : u = countStatus (dropJob s j.id) j.d.tenant fin) (res : Nat) :
    complete s j status res =
      if fin = 0 ∧ bit j.d.flags.toNat 3 = true then unreserve u j
      else if u.discards j = true then count (unreserve u j) (tkey j.d.tenant 0x3C)
      else if 0x11 ≤ fin ∧ fin ≤ 0x15 then writeEntry (unreserve u j) j false fin res 0 0
      else writeEntry (unreserve u j) j false fin res j.tu (u.tb.spanIx - j.deadline).toNat := by
  subst hfin hu
  simp only [complete, hkind, bne_self_eq_false, Bool.false_eq_true, if_false, Bool.and_eq_true, beq_iff_eq, decide_eq_true_eq]
  split_ifs <;> rfl

end Sys2Proof.Machine

namespace Sys2Proof.Settled
open Machine

/-- Settles O28, from what a written entry leaves and the outcomes of a final completion. PHASE is R158; QUIET is R159, the
discards are R106, R124 and R126 with their first tick as entry 43 of the log chooses it, the refusal's zeros are R161, and that an
enable starts the ring empty with PHASE 1 (`cqMoved`) is entry 44. -/
theorem completion : Obligations.Completion := by
  refine ⟨fun s j i status res tu late k c htab hk hc => ?_, fun s k htab => ?_, fun s j status res fin u hkind hfin hu => ?_⟩
  · subst hc hk
    have h := entryWritten_writeEntry htab j i status res tu late
    have hout := List.prefix_iff_eq_take.mp h.out
    rw [List.length_append, List.length_singleton] at hout
    exact ⟨hout.symm, h.phase, h.tail⟩
  · rw [cqMoved, cq_updCq_self htab]
    exact ⟨rfl, rfl, rfl, rfl⟩
  · have hloud (h : fin = 0 → bit j.d.flags.toNat 3 = false) : ¬(fin = 0 ∧ bit j.d.flags.toNat 3 = true) :=
      fun ⟨hdone, hquiet⟩ => by simp [h hdone] at hquiet
    rw [complete_desc hkind hfin hu]
    refine ⟨fun hdone hquiet => ?_, fun hl hdisc => ?_, fun hl hdisc href => ?_, fun hl hdisc hlo hhi => ?_⟩
    · rw [if_pos ⟨hdone, hquiet⟩]
    · rw [if_neg (hloud hl), if_pos hdisc]
    · rw [if_neg (hloud hl), if_neg (Bool.eq_false_iff.mp hdisc), if_neg href]
    · rw [if_neg (hloud hl), if_neg (Bool.eq_false_iff.mp hdisc), if_pos ⟨hlo, hhi⟩]

end Sys2Proof.Settled
end

section
/-!
SUPPORT. W1C registers and counters (chapter 19): what the registers read after hardware sets flags (R698, R699), after a counter
advances (R694), and after software clears flags that hardware sets in the same cycle (R698, R700).
-/
namespace Sys2Proof.Machine

/-! ## Bits of a number -/

theorem bit_eq_testBit (w i : Nat) : bit w i = w.testBit i := by
  rw [bit, Nat.testBit_eq_decide_div_mod_eq, beq_eq_decide]

/-- Taking from a number those of its bits that a mask names leaves its other bits. -/
theorem testBit_sub_and (a b i : Nat) : (a - (a &&& b)).testBit i = (a.testBit i && !b.testBit i) := by
  induction i generalizing a b with
  | zero =>
    have hlow : (a &&& b) % 2 = 1 ↔ a % 2 = 1 ∧ b % 2 = 1 := Nat.and_mod_two_eq_one
    have hle : a &&& b ≤ a := Nat.and_le_left
    simp only [Nat.testBit_zero, ← decide_not, ← Bool.decide_and, decide_eq_decide]
    omega
  | succ i ih =>
    have hlow : (a &&& b) % 2 = 1 ↔ a % 2 = 1 ∧ b % 2 = 1 := Nat.and_mod_two_eq_one
    have hhalf : (a &&& b) / 2 = a / 2 &&& b / 2 := Nat.and_div_two
    have hstep : (a - (a &&& b)) / 2 = a / 2 - (a / 2 &&& b / 2) := by omega
    rw [Nat.testBit_succ, hstep, ih, Nat.testBit_succ, Nat.testBit_succ]

/-! ## Reads of a register after a write -/

theorem rd_lt (s : State) (k : Nat) : s.rd k < 2 ^ 32 := BitVec.isLt _

theorem rd_wr_self {s : State} (htab : Safety.Tables s) (k v : Nat) : (s.wr k v).rd k = v % 2 ^ 32 := by
  rw [State.rd, State.wr, storeGet_storePut_self _ htab.regs, BitVec.toNat_ofNat]

/-- A word written to a register reads back. -/
theorem rd_wr_word {s : State} (htab : Safety.Tables s) (k : Nat) {v : Nat} (hv : v < 2 ^ 32) : (s.wr k v).rd k = v := by
  rw [rd_wr_self htab, Nat.mod_eq_of_lt hv]

theorem rd_wr_of_ne (s : State) {k k' : Nat} (v : Nat) (h : k' ≠ k) : (s.wr k v).rd k' = s.rd k' :=
  congrArg BitVec.toNat (storeGet_storePut_of_ne _ _ _ h)

@[simp] theorem rd_setQueue (s : State) (n : Nat) (x : Queue) (k : Nat) : (s.setQueue n x).rd k = s.rd k := rfl

@[simp] theorem rd_noteSet (s : State) (k mask k' : Nat) : (noteSet s k mask).rd k' = s.rd k' := rfl

theorem rd_setIrqPend (s : State) (b : Bool) (k : Nat) : { s with irqPend := b }.rd k = s.rd k := rfl

/-! ## Counters -/

/-- R694: a counter saturates. -/
theorem rd_countN_self {s : State} (htab : Safety.Tables s) (k n : Nat) :
    (countN s k n).rd k = min (s.rd k + n) 0xFFFFFFFF := by
  have hmax : min (s.rd k + n) 0xFFFFFFFF < 2 ^ 32 := by omega
  exact rd_wr_word htab k hmax

theorem rd_countN_of_ne (s : State) {k k' : Nat} (n : Nat) (h : k' ≠ k) : (countN s k n).rd k' = s.rd k' :=
  rd_wr_of_ne s _ h

/-! ## Flags set by hardware -/

theorem rd_flagRaw_self {s : State} (htab : Safety.Tables s) (k : Nat) {mask : Nat} (hmask : mask < 2 ^ 32) :
    (flagRaw s k mask).rd k = s.rd k ||| mask := by
  have hnote : Safety.Tables (noteSet s k mask) := (keeps_noteSet (Keeps.refl s) k mask).tables htab
  rw [flagRaw, rd_wr_of_ne _ _ (by omega), rd_noteSet, rd_wr_word hnote k (Nat.or_lt_two_pow (rd_lt s k) hmask)]

/-- The event sequence count stands beside the flags and advances by those not yet set in this cycle (R699). -/
theorem rd_flagRaw_seq {s : State} (htab : Safety.Tables s) (k mask : Nat) :
    (flagRaw s k mask).rd (k + 4) = (s.rd (k + 4) + popcount 32 (mask - (mask &&& s.setNow k))) % 2 ^ 16 := by
  have hflags : Safety.Tables ((noteSet s k mask).wr k (s.rd k ||| mask)) :=
    (keeps_wr (keeps_noteSet (Keeps.refl s) k mask) k _).tables htab
  rw [flagRaw, rd_noteSet, rd_wr_word hflags _ (by omega), rd_wr_of_ne _ _ (by omega), rd_noteSet]

theorem rd_flagRaw_of_ne (s : State) {k k' : Nat} (mask : Nat) (h : k' ≠ k) (hseq : k' ≠ k + 4) :
    (flagRaw s k mask).rd k' = s.rd k' := by
  rw [flagRaw, rd_wr_of_ne _ _ hseq, rd_wr_of_ne _ _ h, rd_noteSet]

/-! ## The trace of a flag writes tenant pages only -/

/-- The registers of a device queue stand in a tenant's page, above the registers of PF0's BAR0 (R688, R718). -/
theorem le_qKey (tn q off : Nat) : 0x100000 ≤ qKey tn q off := by
  unfold qKey tkey
  omega

section Bar0
variable {k' : Nat} (hbar0 : k' < 0x100000)
include hbar0

theorem rd_count_qKey (s : State) (tn q off : Nat) : (count s (qKey tn q off)).rd k' = s.rd k' :=
  rd_countN_of_ne s 1 (hbar0.trans_le (le_qKey tn q off)).ne

theorem rd_dropItem (s : State) (tn q src seq time lanes : Nat) : (dropItem s tn q src seq time lanes).rd k' = s.rd k' := by
  have hcount := rd_count_qKey hbar0 s tn q 0x14
  have hflag := le_qKey tn q 0xC
  unfold dropItem
  extract_lets counted x m
  split_ifs
  · rw [rd_setQueue, hcount]
  · rw [rd_flagRaw_of_ne _ _ (by omega) (by omega), rd_setQueue, hcount]

/-- An item offered to a device queue touches no register but those of the queue. -/
theorem rd_offer (s : State) (tn q kind : Nat) (it : Offer) : (offer s tn q kind it).rd k' = s.rd k' := by
  unfold offer
  extract_lets n x seq lanes item skipped
  split_ifs <;> simp only [rd_setQueue, rd_count_qKey hbar0, rd_dropItem hbar0, skipped]

/-- Below the tenant pages a flag leaves the registers as `flagRaw` does: the summary interrupt and the trace item (R702, R721)
write none there. -/
theorem rd_flag (s : State) (k mask : Nat) : (flag s k mask).rd k' = (flagRaw s k mask).rd k' := by
  unfold flag
  extract_lets first raised b signalled src
  have hirq : signalled.rd k' = raised.rd k' := by
    simp only [signalled]
    split_ifs
    · exact rd_setIrqPend raised true k'
    · rfl
  split_ifs
  · exact hirq
  · rw [offerNow, rd_offer hbar0, hirq]
  · rw [retrace, State.updQueue_eq, rd_setQueue, hirq]

end Bar0

/-! ## Flags cleared by software -/

/-- A W1C register once software has written `v`: among the flags in `m` those written as 1 are cleared (R700), but for those that
hardware has set in the present cycle (R698). -/
def clearFlags (s : State) (key v m : Nat) : State :=
  s.wr key (s.rd key - (s.rd key &&& ((v - (v &&& s.setNow key)) &&& m)))

theorem rd_clearFlags_self {s : State} (htab : Safety.Tables s) (key v m : Nat) :
    (clearFlags s key v m).rd key = s.rd key - (s.rd key &&& ((v - (v &&& s.setNow key)) &&& m)) :=
  rd_wr_word htab key ((Nat.sub_le _ _).trans_lt (rd_lt s key))

theorem w1cClear_eq {s : State} {key u : Nat} {e : Option (Nat × Nat)} {r : Reg} (hreg : regAt key = some (u, e, r)) (v hw : Nat) :
    w1cClear s key v hw =
      if hw &&& r.flagMask = 0 then clearFlags s key v r.flagMask
      else if 0x100000 ≤ key then flagRaw (clearFlags s key v r.flagMask) key (hw &&& r.flagMask)
      else flag (clearFlags s key v r.flagMask) key (hw &&& r.flagMask) := by
  simp only [w1cClear, hreg]
  rfl

/-- R699: a clear that meets no hardware set leaves every register but its own, the event sequence count among them. -/
theorem rd_w1cClear_of_ne (s : State) {key k' : Nat} (v : Nat) (h : k' ≠ key) : (w1cClear s key v 0).rd k' = s.rd k' := by
  match hreg : regAt key with
  | none => simp only [w1cClear, hreg]
  | some (u, e, r) => rw [w1cClear_eq hreg, if_pos (Nat.zero_and _), clearFlags, rd_wr_of_ne _ _ h]

/-- R698: what hardware sets comes after what software clears. -/
theorem rd_w1cClear_self {s : State} (htab : Safety.Tables s) {key u : Nat} {e : Option (Nat × Nat)} {r : Reg}
    (hreg : regAt key = some (u, e, r)) (hbar0 : key < 0x100000) (v : Nat) {hw : Nat} (hlt : hw < 2 ^ 32) :
    (w1cClear s key v hw).rd key =
      (s.rd key - (s.rd key &&& ((v - (v &&& s.setNow key)) &&& r.flagMask))) ||| (hw &&& r.flagMask) := by
  have hclear : Safety.Tables (clearFlags s key v r.flagMask) := (keeps_wr (Keeps.refl s) key _).tables htab
  rw [w1cClear_eq hreg]
  split_ifs with hnone hpage
  · rw [rd_clearFlags_self htab, hnone, Nat.or_zero]
  · omega
  · rw [rd_flag hbar0, rd_flagRaw_self hclear key (Nat.and_le_left.trans_lt hlt), rd_clearFlags_self htab]

/-- Bit by bit: a flag is 1 after the command when hardware sets it, or when it was 1 and is not cleared. -/
theorem bitAt_w1cClear {s : State} (htab : Safety.Tables s) {key u : Nat} {e : Option (Nat × Nat)} {r : Reg}
    (hreg : regAt key = some (u, e, r)) (hbar0 : key < 0x100000) (v : Nat) {hw : Nat} (hlt : hw < 2 ^ 32) (i : Nat) :
    (w1cClear s key v hw).bitAt key i =
      (s.bitAt key i && !(bit v i && !bit (s.setNow key) i && bit r.flagMask i) || bit hw i && bit r.flagMask i) := by
  simp only [State.bitAt, rd_w1cClear_self htab hreg hbar0 v hlt, bit_eq_testBit, Nat.testBit_or, Nat.testBit_and, testBit_sub_and]

/-- The command acts on the register behind the offset once device time has reached its tick. -/
theorem exec_w1cClear {s : State} (hporst : s.power.porstHigh = true) {t off key : Nat} {fn : Fin 256} (hkey : keyOf fn off = some key)
    (hans : (advance s t).keyAnswers key = true) (v hw : Word) :
    exec (.w1cClear t fn off v hw) s = .next (w1cClear (advance s t) key v.toNat hw.toNat) := by
  show execW1cClear t fn off v hw s = _
  simp only [execW1cClear, act_eq _ hporst, hkey, hans, if_true]

end Sys2Proof.Machine

namespace Sys2Proof.Settled
open Machine

/-- Settles O14, from what the registers read after `flagRaw`, after a clear, and after `countN`. The saturation is R694; that a bit
counts once in a tick however often hardware sets it there (`setNow`) is the deduced reading of R699 in entry 17 of the log. -/
theorem flagSetsBitsAndCounts : Obligations.FlagSetsBitsAndCounts := by
  refine ⟨fun s k mask htab hmask => ⟨?_, ?_, fun k' h hseq => ?_, fun v => ?_⟩, fun s k n htab => ⟨?_, fun k' h => ?_⟩⟩
  · exact rd_flagRaw_self htab k hmask
  · exact rd_flagRaw_seq htab k mask
  · exact rd_flagRaw_of_ne s mask h hseq
  · exact rd_w1cClear_of_ne s v (by omega)
  · exact rd_countN_self htab k n
  · exact rd_countN_of_ne s n h

/-- Settles O15, by the cases of `w1cClear` and, for the bits, the word it leaves (R698, R700). That a bit set earlier in the tick of
the clear stays 1 as well (`setNow`) is the deduced reading of entry 17 of the log. -/
theorem w1cClear : Obligations.W1cClear := by
  intro s a t off key fn v hw u e r hporst ha hkey hans hreg
  subst ha
  rw [exec_w1cClear hporst hkey hans]
  refine ⟨fun hnone => ?_, fun hset hbar0 => ?_, fun htab hbar0 => ⟨_, rfl, fun i _ => ?_⟩⟩
  · rw [w1cClear_eq hreg, if_pos hnone, clearFlags]
  · rw [w1cClear_eq hreg, if_neg hset, if_neg hbar0.not_ge, clearFlags]
  · rw [bitAt_w1cClear (tables_advance htab t) hreg hbar0 _ hw.isLt]
    refine ⟨fun hhw hflag => ?_, fun hv hhw => ?_, fun hflag => ?_, fun hflag hv hhw hnow => ?_⟩
    · simp [hhw, hflag]
    · simp [hv, hhw]
    · simp [hflag]
    · simp [hflag, hv, hhw, hnow]

end Sys2Proof.Settled
end

section
/-!
SUPPORT. The block as a whole: the step, reset and the hold in it, and what every command keeps (device time, the mode, the
grants, the queue of commands, the invariant).
-/
namespace Sys2Proof.Machine

/-! ## A command while PORST_N is high, and while it is low -/

/-- While PORST_N is high a command answers what its effect makes of the state. -/
theorem act_next {s u : State} {f : State → State} (hporst : s.power.porstHigh = true) (h : f s = u) : act s f = .next u := by
  rw [act_eq f hporst, h]

/-- R9, R648: while PORST_N is low nothing acts. -/
theorem act_held {s : State} {f : State → State} (hporst : s.power.porstHigh = false) : act s f = .next s := by
  rw [act, if_neg (by simp [hporst])]

/-- What a command answers is its effect, or the state it found in reset. -/
theorem act_cases {s t : State} {f : State → State} (h : act s f = .next t) : t = f s ∨ t = s := by
  obtain rfl := Host.Outcome.next.inj h
  split_ifs
  · exact .inl rfl
  · exact .inr rfl

theorem act_inv {s t : State} {f : State → State} {P : State → Prop} (h : act s f = .next t) (held : P s) (acts : P (f s)) : P t := by
  obtain rfl | rfl := act_cases h
  · exact acts
  · exact held

/-- In reset only PORST_N and the supplies act. -/
theorem exec_held {c : Instr} {s : State} (hporst : s.power.porstHigh = false) (hassert : c ≠ .porstNAssert)
    (hrelease : c ≠ .porstNRelease) (hfield : ∀ t rail mv, c ≠ .fieldSupplyChange t rail mv)
    (hlogic : ∀ t rail ok, c ≠ .logicSupplyChange t rail ok) : exec c s = .next s := by
  cases c
  case porstNAssert => exact absurd rfl hassert
  case porstNRelease => exact absurd rfl hrelease
  case fieldSupplyChange t rail mv => exact absurd rfl (hfield t rail mv)
  case logicSupplyChange t rail ok => exact absurd rfl (hlogic t rail ok)
  all_goals
    unfold exec
    exact act_held hporst

/-! ## The invariant -/

/-- The invariant does not speak of the queue of commands. -/
theorem inv_setPending {s : State} (h : Safety.Inv s) (l : List Instr) : Safety.Inv { s with pending := l } :=
  ⟨{ h.tables with }, ⟨h.clock.held, h.clock.boundary, h.clock.length, h.clock.deadline, h.clock.writes⟩, h.exclusive⟩

theorem inv_reset : Safety.Inv State.reset where
  tables := by constructor <;> rfl
  clock :=
    { held := fun _ => ⟨rfl, rfl, rfl⟩
      boundary := Nat.le_refl _
      length := by decide
      deadline := by decide
      writes := fun _ hw => absurd hw List.not_mem_nil }
  exclusive := gw_nil _ rfl

theorem inv_clockTick {s : State} (h : Safety.Inv s) : Safety.Inv (clockTick s) := by
  unfold clockTick
  split_ifs with hrun
  · have hpll : s.power.pll = true := (Bool.and_eq_true_iff.mp hrun).2
    have hclock : Safety.Clock { s with tb := { s.tb with now := s.tb.now + 1 } } :=
      { held := fun hlow => absurd (hpll.symm.trans hlow) (by decide)
        boundary := Nat.le_succ_of_le h.clock.boundary
        length := h.clock.length
        deadline := h.clock.deadline
        writes := h.clock.writes }
    exact ⟨{ h.tables with }, hclock, h.exclusive⟩
  · exact h

/-- The PLL locks: from here the invariant holds device time at nothing. -/
theorem inv_pllLock {s : State} (h : Safety.Inv s) : Safety.Inv { s with power := { s.power with pll := true } } :=
  ⟨{ h.tables with }, ⟨fun hlow => Bool.noConfusion hlow, h.clock.boundary, h.clock.length, h.clock.deadline, h.clock.writes⟩,
    h.exclusive⟩

/-- An instant of a span is kept out while the PLL has not locked, or once it has happened. -/
theorem inv_instant {s : State} {f : State → State} {happened : Bool} (h : Safety.Inv s)
    (hf : s.power.pll = true → Safety.Inv (f s)) : Safety.Inv (if (s.power.pll && !happened) = true then f s else s) := by
  split_ifs with hrun
  · exact hf (Bool.and_eq_true_iff.mp hrun).1
  · exact h

/-- The commands `exec_moves` leaves out. -/
theorem pivotal_cases {c : Instr} (h : Instr.pivotal c = true) :
    c = .porstNAssert ∨ c = .porstNRelease ∨ c = .timebasePllLock ∨ c = .spanBoundary ∨ (∃ m, c = .sampleInstant m) ∨
      (∃ m, c = .computeDeadline m) ∨ c = .grantCommitCheck ∨ c = .modeRequestEval := by
  unfold Instr.pivotal at h
  split at h <;> simp_all

/-- Every command keeps the invariant. -/
theorem inv_exec {c : Instr} {s t : State} (h : Safety.Inv s) (hexec : exec c s = .next t) : Safety.Inv t := by
  by_cases hc : Instr.pivotal c = true
  · obtain rfl | rfl | rfl | rfl | ⟨m, rfl⟩ | ⟨m, rfl⟩ | rfl | rfl := pivotal_cases hc
    · obtain rfl := Host.Outcome.next.inj hexec
      exact inv_porstLow s
    · obtain rfl := Host.Outcome.next.inj hexec
      exact ⟨{ h.tables with }, ⟨h.clock.held, h.clock.boundary, h.clock.length, h.clock.deadline, h.clock.writes⟩, h.exclusive⟩
    · exact inv_act (show execTimebasePllLock s = _ from hexec) h (inv_pllLock h)
    · refine inv_act hexec h ?_
      split_ifs with hpll
      · exact inv_spanBoundary s hpll h
      · exact h
    · exact inv_act hexec h (inv_instant (f := (sampleInstant · m)) h fun hpll => inv_sampleInstant s m hpll h)
    · exact inv_act hexec h (inv_instant (f := (computeDeadline · _)) h fun hpll => inv_computeDeadline s _ hpll h)
    · exact inv_act hexec h (inv_grantCheck s h)
    · exact inv_act hexec h (inv_modeEval s h)
  · obtain ⟨_, u, hu, hkeeps⟩ := exec_moves c s (Bool.eq_false_iff.mpr hc)
    obtain rfl := Host.Outcome.next.inj (hu.symm.trans hexec)
    exact inv_of_keeps hkeeps h

/-! ## Grants -/

/-- The committed grants once the staging image has become a tenant's grant. -/
def stagedGrants (s : State) (tn : Nat) : Store Word :=
  imageOffsets.foldl (fun g off => storePut (fun _ => (0 : Word)) g (0x400 * tn + off) (BitVec.ofNat 32 (s.stg off))) s.grants

/-- What a commit takes away is no grant. -/
theorem applyGrant_grants (s : State) (tn : Nat) : (applyGrant s tn).grants = stagedGrants s tn := by
  unfold applyGrant
  extract_lets new counted
  have hcounted : Keeps { s with grants := new } counted := keeps_count (Keeps.refl _) _
  split_ifs
  · exact hcounted.grants
  · exact (keeps_revoke (keeps_flagRaw (keeps_count hcounted _) _ _) _ _).grants

/-- The committed grants and the staging image alone, all else as after reset. -/
def grantsAlone (s : State) : State := { State.reset with regs := s.regs, grants := s.grants }

theorem inv_grantsAlone {s : State} (htab : Safety.Tables s) (hex : Safety.Exclusive s) : Safety.Inv (grantsAlone s) where
  tables := { inv_reset.tables with regs := htab.regs, grants := htab.grants }
  clock := ⟨inv_reset.clock.held, inv_reset.clock.boundary, inv_reset.clock.length, inv_reset.clock.deadline, inv_reset.clock.writes⟩
  exclusive := exclusive_of_grants (s := s) rfl hex

/-- An image without a conflict brings no exclusive item into two grants: a commit looks at the grants and the staging image alone. -/
theorem exclusive_applyGrant {s : State} {tn : Nat} (htab : Safety.Tables s) (hex : Safety.Exclusive s)
    (hfree : ∀ off ∈ imageOffsets, s.conflictWith tn off = none) : Safety.Exclusive (applyGrant s tn) := by
  have halone : Safety.Exclusive (applyGrant (grantsAlone s) tn) :=
    (inv_applyGrant (grantsAlone s) tn (inv_grantsAlone htab hex) hfree).exclusive
  exact exclusive_of_grants ((applyGrant_grants s tn).trans (applyGrant_grants (grantsAlone s) tn).symm) halone

/-- A verdict of 0 says that the staged image conflicts with no grant (R79). -/
theorem conflictWith_of_verdict {s : State} {tn : Nat} (h : (s.commitVerdict tn).1 = 0) :
    ∀ off ∈ imageOffsets, s.conflictWith tn off = none := by
  intro off hoff
  unfold State.commitVerdict at h
  split at h
  · exact absurd h (by decide)
  split at h
  · exact absurd h (Nat.succ_ne_zero _)
  split at h
  · exact absurd h (Nat.succ_ne_zero _)
  split at h
  · exact absurd h (Nat.succ_ne_zero _)
  · next hnone => simpa using List.find?_eq_none.mp hnone off hoff

/-- The commit register after a commit has been judged. -/
def judgedCommit (s : State) : State :=
  { s with commit := { s.commit with
      due := none, done := true, result := (s.commitVerdict s.commit.tenant).1, info := (s.commitVerdict s.commit.tenant).2 } }

/-- A commit is judged once 64 ticks lie between its write and the boundary (R710); accepted, it is applied. -/
theorem grantCheck_eq {s : State} {w : Nat} (hdue : s.commit.due = some w) :
    grantCheck s = if s.tb.boundary < w + 64 then s
      else if (s.commitVerdict s.commit.tenant).1 = 0 then applyGrant (judgedCommit s) s.commit.tenant else judgedCommit s := by
  unfold grantCheck
  rw [hdue]
  rfl

theorem grantCheck_cases (s : State) :
    grantCheck s = s ∨ grantCheck s = judgedCommit s ∨
      ((s.commitVerdict s.commit.tenant).1 = 0 ∧ grantCheck s = applyGrant (judgedCommit s) s.commit.tenant) := by
  cases hdue : s.commit.due with
  | none =>
    left
    unfold grantCheck
    rw [hdue]
  | some w =>
    rw [grantCheck_eq hdue]
    split_ifs with hearly hzero
    · exact .inl rfl
    · exact .inr (.inr ⟨hzero, rfl⟩)
    · exact .inr (.inl rfl)

theorem exclusive_grantCheck {s : State} (htab : Safety.Tables s) (hex : Safety.Exclusive s) : Safety.Exclusive (grantCheck s) := by
  obtain h | h | ⟨hzero, h⟩ := grantCheck_cases s <;> rw [h]
  · exact hex
  · exact exclusive_of_grants (s := s) rfl hex
  · exact exclusive_applyGrant (s := judgedCommit s) { htab with } (exclusive_of_grants (s := s) rfl hex)
      (conflictWith_of_verdict (s := s) hzero)

/-! ## What every command but the four of reset, time, grants and mode keeps -/

/-- From `s` to `t` device time has not gone back, the mode has stayed or become SAFE HOLD, and the grants and the queue of commands
are as they were. -/
structure GoesOn (s t : State) : Prop where
  now : s.tb.now ≤ t.tb.now
  mode : t.pp.mode = s.pp.mode ∨ t.pp.mode = .safeHold
  grants : t.grants = s.grants
  pending : t.pending = s.pending

theorem GoesOn.refl (s : State) : GoesOn s s := ⟨Nat.le_refl _, .inl rfl, rfl, rfl⟩

theorem Keeps.goesOn {s t : State} (h : Keeps s t) : GoesOn s t := ⟨h.now.ge, h.mode, h.grants, h.pending⟩

theorem GoesOn.trans {a s t : State} (h : GoesOn a s) (k : GoesOn s t) : GoesOn a t where
  now := h.now.trans k.now
  mode := k.mode.elim (fun e => h.mode.imp e.trans e.trans) .inr
  grants := k.grants.trans h.grants
  pending := k.pending.trans h.pending

theorem goesOn_advance (s : State) (t : Nat) : GoesOn s (advance s t) := by
  unfold advance
  split_ifs
  · exact ⟨le_max_left _ _, .inl rfl, rfl, rfl⟩
  · exact GoesOn.refl s

/-- An instant of a span moves device time forward, and only then the units work. -/
theorem goesOn_setTime {s t : State} {b : TimeBase} (hnow : s.tb.now ≤ b.now) (h : Keeps { s with tb := b } t) : GoesOn s t :=
  GoesOn.trans (s := { s with tb := b }) ⟨hnow, .inl rfl, rfl, rfl⟩ h.goesOn

theorem goesOn_spanSettings (s : State) : GoesOn s (spanSettings s) := by
  unfold spanSettings
  extract_lets b len off pct later due clock kept readBack
  have hdue : GoesOn s due := ⟨Nat.le_refl _, .inl rfl, rfl, rfl⟩
  split_ifs
  · exact hdue
  · exact ⟨Nat.le_refl _, .inl rfl, rfl, rfl⟩
  · have hkept : Keeps due kept := keeps_setFld (keeps_setFld (Keeps.refl due) _ _ _ _) _ _ _ _
    have hread : Keeps due readBack := Keeps.ite (keeps_setFld hkept _ _ _ _) hkept
    exact hdue.trans (keeps_flag hread kSpan 4).goesOn

theorem goesOn_spanBoundary (s : State) : GoesOn s (spanBoundary s) := by
  unfold spanBoundary
  extract_lets len b clock opened settled changed tenants power gated worked
  have hsettled : GoesOn s settled :=
    (goesOn_setTime (le_max_left _ _) (keeps_summaryIrq (Keeps.refl opened))).trans (goesOn_spanSettings _)
  have htenants : Keeps settled tenants :=
    Keeps.foldl (fun _ tn h => keeps_tenantBoundary h tn) _ (keeps_ppHeartbeat (Keeps.refl _))
  have hgate : Keeps settled gated := Keeps.ite (Keeps.upd htenants rfl) htenants
  exact hsettled.trans (keeps_ageSpan (keeps_workBoundary (keeps_unitsBoundary hgate len changed) len changed) len).goesOn

/-- The clock of the sample instant (R17). -/
def sampledClock (s : State) : TimeBase := { s.tb with now := max s.tb.now (s.tb.boundary + s.tb.offset), sampled := true }

theorem keeps_sampleInstant (s : State) (m : Measured) : Keeps { s with tb := sampledClock s } (sampleInstant s m) := by
  refine Keeps.foldl (fun s x hs => keeps_sgSample hs _ _) _ ?_
  refine Keeps.foldl (fun s x hs => keeps_pierSample hs _ _) _ ?_
  refine keeps_allRefs ?_
  refine Keeps.foldl (fun s x hs => keeps_pierLimit hs _) _ ?_
  refine Keeps.foldl (fun s x hs => keeps_pubWrite hs _) _ ?_
  refine Keeps.foldl (fun s x hs => keeps_fbSnapshot hs _) _ ?_
  exact keeps_busSense (Keeps.refl _) _

/-- The clock of the compute deadline (R18). -/
def judgedClock (s : State) : TimeBase :=
  { s.tb with now := max s.tb.now (s.tb.boundary + computeTick s.tb.len s.tb.pct), judged := true }

theorem keeps_computeDeadline (s : State) (missed : List Nat) : Keeps { s with tb := judgedClock s } (computeDeadline s missed) := by
  refine Keeps.foldl (fun s x hs => keeps_loadAll hs _ _ _) _ ?_
  refine Keeps.foldl (fun s x hs => keeps_pierDeadline hs _ _) _ ?_
  exact keeps_flagIf (keeps_countN (Keeps.refl _) _ _) _ _ _

/-- But for the committed grants, the check of a commit keeps what `Keeps` names. -/
theorem goesOn_grantCheck (s : State) :
    s.tb.now ≤ (grantCheck s).tb.now ∧ ((grantCheck s).pp.mode = s.pp.mode ∨ (grantCheck s).pp.mode = .safeHold) ∧
      (grantCheck s).pending = s.pending := by
  have happly (s : State) (tn : Nat) : ∃ g, Keeps { s with grants := g } (applyGrant s tn) := by
    unfold applyGrant
    extract_lets new counted
    have hcounted : Keeps { s with grants := new } counted := keeps_count (Keeps.refl _) _
    exact ⟨new, Keeps.ite hcounted (keeps_revoke (keeps_flagRaw (keeps_count hcounted _) _ _) _ _)⟩
  obtain h | h | ⟨-, h⟩ := grantCheck_cases s <;> rw [h]
  · exact ⟨Nat.le_refl _, .inl rfl, rfl⟩
  · exact ⟨Nat.le_refl _, .inl rfl, rfl⟩
  · obtain ⟨g, hg⟩ := happly (judgedCommit s) s.commit.tenant
    exact ⟨hg.now.ge, hg.mode, hg.pending⟩

/-- But for the mode, the judging of a mode request keeps what `Keeps` names. -/
theorem modeEval_frame (s : State) :
    s.tb.now ≤ (modeEval s).tb.now ∧ (modeEval s).grants = s.grants ∧ (modeEval s).pending = s.pending := by
  have hkeeps (u : State) (h : Keeps s u) : s.tb.now ≤ u.tb.now ∧ u.grants = s.grants ∧ u.pending = s.pending :=
    ⟨h.now.ge, h.grants, h.pending⟩
  have hresult (res checks : Nat) := hkeeps _ (keeps_modeResult (Keeps.refl s) res checks)
  unfold modeEval
  split
  · exact hkeeps s (Keeps.refl s)
  · extract_lets m
    split_ifs
    · exact hkeeps s (Keeps.refl s)
    · exact hresult 3 0
    · exact hresult 1 0
    · exact hresult 4 0
    · exact hresult 3 0
    · exact hkeeps _ (keeps_modeResult (keeps_checkFlags (Keeps.refl s) _) _ _)
    · have h := keeps_modeResult (keeps_enterMode s m) 0 0
      exact ⟨h.now.ge, h.grants, h.pending⟩

/-- What every command but four keeps. -/
theorem goesOn_exec {c : Instr} {s t : State} (hassert : c ≠ .porstNAssert) (hcommit : c ≠ .grantCommitCheck)
    (heval : c ≠ .modeRequestEval) (hexec : exec c s = .next t) : GoesOn s t := by
  have hinstant {f : State → State} {happened : Bool} {b : TimeBase} (hnow : s.tb.now ≤ b.now) (hf : Keeps { s with tb := b } (f s)) :
      GoesOn s (if (s.power.pll && !happened) = true then f s else s) := by
    split_ifs
    · exact goesOn_setTime hnow hf
    · exact GoesOn.refl s
  by_cases hc : Instr.pivotal c = true
  · obtain rfl | rfl | rfl | rfl | ⟨m, rfl⟩ | ⟨m, rfl⟩ | rfl | rfl := pivotal_cases hc
    · exact absurd rfl hassert
    · obtain rfl := Host.Outcome.next.inj hexec
      exact ⟨Nat.le_refl _, .inl rfl, rfl, rfl⟩
    · exact act_inv (show execTimebasePllLock s = _ from hexec) (GoesOn.refl s) ⟨Nat.le_refl _, .inl rfl, rfl, rfl⟩
    · refine act_inv (show execSpanBoundary s = _ from hexec) (GoesOn.refl s) ?_
      split_ifs
      · exact goesOn_spanBoundary s
      · exact GoesOn.refl s
    · exact act_inv (show execSampleInstant m s = _ from hexec) (GoesOn.refl s)
        (hinstant (f := (sampleInstant · m)) (le_max_left _ _) (keeps_sampleInstant s m))
    · exact act_inv (show execComputeDeadline m s = _ from hexec) (GoesOn.refl s)
        (hinstant (f := (computeDeadline · _)) (le_max_left _ _) (keeps_computeDeadline s _))
    · exact absurd rfl hcommit
    · exact absurd rfl heval
  · obtain ⟨n, u, hu, hkeeps⟩ := exec_moves c s (Bool.eq_false_iff.mpr hc)
    obtain rfl := Host.Outcome.next.inj (hu.symm.trans hexec)
    exact (goesOn_advance s n).trans hkeeps.goesOn

end Sys2Proof.Machine
end


section
namespace Sys2Proof.Settled
open Machine

/-- Settles O1: `step` takes the command in front of the queue. -/
theorem stepRunsFront : Obligations.StepRunsFront := fun _ _ => rfl

/-- Settles O2, by the two cases of `clockTick`. -/
theorem idleStepIsOneClock : Obligations.IdleStepIsOneClock := by
  intro s hempty
  have hstep : step s = .next (clockTick s) := by rw [step, hempty]
  rw [hstep, clockTick]
  refine ⟨fun hporst hpll => by simp [hporst, hpll], fun hheld => ?_⟩
  obtain hlow | hlow := hheld <;> simp [hlow]

/-- Settles O3. What PORST_N keeps and that only the pin and the supplies act while it is low are entry 13 of the log, that unlisted
bytes of the Deck read 0 is entry 9, and which instant `State.reset` is, entry 14. -/
theorem resetState : Obligations.ResetState := by
  refine ⟨⟨rfl, rfl, rfl, fun _ => rfl, fun _ => rfl, fun _ => rfl, fun _ _ => rfl, rfl, rfl, rfl⟩,
    ⟨fun _ => rfl, fun _ => rfl, fun s hporst => ?_⟩, fun c s hporst h₁ h₂ h₃ h₄ => exec_held hporst h₁ h₂ h₃ h₄⟩
  show execTimebasePllLock s = _
  exact act_next hporst rfl

/-- Settles O5. -/
theorem resetMeetsInv : Obligations.ResetMeetsInv := inv_reset

/-- Settles O6: a step is one clock of the timebase or one command, and each keeps the invariant. -/
theorem stepKeepsInv : Obligations.StepKeepsInv := by
  intro s t h hstep
  unfold step at hstep
  split at hstep
  · obtain rfl := Host.Outcome.next.inj hstep
    exact inv_clockTick h
  · exact inv_exec (inv_setPending h _) hstep

/-- Settles O7: PORST_N leaves no grant, the check of a commit lets no conflict pass (R79), and no other command changes a grant. -/
theorem execKeepsExclusive : Obligations.ExecKeepsExclusive := by
  intro c s t htab hex hexec
  by_cases hassert : c = .porstNAssert
  · subst hassert
    obtain rfl := Host.Outcome.next.inj hexec
    exact (inv_porstLow s).exclusive
  by_cases hcommit : c = .grantCommitCheck
  · subst hcommit
    exact act_inv (show execGrantCommitCheck s = _ from hexec) hex (exclusive_grantCheck htab hex)
  by_cases heval : c = .modeRequestEval
  · subst heval
    exact act_inv (show execModeRequestEval s = _ from hexec) hex (exclusive_of_grants (modeEval_frame s).2.1 hex)
  · exact exclusive_of_grants (goesOn_exec hassert hcommit heval hexec).grants hex

/-- Settles O8. -/
theorem onlyOneCommandChanges : Obligations.OnlyOneCommandChanges := by
  have hcommitted {s t : State} (h : exec .grantCommitCheck s = .next t) :
      s.tb.now ≤ t.tb.now ∧ (t.pp.mode = s.pp.mode ∨ t.pp.mode = .safeHold) ∧ t.pending = s.pending := by
    obtain rfl | rfl := act_cases (show execGrantCommitCheck s = _ from h)
    · exact goesOn_grantCheck s
    · exact ⟨Nat.le_refl _, .inl rfl, rfl⟩
  have hevaluated {s t : State} (h : exec .modeRequestEval s = .next t) :
      s.tb.now ≤ t.tb.now ∧ t.grants = s.grants ∧ t.pending = s.pending := by
    obtain rfl | rfl := act_cases (show execModeRequestEval s = _ from h)
    · exact modeEval_frame s
    · exact ⟨Nat.le_refl _, rfl, rfl⟩
  have hreset {s t : State} (h : exec .porstNAssert s = .next t) : porstLow s = t := Host.Outcome.next.inj h
  have hstays {s t : State} (h : t.pp.mode = s.pp.mode ∨ t.pp.mode = .safeHold)
      (hrun : t.pp.mode = .run ∨ t.pp.mode = .commission) : t.pp.mode = s.pp.mode :=
    h.resolve_right fun e => by simp [e] at hrun
  refine ⟨fun c s t hassert h => ?_, fun c s t heval h hrun => ?_, fun c s t hassert hcommit h => ?_, fun c s t h => ?_⟩
  · by_cases hcommit : c = .grantCommitCheck
    · subst hcommit
      exact (hcommitted h).1
    by_cases heval : c = .modeRequestEval
    · subst heval
      exact (hevaluated h).1
    · exact (goesOn_exec hassert hcommit heval h).now
  · by_cases hassert : c = .porstNAssert
    · subst hassert
      rw [← hreset h] at hrun
      exact absurd hrun (by simp)
    by_cases hcommit : c = .grantCommitCheck
    · subst hcommit
      exact hstays (hcommitted h).2.1 hrun
    · exact hstays (goesOn_exec hassert hcommit heval h).mode hrun
  · by_cases heval : c = .modeRequestEval
    · subst heval
      exact (hevaluated h).2.1
    · exact (goesOn_exec hassert hcommit heval h).grants
  · by_cases hassert : c = .porstNAssert
    · subst hassert
      rw [← hreset h]
      rfl
    by_cases hcommit : c = .grantCommitCheck
    · subst hcommit
      exact (hcommitted h).2.2
    by_cases heval : c = .modeRequestEval
    · subst heval
      exact (hevaluated h).2.2
    · exact (goesOn_exec hassert hcommit heval h).pending

/-- Settles O10, by the laws of tables. -/
theorem deckReadAfterWrite : Obligations.DeckReadAfterWrite := fun _ a b hwf =>
  ⟨storeGet_storePut_self Memory.blank hwf a b, fun _ hne => storeGet_storePut_of_ne Memory.blank _ b hne,
    storeWf_storePut Memory.blank hwf a b⟩

end Sys2Proof.Settled
end

section
/-!
SUPPORT. Keystone's account (chapter 05): a slice planned costs every limit what it costs the plan.
-/
namespace Sys2Proof.Machine

/-! ## Sums and lists item by item -/

theorem sumL_eq_sum (l : List Nat) : sumL l = l.sum := by rw [sumL, List.sum_eq_foldl]

@[simp] theorem sumL_cons (a : Nat) (l : List Nat) : sumL (a :: l) = a + sumL l := by simp [sumL_eq_sum]

@[simp] theorem sumL_append (l m : List Nat) : sumL (l ++ m) = sumL l + sumL m := by simp [sumL_eq_sum]

@[simp] theorem nth_nil (p : Nat) : nth [] p = 0 := rfl
@[simp] theorem nth_cons_zero (a : Nat) (l : List Nat) : nth (a :: l) 0 = a := rfl
@[simp] theorem nth_cons_succ (a : Nat) (l : List Nat) (p : Nat) : nth (a :: l) (p + 1) = nth l p := rfl

theorem nth_subL (l m : List Nat) (p : Nat) : nth (subL l m) p = nth l p - nth m p := by
  induction l generalizing m p with
  | nil => cases m <;> simp [subL]
  | cons a l ih =>
    cases m with
    | nil => simp [subL]
    | cons b m =>
      cases p with
      | zero => rfl
      | succ p => exact ih m p

theorem nth_eq_zero_of_all {l : List Nat} (h : l.all (· == 0) = true) (p : Nat) : nth l p = 0 := by
  induction l generalizing p with
  | nil => rfl
  | cons a l ih =>
    simp only [List.all_cons, Bool.and_eq_true, beq_iff_eq] at h
    cases p with
    | zero => exact h.1
    | succ p => exact ih h.2 p

theorem nth_le_of_leL {c l : List Nat} (h : leL c l = true) (p : Nat) : nth c p ≤ nth l p := by
  induction c generalizing l p with
  | nil => exact Nat.zero_le _
  | cons a c ih =>
    cases l with
    | nil => exact (nth_eq_zero_of_all h p).le
    | cons b l =>
      simp only [leL, Bool.and_eq_true, decide_eq_true_eq] at h
      cases p with
      | zero => exact h.1
      | succ p => exact ih h.2 p

/-! ## Budgets and planned slices -/

/-- What the planned slices of one job cost in a pool. -/
def Job.plannedCost (j : Job) (p : Nat) : Nat := sumL ((j.slices.take j.planned).map fun c => nth c p)

/-- What limit `i` of a budget still allows in a pool. -/
def Budget.room (b : Budget) (i p : Nat) : Nat := nth (b.1.getD i []) p

theorem plannedCost_cons (j : Job) (l : List Job) (p : Nat) :
    Safety.plannedCost (j :: l) p = j.plannedCost p + Safety.plannedCost l p := by
  rw [Safety.plannedCost, List.map_cons, sumL_cons]
  rfl

/-- A slice that fits takes its cost from every limit. -/
theorem spend_room {b : Budget} {c : List Nat} {i : Nat} (hfits : fitsIn b c = true) (hi : i < b.1.length) (p : Nat) :
    (spend b c).room i p + nth c p = b.room i p := by
  have hle : nth c p ≤ nth b.1[i] p := nth_le_of_leL (List.all_eq_true.mp hfits _ (List.getElem_mem hi)) p
  have hroom : b.room i p = nth b.1[i] p := by simp [Budget.room, hi]
  have hspent : (spend b c).room i p = nth b.1[i] p - nth c p := by simp [Budget.room, spend, hi, nth_subL]
  omega

@[simp] theorem spend_length (b : Budget) (c : List Nat) : (spend b c).1.length = b.1.length := List.length_map ..

/-- A slice planned adds its cost to the plan. -/
theorem planIx_plannedCost {j : Job} (hleft : j.left.isEmpty = false) (i p : Nat) :
    (j.planIx i).plannedCost p = j.plannedCost p + nth (j.left.getD i []) p := by
  have hlen : (j.slices.take j.planned).length = j.planned := by
    have hpos : 0 < j.left.length := List.length_pos_of_ne_nil (by simpa using hleft)
    rw [Job.left, List.length_drop] at hpos
    rw [List.length_take]
    omega
  have htake : (j.planIx i).slices.take (j.planIx i).planned = j.slices.take j.planned ++ [j.left.getD i []] := by
    simp only [Job.planIx]
    rw [List.take_append, hlen, Nat.add_sub_cancel_left, List.take_of_length_le (by omega)]
    rfl
  simp [Job.plannedCost, htake, sumL_eq_sum]

/-- A job and a budget spend alike: what one gains the other loses, in every pool and limit. -/
structure SpendsAlike (c c' : Nat → Nat) (b b' : Budget) : Prop where
  length : b'.1.length = b.1.length
  balance : ∀ i p, i < b.1.length → c' p + b'.room i p = c p + b.room i p

theorem SpendsAlike.refl (c : Nat → Nat) (b : Budget) : SpendsAlike c c b b := ⟨rfl, fun _ _ _ => rfl⟩

theorem planJob_spendsAlike (n : Nat) (b : Budget) (blocked : List Nat) (j : Job) :
    SpendsAlike j.plannedCost (planJob n b blocked j).1.plannedCost b (planJob n b blocked j).2 := by
  induction n generalizing b j with
  | zero => exact SpendsAlike.refl _ b
  | succ n ih =>
    rw [planJob]
    split_ifs with hempty
    · exact SpendsAlike.refl _ b
    · split
      · exact SpendsAlike.refl _ b
      · next k hfound =>
        have hfits : fitsIn b (j.left.getD k []) = true := by
          have := List.find?_some hfound
          simp only [Bool.and_eq_true] at this
          exact this.2
        have hrest := ih (spend b (j.left.getD k [])) (j.planIx k)
        refine ⟨hrest.length.trans (spend_length ..), fun i p hi => ?_⟩
        have hbalance := hrest.balance i p (by simpa using hi)
        rw [planIx_plannedCost (Bool.eq_false_iff.mpr hempty)] at hbalance
        have hspent := spend_room hfits hi p
        omega

/-- A job planned, and then the jobs behind it. -/
theorem SpendsAlike.cons {j j' : Job} {l l' : List Job} {b b' b'' : Budget} (hj : SpendsAlike j.plannedCost j'.plannedCost b b')
    (hl : SpendsAlike (Safety.plannedCost l) (Safety.plannedCost l') b' b'') :
    SpendsAlike (Safety.plannedCost (j :: l)) (Safety.plannedCost (j' :: l')) b b'' := by
  refine ⟨hl.length.trans hj.length, fun i p hi => ?_⟩
  have hhead := hj.balance i p hi
  have htail := hl.balance i p (by rw [hj.length]; exact hi)
  rw [plannedCost_cons, plannedCost_cons]
  omega

theorem planPass_spendsAlike (sel : Job → Bool) (b : Budget) (blocked : List Nat) (l : List Job) :
    SpendsAlike (Safety.plannedCost l) (Safety.plannedCost (planPass sel b blocked l).1) b (planPass sel b blocked l).2 := by
  induction l generalizing b blocked with
  | nil => exact SpendsAlike.refl _ b
  | cons j l ih =>
    have hplan := planJob_spendsAlike j.left.length b blocked j
    unfold planPass
    dsimp only
    split_ifs
    · exact (SpendsAlike.refl _ b).cons (ih b blocked)
    · exact SpendsAlike.refl _ b
    · exact hplan.cons (ih _ _)
    · exact hplan.cons (ih _ _)
    · exact hplan.cons (SpendsAlike.refl _ _)

end Sys2Proof.Machine

namespace Sys2Proof.Settled
open Machine

/-- Settles O29, by induction over the jobs and over the slices of each. -/
theorem planWithinBudget : Obligations.PlanWithinBudget := fun sel lims bal blocked jobs i p hi =>
  (planPass_spendsAlike sel (lims, bal) blocked jobs).balance i p hi

end Sys2Proof.Settled
end

section
/-!
SUPPORT. Device queues (chapter 06): an item finished, and a state in which finishing one takes the cells of the next marker.
-/
namespace Sys2Proof.Machine

/-- A queue just written reads back. -/
theorem queue_setQueue_self {s : State} (htab : Safety.Tables s) (k : Nat) (x : Queue) : (s.setQueue k x).queue k = x :=
  storeGet_storePut_self _ htab.queues k x

@[simp] theorem wr_queue (s : State) (k v n : Nat) : (s.wr k v).queue n = s.queue n := rfl

/-- The item begun in a queue is finished (R228): it is stored whole, and the next marker starts anew. -/
theorem offer_finish {s : State} {tn q kind : Nat} {it : Offer} (htab : Safety.Tables s) (htn : tn < 256)
    (hon : s.qEnabled tn q = true) (hkind : s.qKind tn q = kind) (hskip : (s.queue (64 * tn + q)).skip = false)
    (hpart : 0 < (s.queue (64 * tn + q)).part) (hdone : it.done = true) :
    (offer s tn q kind it).queue (64 * tn + q) = { s.queue (64 * tn + q) with
      items := (s.queue (64 * tn + q)).items ++
        [{ src := it.src, seq := ((s.queue (64 * tn + q)).seq % 2 ^ 32 + 2 ^ 32 - 1) % 2 ^ 32, time := it.time, body := .data it.payload }]
      part := 0
      markerOpen := false } := by
  unfold offer
  extract_lets k x seq lanes item skipped
  have hserved : ¬(!s.qEnabled tn q || s.qKind tn q != kind) = true := by simp [hon, hkind]
  have hwhole : ¬(x.skip && it.done) = true := by simp [x, k, hskip]
  rw [if_neg (Nat.not_le.mpr htn), if_neg hserved, if_neg hwhole, if_pos hpart, if_pos hdone, queue_setQueue_self htab]

/-- Once an item is stored whole behind the others and no marker is open, there is room when two cells are left beside the items. -/
theorem queueRoom_stored (x : Queue) (i : Item) (cap : Nat) :
    Safety.QueueRoom { x with items := x.items ++ [i], part := 0, markerOpen := false } cap ↔
      sumL (x.items.map Item.cells) + i.cells + 2 ≤ cap := by
  simp [Safety.QueueRoom, Queue.fill, sumL_eq_sum]

theorem cells_data (src seq time : Nat) (p : List Byte) :
    Item.cells { src := src, seq := seq, time := time, body := .data p } = 1 + ceilDiv p.length 16 := rfl

/-- A queue of 4,096 cells in which an item of 4,096 cells is begun while a marker is open. -/
def markedQueue : Queue := { Queue.reset with part := 4096, markerOpen := true }

/-- Queue 0 of tenant 0, enabled for items of kind 0, holds `markedQueue`. -/
def markedState : State := (State.reset.setQueue 0 markedQueue).wr (qKey 0 0 0) (1 + 2 ^ 20)

/-- The rest of the item begun in `markedQueue`. -/
def longItem : Offer := { src := 0, time := 0, payload := List.replicate 65520 0, lane := 0, done := true }

theorem tables_markedState : Safety.Tables markedState :=
  (keeps_wr (keeps_setQueue (Keeps.refl State.reset) 0 markedQueue) _ _).tables inv_reset.tables

theorem markedState_queue : markedState.queue 0 = markedQueue := by
  rw [markedState, wr_queue, queue_setQueue_self inv_reset.tables]

theorem markedState_cfg : markedState.rd (qKey 0 0 0) = 1 + 2 ^ 20 :=
  rd_wr_word ((keeps_setQueue (Keeps.refl State.reset) 0 markedQueue).tables inv_reset.tables) _ (by decide)

end Sys2Proof.Machine

namespace Sys2Proof.Settled
open Machine

/-- Refutes O31: the statement asks nothing of a marker that is open while an item is begun. In `markedState` all 4,096 cells are that
item's; once it is finished no marker is open any more, and two cells ought to be free. -/
theorem not_offerKeepsRoom : ¬ Obligations.OfferKeepsRoom := by
  intro h
  have hon : markedState.qEnabled 0 0 = true := by rw [State.qEnabled, State.bitAt, markedState_cfg]; decide
  have hkind : markedState.qKind 0 0 = 0 := by rw [State.qKind, State.fld, markedState_cfg]; decide
  have hcap : markedState.qCap 0 0 = 4096 := by rw [State.qCap, State.fld, markedState_cfg]; decide
  have hqueue : markedState.queue (64 * 0 + 0) = markedQueue := markedState_queue
  have hcells : ceilDiv longItem.payload.length 16 = 4095 := by rw [longItem, List.length_replicate]; decide
  have hpart : (markedState.queue (64 * 0 + 0)).part = 1 + ceilDiv longItem.payload.length 16 := by rw [hqueue, hcells]; rfl
  have hroom : Safety.QueueRoom (markedState.queue (64 * 0 + 0)) (markedState.qCap 0 0) := by rw [hqueue, hcap]; exact (by decide : 4096 ≤ 4096)
  obtain ⟨-, hafter⟩ := h markedState 0 0 0 longItem tables_markedState (by decide) hon hkind hroom fun _ _ => hpart
  have hskip : (markedState.queue (64 * 0 + 0)).skip = false := by rw [hqueue]; rfl
  have hpos : 0 < (markedState.queue (64 * 0 + 0)).part := by rw [hqueue]; decide
  have hdone : longItem.done = true := rfl
  rw [offer_finish tables_markedState (by decide) hon hkind hskip hpos hdone, hqueue, hcap] at hafter
  rw [queueRoom_stored, cells_data, hcells] at hafter
  omega

end Sys2Proof.Settled
end

section
/-!
SUPPORT. Piers (chapter 12): clamps and roundings, the velocity the position loop asks for, the duties of the legs, and a fault.
-/
namespace Sys2Proof.Machine

/-! ## Clamps and roundings -/

theorem le_clampI {x lo hi : Int} (h : lo ≤ hi) : lo ≤ clampI x lo hi := by unfold clampI; split_ifs <;> omega

theorem clampI_le {x lo hi : Int} (h : lo ≤ hi) : clampI x lo hi ≤ hi := by unfold clampI; split_ifs <;> omega

/-- A bound at or beyond 0 outlasts a saturation. -/
theorem satS_mem {n : Nat} {x b : Int} (hb : 0 ≤ b) (hlo : -b ≤ x) (hhi : x ≤ b) : -b ≤ satS n x ∧ satS n x ≤ b := by
  have hpow : (0 : Int) < (2 ^ (n - 1) : Nat) := by exact_mod_cast Nat.two_pow_pos (n - 1)
  unfold satS clampI
  split_ifs <;> omega

theorem ratClamp_mem {x lo hi : Rat} (h : lo ≤ hi) : lo ≤ ratClamp x lo hi ∧ ratClamp x lo hi ≤ hi := by
  unfold ratClamp
  split_ifs with hlow hhigh
  · exact ⟨le_refl lo, h⟩
  · exact ⟨h, le_refl hi⟩
  · exact ⟨not_lt.mp hlow, not_lt.mp hhigh⟩

/-- A quotient between two whole numbers is rounded to a number between them. -/
theorem divRound_mem {a n : Int} {b : Nat} (hb : 0 < b) (hn : 0 ≤ n) (hlo : -(n * b) ≤ a) (hhi : a ≤ n * b) :
    -n ≤ divRound a b ∧ divRound a b ≤ n := by
  have hround {c : Int} (hc : 0 ≤ c) (hle : c ≤ n * b) : 0 ≤ (2 * c + b) / (2 * b : Nat) ∧ (2 * c + b) / (2 * b : Nat) ≤ n := by
    have hpos : (0 : Int) < (2 * b : Nat) := by omega
    refine ⟨Int.ediv_nonneg (by omega) hpos.le, Int.lt_add_one_iff.mp (Int.ediv_lt_of_lt_mul hpos ?_)⟩
    push_cast
    nlinarith
  unfold divRound
  rw [if_neg hb.ne']
  split_ifs with hsign
  · obtain ⟨h0, h1⟩ := hround hsign hhi
    omega
  · obtain ⟨h0, h1⟩ := hround (c := -a) (by omega) (by omega)
    rw [show 2 * -a = -2 * a by ring] at h0 h1
    omega

theorem ratRound_mem {q : Rat} {n : Int} (hn : 0 ≤ n) (hlo : -(n : Rat) ≤ q) (hhi : q ≤ n) : -n ≤ ratRound q ∧ ratRound q ≤ n := by
  have hden : (0 : Rat) < q.den := by exact_mod_cast q.den_pos
  have hq : q * q.den = q.num := Rat.mul_den_eq_num q
  have hnum : (q.num : Rat) ≤ n * q.den := by
    rw [← hq]
    exact mul_le_mul_of_nonneg_right hhi hden.le
  have hneg : -(n * q.den : Rat) ≤ q.num := by
    rw [← hq, ← neg_mul]
    exact mul_le_mul_of_nonneg_right hlo hden.le
  exact divRound_mem q.den_pos hn (by exact_mod_cast hneg) (by exact_mod_cast hnum)

/-- A velocity within a Q16.16 limit is, in Q40.24, within 256 times the limit's integer. -/
theorem toVel_mem {q : Rat} {k : Nat} (hlo : -ofQ 16 k ≤ q) (hhi : q ≤ ofQ 16 k) :
    -((k : Int) * 256) ≤ toVel q ∧ toVel q ≤ (k : Int) * 256 := by
  have hscale : ofQ 16 k * ((2 ^ 24 : Nat) : Rat) = ((k * 256 : Int) : Rat) := by
    rw [ofQ, Rat.mkRat_eq_div]
    push_cast
    ring
  have hpos : (0 : Rat) ≤ ((2 ^ 24 : Nat) : Rat) := Nat.cast_nonneg _
  have hround : -((k : Int) * 256) ≤ toQ 24 q ∧ toQ 24 q ≤ (k : Int) * 256 := by
    refine ratRound_mem (by positivity) ?_ ?_
    · rw [← hscale, ← neg_mul]
      exact mul_le_mul_of_nonneg_right hlo hpos
    · rw [← hscale]
      exact mul_le_mul_of_nonneg_right hhi hpos
  exact satS_mem (by positivity) hround.1 hround.2

theorem ofQ_nonneg (f k : Nat) : 0 ≤ ofQ f k := by
  rw [ofQ, Rat.mkRat_eq_div]
  positivity

theorem mkRat_mod_mem (x : Int) : 0 ≤ mkRat (x % 65537) 65536 ∧ mkRat (x % 65537) 65536 ≤ 1 := by
  have hlo : (0 : Rat) ≤ (x % 65537 : Int) := by exact_mod_cast Int.emod_nonneg x (by decide)
  have hhi : ((x % 65537 : Int) : Rat) ≤ 65536 := by
    have := Int.emod_lt_of_pos x (show (0 : Int) < 65537 by decide)
    exact_mod_cast (show x % 65537 ≤ 65536 by omega)
  rw [Rat.mkRat_eq_div]
  exact ⟨div_nonneg hlo (Nat.cast_nonneg _), (div_le_one (by norm_num)).mpr (by exact_mod_cast hhi)⟩

/-! ## The loops -/

/-- A pier just written reads back. -/
theorem pier_setPier_self {s : State} (htab : Safety.Tables s) (k : Nat) (x : Pier) : (s.setPier k x).pier k = x :=
  storeGet_storePut_self _ htab.piers k x

theorem pier_updPier_self {s : State} (htab : Safety.Tables s) (k : Nat) (f : Pier → Pier) : (s.updPier k f).pier k = f (s.pier k) :=
  pier_setPier_self htab k _

/-- The duties are clamped; with no bus voltage they are open between 0 and 1. -/
theorem legDuties_mem (vd vq : Int) (turns : Rat) (bus : Nat) : ∀ x ∈ legDuties vd vq turns bus, 0 ≤ x ∧ x ≤ 1 := by
  intro x hx
  unfold legDuties at hx
  obtain ⟨v, -, rfl⟩ := List.mem_map.mp hx
  split_ifs
  · exact mkRat_mod_mem _
  · exact ratClamp_mem (by decide)

/-- Short of a following error the position loop asks for a velocity within the speed limit (R442). -/
theorem positionLoop_vCmd {s : State} {p : Nat} (htab : Safety.Tables s)
    (hrun : (s.pier p).feRun + 1 < max 1 (s.fld (pierKey p 0x78) 4 8)) :
    ∃ v, ((positionLoop s p).pier p).vCmd = toVel (ratClamp v (-ofQ 16 ((s.pier p).k 11)) (ofQ 16 ((s.pier p).k 11))) := by
  unfold positionLoop
  extract_lets x a ep vmax v run looped
  have hshort : ¬max 1 (looped.fld (pierKey p 0x78) 4 8) ≤ run := by
    have hle : run ≤ (s.pier p).feRun + 1 := by
      simp only [run]
      split_ifs
      · exact Nat.le_refl _
      · exact Nat.zero_le _
    exact not_le.mpr (hle.trans_lt hrun)
  rw [if_neg hshort, pier_setPier_self htab]
  exact ⟨v, rfl⟩

/-! ## Faults -/

@[simp] theorem setQueue_pier (s : State) (n : Nat) (x : Queue) (p : Nat) : (s.setQueue n x).pier p = s.pier p := rfl
@[simp] theorem wr_pier (s : State) (k v p : Nat) : (s.wr k v).pier p = s.pier p := rfl

/-- A pier that leaves its loops has its new mode, the cause of a fault, and no overrides (R449, R466). -/
theorem pierDown_pier {s : State} (htab : Safety.Tables s) (p : Nat) (m : PierMode) (cause : Nat) :
    ((pierDown s p m cause).pier p).mode = m ∧ ((pierDown s p m cause).pier p).cause = cause ∧
      ((pierDown s p m cause).pier p).ovr = [] := by
  unfold pierDown
  extract_lets legs axis
  have haxis : Safety.Tables axis := (keeps_updAxis (keeps_pierLegsOff (Keeps.refl s) p) p _).tables htab
  rw [pier_updPier_self haxis]
  exact ⟨rfl, rfl, rfl⟩

end Sys2Proof.Machine
end

section
/-!
SUPPORT. The frame of bookkeeping (chapters 04, 05 and 19): what flags, counters, items offered to device queues, completion entries
and plans leave as they were.
-/
namespace Sys2Proof.Machine

/-! ## Nothing but the books changes -/

/-- `t` is `s` but for registers, device time, completion rings, function vectors, Keystone's account, device queues and what has left
the device. -/
structure Books (s t : State) : Prop where
  units : Safety.SameUnits s t
  jobs : t.jobs = s.jobs

theorem sameUnits_refl (s : State) : Safety.SameUnits s s := by constructor <;> repeat' constructor

theorem sameUnits_trans {a s t : State} (h : Safety.SameUnits a s) (k : Safety.SameUnits s t) : Safety.SameUnits a t := by
  obtain ⟨h1, h2, h3, h4, h5, h6, h7, h8, ⟨h9, h9'⟩, ⟨ha, ha'⟩, ⟨hb, hb', hb2, hb3⟩, ⟨hc, hc', hc2, hc3⟩, ⟨hd, hd', hd2, hd3, hd4⟩,
    ⟨he, he'⟩, ⟨hf, hf'⟩, ⟨hg, hg', hg2, hg3⟩, hh, ⟨hi, hi', hi2, hi3⟩, hj⟩ := h
  constructor <;> simp only [k.power, k.refs, k.link, k.grants, k.commit, k.tns, k.sqs, k.deck, k.cams, k.vision, k.eject, k.feedback,
    k.motion, k.latches, k.steps, k.pwm, k.cans, k.device, k.pending, *, and_self]

/-- An update of the books, and of the jobs, is no change of a unit. -/
theorem sameUnits_upd {a s : State} (h : Safety.SameUnits a s) {tb : TimeBase} {fns : Store Fn} {regs : Store Word} {irqPend : Bool}
    {cqs : Store Cq} {jobs : List Job} {nextId : Nat} {ks : Keystone} {queues : Store Queue} {out : List Tlp} {freeCtr : Nat} :
    Safety.SameUnits a { s with
      tb := tb, fns := fns, regs := regs, irqPend := irqPend, cqs := cqs, jobs := jobs, nextId := nextId, ks := ks, queues := queues
      out := out, freeCtr := freeCtr } :=
  sameUnits_trans h (by constructor <;> repeat' constructor)

theorem Books.refl (s : State) : Books s s := ⟨sameUnits_refl s, rfl⟩

theorem Books.trans {a s t : State} (h : Books a s) (k : Books s t) : Books a t := ⟨sameUnits_trans h.units k.units, k.jobs.trans h.jobs⟩

theorem Books.upd {a s : State} (h : Books a s) {tb : TimeBase} {fns : Store Fn} {regs : Store Word} {irqPend : Bool}
    {cqs : Store Cq} {nextId : Nat} {ks : Keystone} {queues : Store Queue} {out : List Tlp} {freeCtr : Nat} :
    Books a { s with
      tb := tb, fns := fns, regs := regs, irqPend := irqPend, cqs := cqs, nextId := nextId, ks := ks, queues := queues
      out := out, freeCtr := freeCtr } :=
  ⟨sameUnits_upd h.units, h.jobs⟩

theorem Books.ite {a s t : State} {c : Prop} [Decidable c] (h : Books a s) (k : Books a t) : Books a (if c then s else t) := by
  split <;> assumption

section
variable {a s : State} (h : Books a s)
include h

theorem books_wr (k v : Nat) : Books a (s.wr k v) := h.upd
theorem books_setQueue (n : Nat) (x : Queue) : Books a (s.setQueue n x) := h.upd
theorem books_setCq (n : Nat) (x : Cq) : Books a (s.setCq n x) := h.upd
theorem books_updCq (n : Nat) (f : Cq → Cq) : Books a (s.updCq n f) := h.upd
theorem books_setFn (n : Nat) (x : Fn) : Books a (s.setFn n x) := h.upd
theorem books_send (p : Tlp) : Books a (send s p) := h.upd
theorem books_advance (t : Nat) : Books a (advance s t) := Books.ite h.upd h
theorem books_noteSet (k mask : Nat) : Books a (noteSet s k mask) := h.upd
theorem books_flagRaw (k mask : Nat) : Books a (flagRaw s k mask) := books_wr (books_wr (books_noteSet h _ _) _ _) _ _
theorem books_countN (k n : Nat) : Books a (countN s k n) := books_wr h _ _
theorem books_count (k : Nat) : Books a (count s k) := books_countN h _ _

theorem books_dropItem (tn q src seq time lanes : Nat) : Books a (dropItem s tn q src seq time lanes) := by
  have hcount := books_count h (qKey tn q 0x14)
  unfold dropItem
  exact Books.ite (books_setQueue hcount _ _) (books_flagRaw (books_setQueue hcount _ _) _ _)

theorem books_offer (tn q kind : Nat) (it : Offer) : Books a (offer s tn q kind it) := by
  unfold offer
  extract_lets k x seq lanes item skipped
  split_ifs
  · exact h
  · exact books_count (books_setQueue h _ _) _
  · exact books_setQueue h _ _
  · exact books_setQueue h _ _
  · exact h
  · exact books_setQueue h _ _
  · exact books_setQueue h _ _
  · exact books_dropItem (books_setQueue h _ _) _ _ _ _ _ _

theorem books_flag (k mask : Nat) : Books a (flag s k mask) := by
  unfold flag
  extract_lets first raised b signalled src
  have hirq : Books a signalled := Books.ite (books_flagRaw h k mask).upd (books_flagRaw h k mask)
  split_ifs
  · exact hirq
  · exact books_offer hirq _ _ _ _
  · exact books_setQueue hirq _ _

theorem books_flagIf (c : Bool) (k mask : Nat) : Books a (flagIf s c k mask) := Books.ite (books_flag h k mask) h

theorem books_signal (fn v : Nat) : Books a (signal s fn v) := Books.ite h (Books.ite (books_setFn h _ _) (books_send h _))

theorem books_signalCq (tn n : Nat) : Books a (signalCq s tn n) := books_signal (books_updCq h _ _) _ _

theorem books_writeEntry (j : Job) (interim : Bool) (status res tu late : Nat) :
    Books a (writeEntry s j interim status res tu late) := by
  unfold writeEntry
  extract_lets d tn n c s2 len head sent wrap moved counted stored
  have hstored : Books a stored := books_setCq (books_send h _) _ _
  exact Books.ite (Books.ite (books_signalCq hstored tn n) hstored) (books_setCq (books_send h _) _ _)

theorem books_unreserve (j : Job) : Books a (unreserve s j) := Books.ite (books_updCq h _ _) h

theorem books_countStatus (tn status : Nat) : Books a (countStatus s tn status) :=
  Books.ite (books_flag (books_count h _) _ _)
    (Books.ite (books_flag (books_count h _) _ _) (Books.ite (books_count h _) h))

end

/-! ## Jobs -/

theorem sameUnits_dropJob (s : State) (id : Nat) : Safety.SameUnits s (dropJob s id) := sameUnits_upd (sameUnits_refl s)

/-- The job leaves, and the rest of a completion is bookkeeping. -/
theorem books_complete (s : State) (j : Job) (status res : Nat) : Books (dropJob s j.id) (complete s j status res) := by
  unfold complete
  extract_lets dropped fin tn counted refusal late quiet given
  have hcounted : Books dropped counted := books_countStatus (Books.refl _) tn fin
  have hgiven : Books dropped given := books_unreserve hcounted j
  exact Books.ite (Books.refl _)
    (Books.ite hgiven (Books.ite (books_count hgiven _) (books_writeEntry hgiven _ _ _ _ _ _)))

theorem sameUnits_complete (s : State) (j : Job) (status res : Nat) : Safety.SameUnits s (complete s j status res) :=
  sameUnits_trans (sameUnits_dropJob s j.id) (books_complete s j status res).units

/-- A completion leaves every other job. -/
theorem job?_complete_of_ne (s : State) (j : Job) (status res : Nat) {i : Nat} (h : i ≠ j.id) :
    (complete s j status res).job? i = s.job? i := by
  rw [State.job?, (books_complete s j status res).jobs, dropJob, List.find?_filter, State.job?]
  congr 1
  funext x
  by_cases hx : x.id = i
  · simp [hx, h]
  · simp [hx]

theorem sameUnits_planNow (s : State) (j : Job) : Safety.SameUnits s (planNow s j) := by
  unfold planNow
  split_ifs
  · exact sameUnits_upd (sameUnits_refl s)
  · exact sameUnits_refl s

theorem planNow_regs (s : State) (j : Job) : (planNow s j).regs = s.regs := by
  unfold planNow
  split_ifs <;> rfl

theorem sameUnits_keep (s : State) (j : Job) : Safety.SameUnits s (keep s j) := by
  unfold keep
  split_ifs <;> exact sameUnits_upd (sameUnits_refl s)

theorem keep_regs (s : State) (j : Job) : (keep s j).regs = s.regs := by
  unfold keep
  split_ifs <;> rfl

/-- Taking a descriptor reserves at most an entry of its CQ. -/
theorem books_takeJob (s : State) (d : Desc) : Books s (takeJob s d).1 := by
  unfold takeJob
  split
  · exact Books.refl s
  · exact (Books.refl s).upd

theorem advance_regs (s : State) (t : Nat) : (advance s t).regs = s.regs := by
  unfold advance
  split_ifs <;> rfl

theorem takeJob_regs (s : State) (d : Desc) : (takeJob s d).1.regs = s.regs := by
  unfold takeJob
  split <;> rfl

/-! ## Registers a completion leaves -/

theorem le_tkey (tn off : Nat) : 0x100000 ≤ tkey tn off := by
  unfold tkey
  omega

@[simp] theorem rd_signal (s : State) (fn v k : Nat) : (signal s fn v).rd k = s.rd k := by
  unfold signal
  extract_lets f t
  split_ifs <;> rfl

@[simp] theorem rd_signalCq (s : State) (tn n k : Nat) : (signalCq s tn n).rd k = s.rd k := by
  rw [signalCq, rd_signal]
  rfl

@[simp] theorem rd_writeEntry (s : State) (j : Job) (interim : Bool) (status res tu late k : Nat) :
    (writeEntry s j interim status res tu late).rd k = s.rd k := by
  unfold writeEntry
  extract_lets d tn n c s2 len head sent wrap moved counted stored
  split_ifs
  · exact rd_signalCq stored tn n k
  · rfl
  · rfl

@[simp] theorem rd_unreserve (s : State) (j : Job) (k : Nat) : (unreserve s j).rd k = s.rd k := by
  unfold unreserve
  split_ifs <;> rfl

theorem rd_count_tkey {s : State} {k : Nat} (hbar0 : k < 0x100000) (tn off : Nat) : (count s (tkey tn off)).rd k = s.rd k :=
  rd_countN_of_ne s 1 (hbar0.trans_le (le_tkey tn off)).ne

theorem rd_flag_of_ne {s : State} {k k' : Nat} (mask : Nat) (hne : k' ≠ k) (hseq : k' ≠ k + 4) (hbar0 : k' < 0x100000) :
    (flag s k mask).rd k' = s.rd k' := by
  rw [rd_flag hbar0, rd_flagRaw_of_ne _ _ hne hseq]

/-- Below the tenant pages a final status changes no register but Keystone's status and its count. -/
theorem rd_countStatus {s : State} {k : Nat} (hbar0 : k < 0x100000) (hks : k ≠ kKs) (hseq : k ≠ kKs + 4) (tn status : Nat) :
    (countStatus s tn status).rd k = s.rd k := by
  unfold countStatus
  split_ifs
  · rw [rd_flag_of_ne 1 hks hseq hbar0, rd_count_tkey hbar0]
  · rw [rd_flag_of_ne 2 hks hseq hbar0, rd_count_tkey hbar0]
  · rw [rd_count_tkey hbar0]
  · rfl

theorem rd_complete {s : State} {k : Nat} (hbar0 : k < 0x100000) (hks : k ≠ kKs) (hseq : k ≠ kKs + 4) (j : Job) (status res : Nat) :
    (complete s j status res).rd k = s.rd k := by
  unfold complete
  extract_lets dropped fin tn counted refusal late quiet given
  have hcounted : given.rd k = s.rd k := by
    rw [rd_unreserve, rd_countStatus hbar0 hks hseq]
    rfl
  split_ifs
  · rfl
  · exact hcounted
  · rw [rd_count_tkey hbar0, hcounted]
  · rw [rd_writeEntry, hcounted]
  · rw [rd_writeEntry, hcounted]

end Sys2Proof.Machine

namespace Sys2Proof.Settled
open Machine

/-- Settles O9: each of the operations is built of updates of the books. -/
theorem bookkeepingFrame : Obligations.BookkeepingFrame := by
  refine ⟨fun s t op d => ⟨?_, ?_, ?_⟩, fun s j st res => ⟨?_, ?_, fun i hi => ?_⟩, fun s j st res k _ hbar0 hks hseq => ?_,
    fun s j => ⟨?_, ?_, ?_, ?_⟩, fun s k mask => ⟨?_, ?_, ?_⟩, fun s k mask k' _ hne hseq hbar0 => ?_⟩
  · exact ((books_advance (Books.refl s) t).trans (books_takeJob _ _)).units
  · rw [Safety.taken, takeJob_regs, advance_regs]
  · exact (keeps_taken s t op d).now
  · exact sameUnits_trans (sameUnits_complete s j st res) (sameUnits_planNow _ j)
  · exact (keeps_planNow (keeps_complete (Keeps.refl s) j st res) j).now
  · exact job?_complete_of_ne s j st res hi
  · exact rd_complete hbar0 hks hseq j st res
  · exact sameUnits_planNow s j
  · exact planNow_regs s j
  · exact sameUnits_keep s j
  · exact keep_regs s j
  · exact (books_flag (Books.refl s) k mask).units
  · exact (keeps_flag (Keeps.refl s) k mask).now
  · exact (books_flag (Books.refl s) k mask).jobs
  · exact rd_flag_of_ne mask hne hseq hbar0

end Sys2Proof.Settled
end

section
/-!
SUPPORT. Piers (chapter 12): what a fault leaves of the pier.
-/
namespace Sys2Proof.Machine

/-- The bookkeeping of a flag touches no pier. -/
@[simp] theorem flag_pier (s : State) (k mask p : Nat) : (flag s k mask).pier p = s.pier p := by
  obtain ⟨-, hpiers, -⟩ := (books_flag (Books.refl s) k mask).units.motion
  rw [State.pier, hpiers, State.pier]

/-- R466: in DISABLED and FAULT there is nothing to fault. -/
theorem pierFault_down {s : State} {p : Nat} (cause : Nat) (h : (s.pier p).mode = .disabled ∨ (s.pier p).mode = .fault) :
    pierFault s p cause = s := by
  rw [pierFault, if_pos h]

/-- A pier that runs faults with its cause and leaves its loops (R426, R449, R466). -/
theorem pierFault_pier {s : State} (htab : Safety.Tables s) {p : Nat} (cause : Nat) (hon : (s.pier p).mode ≠ .disabled)
    (hrun : (s.pier p).mode ≠ .fault) :
    ((pierFault s p cause).pier p).mode = .fault ∧ ((pierFault s p cause).pier p).cause = cause ∧
      ((pierFault s p cause).pier p).ovr = [] := by
  unfold pierFault
  extract_lets m st dropped ended
  have hended : Keeps s ended := keeps_alignEnd (keeps_axisEnd (keeps_dropStayOf (keeps_abortGroupOf (Keeps.refl s) _ _ _) _ _) _ _ _) _ _ _
  rw [if_neg (by simp [m, hon, hrun]), pierFlag, flag_pier]
  exact pierDown_pier (hended.tables htab) p .fault cause

end Sys2Proof.Machine

namespace Sys2Proof.Settled
open Machine

/-- Settles O46. -/
theorem pierOutputsBounded : Obligations.PierOutputsBounded := by
  refine ⟨legDuties_mem, fun s p htab hrun => ?_, fun x lo hi h => ⟨le_clampI h, clampI_le h, fun hin => ?_⟩,
    fun s p cause htab hon hrun => pierFault_pier htab cause hon hrun, fun s p cause hdown => pierFault_down cause hdown.symm⟩
  · obtain ⟨v, hv⟩ := positionLoop_vCmd htab hrun
    rw [hv]
    obtain ⟨hlo, hhi⟩ := ratClamp_mem (x := v) (neg_le_self (ofQ_nonneg 16 ((s.pier p).k 11)))
    exact toVel_mem hlo hhi
  · simp only [limitTo, Bool.or_eq_false_iff, decide_eq_false_iff_not] at hin
    rw [limitTo, clampI, if_neg hin.1, if_neg hin.2]

end Sys2Proof.Settled
end

section
/-!
SUPPORT. The instants of a span (chapter 01).
-/
namespace Sys2Proof.Machine

/-- A command whose effect is none leaves the state, in reset or not. -/
theorem act_none {s : State} {f : State → State} (h : f s = s) : act s f = .next s := by rw [act, h, ite_self]

section
variable {s : State} {len off pct : Nat} (hlen : len = (s.tb.dueLen.map (4 * ·)).getD s.tb.len) (hoff : off = s.fld 0x2014 0 12)
  (hpct : pct = s.fld 0x2010 16 7) (hdue : len ≠ s.tb.len ∨ off ≠ s.tb.offset ∨ pct ≠ s.tb.pct)
include hlen hoff hpct hdue

/-- R20, R752: changes that keep the sample instant 1,000 ticks before the compute deadline take effect together. -/
theorem spanSettings_taken (hfits : off + 1000 ≤ computeTick len pct) :
    spanSettings s = { s with tb := { s.tb with
      len := len, offset := off, pct := pct, lenWrite := s.tb.lenWrite.filter fun x => !decide (x.2 + 64 ≤ s.tb.boundary) } } := by
  subst hlen hoff hpct
  unfold spanSettings
  extract_lets b len off pct later due clock kept readBack
  rw [if_neg (by tauto), if_pos hfits]

/-- R20: any other set of changes is refused together, with CFG_ERR. -/
theorem spanSettings_refused (hover : computeTick len pct < off + 1000) :
    ∃ v, spanSettings s = flag v kSpan 4 ∧ Keeps { s with tb := { s.tb with
      lenWrite := s.tb.lenWrite.filter fun x => !decide (x.2 + 64 ≤ s.tb.boundary) } } v := by
  subst hlen hoff hpct
  unfold spanSettings
  extract_lets b len off pct later due clock kept readBack
  have hkept : Keeps due kept := keeps_setFld (keeps_setFld (Keeps.refl due) _ _ _ _) _ _ _ _
  rw [if_neg (by tauto), if_neg (not_le.mpr hover)]
  exact ⟨readBack, rfl, Keeps.ite (keeps_setFld hkept _ _ _ _) hkept⟩

end

end Sys2Proof.Machine

namespace Sys2Proof.Settled
open Machine

/-- Settles O13. That a second sample instant or compute deadline in a span does nothing is entry 20 of the log. -/
theorem spanInstants : Obligations.SpanInstants := by
  refine ⟨fun s len off pct hlen hoff hpct => ⟨_, rfl, fun hfits hdue => ?_, fun hover hdue => ?_⟩,
    fun s m hporst hpll hnew => ⟨sampleInstant s m, ?_, ?_⟩, fun s m hporst hpll hnew => ⟨computeDeadline s (m.map Fin.val), ?_, ?_⟩,
    fun s m hdone => ?_, fun s m hdone => ?_⟩
  · rw [spanSettings_taken hlen hoff hpct hdue hfits]
    exact ⟨rfl, rfl, rfl, rfl⟩
  · obtain ⟨v, hv, hkeeps⟩ := spanSettings_refused hlen hoff hpct hdue hover
    have hflag := keeps_flag hkeeps kSpan 4
    rw [hv]
    exact ⟨hflag.len, hflag.offset, hflag.pct, v, rfl⟩
  · show execSampleInstant m s = _
    exact act_next hporst (by rw [hpll, hnew]; rfl)
  · have h := keeps_sampleInstant s m
    exact ⟨h.sampled, h.now, h.boundary, h.spanIx, h.len, h.grants⟩
  · show execComputeDeadline m s = _
    exact act_next hporst (by rw [hpll, hnew]; rfl)
  · have h := keeps_computeDeadline s (m.map Fin.val)
    exact ⟨h.judged, h.now, h.boundary, h.spanIx, h.len, h.grants⟩
  · show execSampleInstant m s = _
    exact act_none (by simp [hdone])
  · show execComputeDeadline m s = _
    exact act_none (by simp [hdone])

end Sys2Proof.Settled
end

section
/-!
SUPPORT. Reads and writes of registers by the host (chapters 01, 03 and 19).
-/
namespace Sys2Proof.Machine

theorem bits_zero (w n : Nat) : bits w 0 n = w % 2 ^ n := by rw [bits, pow_zero, Nat.div_one]

theorem length_leBytes (n w : Nat) : (leBytes n w).length = n := by
  induction n generalizing w with
  | zero => rfl
  | succ n ih => simp [leBytes, ih]

/-! ## Reads -/

/-- R689: an aligned read of four bytes reads one register. -/
theorem loRead_word {a : State} {fn off key : Nat} (hreach : a.reach fn = true) (hoff : off % 4 = 0) (hkey : keyOf fn off = some key) :
    loRead a fn off 4 = setRead (readReg a fn key).1 (leBytes 4 (readReg a fn key).2) := by
  have hfirst : 4 * (off / 4) = off := by omega
  have hone : (off + 4 - 1) / 4 - off / 4 + 1 = 1 := by omega
  unfold loRead
  extract_lets first n r
  have hr : r = ((readReg a fn key).1, leBytes 4 (readReg a fn key).2) := by
    simp only [r, n, first, hfirst]
    rw [hone]
    simp only [readRegs, hkey, List.append_nil]
  rw [if_neg (by simp [hreach]), hr, hoff, List.drop_zero, List.take_of_length_le (length_leBytes 4 _).le]

/-- A register with no latch and no port is read and nothing else happens. -/
theorem readReg_plain {a : State} {fn key : Nat} (hans : a.keyAnswers key = true) (hlo : isLo key = false)
    (hport : ¬(0x100000 ≤ key ∧ key % 0x1000 = 0x78)) : readReg a fn key = (a, a.readKey fn key) := by
  simp [readReg, hans, hlo, hport]

/-- R691: the low half of a pair latches the high half for the function. -/
theorem readReg_lo {a : State} {fn key : Nat} (hans : a.keyAnswers key = true) (hlo : isLo key = true) :
    readReg a fn key = ({ a with tb := { a.tb with
      hi := storePut (fun _ => (0 : Word)) a.tb.hi (hiKey fn (key + 4)) (BitVec.ofNat 32 (a.pairVal key / 2 ^ 32)) } },
        a.readKey fn key) := by
  simp [readReg, hans, hlo]

theorem tkey_off {tn off : Nat} (hoff : off < 0x1000) : tkey tn off % 0x1000 = off ∧ (tkey tn off - 0x100000) / 0x1000 = tn := by
  unfold tkey
  constructor <;> omega

/-- R719: the data port moves on at each read. -/
theorem readReg_port {a : State} (hans : a.answers = true) (tn : Nat) :
    readReg a tn (tkey tn 0x78) = (a.updTn tn fun x => { x with pubPtr := (x.pubPtr + 1) % 6 }, a.readKey tn (tkey tn 0x78)) := by
  obtain ⟨hoff, htn⟩ := tkey_off (tn := tn) (show 0x78 < 0x1000 by decide)
  have hpage := le_tkey tn 0x78
  have hlo : isLo (tkey tn 0x78) = false := by
    rw [isLo, if_pos hpage, hoff]
    decide
  have hkey : a.keyAnswers (tkey tn 0x78) = true := by simp [State.keyAnswers, hans]
  rw [readReg, hkey, hlo, htn]
  simp [hpage, hoff]

/-! ## Writes -/

/-- An aligned write of at most four bytes touches one word. -/
theorem touched_word {off len : Nat} (hoff : off % 4 = 0) (hpos : 0 < len) (hlen : len ≤ 4) : touched off len = [(off, decide (4 ≤ len))] := by
  have hone : (off + len - 1) / 4 - off / 4 + 1 = 1 := by omega
  have hfirst : 4 * (off / 4) = off := by omega
  simp [touched, hone, hfirst]

section
variable {a : State} {fn off key : Nat} {data : List Byte} {busy : Bool} (hoff : off % 4 = 0) (hkey : keyOf fn off = some key)
  (hans : a.keyAnswers key = true) (hreg : (regAt key).isSome = true)
include hoff hkey hans hreg

/-- R689: a word written whole reaches its register. -/
theorem writeBar0_whole (hlen : data.length = 4) : writeBar0 a fn off data busy = writeReg a key (leNat data) busy := by
  have hall : data.take 4 = data := List.take_of_length_le hlen.le
  unfold writeBar0
  rw [hlen, touched_word hoff (by decide) (by decide)]
  cases data with
  | nil => cases hlen
  | cons b l => simp [writeWord, hkey, hans, hreg, hall]

/-- R689: a register covered in part is not written. -/
theorem writeBar0_part (hlen : data.length = 2) : writeBar0 a fn off data busy = accessErr a key := by
  unfold writeBar0
  rw [hlen, touched_word hoff (by decide) (by decide)]
  cases data with
  | nil => cases hlen
  | cons b l => simp [hkey, hans, hreg]

end

/-- R668: with the link down no write reaches the device. -/
theorem hostWrite_linkDown {a : State} (hlink : a.link.up = false) (fn : Nat) (target : Target) (data : List Byte) (busy : Bool) :
    hostWrite a fn target data busy = a := by
  cases target <;> simp [hostWrite, State.reach, hlink]

/-- The command acts once device time has reached its tick. -/
theorem exec_registerWrite {s : State} (hporst : s.power.porstHigh = true) (t : Nat) (fn : Fin 256) (target : Target) (data : List Byte)
    (busy : Bool) : exec (.registerWrite t fn target data busy) s = .next (hostWrite (advance s t) fn target data busy) := by
  show execRegisterWrite t fn target data busy s = _
  exact act_next hporst rfl

theorem plainWrite_eq {s : State} {key u : Nat} {e : Option (Nat × Nat)} {r : Reg} (hreg : regAt key = some (u, e, r)) (w : Nat) (bad : Bool) :
    plainWrite s key w bad =
      if s.mode = .run ∧ r.movesLocked (s.rd key) w = true then s
      else if (r.outOfRange w || bad) = true then cfgErrAt s key
      else s.wr key (r.after (s.rd key) (w - (w &&& (r.flagMask &&& s.setNow key)))) := by
  rw [plainWrite, hreg]

/-- R432: the command writes the register it names. -/
theorem exec_pierCommOffWrite {s a : State} {t : Nat} (hporst : s.power.porstHigh = true) (ha : a = advance s t)
    (hans : a.answers = true) (p : Fin 32) (reg : CommReg) (v : Word) : exec (.pierCommOffWrite t p reg v) s = .next
      (writePierReg a p (match reg with | .commOff => 0x1C | .motor => 0x14 | .cpr => 0x18 | .fb => 4) v.toNat) := by
  subst ha
  show execPierCommOffWrite t p reg v s = _
  exact act_next hporst (if_pos hans)

/-- The record selector acts on a tenant that exists (R719). -/
theorem exec_tnPubSelWrite {s a : State} {t : Nat} {tn : Fin 256} (hporst : s.power.porstHigh = true) (ha : a = advance s t)
    (hfn : s.fnExists tn = true) (hans : s.answers = true) (v : Word) : exec (.tnPubSelWrite t tn v) s = .next (pubSel a tn v.toNat) := by
  subst ha
  show execTnPubSelWrite t tn v s = _
  exact act_next hporst (if_pos (by simp [hfn, hans]))

end Sys2Proof.Machine

namespace Sys2Proof.Settled
open Machine

/-- Settles O16. -/
theorem registerRead : Obligations.RegisterRead := by
  intro s a t off key fn hporst ha hreach hoff hkey hans
  have hexec : exec (.loRegisterRead t fn off 4) s = .next (setRead (readReg a fn key).1 (leBytes 4 (readReg a fn key).2)) := by
    subst ha
    show execLoRegisterRead t fn off 4 s = _
    exact act_next hporst (loRead_word hreach hoff hkey)
  rw [hexec]
  refine ⟨fun hlo hport => ?_, fun hlo => ?_⟩
  · rw [readReg_plain hans hlo hport, setRead]
  · rw [readReg_lo hans hlo, setRead]

/-- Settles O17, by the target of the write and by the branches of `plainWrite`. That bit 0 of the PTM control word sets the capability
is entry 29 of the log, that a locked write in RUN sets no CFG_ERR is entry 36, and what configuration writes do before READY,
entry 40. -/
theorem registerWrite : Obligations.RegisterWrite := by
  refine ⟨fun s a t fn data busy hporst ha => ?_, fun s key w bad u e r hreg => ?_⟩
  · have hexec (target : Target) : exec (.registerWrite t fn target data busy) s = .next (hostWrite a fn target data busy) := by
      rw [exec_registerWrite hporst, ha]
    refine ⟨fun off key hreach hlen hoff hkey hans hreg => ?_, fun off key hreach hlen hoff hkey hans hreg => ?_, fun off hreach => ?_,
      fun hfn hlink hready hdata => ?_, fun target hlink => ?_⟩
    · rw [hexec, hostWrite, if_pos hreach, writeBar0_whole hoff hkey hans hreg hlen]
    · rw [hexec, hostWrite, if_pos hreach, writeBar0_part hoff hkey hans hreg hlen]
    · rw [hexec, hostWrite, if_pos hreach]
    · subst hfn
      rw [hexec, hostWrite, if_pos (by simp [hlink, hready, hdata, State.fnExists])]
    · rw [hexec, hostWrite_linkDown hlink]
  · rw [plainWrite_eq hreg]
    refine ⟨fun hrun hlocked => ?_, fun hopen hbad => ?_, fun hopen hrange hbad => ?_⟩
    · rw [if_pos ⟨hrun, hlocked⟩]
    · rw [if_neg fun ⟨hrun, hlocked⟩ => by simp [hopen hrun] at hlocked, if_pos (by simpa using hbad)]
    · rw [if_neg fun ⟨hrun, hlocked⟩ => by simp [hopen hrun] at hlocked, if_neg (by simp [hrange, hbad])]

/-- Settles O18. -/
theorem namedRegisterAccess : Obligations.NamedRegisterAccess := by
  refine ⟨fun s a t p v hporst ha hans => ?_, fun s a t tn v kind i hporst ha hfn hans hkind hi hlt hpub hon => ?_,
    fun s a t tn v hporst ha hfn hans hpub => ?_, fun s a t tn hporst ha hfn hans => ?_⟩
  · have hexec (reg : CommReg) := exec_pierCommOffWrite hporst ha hans p reg v
    exact ⟨hexec .commOff, hexec .motor, hexec .cpr, hexec .fb⟩
  · have hkind' : bits v.toNat 0 2 = kind := (bits_zero v.toNat 2).trans hkind.symm
    have hsel : bits v.toNat 2 6 = i := hi.symm
    rw [exec_tnPubSelWrite hporst ha hfn hans]
    simp [pubSel, hkind', hsel, hlt, hpub, hon]
  · have hdenied : a.hasPub tn (bits v.toNat 0 2) (bits v.toNat 2 6) = false := by simpa [bits] using hpub
    rw [exec_tnPubSelWrite hporst ha hfn hans]
    simp [pubSel, hdenied]
  · subst ha
    show execTnPubDataRead t tn s = _
    refine act_next hporst ?_
    simp only [hfn, hans, Bool.and_self, if_true, readReg_port hans, setRead]
    rfl

end Sys2Proof.Settled
end

section
/-!
SUPPORT. Timing references (chapter 02).
-/
namespace Sys2Proof.Machine

/-- SYNC_IN meets a loss criterion while it qualifies: it is disqualified with its flag (R46). -/
theorem syncDrop_qualified {s : State} (hqual : s.refs.syncQual = true) :
    syncDrop s = (refFlag { s with refs := { s.refs with syncQual := false, syncRun := 0, syncPhi := none } } 1,
      s.refs.target == .syncIn) := by
  rw [syncDrop, if_pos hqual]
  rfl

/-- PTM meets a loss criterion while it qualifies (R46). -/
theorem ptmDrop_qualified {s : State} (hqual : s.refs.ptmQual = true) :
    ptmDrop s = (refFlag { s with refs := { s.refs with ptmQual := false, ptmRun := 0, ptmBad := false } } 2,
      s.refs.target == .ptm) := by
  rw [ptmDrop, if_pos hqual]
  rfl

/-- SYNC_IN_LOST of a reference that qualified: when it was the target another takes over, and the glide takes its step. -/
theorem exec_syncInLost {s : State} (hporst : s.power.porstHigh = true) (hqual : s.refs.syncQual = true) (hmiss : 4 ≤ s.refs.syncMiss) :
    exec .syncInLost s = .next (if (syncDrop s).2 = true then glideStep (targetLost (syncDrop s).1) else (syncDrop s).1) := by
  show execSyncInLost s = _
  exact act_next hporst (if_pos ⟨hqual, hmiss⟩)

theorem exec_ptmTimeout {s : State} (hporst : s.power.porstHigh = true) (hqual : s.refs.ptmQual = true)
    (hage : bits s.refs.ptmCfg.toNat 8 16 ≤ s.refs.ptmAge) :
    exec .ptmTimeout s = .next (if (ptmDrop s).2 = true then glideStep (targetLost (ptmDrop s).1) else (ptmDrop s).1) := by
  show execPtmTimeout s = _
  exact act_next hporst (if_pos ⟨hqual, hage⟩)

theorem exec_syncInEdge {s : State} (hporst : s.power.porstHigh = true) (t64 : Nat) (y : Int) :
    exec (.syncInEdge t64 y) s = .next (syncEdge (advance s (t64 / 64)) t64 y) := by
  show execSyncInEdge t64 y s = _
  exact act_next hporst rfl

section
variable {a : State} {t64 : Nat} {e near : Int} (he : e = (t64 : Int) - a.fld 0x204C 0 16)
  (hnear : near = (if 2 * (e - 64 * (a.tb.boundary : Int)) ≤ 64 * (a.tb.len : Int) then 64 * (a.tb.boundary : Int)
    else 64 * (a.tb.boundary : Int) + 64 * a.tb.len))

theorem syncEdge_off (y : Int) (hoff : a.refs.syncEn = false) : syncEdge a t64 y = a := by
  simp [syncEdge, hoff]

include he hnear

/-- An edge outside its window is dropped while the reference qualifies (R47). -/
theorem syncEdge_far (y : Int) (hon : a.refs.syncEn = true) (hfar : 64 * a.tb.len < 8 * (near - e).natAbs)
    (hqual : a.refs.syncQual = true) : syncEdge a t64 y = refFlag a 0x10 := by
  subst he hnear
  unfold syncEdge
  extract_lets r e b0 b1 near ok good
  have hok : ok = false := decide_eq_false (not_le.mpr hfar)
  rw [if_neg (by simp [r, hon]), if_pos (by simp [r, hok, hqual])]

/-- An edge in its window is kept with its phase for the coming boundary (R47, R65). -/
theorem syncEdge_near (y : Int) (hon : a.refs.syncEn = true) (hin : 8 * (near - e).natAbs ≤ 64 * a.tb.len) :
    syncEdge a t64 y = { a with refs := { a.refs with
      syncLast64 := some e
      syncIntervalOk := (a.refs.syncLast64.map fun l => decide ((e - l - 64 * a.tb.len).natAbs ≤ 4096)).getD false
      syncSeen := a.refs.syncLast64.isSome
      syncEdge := some (near - e)
      syncY := y } } := by
  subst he hnear
  unfold syncEdge
  extract_lets r e b0 b1 near ok good
  have hok : ok = true := decide_eq_true hin
  rw [if_neg (by simp [r, hon]), if_neg (by simp [hok]), if_pos hok]
  rfl

end

end Sys2Proof.Machine

namespace Sys2Proof.Settled
open Machine

/-- Settles O19. That an edge is kept for the next boundary is entry 24 of the log, that the flag of a far edge needs a reference that
qualifies, entry 25, and that each loss command takes the step of the glide, entry 27. -/
theorem references : Obligations.References := by
  refine ⟨fun s a t64 y e near hporst ha he hnear => ?_,
    ⟨fun s hporst hqual hmiss u hu => ⟨fun hother => ?_, fun htarget => ?_⟩,
      fun s hporst hqual hage u hu => ⟨fun hother => ?_, fun htarget => ?_⟩, fun s hporst htarget hleft => ?_, fun s b hb => ?_,
      fun s hporst hmis => ?_⟩,
    fun s b => rfl,
    ⟨fun s a t hporst ha hpast => ?_, fun s hporst hen hlink hdue => ?_, fun s a t hostNs residual y hporst ha hen hlink => ?_⟩⟩
  · rw [exec_syncInEdge hporst, ← ha]
    refine ⟨fun hoff => ?_, fun hon hfar hqual => ?_, fun hon hin => ?_⟩
    · rw [syncEdge_off y hoff]
    · rw [syncEdge_far he hnear y hon hfar hqual, refFlag]
    · rw [syncEdge_near he hnear y hon hin]
  · rw [exec_syncInLost hporst hqual hmiss, syncDrop_qualified hqual, ← hu, if_neg (by simpa using hother)]
  · rw [exec_syncInLost hporst hqual hmiss, syncDrop_qualified hqual, ← hu, if_pos (by simpa using htarget)]
  · rw [exec_ptmTimeout hporst hqual hage, ptmDrop_qualified hqual, ← hu, if_neg (by simpa using hother)]
  · rw [exec_ptmTimeout hporst hqual hage, ptmDrop_qualified hqual, ← hu, if_pos (by simpa using htarget)]
  · show execHoldoverExpiry s = _
    exact act_next hporst (if_pos ⟨htarget, hleft⟩)
  · subst hb
    rfl
  · show execSyncLenMismatch s = _
    exact act_next hporst (if_pos hmis)
  · subst ha
    show execSyncOutPulseEnd t s = _
    exact act_next hporst (if_pos hpast)
  · show execPtmRequest s = _
    exact act_next hporst (if_pos ⟨hen, hlink, hdue⟩)
  · subst ha
    show execPtmExchangeDone t hostNs residual y s = _
    exact act_next hporst (if_pos ⟨hen, hlink⟩)

end Sys2Proof.Settled
end

section
/-!
SUPPORT. The staging image and the commit of grants (chapter 03).
-/
namespace Sys2Proof.Machine

theorem mem_imageOffsets {off : Nat} : off ∈ imageOffsets ↔ off < 0x380 ∧ off % 4 = 0 := by
  simp only [imageOffsets, List.mem_map, List.mem_range]
  exact ⟨fun ⟨i, hi, he⟩ => by omega, fun ⟨hlt, h4⟩ => ⟨off / 4, by omega, by omega⟩⟩

/-- What GRANT_LOAD puts into a word of the staging image (R712). -/
def loadWord (s : State) (w off : Nat) : Nat := if bit w 8 then 0 else s.gw (w % 256) off

theorem loadWord_lt (s : State) (w off : Nat) : loadWord s w off < 2 ^ 32 := by
  unfold loadWord
  split_ifs
  · decide
  · exact BitVec.isLt _

/-- Words put into the staging image in turn: each holds what was put there, no other register changes, no grant changes. -/
theorem foldl_wr_staging (w : Nat) (l : List Nat) (s : State) (htab : Safety.Tables s) :
    (l.foldl (fun s off => s.wr (0x8000 + off) (loadWord s w off)) s).grants = s.grants ∧
      (∀ off ∈ l, (l.foldl (fun s off => s.wr (0x8000 + off) (loadWord s w off)) s).rd (0x8000 + off) = loadWord s w off) ∧
      ∀ k, (∀ off ∈ l, k ≠ 0x8000 + off) → (l.foldl (fun s off => s.wr (0x8000 + off) (loadWord s w off)) s).rd k = s.rd k := by
  induction l generalizing s with
  | nil => exact ⟨rfl, by simp, fun _ _ => rfl⟩
  | cons x l ih =>
    obtain ⟨hgrants, hin, hout⟩ := ih (s.wr (0x8000 + x) (loadWord s w x)) ((keeps_wr (Keeps.refl s) _ _).tables htab)
    refine ⟨hgrants, fun off hoff => ?_, fun k hk => ?_⟩
    · by_cases hmem : off ∈ l
      · exact hin off hmem
      · obtain rfl : off = x := by simpa [hmem] using hoff
        rw [List.foldl_cons, hout _ fun o ho he => hmem (by rwa [Nat.add_left_cancel he])]
        exact rd_wr_word htab _ (loadWord_lt s w off)
    · rw [List.foldl_cons, hout k fun o ho => hk o (List.mem_cons_of_mem x ho)]
      exact rd_wr_of_ne s _ (hk x List.mem_cons_self)

/-- R712: with no commit pending a load fills the staging image, and touches nothing else. -/
theorem grantLoad_idle {s : State} (htab : Safety.Tables s) (hidle : s.commit.due = none) (w : Nat) :
    (∀ off, off < 0x380 → off % 4 = 0 → (grantLoad s w).stg off = loadWord s w off) ∧
      (∀ k, k < 0x8000 ∨ 0x8380 ≤ k → (grantLoad s w).rd k = s.rd k) ∧ (grantLoad s w).grants = s.grants := by
  have hload : grantLoad s w = imageOffsets.foldl (fun s off => s.wr (0x8000 + off) (loadWord s w off)) s := by
    rw [grantLoad, hidle]
    rfl
  obtain ⟨hgrants, hin, hout⟩ := foldl_wr_staging w imageOffsets s htab
  rw [hload]
  refine ⟨fun off hlt h4 => hin off (mem_imageOffsets.mpr ⟨hlt, h4⟩), fun k hk => hout k fun off hoff => ?_, hgrants⟩
  have := (mem_imageOffsets.mp hoff).1
  omega

/-- R710: while a commit is pending what would touch the staging image or start another is refused. -/
theorem grantLoad_pending {s : State} (hdue : s.commit.due ≠ none) (w : Nat) : grantLoad s w = flag s kGlobal 2 := by
  rw [grantLoad, if_pos (Option.isSome_iff_ne_none.mpr hdue), stageBusy]

theorem grantCommit_pending {s : State} (hdue : s.commit.due ≠ none) (w : Nat) : grantCommit s w = flag s kGlobal 2 := by
  rw [grantCommit, if_pos (Option.isSome_iff_ne_none.mpr hdue), stageBusy]

/-- A committed image holds the staged words, and no other tenant's image changes (R76). -/
theorem applyGrant_gw {s : State} (htab : Safety.Tables s) (tn : Nat) :
    (∀ off, off < 0x380 → off % 4 = 0 → (applyGrant s tn).gw tn off = s.stg off) ∧
      ∀ tn' off, tn' ≠ tn → off < 0x400 → (applyGrant s tn).gw tn' off = s.gw tn' off := by
  obtain ⟨-, hin, hout⟩ := foldPut (fun off => 0x400 * tn + off) (fun off => BitVec.ofNat 32 (s.stg off)) imageOffsets
    (fun a b h => by simpa using h) s.grants htab.grants
  refine ⟨fun off hlt h4 => ?_, fun tn' off hne hlt => ?_⟩
  · rw [State.gw, applyGrant_grants, stagedGrants, hin off (mem_imageOffsets.mpr ⟨hlt, h4⟩), BitVec.toNat_ofNat]
    exact Nat.mod_eq_of_lt (rd_lt s _)
  · rw [State.gw, applyGrant_grants, stagedGrants, hout _ fun o ho => ?_, State.gw]
    have := (mem_imageOffsets.mp ho).1
    omega

/-- The commands of grants act on the state at their tick. -/
theorem exec_grantLoad {s : State} (hporst : s.power.porstHigh = true) (t : Nat) (tn : Fin 256) :
    exec (.grantLoad t tn) s = .next (grantLoad (advance s t) tn) ∧
      exec (.grantLoadClear t tn) s = .next (grantLoad (advance s t) (tn + 256)) :=
  ⟨show execGrantLoad t tn s = _ from act_next hporst rfl, show execGrantLoadClear t tn s = _ from act_next hporst rfl⟩

theorem exec_grantCommitCheck {s : State} (hporst : s.power.porstHigh = true) : exec .grantCommitCheck s = .next (grantCheck s) :=
  show execGrantCommitCheck s = _ from act_next hporst rfl

theorem exec_grantCommitWrite {s : State} (hporst : s.power.porstHigh = true) (t : Nat) (v : Word) :
    exec (.grantCommitWrite t v) s = .next (grantCommit (advance s t) v.toNat) :=
  show execGrantCommitWrite t v s = _ from act_next hporst rfl

theorem advance_grants (s : State) (t : Nat) : (advance s t).grants = s.grants := by unfold advance; split_ifs <;> rfl

end Sys2Proof.Machine

namespace Sys2Proof.Settled
open Machine

/-- Settles O20. That RESULT keeps its value while a commit is pending is entry 69 of the log. -/
theorem grants : Obligations.Grants := by
  refine ⟨⟨fun s a t v hporst ha => ?_, fun s a t tn htab hporst ha hidle => ?_⟩,
    ⟨fun s w hporst hdue hearly => ?_, fun s w r i hporst hdue hlate hverdict hr => ?_,
      fun s w i htab hporst hdue hlate hverdict htn => ?_, fun s tn hrun => ?_⟩⟩
  · rw [exec_grantCommitWrite hporst, ← ha]
    refine ⟨fun hidle => ?_, fun hdue => ?_, fun hdue tn => ?_⟩
    · rw [grantCommit, hidle]
      rfl
    · rw [grantCommit_pending hdue]
    · obtain ⟨hload, hclear⟩ := exec_grantLoad hporst t tn
      rw [hload, hclear, ← ha, grantLoad_pending hdue, grantLoad_pending hdue]
      exact ⟨rfl, rfl⟩
  · obtain ⟨hload, hclear⟩ := exec_grantLoad hporst t tn
    have hidle' := grantLoad_idle (ha ▸ tables_advance htab t) hidle
    have hgrants : a.grants = s.grants := ha ▸ advance_grants s t
    have hcopy (off : Nat) : loadWord a tn off = a.gw tn off := by
      have hbit : bit tn.val 8 = false := by
        have : tn.val / 2 ^ 8 = 0 := Nat.div_eq_of_lt tn.isLt
        rw [bit, this]
        rfl
      rw [loadWord, hbit, Nat.mod_eq_of_lt tn.isLt]
      rfl
    have hempty (off : Nat) : loadWord a (tn + 256) off = 0 := by
      have hbit : bit (tn.val + 256) 8 = true := by
        have : (tn.val + 256) / 2 ^ 8 = 1 := by omega
        rw [bit, this]
        rfl
      rw [loadWord, hbit, if_pos rfl]
    rw [hload, hclear, ← ha]
    obtain ⟨hstg, hrd, hg⟩ := hidle' tn
    obtain ⟨hstg', hrd', hg'⟩ := hidle' (tn + 256)
    exact ⟨⟨_, rfl, fun off hlt h4 => (hstg off hlt h4).trans (hcopy off), hrd, hg.trans hgrants⟩,
      ⟨_, rfl, fun off hlt h4 => (hstg' off hlt h4).trans (hempty off), hrd', hg'.trans hgrants⟩⟩
  · rw [exec_grantCommitCheck hporst, grantCheck_eq hdue, if_pos hearly]
  · rw [exec_grantCommitCheck hporst, grantCheck_eq hdue, if_neg (not_lt.mpr hlate), hverdict, if_neg hr, judgedCommit, hverdict]
  · have hcheck : grantCheck s = applyGrant (judgedCommit s) s.commit.tenant := by
      rw [grantCheck_eq hdue, if_neg (not_lt.mpr hlate), hverdict, if_pos rfl]
    obtain ⟨hmine, hothers⟩ := applyGrant_gw (s := judgedCommit s) { htab with } s.commit.tenant
    rw [exec_grantCommitCheck hporst, hcheck]
    exact ⟨_, rfl, hmine, fun tn off _ hne hlt => hothers tn off hne hlt⟩
  · rw [State.commitVerdict, if_pos hrun]

end Sys2Proof.Settled
end

section
/-!
SUPPORT. Tenants (chapters 03 and 18): attach and detach, heartbeats, orphans.
-/
namespace Sys2Proof.Machine

/-- A tenant just written reads back. -/
theorem tn_setTn_self {s : State} (htab : Safety.Tables s) (k : Nat) (x : Tenant) : (s.setTn k x).tn k = x :=
  storeGet_storePut_self _ htab.tns k x

/-- A ring reset uses no free value. -/
@[simp] theorem ringReset_freeCtr (s : State) (tn : Nat) : (ringReset s tn).freeCtr = s.freeCtr := by
  unfold ringReset
  generalize List.range 16 = l
  induction l generalizing s with
  | nil => rfl
  | cons n l ih => exact ih _

/-- R96: what attaching makes of a tenant whose next lease is `lease`. -/
def attachedTenant (x : Tenant) (lease : Nat) : Tenant :=
  { x with st := .attached, pathLost := false, lostDue := none, lease := lease, hbGap := 0, hbSeen := false, orphEnd := false, orphLeft := 0 }

theorem becomeAttached_tns (s : State) (tn : Nat) :
    (becomeAttached s tn).tns = ((ringReset s tn).setTn tn (attachedTenant ((ringReset s tn).tn tn) (Config.lease (ringReset s tn).freeCtr))).tns := by
  unfold becomeAttached
  generalize ringReset s tn = r
  rfl

theorem becomeAttached_tn {s : State} (htab : Safety.Tables s) (tn : Nat) :
    (becomeAttached s tn).tn tn = attachedTenant ((ringReset s tn).tn tn) (Config.lease s.freeCtr) := by
  have hreset : Safety.Tables (ringReset s tn) := (keeps_ringReset (Keeps.refl s) tn).tables htab
  have hread := tn_setTn_self hreset tn (attachedTenant ((ringReset s tn).tn tn) (Config.lease (ringReset s tn).freeCtr))
  rw [State.tn, ← becomeAttached_tns, ringReset_freeCtr] at hread
  exact hread

/-! ## Attach (R95 to R98, R667) -/

/-- An attach judged at its boundary. `u` is the state in which it waits no more. -/
theorem doAttachEval_due {s u : State} {tn w : Nat} (hat : (s.tn tn).attachAt = some w) (hdue : w + 64 ≤ s.tb.boundary)
    (hu : u = s.setTn tn { s.tn tn with attachAt := none }) :
    doAttachEval s tn =
      if (s.tn tn).st = .attached then u
      else if !s.canAttach tn then flagRaw u (tkey tn 8) 2
      else if (s.tn tn).st = .detached then becomeAttached u tn
      else if (s.tn tn).lease ≠ 0 ∧ s.leaseIn tn = (s.tn tn).lease then becomeAttached u tn
      else flagRaw (count u (tkey tn 0x44)) (tkey tn 8) 1 := by
  subst hu
  unfold doAttachEval
  dsimp only
  rw [hat]
  exact if_neg (not_lt.mpr hdue)

/-! ## Release (R101) -/

/-- The RELEASE bit set in a word whose other bits name no change: TENANT_CFG keeps its policy and mode. -/
theorem writeTenantCfg_release {a : State} {tn v : Nat} (hpol : v % 4 ≠ 3) (hbasic : v / 16 % 2 = 0) (hold : a.rd (ttKey tn 0) = v % 4) :
    writeTenantCfg a tn (v ||| 0x100) =
      if (a.tn tn).st = .orphan then startDetach ((a.wr (ttKey tn 0) (v % 4)).updTn tn fun x => { x with lease := 0 }) tn
      else flag a kGlobal 1 := by
  have hlow : bits (v ||| 0x100) 0 2 = v % 4 := by
    rw [bits_zero, Nat.or_mod_two_pow]
    exact Nat.or_zero _
  have hmode : bit (v ||| 0x100) 4 = false := by
    have hbit : v.testBit 4 = false := by rw [← bit_eq_testBit, bit, show v / 2 ^ 4 % 2 = 0 from hbasic]; rfl
    rw [bit_eq_testBit, Nat.testBit_or, hbit]
    rfl
  have hrelease : bit (v ||| 0x100) 8 = true := by
    rw [bit_eq_testBit, Nat.testBit_or, show (0x100 : Nat).testBit 8 = true from rfl, Bool.or_true]
  have hold0 : bits (a.rd (ttKey tn 0)) 0 2 = v % 4 := by rw [bits_zero, hold]; exact Nat.mod_mod _ _
  have hold4 : bit (a.rd (ttKey tn 0)) 4 = false := by
    have : v % 4 / 2 ^ 4 = 0 := by omega
    rw [hold, bit, this]
    rfl
  by_cases horphan : (a.tn tn).st = .orphan
  · rw [if_pos horphan]
    simp [writeTenantCfg, hlow, hmode, hrelease, hold0, hold4, hpol, horphan, b2n]
  · rw [if_neg horphan]
    simp [writeTenantCfg, hlow, hmode, hrelease, hold0, hold4, hpol, horphan]

/-! ## Orphans (R102, R108) -/

/-- A lost path at its boundary: the tenant becomes ORPHAN, and unless it is held its policy acts. -/
theorem doOrphan_due {s u : State} {tn due pol : Nat} (hst : (s.tn tn).st = .attached) (hlost : (s.tn tn).lostDue = some due)
    (hpol : pol = s.fld (ttKey tn 0) 0 2) (hu : u = count (s.setTn tn { s.tn tn with
      st := .orphan, lostDue := none, policy := pol, orphLimit := s.rd (ttKey tn 4), orphSpan := s.tb.spanIx,
      orphLeft := if pol = 0 then s.rd (ttKey tn 4) else 0, orphEnd := false }) (tkey tn 0x38)) :
    doOrphan s tn =
      if s.tb.spanIx < due then s
      else if (s.tn tn).held then u
      else if pol = 1 then rampStopTenant u tn
      else if pol = 2 then holdTenantAxes u tn
      else u := by
  subst hpol hu
  unfold doOrphan
  dsimp only
  rw [hst, hlost]

end Sys2Proof.Machine

namespace Sys2Proof.Settled
open Machine

/-- Settles O21. That a lease is a free value is `Config.lease` (entry 7 of the log); how the work of a tenant ends at its detach is
entry 71. -/
theorem attachment : Obligations.Attachment := by
  refine ⟨⟨fun s a t tn hporst ha hfn => ⟨fun hcan hidle => ?_, fun hcan => ?_⟩, fun s a t tn hporst ha hfn => ?_,
      fun s u w tn hporst hat hdue hu => ?_, fun s tn htab => ?_⟩,
    ⟨fun s a u t tn hporst ha hfn hu => ⟨fun hst => ?_, fun hst => ?_⟩,
      fun s a t tn hporst ha => ⟨fun hdet hstill => ?_, fun hdet => ?_⟩, fun s a t tn v hporst ha hpol hbasic hold => ?_,
      fun s a t tn hporst ha => ⟨fun hst => ?_, fun hst => ?_⟩⟩,
    ⟨fun s tn hporst => ⟨fun hst hlim hgap => ?_, fun hgap => ?_⟩, fun s u tn due pol hporst hst hlost hpol hu => ?_,
      fun s tn hporst hst hpol hlim hleft hend => ⟨fun hheld => ?_, fun hheld => ?_⟩⟩⟩
  · subst ha
    show execAttach t tn s = _
    exact act_next hporst (by rw [doAttach, hfn, hcan, State.updTn_eq, hidle]; rfl)
  · subst ha
    show execAttach t tn s = _
    exact act_next hporst (by rw [doAttach, hfn, hcan]; rfl)
  · subst ha
    show execAttach t tn s = _
    exact act_next hporst (by rw [doAttach, hfn]; rfl)
  · have hexec : exec (.attachEvaluation tn) s = .next (doAttachEval s tn) :=
      show execAttachEvaluation tn s = _ from act_next hporst rfl
    rw [hexec, doAttachEval_due hat hdue hu]
    refine ⟨fun hst hcan => ?_, fun hst hcan hlease hmatch => ?_, fun hst hcan hother => ?_, fun hst => ?_⟩
    · simp [hst, hcan]
    · simp [hst, hcan, hlease, hmatch]
    · simp [hst, hcan, hother]
    · simp [hst]
  · rw [becomeAttached_tn htab]
    exact ⟨rfl, rfl, (keeps_becomeAttached (Keeps.refl s) tn).grants⟩
  · subst hu ha
    show execDetach t tn s = _
    exact act_next hporst (if_pos ⟨hst, hfn⟩)
  · subst ha
    show execDetach t tn s = _
    exact act_next hporst (if_neg fun h => hst h.1)
  · subst ha
    show execDetachComplete t tn s = _
    have hall : (advance s t).axesStill tn = true := List.all_eq_true.mpr hstill
    exact act_next hporst (if_pos (by rw [hdet, hall]; rfl))
  · subst ha
    show execDetachComplete t tn s = _
    exact act_next hporst (if_neg (by simp [hdet]))
  · have hexec : exec (.release t tn v) s = .next (writeTenantCfg a tn (v.toNat ||| 0x100)) := by
      subst ha
      exact show execRelease t tn v s = _ from act_next hporst rfl
    rw [hexec, writeTenantCfg_release hpol hbasic hold]
    exact ⟨fun hst => by rw [if_pos hst], fun hst => by rw [if_neg hst]⟩
  · subst ha
    show execTnHeartbeat t tn s = _
    exact act_next hporst (if_pos hst)
  · subst ha
    show execTnHeartbeat t tn s = _
    exact act_next hporst (if_neg hst)
  · show execHeartbeatExpiry tn s = _
    exact act_next hporst (if_pos ⟨hst, hlim, hgap⟩)
  · show execHeartbeatExpiry tn s = _
    exact act_next hporst (if_neg fun h => absurd h.2.2 (not_le.mpr hgap))
  · have hexec : exec (.orphanEntry tn) s = .next (doOrphan s tn) := show execOrphanEntry tn s = _ from act_next hporst rfl
    rw [hexec, doOrphan_due hst hlost hpol hu]
    clear hpol hu
    refine ⟨fun hearly => ?_, fun hdue hheld hp => ?_, fun hdue hheld hp => ?_, fun hdue hheld hp => ?_, fun hdue hheld => ?_⟩
    · rw [if_pos hearly]
    all_goals simp [not_lt.mpr hdue, *]
  · show execOrphanLimitExpiry tn s = _
    exact act_next hporst (by simp [doOrphanLimit, hst, hpol, hlim, hleft, hend, hheld])
  · show execOrphanLimitExpiry tn s = _
    exact act_next hporst (by simp [doOrphanLimit, hst, hpol, hlim, hleft, hend, hheld])

end Sys2Proof.Settled
end

section
/-!
SUPPORT. The link and the functions (chapters 03, 04 and 18), and a STAGE that the link ends.
-/
namespace Sys2Proof.Machine

/-- Where no tenant is attached no host path is lost. -/
theorem hostLossOf_unattached (ns : List Nat) {s : State} (h : ∀ n, (s.tn n).st ≠ .attached) : hostLossOf s ns = s := by
  have hloss (n : Nat) : hostLoss s n (s.tb.spanIx + 1) = s := by simp [hostLoss, h n]
  unfold hostLossOf
  induction ns with
  | nil => rfl
  | cons n ns ih => rw [List.foldl_cons, hloss n, ih]

/-- A PTM reference that does not qualify is no target to lose. -/
theorem ptmLost_fw {s : State} (h : s.refs.ptmQual = false) : (ptmLost s).fw = s.fw := by simp [ptmLost, ptmDrop, h, setRefs]

@[simp] theorem flag_fw (s : State) (k mask : Nat) : (flag s k mask).fw = s.fw := (books_flag (Books.refl s) k mask).units.device.2.1

/-- R676: a STAGE that runs ends with the link. -/
theorem stageLost_busy {s : State} (h : s.fw.busy = some 1) : (stageLost s).fw.busy = none := by
  rw [stageLost, if_pos h, stageEnd, fwuEnd, fwuFlag, flag_fw]
  rfl

/-- After reset, with a STAGE under way. -/
def stagingState : State := { State.reset with fw := { Firmware.reset with busy := some 1 } }

end Sys2Proof.Machine

namespace Sys2Proof.Settled
open Machine

/-- Refutes O22: the clause about LINK_DOWN leaves out that a link that goes down ends a STAGE of the mailbox (R676). In `stagingState`
the command leaves no mailbox command running, and what the clause says it leaves still runs one. -/
theorem not_linkAndFunctions : ¬ Obligations.LinkAndFunctions := by
  intro h
  obtain ⟨hlinkDown, -⟩ := h.1 stagingState (advance stagingState 0) 0 rfl rfl
  have hexec : exec (.linkDown 0) stagingState = .next (stageLost (doLinkDown (advance stagingState 0))) :=
    show execLinkDown 0 stagingState = _ from act_next rfl rfl
  rw [hexec, advance_zero] at hlinkDown
  have hbusy : (doLinkDown stagingState).fw.busy = some 1 := by
    rw [doLinkDown, hostLossOf_unattached _ fun n => TnState.noConfusion, ptmLost_fw rfl]
    rfl
  have hstate : stageLost (doLinkDown stagingState) = doLinkDown stagingState := Host.Outcome.next.inj hlinkDown
  have hended := stageLost_busy hbusy
  rw [hstate, hbusy] at hended
  exact absurd hended (by decide)

end Sys2Proof.Settled
end

section
/-!
SUPPORT. Opcode commands as steps, and the opcodes of a tenant (chapter 03, R84, R85, R112 to R114).
-/
namespace Sys2Proof.Machine

/-- An opcode command whose checks pass has its effect. -/
theorem act_runOp_pass {s a : State} {t op : Nat} {d : Desc} {j : Job} {check : State → Desc → Verdict} {eff : State → Job → State}
    (hporst : s.power.porstHigh = true) (htaken : Safety.taken s t op d = (a, j)) (hcheck : check a j.d = none) :
    act s (fun s => runOp s t op d check eff) = .next (planNow (eff a j) j) :=
  act_next hporst (runOp_pass eff htaken hcheck)

/-- An opcode command that a check refuses completes with the check's status. -/
theorem act_runOp_stop {s a : State} {t op : Nat} {d : Desc} {j : Job} {check : State → Desc → Verdict} {eff : State → Job → State}
    {st res : Nat} (hporst : s.power.porstHigh = true) (htaken : Safety.taken s t op d = (a, j)) (hcheck : check a j.d = some (st, res)) :
    act s (fun s => runOp s t op d check eff) = .next (complete a j st res) :=
  act_next hporst (runOp_stop eff htaken hcheck)

@[simp] theorem keep_tn (s : State) (j : Job) (k : Nat) : (keep s j).tn k = s.tn k := by
  rw [State.tn, (sameUnits_keep s j).tns]
  rfl

@[simp] theorem keep_tb (s : State) (j : Job) : (keep s j).tb = s.tb := by
  unfold keep
  split <;> rfl

/-- The format check of an opcode without parameters. -/
theorem plainCheck_ok {a : State} {d : Desc} (h : badFormat d 0 false = false) : plainCheck a d = none := by
  rw [plainCheck, h]
  rfl

theorem plainCheck_bad {a : State} {d : Desc} (hporst : a.power.porstHigh = true) (h : badFormat d 0 false = true) :
    plainCheck a d = some (0x14, 0) := by
  rw [plainCheck, h, hporst]
  rfl

/-- R112: a hold admitted where none waits takes effect after the present span. -/
theorem admitHold_first {s : State} {tn : Nat} (h : (s.tn tn).holdPend = none) :
    admitHold s tn false = s.updTn tn fun x => { x with holdPend := some (false, s.tb.spanIx) } := by
  rw [admitHold, State.updTn_eq, State.updTn_eq, h]
  rfl

/-- R112: TENANT_HOLD completes once every axis stands. -/
theorem doHoldDone_still {s : State} {tn : Nat} {j : Job} (hheld : (s.tn tn).held = true) (hstill : ∀ x ∈ s.axesOf tn, s.axisStill x = true)
    (hjobs : s.jobs = [j]) (hop : j.d.op = 0x02#8) (htn : j.d.tenant.val = tn) (hact : j.phase = .active) :
    doHoldDone s tn = complete s j 0 0 := by
  have hall : s.axesStill tn = true := List.all_eq_true.mpr hstill
  have hfilter : (s.jobs.filter fun j => j.d.op == 0x02#8 && j.d.tenant.val == tn && j.phase == .active) = [j] := by
    rw [hjobs, List.filter_cons_of_pos (by simp [hop, htn, hact])]
    rfl
  rw [doHoldDone, hheld, hall, hfilter]
  rfl

/-- A tenant with no TENANT_HOLD under way has none to complete. -/
theorem doHoldDone_none {s : State} {tn : Nat} (h : ∀ j ∈ s.jobs, j.d.op ≠ 0x02#8 ∨ j.d.tenant.val ≠ tn ∨ j.phase ≠ .active) :
    doHoldDone s tn = s := by
  have hfilter : (s.jobs.filter fun j => j.d.op == 0x02#8 && j.d.tenant.val == tn && j.phase == .active) = [] := by
    refine List.filter_eq_nil_iff.mpr fun j hj => ?_
    rcases h j hj with hop | htn | hact
    · simp [hop]
    · simp [htn]
    · simp [hact]
  rw [doHoldDone, hfilter]
  split <;> rfl

end Sys2Proof.Machine

namespace Sys2Proof.Settled
open Machine

/-- Settles O23. PUBLISH that turns publication off and HOLD_OTHER of another tenant than 0 have no clause. -/
theorem tenantOpcodes : Obligations.TenantOpcodes := by
  refine ⟨fun s a t d j hporst => ⟨fun htaken hfmt => ?_, fun htaken hfmt hhigh => ?_, fun htaken hfmt hatt => ?_,
      fun htaken hfmt hpend => ?_, fun htaken hfmt hfree => ?_, fun htaken hfmt htn hheld => ?_, fun htaken hfmt hex hown hon => ?_,
      fun htaken hfmt hex hown => ?_, fun htaken hfmt hexp hpub => ?_, fun htaken hfmt hexp hpub => ?_⟩,
    fun s a t d j hporst hfmt htn => ⟨fun htaken => ?_, fun htaken => ?_⟩,
    fun s tn b ix hporst hpend => ⟨fun hearly => ?_, fun hlate => ?_⟩, fun s tn hporst hheld hnone => ?_,
    fun s tn j hporst hheld hstill hjobs hop htn hact => ?_⟩
  · show execNop t d s = _
    exact act_runOp_pass hporst htaken (plainCheck_ok hfmt)
  · show execNop t d s = _
    exact act_runOp_stop hporst htaken (plainCheck_bad hhigh hfmt)
  · have hfeed : feedHeartbeat a j.d.tenant = a.setTn j.d.tenant { a.tn j.d.tenant with hbSeen := true } := if_pos hatt
    rw [← hfeed]
    show execHeartbeat t d s = _
    exact act_runOp_pass hporst htaken (plainCheck_ok hfmt)
  · have hhold : tenantHoldStart a j = (keep a { j with phase := .active }).updTn j.d.tenant
        fun x => { x with holdPend := some (false, a.tb.spanIx) } := by
      rw [tenantHoldStart, admitHold_first (by rw [keep_tn, hpend]), keep_tb]
    rw [← hhold]
    show execTenantHold t d s = _
    exact act_runOp_pass hporst htaken (plainCheck_ok hfmt)
  · show execTenantRelease t d s = _
    exact act_runOp_pass hporst htaken (by rcases hfree with h | h <;> simp [tenantReleaseCheck, firstFail, hfmt, h])
  · have htn' : j.d.tenant.val ≠ 0 := fun h => htn (Fin.ext h)
    show execTenantRelease t d s = _
    exact act_runOp_stop hporst htaken (by simp [tenantReleaseCheck, firstFail, hfmt, htn', hheld])
  · have hpublish : doPublish a j.d = { a with pubOn := storePut (fun _ => false) a.pubOn (64 * j.d.p 0 1 + j.d.p 1 1) true } := by
      rw [doPublish, hon]
      rfl
    rw [← hpublish]
    show execPublish t d s = _
    exact act_runOp_pass hporst htaken (by simp [publishCheck, firstFail, hfmt, hex, hown])
  · show execPublish t d s = _
    exact act_runOp_stop hporst htaken (by simp [publishCheck, firstFail, hfmt, hex, hown])
  · show execLoadAll t d s = _
    exact act_runOp_pass hporst htaken (by simp [loadAllCheck, firstFail, hfmt, hexp, hpub])
  · show execLoadAll t d s = _
    exact act_runOp_stop hporst htaken (by simp [loadAllCheck, firstFail, hfmt, hexp, hpub])
  · show execHoldOtherHold t d s = _
    exact act_runOp_pass hporst htaken (by simp [holdOtherCheck, firstFail, hfmt, htn])
  · show execHoldOtherRelease t d s = _
    exact act_runOp_pass hporst htaken (by simp [holdOtherCheck, firstFail, hfmt, htn])
  · show execHoldTakesEffect tn s = _
    exact act_next hporst (by rw [doHoldEffect, hpend]; exact if_pos hearly)
  · show execHoldTakesEffect tn s = _
    exact act_next hporst (by rw [doHoldEffect, hpend]; exact if_neg (not_le.mpr hlate))
  · show execTenantHoldDone tn s = _
    exact act_next hporst (doHoldDone_none fun j hj => (hnone j hj).imp_right (Or.imp_left fun h h' => h (Fin.ext h')))
  · show execTenantHoldDone tn s = _
    exact act_next hporst (doHoldDone_still hheld hstill hjobs hop (congrArg Fin.val htn) hact)

end Sys2Proof.Settled
end

section
/-!
SUPPORT. Doorbells and ring registers (chapter 04, R118 to R130, R162).
-/
namespace Sys2Proof.Machine

/-- A doorbell write that a function answers, of a legal width and place. -/
theorem doorbell_eq {a : State} {tn off width v : Nat} (hfn : a.fnExists tn = true) (hans : a.answers = true) :
    doorbell a tn off width v =
      if (width != 32 && width != 64) || off % (width / 8) != 0 then dbIgnored a tn
      else if off < 0x80 ∧ off % 8 = 0 then sqTail a tn (off / 8) (v % 2 ^ 16)
      else if 0x100 ≤ off ∧ off < 0x180 ∧ off % 8 = 0 then cqHead a tn (off / 8 - 32) (v % 2 ^ 16)
      else if off = 0x200 then loadAllBell a tn
      else dbIgnored a tn := by
  rw [doorbell, hfn, hans]
  rfl

/-- The tail doorbell of a ring stands 8 bytes behind the one before it. -/
theorem doorbell_sqTail {a : State} {tn n v : Nat} (hfn : a.fnExists tn = true) (hans : a.answers = true) (hn : n < 16) (hv : v < 2 ^ 16) :
    doorbell a tn (8 * n) 32 v = sqTail a tn n v := by
  have halign : ¬ ((32 != 32 && 32 != 64) || 8 * n % (32 / 8) != 0) = true := by simp; omega
  rw [doorbell_eq hfn hans, if_neg halign, if_pos ⟨by omega, by omega⟩, Nat.mul_div_cancel_left n (by decide), Nat.mod_eq_of_lt hv]

/-- The head doorbells follow from 0x100 on. -/
theorem doorbell_cqHead {a : State} {tn n v : Nat} (hfn : a.fnExists tn = true) (hans : a.answers = true) (hn : n < 16) (hv : v < 2 ^ 16) :
    doorbell a tn (0x100 + 8 * n) 32 v = cqHead a tn n v := by
  have halign : ¬ ((32 != 32 && 32 != 64) || (0x100 + 8 * n) % (32 / 8) != 0) = true := by simp; omega
  have hslot : (0x100 + 8 * n) / 8 - 32 = n := by omega
  rw [doorbell_eq hfn hans, if_neg halign, if_neg (by omega), if_pos ⟨by omega, by omega, by omega⟩, hslot, Nat.mod_eq_of_lt hv]

/-- The load-all doorbell stands at 0x200. -/
theorem doorbell_loadAll {a : State} {tn : Nat} (hfn : a.fnExists tn = true) (hans : a.answers = true) :
    doorbell a tn (0x200 + 0) 32 0 = loadAllBell a tn := by
  rw [doorbell_eq hfn hans]
  rfl

/-- R127: a write of another width than 32 or 64 bits rings nothing. -/
theorem doorbell_width {a : State} {tn off width v : Nat} (hfn : a.fnExists tn = true) (hans : a.answers = true) (h32 : width ≠ 32)
    (h64 : width ≠ 64) : doorbell a tn off width v = dbIgnored a tn := by
  rw [doorbell_eq hfn hans, if_pos (by simp [h32, h64])]

/-- R129: a ring that does not listen ignores its doorbells. -/
theorem sqTail_ignored {a : State} {tn n v : Nat} (h : (a.tn tn).st ≠ .attached ∨ a.sqOn tn n = false) : sqTail a tn n v = dbIgnored a tn :=
  if_pos (by rcases h with h | h <;> simp [h])

theorem cqHead_ignored {a : State} {tn n v : Nat} (h : (a.tn tn).st ≠ .attached ∨ a.cqOn tn n = false) : cqHead a tn n v = dbIgnored a tn :=
  if_pos (by rcases h with h | h <;> simp [h])

/-- R130: the tail of a ring that listens is taken where it lies in the ring and does not pass the head. -/
theorem sqTail_eq {a : State} {tn n v : Nat} (hst : (a.tn tn).st = .attached) (hon : a.sqOn tn n = true) :
    sqTail a tn n v =
      if v < a.sqSize tn n ∧ (v + a.sqSize tn n - (a.sq (16 * tn + n)).tail) % a.sqSize tn n ≤
          ((a.sq (16 * tn + n)).head + a.sqSize tn n - 1 - (a.sq (16 * tn + n)).tail + a.sqSize tn n) % a.sqSize tn n
      then a.setSq (16 * tn + n) { a.sq (16 * tn + n) with tail := v }
      else sqErr (a.setSq (16 * tn + n) { a.sq (16 * tn + n) with stopped := true }) tn n 4 := by
  rw [sqTail, hst, hon]
  rfl

/-- R162: the head likewise, up to the tail. -/
theorem cqHead_eq {a : State} {tn n v : Nat} (hst : (a.tn tn).st = .attached) (hon : a.cqOn tn n = true) :
    cqHead a tn n v =
      if v < a.cqSize tn n ∧ (v + a.cqSize tn n - (a.cq (16 * tn + n)).head) % a.cqSize tn n ≤
          ((a.cq (16 * tn + n)).tail + a.cqSize tn n - (a.cq (16 * tn + n)).head) % a.cqSize tn n
      then a.setCq (16 * tn + n) { a.cq (16 * tn + n) with head := v } else cqErr a tn n 7 := by
  rw [cqHead, hst, hon]
  rfl

theorem loadAllBell_eq {a : State} {tn : Nat} (hst : (a.tn tn).st = .attached) :
    loadAllBell a tn = if (a.tn tn).pubExpert then takeLoadAll a tn else count a (tkey tn 0x50) := by
  rw [loadAllBell, hst]
  rfl

/-! ## The configuration word of a ring -/

/-- The stored bits of a ring's configuration word: the low 3, SIZE and the last field, of `m` bits. -/
def ringWord (w m : Nat) : Nat := w % 8 + 16 * bits w 4 5 + 2 ^ 16 * bits w 16 m

theorem bits_lt (w lo n : Nat) : bits w lo n < 2 ^ n := Nat.mod_lt _ (Nat.two_pow_pos n)

theorem ringWord_size (w m : Nat) : bits (ringWord w m) 4 5 = bits w 4 5 := by
  have hsize : bits w 4 5 < 32 := bits_lt w 4 5
  show (w % 8 + 16 * bits w 4 5 + 65536 * bits w 16 m) / 16 % 32 = bits w 4 5
  omega

theorem ringWord_last (w m : Nat) : bits (ringWord w m) 16 m = bits w 16 m := by
  have hsize : bits w 4 5 < 32 := bits_lt w 4 5
  have hdiv : ringWord w m / 2 ^ 16 = bits w 16 m := by
    show (w % 8 + 16 * bits w 4 5 + 65536 * bits w 16 m) / 65536 = bits w 16 m
    omega
  rw [bits, hdiv]
  exact Nat.mod_eq_of_lt (bits_lt w 16 m)

/-- The low three bits are kept. -/
theorem ringWord_low (w m : Nat) : ringWord w m % 8 = w % 8 := by
  show (w % 8 + 16 * bits w 4 5 + 65536 * bits w 16 m) % 8 = w % 8
  omega

theorem ringWord_enable (w m : Nat) : bit (ringWord w m) 0 = bit w 0 := by
  have h := ringWord_low w m
  rw [bit_eq_testBit, bit_eq_testBit, Nat.testBit_zero, Nat.testBit_zero, show ringWord w m % 2 = w % 2 by omega]

theorem ringWord_one (w m : Nat) : bits (ringWord w m) 1 1 = bits w 1 1 := by
  have h := ringWord_low w m
  show ringWord w m / 2 % 2 = w / 2 % 2
  omega

theorem ringWord_signal (w m : Nat) : bit (ringWord w m) 2 = bit w 2 := by
  have h := ringWord_low w m
  have heq : ringWord w m / 4 % 2 = w / 4 % 2 := by omega
  exact congrArg (· == 1) heq

/-- A word with its bit 0 set, and one with it cleared. -/
theorem bit_or_one (v : Nat) : bit (v ||| 1) 0 = true := by
  rw [bit_eq_testBit, Nat.testBit_or]
  exact Bool.or_true _

theorem bit_even (v : Nat) : bit (v / 2 * 2) 0 = false := by
  rw [bit_eq_testBit, Nat.testBit_zero, Nat.mul_mod_left]
  rfl

/-! ## SQ_CFG and CQ_CFG (R119 to R124) -/

section
variable {a : State} {tn n w : Nat}

/-- R121, R123: the enable of a ring that is off. -/
theorem writeSqCfg_enable (hw : bit w 0 = true) (hoff : a.sqOn tn n = false) :
    writeSqCfg a tn n w =
      if bits w 4 5 < 6 ∨ 16 < bits w 4 5 then sqErr a tn n 1
      else if !a.cqOn tn (bits w 16 4) then sqErr a tn n 2
      else ((if bits w 4 5 = a.fld (sqKey tn n 8) 4 5 then a else sqMoved a (16 * tn + n)).wr (sqKey tn n 8) (ringWord w 4)).updSq (16 * tn + n)
        fun q => { q with stopped := false } := by
  have hold : bit (a.rd (sqKey tn n 8)) 0 = false := hoff
  unfold writeSqCfg
  extract_lets key k old w' held s₁
  have hw' : w' = ringWord w 4 := rfl
  have hs₁ : s₁ = if bits w 4 5 = a.fld (sqKey tn n 8) 4 5 then a else sqMoved a (16 * tn + n) := by
    rw [← ringWord_size w 4]
    rfl
  rw [hs₁, hw', ringWord_size, ringWord_last, ringWord_enable, show bit old 0 = false from hold, hw]
  simp only [Bool.false_and, Bool.true_and, Bool.not_false, if_true, Bool.false_eq_true, if_false, key, k]

/-- R119: no other field of an enabled ring changes. -/
theorem writeSqCfg_moved (hon : a.sqOn tn n = true) (hsize : bits w 4 5 ≠ a.fld (sqKey tn n 8) 4 5) :
    writeSqCfg a tn n w = sqErr a tn n 3 := by
  have hold : bit (a.rd (sqKey tn n 8)) 0 = true := hon
  unfold writeSqCfg
  extract_lets key k old w' held
  have hheld : held = false := by
    have hw' : bits w' 4 5 = bits w 4 5 := ringWord_size w 4
    have hne : bits w' 4 5 ≠ bits old 4 5 := hw' ▸ hsize
    simp [held, hne]
  exact if_pos (by rw [hheld, show bit old 0 = true from hold]; rfl)

/-- R119: a disable that changes nothing else stores the word. -/
theorem writeSqCfg_disable (hw : bit w 0 = false) (hone : bits w 1 1 = a.fld (sqKey tn n 8) 1 1)
    (hsize : bits w 4 5 = a.fld (sqKey tn n 8) 4 5) (hcq : bits w 16 4 = a.fld (sqKey tn n 8) 16 4) :
    writeSqCfg a tn n w = a.wr (sqKey tn n 8) (ringWord w 4) := by
  unfold writeSqCfg
  extract_lets key k old w' held s₁
  have hone' : bits w' 1 1 = bits old 1 1 := (ringWord_one w 4).trans hone
  have hsize' : bits w' 4 5 = bits old 4 5 := (ringWord_size w 4).trans hsize
  have hcq' : bits w' 16 4 = bits old 16 4 := (ringWord_last w 4).trans hcq
  have hheld : held = true := by simp [held, hone', hsize', hcq']
  have hw' : bit w' 0 = false := (ringWord_enable w 4).trans hw
  have hs₁ : s₁ = a := if_pos hsize'
  rw [hheld, hw', hs₁]
  simp [w', key, ringWord]

/-- R122, R158: an enable of a CQ that is off. -/
theorem writeCqCfg_enable (hw : bit w 0 = true) (hoff : a.cqOn tn n = false) (hlow : 6 ≤ bits w 4 5) (hhigh : bits w 4 5 ≤ 16)
    (hvec : bits w 16 7 < msixSize tn) (hsignal : bit w 2 = false) :
    writeCqCfg a tn n w = (cqMoved a (16 * tn + n)).wr (cqKey tn n 8) (ringWord w 7) := by
  unfold writeCqCfg
  extract_lets key k old w' held badSize used s₁ s₂ s₃
  have hold : bit old 0 = false := hoff
  have hw' : bit w' 0 = true := (ringWord_enable w 7).trans hw
  have hsize : bits w' 4 5 = bits w 4 5 := ringWord_size w 7
  have hlast : bits w' 16 7 = bits w 16 7 := ringWord_last w 7
  have hsig : bit w' 2 = false := (ringWord_signal w 7).trans hsignal
  have hbad : badSize = false := by simp [badSize, hsize, hlow, hhigh]
  have hs₁ : s₁ = cqMoved a k := if_pos (by simp [hw', hold])
  have hs₂ : s₂ = s₁ := if_neg (by simp [hsig])
  have hs₃ : s₃ = s₂ := if_neg (by simp [hold])
  rw [hs₃, hs₂, hs₁, if_neg (by simp [hold]), if_neg (by simp [hbad]), if_neg (by rw [hlast]; exact not_le.mpr hvec),
    if_neg (by simp [hold])]
  rfl

/-- R122: the size of a CQ lies in 6 to 16. -/
theorem writeCqCfg_size (hw : bit w 0 = true) (hoff : a.cqOn tn n = false) (hsize : bits w 4 5 < 6 ∨ 16 < bits w 4 5) :
    writeCqCfg a tn n w = cqErr a tn n 1 := by
  unfold writeCqCfg
  extract_lets key k old w' held badSize used s₁ s₂ s₃
  have hold : bit old 0 = false := hoff
  have hw' : bit w' 0 = true := (ringWord_enable w 7).trans hw
  have hsize' : bits w' 4 5 = bits w 4 5 := ringWord_size w 7
  have hbad : badSize = true := by simpa [badSize, hsize'] using hsize
  rw [if_neg (by simp [hold]), if_pos (by simp [hw', hold, hbad])]

/-- R124: a CQ that an enabled SQ names stays. -/
theorem writeCqCfg_used (hw : bit w 0 = false) (hon : a.cqOn tn n = true) (hone : bits w 1 1 = a.fld (cqKey tn n 8) 1 1)
    (hsize : bits w 4 5 = a.fld (cqKey tn n 8) 4 5) (hvec : bits w 16 7 < msixSize tn)
    (hused : ∃ i, i < 16 ∧ a.sqOn tn i = true ∧ a.boundCq tn i = n) : writeCqCfg a tn n w = cqErr a tn n 8 := by
  unfold writeCqCfg
  extract_lets key k old w' held badSize used s₁ s₂ s₃
  have hold : bit old 0 = true := hon
  have hw' : bit w' 0 = false := (ringWord_enable w 7).trans hw
  have hlast : bits w' 16 7 = bits w 16 7 := ringWord_last w 7
  have hone' : bits w' 1 1 = bits old 1 1 := (ringWord_one w 7).trans hone
  have hsize' : bits w' 4 5 = bits old 4 5 := (ringWord_size w 7).trans hsize
  have hheld : held = true := by simp [held, hone', hsize']
  obtain ⟨i, hi, hsq, hcq⟩ := hused
  have hany : used = true := List.any_eq_true.mpr ⟨i, List.mem_range.mpr hi, by simp [hsq, hcq]⟩
  rw [if_neg (by simp [hheld]), if_neg (by simp [hw']), if_neg (by rw [hlast]; exact not_le.mpr hvec), if_pos (by simp [hold, hw', hany])]

/-- R124: a disable marks the work that owes the CQ a completion. -/
theorem writeCqCfg_disable (hw : bit w 0 = false) (hon : a.cqOn tn n = true) (hone : bits w 1 1 = a.fld (cqKey tn n 8) 1 1)
    (hsize : bits w 4 5 = a.fld (cqKey tn n 8) 4 5) (hvec : bits w 16 7 < msixSize tn)
    (hfree : ∀ i, i < 16 → a.sqOn tn i = true → a.boundCq tn i ≠ n) (hsignal : bit w 2 = false) :
    writeCqCfg a tn n w = ({ a with
      jobs := mapIf (fun j : Job => j.kind == JobKind.desc && j.d.tenant.val == tn && j.cq == n) (fun j => { j with lost := true }) a.jobs } :
        State).wr (cqKey tn n 8) (ringWord w 7) := by
  unfold writeCqCfg
  extract_lets key k old w' held badSize used s₁ s₂ s₃
  have hold : bit old 0 = true := hon
  have hw' : bit w' 0 = false := (ringWord_enable w 7).trans hw
  have hlast : bits w' 16 7 = bits w 16 7 := ringWord_last w 7
  have hone' : bits w' 1 1 = bits old 1 1 := (ringWord_one w 7).trans hone
  have hsize' : bits w' 4 5 = bits old 4 5 := (ringWord_size w 7).trans hsize
  have hsig : bit w' 2 = false := (ringWord_signal w 7).trans hsignal
  have hheld : held = true := by simp [held, hone', hsize']
  have hany : used = false := List.any_eq_false.mpr fun i hi => by
    simpa using hfree i (List.mem_range.mp hi)
  have hs₁ : s₁ = a := if_neg (by simp [hw', hsize'])
  have hs₂ : s₂ = s₁ := if_neg (by simp [hsig])
  have hs₃ : s₃ = { s₂ with
      jobs := mapIf (fun j => j.kind == .desc && j.d.tenant.val == tn && j.cq == n) (fun j => { j with lost := true }) s₂.jobs } :=
    if_pos (by simp [hold, hw'])
  rw [hs₃, hs₂, hs₁, if_neg (by simp [hheld]), if_neg (by simp [hw']), if_neg (by rw [hlast]; exact not_le.mpr hvec),
    if_neg (by simp [hany])]
  rfl

end

end Sys2Proof.Machine

namespace Sys2Proof.Settled
open Machine

/-- Settles O24. What counts in which counter of the tenant, and the width in bits, are entry 52 of the log. -/
theorem doorbells : Obligations.Doorbells := by
  refine ⟨fun s a t tn n v hporst ha hfn hans hv => ?_, fun s a t tn hporst ha hfn hans => ?_⟩
  · have hsq : exec (.sqTailDoorbell t tn (8 * n) 32 v) s = .next (sqTail a tn n v) := by
      rw [← doorbell_sqTail hfn hans n.isLt hv, ha]
      exact show execSqTailDoorbell t tn (8 * n) 32 v s = _ from act_next hporst rfl
    have hcq : exec (.cqHeadDoorbell t tn (0x100 + 8 * n) 32 v) s = .next (cqHead a tn n v) := by
      rw [← doorbell_cqHead hfn hans n.isLt hv, ha]
      exact show execCqHeadDoorbell t tn (0x100 + 8 * n) 32 v s = _ from act_next hporst rfl
    rw [hsq, hcq]
    refine ⟨fun hst hon hin hroom => ?_, fun hst hon hout => ?_, fun hoff => congrArg _ (sqTail_ignored hoff), fun hst hon hin hroom => ?_,
      fun hst hon hout => ?_, fun hoff => congrArg _ (cqHead_ignored hoff)⟩
    · rw [sqTail_eq hst hon, if_pos ⟨hin, hroom⟩]
    · rw [sqTail_eq hst hon, if_neg fun h => absurd h.1 (not_lt.mpr hout)]
    · rw [cqHead_eq hst hon, if_pos ⟨hin, hroom⟩]
    · rw [cqHead_eq hst hon, if_neg fun h => absurd h.1 (not_lt.mpr hout)]
  · have hexec (width align : Nat) : exec (.loadAllDoorbell t tn width align) s = .next (doorbell a tn (0x200 + align) width 0) := by
      rw [ha]
      exact show execLoadAllDoorbell t tn width align s = _ from act_next hporst rfl
    rw [hexec 32 0, doorbell_loadAll hfn hans]
    refine ⟨fun hst hpub => ?_, fun hst hpub => ?_, fun hst => ?_, fun width align h32 h64 => ?_⟩
    · rw [loadAllBell_eq hst, if_pos hpub]
    · rw [loadAllBell_eq hst, hpub]
      rfl
    · exact congrArg _ (if_pos (by simp [hst]))
    · rw [hexec, doorbell_width hfn hans h32 h64]
      rfl

/-- Settles O25. What enabling a CQ sets is entry 44 of the log, the corners of SQ enabling are entry 45. -/
theorem ringEnables : Obligations.RingEnables := by
  refine ⟨fun s a t w tn n v hporst ha => ?_, fun s a t w tn n v hporst ha => ?_⟩
  · have hon : exec (.sqEnable t tn n v) s = .next (writeSqCfg a tn n (v.toNat ||| 1)) := by
      rw [ha]
      exact show execSqEnable t tn n v s = _ from act_next hporst rfl
    have hdis : exec (.sqDisable t tn n v) s = .next (writeSqCfg a tn n (v.toNat / 2 * 2)) := by
      rw [ha]
      exact show execSqDisable t tn n v s = _ from act_next hporst rfl
    rw [hon, hdis]
    refine ⟨fun hw hoff hlow hhigh hcq hsize => ?_, fun hw hoff hsize => ?_, fun hw hoff hlow hhigh hcq => ?_,
      fun hw hon hone hsize hcq => ?_, fun hw hon hsize => ?_⟩
    · subst hw
      rw [writeSqCfg_enable (bit_or_one _) hoff, if_neg (by omega), if_neg (by simp [hcq]), if_pos hsize]
      rfl
    · subst hw
      rw [writeSqCfg_enable (bit_or_one _) hoff, if_pos hsize]
    · subst hw
      rw [writeSqCfg_enable (bit_or_one _) hoff, if_neg (by omega), if_pos (by simp [hcq])]
    · subst hw
      rw [writeSqCfg_disable (bit_even _) hone hsize hcq]
      rfl
    · subst hw
      rw [writeSqCfg_moved hon hsize]
  · have hon : exec (.cqEnable t tn n v) s = .next (writeCqCfg a tn n (v.toNat ||| 1)) := by
      rw [ha]
      exact show execCqEnable t tn n v s = _ from act_next hporst rfl
    have hdis : exec (.cqDisable t tn n v) s = .next (writeCqCfg a tn n (v.toNat / 2 * 2)) := by
      rw [ha]
      exact show execCqDisable t tn n v s = _ from act_next hporst rfl
    rw [hon, hdis]
    refine ⟨fun hw hoff hlow hhigh hvec hsignal => ?_, fun hw hoff hsize => ?_, fun hw hon hone hsize hvec hused => ?_,
      fun hw hon hone hsize hvec hfree hsignal => ?_⟩
    · subst hw
      rw [writeCqCfg_enable (bit_or_one _) hoff hlow hhigh hvec hsignal]
      rfl
    · subst hw
      rw [writeCqCfg_size (bit_or_one _) hoff hsize]
    · subst hw
      rw [writeCqCfg_used (bit_even _) hon hone hsize hvec hused]
    · subst hw
      rw [writeCqCfg_disable (bit_even _) hon hone hsize hvec hfree hsignal]
      rfl

end Sys2Proof.Settled
end

section
/-!
SUPPORT. Fetching and admission of descriptors, and MSI-X (chapter 04, R131 to R152, R163 to R165).
-/
namespace Sys2Proof.Machine

section
variable {a : State} {tn : Fin 256} {n : Fin 16} (hcan : a.canFetch tn n = true)
include hcan

/-- R134: a fetch finds an entry of its CQ to reserve. -/
theorem fetchDesc_data {bs : List Byte} {d : Desc} (hd : d = parseDesc tn n (a.bitAt (sqKey tn n 8) 1) bs)
    (hroom : a.cqRoom tn (a.boundCq tn n) = true) (happly : isApply d = true → a.heldCount tn < 1024)
    (heb : d.clsNo = 1 ∨ d.clsNo = 2 → a.ebCount tn < 4096) :
    fetchDesc a tn n (.data bs) =
      takeFetched ((a.updCq (16 * tn.val + a.boundCq tn n) fun x => { x with reserved := x.reserved + 1, stall := false }).updSq
        (16 * tn.val + n.val) fun q => { q with head := (q.head + 1) % a.sqSize tn n, stall := false }) d := by
  have hfull : ¬ ((isApply d && decide (1024 ≤ a.heldCount tn)) || ((d.clsNo == 1 || d.clsNo == 2) && decide (4096 ≤ a.ebCount tn))) = true := by
    simp only [Bool.or_eq_true, Bool.and_eq_true, decide_eq_true_eq, beq_iff_eq, not_or, not_and, not_le]
    exact ⟨happly, heb⟩
  subst hd
  rw [fetchDesc, hcan, hroom]
  exact if_neg hfull

/-- R133: without room the stall is flagged once. -/
theorem fetchDesc_stall {got : Fetched} (hroom : a.cqRoom tn (a.boundCq tn n) = false) :
    fetchDesc a tn n got =
      if (a.cq (16 * tn.val + a.boundCq tn n)).stall then a
      else flagRaw (a.updCq (16 * tn.val + a.boundCq tn n) fun x => { x with stall := true }) (cqKey tn (a.boundCq tn n) 0x14) 2 := by
  unfold fetchDesc
  rw [hcan, hroom]
  rfl

/-- R132: a read that fails stops the ring. -/
theorem fetchDesc_error {u : State} (hu : u = sqErr (a.updSq (16 * tn.val + n.val) fun q => { q with stopped := true }) tn n 5)
    (hroom : a.cqRoom tn (a.boundCq tn n) = true) :
    fetchDesc a tn n .error = { u with link := { u.link with aerErrors := u.link.aerErrors + 1 } } := by
  rw [fetchDesc, hcan, hroom, hu]
  rfl

end

/-- A descriptor without an apply span is judged in the present one: the verdict decides. -/
theorem takeFetched_now {s u : State} {d : Desc} (hu : u = { s with nextId := s.nextId + 1 }) (happly : isApply d = false)
    (hspan : spanBad s d none s.tb.spanIx = false) :
    takeFetched s d =
      match descCheck u d with
      | some (st, res) => complete (refuseSide u d) (newJob s d .admitted s.tb.spanIx) st res
      | none => keep u { newJob s d .admitted s.tb.spanIx with
          phase := if u.mustWait d (s.tn d.tenant).ringGen s.nextId then .fenced else .admitted } := by
  have hspan' : spanBad { s with nextId := s.nextId + 1 } d none s.tb.spanIx = false := hspan
  subst hu
  unfold takeFetched
  simp only [happly, Bool.false_eq_true, if_false, Option.map_none, Option.getD_none, hspan']
  rfl

/-- R152: a fenced descriptor that nothing holds up is admitted. -/
theorem fenceAdmit_free {s : State} {id : Nat} {j : Job} (hjob : s.job? id = some j) (hfenced : j.phase = .fenced)
    (hfree : s.mustWait j.d j.gen j.id = false) : fenceAdmit s id = admitNow s j := by
  rw [fenceAdmit, hjob]
  exact if_pos ⟨hfenced, hfree⟩

/-- R143: no due descriptor of a tenant stands before one of its lowest ring and number. -/
theorem applyAdmit_first {s : State} {id : Nat} {j : Job} {b : Int} (hjob : s.job? id = some j) (hheld : j.phase = .held b)
    (hdue : b ≤ s.tb.spanIx)
    (hfirst : ∀ i ∈ s.jobs, ∀ b', i.phase = .held b' → b' ≤ s.tb.spanIx → i.d.tenant = j.d.tenant →
      j.d.sq.val ≤ i.d.sq.val ∧ (i.d.sq = j.d.sq → j.id ≤ i.id))
    (hcheck : descCheck s j.d = none) (hfree : s.mustWait j.d j.gen j.id = false) : applyAdmit s id = admitNow s j := by
  rw [applyAdmit, hjob]
  dsimp -zeta only
  extract_lets due first
  have hdue' : due j = true := by simp [due, hheld, hdue]
  have hfirst' : first = true := by
    refine (congrArg not (List.any_eq_false.mpr fun i hi => ?_)).trans Bool.not_false
    cases hi' : i.phase with
    | held a =>
      have h := hfirst i hi a hi'
      simp only [due, hi', Bool.and_eq_true, Bool.or_eq_true, decide_eq_true_eq, beq_iff_eq]
      rintro ⟨⟨ha, htn⟩, hlt | ⟨hsq, hid⟩⟩
      · exact absurd (h ha htn).1 (not_le.mpr hlt)
      · exact absurd ((h ha htn).2 hsq) (not_le.mpr hid)
    | _ => simp [due, hi']
  rw [if_neg (by simp [hdue', hfirst']), hcheck]
  exact if_neg (by simp [hfree])

/-! ## Signalling -/

/-- R163: a CQ whose oldest unsignalled entry is old enough is signalled. -/
theorem cqAge_due {s : State} {tn n o : Nat} (hold : (s.cq (16 * tn + n)).oldest = some o) (hset : s.fld (cqKey tn n 0xC) 8 8 ≠ 0)
    (hdue : o + s.fld (cqKey tn n 0xC) 8 8 ≤ s.tb.spanIx) (hirq : s.bitAt (cqKey tn n 8) 2 = true) (hon : s.cqOn tn n = true) :
    cqAge s tn n = signalCq s tn n := by
  rw [cqAge, hold]
  exact if_pos ⟨hset, hdue, hirq, hon⟩

/-- A function just written reads back. -/
theorem fn_setFn_self {s : State} (htab : Safety.Tables s) (k : Nat) (x : Fn) : (s.setFn k x).fn k = x :=
  storeGet_storePut_self _ htab.fns k x

/-- A vector with nothing pending sends nothing. -/
theorem sendPending_none {s : State} {fn v : Nat} (h : ((s.fn fn).vec v).pend = false) : sendPending s fn v = s :=
  if_neg (by rw [h]; simp)

/-- R164: a vector that nothing masks, of a function that may send, sends its message. -/
theorem signal_open {s : State} {fn v : Nat} (hpath : (s.tn fn).pathLost = false) (hst : (s.tn fn).st ≠ .orphan) (hlink : s.link.up = true)
    (hen : (s.fn fn).msixEn = true) (hbme : (s.fn fn).bme = true) (hv : v < msixSize fn) (hmask : (s.fn fn).msixMask = false)
    (hvec : ((s.fn fn).vec v).masked = false) : signal s fn v = { s with out := s.out ++ [.msix fn v] } := by
  unfold signal
  extract_lets f t
  rw [if_neg (by simp [t, f, hpath, hst, hlink, hen, hbme, hv]), if_neg (by simp [f, hmask, hvec])]
  rfl

end Sys2Proof.Machine

namespace Sys2Proof.Settled
open Machine

/-- Settles O26. When a fetch acts is entry 46 of the log, the order of held and fenced work entry 47. -/
theorem descriptorFetch : Obligations.DescriptorFetch := by
  refine ⟨fun s a t k c tn n bs d hporst ha hcan hk hc hd => ⟨fun hroom happly heb => ?_, fun hroom hstall => ?_, fun hroom hstall => ?_,
      fun u hu hroom => ?_⟩,
    fun s u d hu happly => ⟨fun st res hspan hcheck => ?_, fun hspan hcheck hfree => ?_, fun hspan hcheck hwait => ?_⟩,
    fun s a t id j hporst ha hjob hfenced hfree => ?_, fun s id j b hporst hjob hheld hdue hfirst hcheck hfree => ?_⟩
  · rw [hk, hc, ← fetchDesc_data hcan hd hroom happly heb, ha]
    exact show execDescriptorFetch t tn n (.data bs) s = _ from act_next hporst rfl
  · subst hc ha
    show execDescriptorFetch t tn n (.data bs) s = _
    exact act_next hporst (by rw [fetchDesc_stall hcan hroom, if_pos hstall])
  · subst hc ha
    show execDescriptorFetch t tn n (.data bs) s = _
    exact act_next hporst (by rw [fetchDesc_stall hcan hroom, if_neg (by simp [hstall])])
  · subst hk
    rw [← fetchDesc_error hcan hu hroom, ha]
    exact show execDescriptorFetch t tn n .error s = _ from act_next hporst rfl
  · rw [takeFetched_now hu happly hspan, hcheck]
  · rw [takeFetched_now hu happly hspan, hcheck, hfree]
    rfl
  · rw [takeFetched_now hu happly hspan, hcheck, hwait]
    rfl
  · rw [← fenceAdmit_free hjob hfenced hfree, ha]
    exact show execFenceAdmission t id s = _ from act_next hporst rfl
  · show execApplySpanAdmission id s = _
    exact act_next hporst (applyAdmit_first hjob hheld hdue hfirst hcheck hfree)

/-- Settles O27. An unmask of a vector with a message pending (R165, entry 41 of the log) has no clause. -/
theorem interrupts : Obligations.Interrupts := by
  refine ⟨fun s tn n o hporst hold hset hdue hirq hon => ?_, fun s a t fn v f htab hporst ha hfn hv hf hpend => ?_,
    fun s fn v hpath hst hlink hen hbme hv hmask hvec => signal_open hpath hst hlink hen hbme hv hmask hvec⟩
  · show execCqAgeExpiry tn n s = _
    exact act_next hporst (cqAge_due hold hset hdue hirq hon)
  · have hread : ((a.setFn fn f).fn fn).vec v = f.vec v := by rw [ha, fn_setFn_self (tables_advance htab t)]
    rw [← sendPending_none (s := a.setFn fn f) (fn := fn) (v := v) (by rw [hread, hpend]), hf, ha]
    show execMsixVectorUnmask t fn v s = _
    subst ha
    exact act_next hporst (if_neg (by simp [hfn, hv]))

end Sys2Proof.Settled
end

section
/-!
SUPPORT. Shed work and finished slices (chapter 05, R177, R178, R192 to R200).
-/
namespace Sys2Proof.Machine

/-! ## Jobs by number -/

/-- A job found by its number has it. -/
theorem job?_id {s : State} {id : Nat} {j : Job} (h : s.job? id = some j) : j.id = id :=
  beq_iff_eq.mp (List.find?_some (p := fun j : Job => j.id == id) h)

/-- A job kept is the one its number finds. -/
theorem job?_keep_self (s : State) (j : Job) : (keep s j).job? j.id = some j := by
  unfold keep State.job?
  split
  case isTrue hany =>
    generalize s.jobs = l at hany
    induction l with
    | nil => simp at hany
    | cons x l ih =>
      by_cases hx : x.id = j.id
      · simp [mapIf, hx]
      · have hl : (l.any fun y => y.id == j.id) = true := by simpa [hx] using hany
        simpa [mapIf, hx] using ih hl
  case isFalse hany =>
    have hnone : s.jobs.find? (·.id == j.id) = none := by simpa using hany
    simp [List.find?_append, hnone]

/-- No number finds a job that has completed. -/
theorem job?_complete_self (s : State) (j : Job) (st res : Nat) : (complete s j st res).job? j.id = none := by
  rw [State.job?, (books_complete s j st res).jobs, dropJob]
  refine List.find?_eq_none.mpr fun x hx => ?_
  simpa using (List.mem_filter.mp hx).2

/-- Every job of a number that has been changed is what it was changed to. -/
theorem job?_updJob_const {s : State} {id : Nat} {k i : Job} (h : (updJob s id fun _ => k).job? id = some i) : i = k := by
  have hmem := List.mem_of_find?_eq_some h
  have hid := job?_id h
  obtain ⟨x, -, hx⟩ := List.mem_map.mp hmem
  dsimp only at hx
  split at hx
  · exact hx.symm
  · next hne => exact absurd (hx ▸ hid) (by simpa using hne)

/-- Work above class 0 is planned at a boundary, not at once. -/
theorem planNow_background {s : State} {j : Job} (h : j.d.clsNo ≠ 0) : planNow s j = s := if_neg fun hn => h hn.1

/-! ## Work that is shed -/

/-- A descriptor that holds no slot and no data ends with its status and RESULT 0. -/
theorem endEarly_desc {s : State} {j : Job} (hkind : j.kind = .desc) (hread : j.d.op ≠ 0x90#8) (hframe : j.d.op ≠ 0x51#8)
    (hxl : j.d.op ≠ 0x81#8) (st : Nat) : endEarly s j st = complete s j st 0 := by
  have hlock : frameReadUnlock s j = s := if_neg fun h => hframe h.1
  have hres : j.partResult = 0 := if_neg hread
  rw [endEarly, hkind]
  dsimp only
  rw [if_neg hxl, hlock, hres]

/-! ## Toll units -/

/-- The charge of one pool to a tenant's counter. -/
def chargePool (tn : Nat) (tus : List Nat) (s : State) (p : Nat) : State :=
  if nth tus p = 0 then s else s.wr (tkey tn (0x58 + 4 * p)) ((s.rd (tkey tn (0x58 + 4 * p)) + nth tus p) % 2 ^ 32)

theorem chargeTu_eq (s : State) (tn : Nat) (tus : List Nat) :
    chargeTu s tn tus = (List.range 7).foldl (chargePool tn tus)
      { s with ks := { s.ks with used := addL s.ks.used ((List.range 7).map (nth tus)) } } := rfl

theorem chargePool_tables {s : State} (htab : Safety.Tables s) (tn : Nat) (tus : List Nat) (p : Nat) :
    Safety.Tables (chargePool tn tus s p) := (Keeps.ite (Keeps.refl s) (keeps_wr (Keeps.refl s) _ _)).tables htab

theorem chargePool_rd_self {s : State} (htab : Safety.Tables s) (tn : Nat) (tus : List Nat) (p : Nat) :
    (chargePool tn tus s p).rd (tkey tn (0x58 + 4 * p)) = (s.rd (tkey tn (0x58 + 4 * p)) + nth tus p) % 2 ^ 32 := by
  unfold chargePool
  split
  · next h => rw [h, Nat.add_zero, Nat.mod_eq_of_lt (rd_lt s _)]
  · exact rd_wr_word htab _ (Nat.mod_lt _ (by decide))

theorem chargePool_rd_of_ne (s : State) (tn : Nat) (tus : List Nat) {p q : Nat} (h : q ≠ p) :
    (chargePool tn tus s p).rd (tkey tn (0x58 + 4 * q)) = s.rd (tkey tn (0x58 + 4 * q)) := by
  unfold chargePool
  split
  · rfl
  · exact rd_wr_of_ne s _ (by unfold tkey; omega)

/-- Each pool of a list without repetitions is charged once. -/
theorem chargePools_rd {s : State} (htab : Safety.Tables s) (tn : Nat) (tus : List Nat) (p : Nat) (l : List Nat) (hl : l.Nodup) :
    (l.foldl (chargePool tn tus) s).rd (tkey tn (0x58 + 4 * p)) =
      if p ∈ l then (s.rd (tkey tn (0x58 + 4 * p)) + nth tus p) % 2 ^ 32 else s.rd (tkey tn (0x58 + 4 * p)) := by
  induction l generalizing s with
  | nil => rfl
  | cons q l ih =>
    obtain ⟨hq, hl'⟩ := List.nodup_cons.mp hl
    rw [List.foldl_cons, ih (chargePool_tables htab tn tus q) hl']
    by_cases hpq : p = q
    · subst hpq
      rw [if_neg hq, if_pos (List.mem_cons_self ..), chargePool_rd_self htab]
    · rw [chargePool_rd_of_ne s tn tus hpq]
      simp [hpq]

/-- Charging changes registers only. -/
theorem chargePools_frame (s : State) (tn : Nat) (tus : List Nat) (l : List Nat) :
    (l.foldl (chargePool tn tus) s).ks = s.ks := by
  induction l generalizing s with
  | nil => rfl
  | cons q l ih =>
    rw [List.foldl_cons, ih]
    unfold chargePool
    split <;> rfl

/-! ## Slices -/

/-- A slice of a descriptor or of a STAGE that finishes is the first of those planned. -/
theorem doneIx_zero {j : Job} (h : isFrame j.kind = false) (tus : List Nat) : j.doneIx tus = 0 := if_neg (by simp [h])

/-- What a slice that finishes without an error does, for work above class 0: it is charged, and its family goes on. -/
theorem sliceDone_clean {s : State} {id : Nat} {tus : List Nat} {r : SliceResult} {j k : Job} (hjob : s.job? id = some j)
    (herrs : r.errs = []) (hcls : j.d.clsNo ≠ 0) (hplanned : 0 < j.planned) (hframe : isFrame j.kind = false)
    (hk : k = { j with slices := j.slices.eraseIdx 0, planned := j.planned - 1, ran := true, tu := j.tu + sumL tus })
    (hnext : ∀ i, (afterSlice (chargeTu s j.d.tenant tus) k r).job? id = some i → i.d.clsNo ≠ 0) :
    sliceDone s id tus r = afterSlice (chargeTu s j.d.tenant tus) k r := by
  subst hk
  unfold sliceDone
  rw [hjob]
  dsimp only
  have hback (u : State) (est : List Nat) : giveBack u j est tus = u := if_neg fun h => hcls h.1
  rw [if_neg hplanned.ne', doneIx_zero hframe, herrs, hback, ite_self]
  generalize afterSlice _ _ r = u at hnext
  show (match u.job? id with
    | some j => planNow u j
    | none => u) = u
  cases hu : u.job? id with
  | none => rfl
  | some i => exact planNow_background (hnext i hu)

theorem job?_keep_desc {s : State} {x i : Job} {id : Nat} (hid : x.id = id) (h : (keep s x).job? id = some i) : i.d = x.d := by
  rw [← hid, job?_keep_self] at h
  rw [← Option.some.inj h]

/-- A read that goes on waits as the same descriptor, or has completed. -/
theorem queueReadNext_desc {s : State} {j i : Job} {id : Nat} (hid : j.id = id) (h : (queueReadNext s j).job? id = some i) : i.d = j.d := by
  unfold queueReadNext at h
  extract_lets g at h
  split at h
  · rw [← hid, job?_complete_self] at h
    cases h
  · exact job?_keep_desc (x := { j with phase := .active, slices := [copyCost g.2] }) hid h

theorem queueReadSlice_desc {s : State} {j i : Job} {r : SliceResult} {id : Nat} (hid : j.id = id)
    (h : (queueReadSlice s j r).job? id = some i) : i.d = j.d := by
  unfold queueReadSlice at h
  extract_lets tn q k whole g x its s₁ left s₂ j₂ at h
  split at h
  · exact job?_keep_desc (x := { j₂ with slices := [copyCost (whole.2 - g.2)], planned := 1 }) hid h
  · exact queueReadNext_desc (j := j₂) hid h

end Sys2Proof.Machine

namespace Sys2Proof.Settled
open Machine

/-- Settles O30. RESULT 0 of shed work is entry 65 of the log, a finished slice of a job with none planned entry 64. -/
theorem shedAndSlices : Obligations.ShedAndSlices := by
  refine ⟨fun s id j hporst hjob hkind hact hslices hread hframe hxl hlow => ?_,
    fun s a t id tus r j k hporst ha hjob herrs hcls hk => ?_, fun s tn p tus htab hp => ?_⟩
  · have hwork : j.hasWork = true := by simp [Job.hasWork, hact, hslices]
    have hend : endEarly s j 0x10 = complete s j 0x10 0 := endEarly_desc hkind hread hframe hxl 0x10
    refine ⟨fun hc hran hdue => ?_, fun hc hran => ?_, fun hc hdue => ?_, fun hc hdue => ?_⟩
    · show execShed id s = _
      exact act_next hporst (by rw [shedE, hjob, ← hend]; exact if_pos (by simp [hwork, hkind, hc, hlow, hran, hdue]))
    · show execShed id s = _
      exact act_next hporst (by rw [shedE, hjob]; exact if_neg (by simp [hran]))
    · show execBShed id s = _
      exact act_next hporst (by rw [shedB, hjob, ← hend]; exact if_pos (by simp [hwork, hkind, hc, hlow, hdue]))
    · show execBShed id s = _
      exact act_next hporst (by rw [shedB, hjob]; exact if_neg (by simp [not_lt.mpr hdue]))
  · have hexec : exec (.sliceComplete t id tus r) s = .next (sliceDone a id tus r) := by
      rw [ha]
      exact show execSliceComplete t id tus r s = _ from act_next hporst rfl
    have hjid : j.id = id := job?_id hjob
    have hid : k.id = id := (congrArg Job.id hk).trans hjid
    have hkcls : k.d.clsNo ≠ 0 := by rw [hk]; exact hcls
    rw [hexec]
    refine ⟨fun hnone => ?_, fun hplanned hkind => ?_, fun hplanned hkind hop => ?_⟩
    · rw [sliceDone, hjob]
      exact congrArg _ (if_pos hnone)
    · have hafter : afterSlice (chargeTu a j.d.tenant tus) k r = updJob (chargeTu a j.d.tenant tus) id fun _ => k := by
        rw [afterSlice, show k.kind = .stage by rw [hk]; exact hkind, hid]
      have hnext (i : Job) (hi : (afterSlice (chargeTu a j.d.tenant tus) k r).job? id = some i) : i.d.clsNo ≠ 0 := by
        rw [hafter] at hi
        rw [job?_updJob_const hi]
        exact hkcls
      rw [sliceDone_clean hjob herrs hcls hplanned (by rw [hkind]; rfl) hk hnext, hafter]
    · have hafter : afterSlice (chargeTu a j.d.tenant tus) k r = queueReadSlice (chargeTu a j.d.tenant tus) k r := by
        rw [afterSlice, show k.kind = .desc by rw [hk]; exact hkind, show k.d.op = 0x90#8 by rw [hk]; exact hop]
        rfl
      have hnext (i : Job) (hi : (afterSlice (chargeTu a j.d.tenant tus) k r).job? id = some i) : i.d.clsNo ≠ 0 := by
        rw [hafter] at hi
        rw [queueReadSlice_desc hid hi]
        exact hkcls
      rw [sliceDone_clean hjob herrs hcls hplanned (by rw [hkind]; rfl) hk hnext, hafter]
  · rw [chargeTu_eq]
    refine ⟨?_, ?_⟩
    · rw [chargePools_rd ((Keeps.refl s).upd rfl |>.tables htab) tn tus p _ List.nodup_range, if_pos (List.mem_range.mpr hp)]
      rfl
    · rw [chargePools_frame]

end Sys2Proof.Settled
end

section
/-!
SUPPORT. Device queues: offers, Q_CFG, flushes and the queue opcodes (chapter 06).
-/
namespace Sys2Proof.Machine

/-! ## Offers (R207 to R212) -/

section
variable {s : State} {tn q kind : Nat} {it : Offer}

/-- A queue of another kind, or not enabled, takes nothing: the item is counted. -/
theorem offer_off (htn : tn < 256) (hoff : s.qEnabled tn q = false) :
    offer s tn q kind it =
      count (s.setQueue (64 * tn + q) { s.queue (64 * tn + q) with seq := (s.queue (64 * tn + q)).seq % 2 ^ 32 + 1 }) (qKey tn q 0x14) := by
  unfold offer
  extract_lets k x seq lanes item skipped
  rw [if_neg (not_le.mpr htn), if_pos (by simp [hoff])]

variable (htn : tn < 256) (hon : s.qEnabled tn q = true) (hkind : s.qKind tn q = kind) (hdone : it.done = true)
  (hskip : (s.queue (64 * tn + q)).skip = false) (hpart : (s.queue (64 * tn + q)).part = 0)
include htn hon hkind hdone hskip hpart

/-- R209: a whole item that fits beside the marker's two cells is stored. -/
theorem offer_fits (hfits : 1 + ceilDiv it.payload.length 16 + 2 ≤ s.qCap tn q - (s.queue (64 * tn + q)).fill) :
    offer s tn q kind it = s.setQueue (64 * tn + q) { s.queue (64 * tn + q) with
      items := (s.queue (64 * tn + q)).items ++
        [{ src := it.src, seq := (s.queue (64 * tn + q)).seq % 2 ^ 32, time := it.time, body := .data it.payload }]
      seq := (s.queue (64 * tn + q)).seq % 2 ^ 32 + 1
      markerOpen := false } := by
  unfold offer
  extract_lets k x seq lanes item skipped
  rw [if_neg (not_le.mpr htn), if_neg (by simp [hon, hkind]), if_neg (by simp [x, k, hskip]), if_neg (by simp [x, k, hpart]), if_pos (show item.cells + 2 ≤ s.qCap tn q - x.fill from hfits), if_pos hdone]

/-- R210: any other is dropped into a gap marker. -/
theorem offer_dropped (hfull : s.qCap tn q - (s.queue (64 * tn + q)).fill < 1 + ceilDiv it.payload.length 16 + 2) :
    offer s tn q kind it =
      dropItem (s.setQueue (64 * tn + q) { s.queue (64 * tn + q) with seq := (s.queue (64 * tn + q)).seq % 2 ^ 32 + 1 })
        tn q it.src ((s.queue (64 * tn + q)).seq % 2 ^ 32) it.time (if kind = 0 then 2 ^ (it.lane % 32) else 0) := by
  unfold offer
  extract_lets k x seq lanes item skipped
  have hx : ({ x with seq := seq + 1, skip := !it.done } : Queue) = { x with seq := seq + 1 } := by
    rw [hdone, Bool.not_true, ← hskip]
  have hskipped : skipped = s.setQueue k { x with seq := seq + 1 } := congrArg (s.setQueue k) hx
  rw [if_neg (not_le.mpr htn), if_neg (by simp [hon, hkind]), if_neg (by simp [x, k, hskip]), if_neg (by simp [x, k, hpart]),
    if_neg (show ¬ item.cells + 2 ≤ s.qCap tn q - x.fill from not_le.mpr hfull), hskipped]

end

/-! ## Q_CFG (R205, R206) -/

section
variable {a : State} {tn q w : Nat}

theorem writeQCfg_bad (h : qCfgBad w = true) : writeQCfg a tn q w = flagRaw a (qKey tn q 0xC) 4 := if_pos (by simp [h])

theorem writeQCfg_changed (hon : a.qEnabled tn q = true) (h : qCfgFields w ≠ qCfgFields (a.rd (qKey tn q 0))) :
    writeQCfg a tn q w = flagRaw a (qKey tn q 0xC) 4 := by
  have hold : bit (a.rd (qKey tn q 0)) 0 = true := hon
  exact if_pos (by simp [hold, h])

/-- R231: a disable empties the queue without a marker. -/
theorem writeQCfg_disable (hok : qCfgBad w = false) (hw : bit w 0 = false) (hon : a.qEnabled tn q = true)
    (h : qCfgFields w = qCfgFields (a.rd (qKey tn q 0))) :
    writeQCfg a tn q w = (flushQueue a tn q false).wr (qKey tn q 0) (qCfgMask w) := by
  have hold : bit (a.rd (qKey tn q 0)) 0 = true := hon
  unfold writeQCfg
  extract_lets k old r
  rw [if_neg (by simp [old, k, hok, h]), if_pos hold, hw]
  rfl

/-- R205: an enable needs pages of its tenant that nothing else uses. -/
theorem writeQCfg_enable (hok : qCfgBad w = false) (hw : bit w 0 = true) (hoff : a.qEnabled tn q = false) :
    writeQCfg a tn q w =
      if a.pageCount tn < bits w 8 12 + bits w 20 9 || a.usedByQueue tn q (bits w 8 12, bits w 20 9) ||
          a.usedByRing tn 32 (bits w 8 12, bits w 20 9) then flagRaw a (qKey tn q 0xC) 4
      else a.wr (qKey tn q 0) (qCfgMask w) := by
  have hold : bit (a.rd (qKey tn q 0)) 0 = false := hoff
  unfold writeQCfg
  extract_lets k old r
  rw [if_neg (by simp [old, k, hok, hold]), if_neg (by simp [old, k, hold]), if_pos hw]

end

/-- R227 to R230: the flush of a queue that no read is in the middle of. -/
theorem flushQueue_idle {a : State} {tn q : Nat} (h : ∀ j ∈ a.jobs, j.midItem tn q = false) :
    flushQueue a tn q true =
      flagRaw (count (a.setQueue (64 * tn + q) { a.queue (64 * tn + q) with
        items := [{ src := 0, seq := (a.queue (64 * tn + q)).seq % 2 ^ 32, time := a.now
                    body := .flush (((a.queue (64 * tn + q)).items.drop (a.queue (64 * tn + q)).readIx).length +
                        (if 0 < (a.queue (64 * tn + q)).part then 1 else 0))
                      (sumL (((a.queue (64 * tn + q)).items.drop (a.queue (64 * tn + q)).readIx).map Item.cells) +
                        (a.queue (64 * tn + q)).part)
                      (sumL ((a.queue (64 * tn + q)).items.map Item.drops)) }]
        readIx := 0
        markIx := 0
        markerOpen := false
        skip := (a.queue (64 * tn + q)).skip || decide (0 < (a.queue (64 * tn + q)).part)
        part := 0 }) (qKey tn q 0x18)) (qKey tn q 0xC) 2 := by
  unfold flushQueue
  extract_lets k x rest nItems nCells gaps m s₁ s₂
  have hnone : s₁.jobs.filter (fun j => j.midItem tn q) = [] := List.filter_eq_nil_iff.mpr fun j hj => by
    rw [h j hj]
    exact Bool.false_ne_true
  have hs₂ : s₂ = s₁ := by
    simp only [s₂, hnone]
    rfl
  rw [hs₂]
  rfl

/-! ## The queue opcodes (R217 to R227) -/

/-- R221: a read without anything to deliver is done. -/
theorem queueReadStart_empty {a : State} {j : Job} (h : (a.nextRead { j with aux := [0, 0, 0] }).1 = 0) :
    queueReadStart a j = complete a { j with aux := [0, 0, 0] } 0 0 := if_pos h

theorem queueReadStart_waits {a : State} {j : Job} {n b : Nat} (h : a.nextRead { j with aux := [0, 0, 0] } = (n, b)) (hn : n ≠ 0) :
    queueReadStart a j = keep a { j with aux := [0, 0, 0], phase := .active, slices := [copyCost b] } := by
  unfold queueReadStart queueReadNext
  rw [h]
  exact if_neg hn

theorem updQ_eq {a : State} {d : Desc} (h : d.p 0 1 < 64) (f : Queue → Queue) :
    updQ a d f = a.setQueue (64 * d.tenant.val + d.p 0 1) (f (a.queue (64 * d.tenant.val + d.p 0 1))) := by
  rw [updQ, Nat.mod_eq_of_lt h]
  rfl

theorem queueOpCheck_ok {a : State} {d : Desc} {kind1 : Bool} (hfmt : badFormat d (pm 0 1) false = false) (hq : d.p 0 1 < 64)
    (hkind : kind1 = true → a.qKind d.tenant (d.p 0 1) = 1) : queueOpCheck kind1 a d = none := by
  refine firstFail_none fun x hx => ?_
  rw [List.mem_singleton.mp hx, hfmt]
  cases kind1
  · simp [hq]
  · simp [hq, hkind rfl]

end Sys2Proof.Machine

namespace Sys2Proof.Settled
open Machine

/-- Settles O32. The sequence number of a dropped item and the flush of a disabled queue are entry 53 of the log, SRC 0 of the flush
marker entry 54, GAP_DROPS entry 55. -/
theorem queues : Obligations.Queues := by
  refine ⟨fun s a t k tn q it hporst ha hk hdone hskip hpart => ?_, fun s a t k w tn q v hporst ha hk => ?_,
    fun s a t n b d j hporst htaken hcheck hread => ⟨fun hn => ?_, fun hn => ?_⟩,
    fun s a t k d j hporst hfmt hq hk => ⟨fun htaken hkind => ?_, fun htaken hkind => ?_, fun htaken hkind => ?_, fun htaken hkind => ?_,
      fun htaken => ?_⟩⟩
  · have hkind : a.qKind tn q = s.qKind tn q := by rw [ha]; exact congrArg (bits · 1 3) (by rw [State.rd, advance_regs]; rfl)
    have hexec : exec (.queueOffer t tn q it) s = .next (offer a tn q (a.qKind tn q) it) := by
      rw [hkind, ha]
      exact show execQueueOffer t tn q it s = _ from act_next hporst rfl
    subst hk
    rw [hexec]
    refine ⟨fun hon hfits => ?_, fun hon hfull => ?_, fun hoff => ?_⟩
    · rw [offer_fits tn.isLt hon rfl hdone hskip hpart hfits]
    · rw [offer_dropped tn.isLt hon rfl hdone hskip hpart hfull]
    · rw [offer_off tn.isLt hoff]
  · have henable : exec (.qEnable t tn q v) s = .next (writeQCfg a tn q (v.toNat ||| 1)) := by
      rw [ha]
      exact show execQEnable t tn q v s = _ from act_next hporst rfl
    have hdisable : exec (.qDisable t tn q v) s = .next (writeQCfg a tn q (v.toNat / 2 * 2)) := by
      rw [ha]
      exact show execQDisable t tn q v s = _ from act_next hporst rfl
    have hflush : exec (.qCtrlFlush t tn q) s = .next (if a.qEnabled tn q then flushQueue a tn q true else a) := by
      rw [ha]
      exact show execQCtrlFlush t tn q s = _ from act_next hporst rfl
    subst hk
    rw [henable, hdisable, hflush]
    refine ⟨fun hw hbad => ?_, fun hw hok hoff hpages hqueue hring => ?_, fun hw hok hoff hpages => ?_, fun hw hok hon hchanged => ?_,
      fun hw hok hon hsame => ?_, fun hon hidle => ?_, fun hoff => ?_⟩
    · rw [← hw, writeQCfg_bad hbad]
    · rw [← hw, writeQCfg_enable hok (hw ▸ bit_or_one _) hoff, if_neg (by simp [hpages, hqueue, hring])]
    · rw [← hw, writeQCfg_enable hok (hw ▸ bit_or_one _) hoff, if_pos (by simp [hpages])]
    · rw [← hw, writeQCfg_changed hon hchanged]
    · rw [← hw, writeQCfg_disable hok (hw ▸ bit_even _) hon hsame]
    · rw [if_pos hon, flushQueue_idle hidle]
    · rw [hoff]
      rfl
  · rw [← queueReadStart_waits hread hn]
    show execQueueRead t d s = _
    exact act_runOp_pass hporst htaken hcheck
  · rw [← queueReadStart_empty (by rw [hread, hn])]
    show execQueueRead t d s = _
    exact act_runOp_pass hporst htaken hcheck
  · rw [hk, ← updQ_eq hq fun x => { x with markIx := x.readIx }]
    show execQueueMark t d s = _
    exact act_runOp_pass hporst htaken (queueOpCheck_ok hfmt hq fun _ => hkind)
  · show execQueueMark t d s = _
    exact act_runOp_stop hporst htaken (by simp [queueOpCheck, firstFail, hkind])
  · rw [hk, ← updQ_eq hq fun x => { x with readIx := x.markIx }]
    show execQueueRewind t d s = _
    exact act_runOp_pass hporst htaken (queueOpCheck_ok hfmt hq fun _ => hkind)
  · rw [hk, ← updQ_eq hq fun x => { x with items := x.items.drop x.readIx, readIx := 0, markIx := 0 }]
    show execQueueRelease t d s = _
    exact act_runOp_pass hporst htaken (queueOpCheck_ok hfmt hq fun _ => hkind)
  · have hflush : doQueueFlush a j.d = flushQueue a j.d.tenant (j.d.p 0 1) true := by rw [doQueueFlush, Nat.mod_eq_of_lt hq]
    rw [← hflush]
    show execQueueFlush t d s = _
    exact act_runOp_pass hporst htaken (queueOpCheck_ok hfmt hq fun h => absurd h Bool.false_ne_true)

end Sys2Proof.Settled
end

section
/-!
SUPPORT. Cameras (chapter 07): port and ring enables, packets, triggers and frame reads.
-/
namespace Sys2Proof.Machine

/-! ## Enables (R234, R239, R264) -/

section
variable {a : State} {c w : Nat}

theorem writeCamCfg_run (hrun : a.mode = .run) : writeCamCfg a c w = a := if_pos hrun

/-- R264: an enabled port keeps its fields. -/
theorem writeCamCfg_on (hrun : a.mode ≠ .run) (hw : bit (camCfgMask w) 0 = true) (hon : a.bitAt (camKey c 0) 0 = true) :
    writeCamCfg a c w = if camCfgMask w / 2 ≠ a.rd (camKey c 0) / 2 then camErr a c else a := by
  unfold writeCamCfg
  extract_lets k w'
  rw [if_neg hrun, if_pos hon, if_pos hw]
  simp only [bne_iff_ne, w', k]

/-- R234, R258: a port that is off is enabled within its guarantee. -/
theorem writeCamCfg_off (hrun : a.mode ≠ .run) (hw : bit (camCfgMask w) 0 = true) (hoff : a.bitAt (camKey c 0) 0 = false) :
    writeCamCfg a c w =
      if a.camOk c (camCfgMask w) then
        (a.wr (camKey c 0) (camCfgMask w)).updCam c fun x => { x with linkUp := false, deskewWait := needsDeskew (camCfgMask w) }
      else camErr a c := by
  unfold writeCamCfg
  extract_lets k w'
  rw [if_neg hrun, if_neg (by simp [k, hoff]), if_pos hw]

variable {v : Nat}

theorem writeVcRing_run (hrun : a.mode = .run) : writeVcRing a c v w = a := if_pos hrun

theorem writeVcRing_changed (hrun : a.mode ≠ .run) (hon : a.vcOn c v = true) (h : w % 2 ^ 28 / 2 ≠ a.rd (vcKey c v 4) / 2) :
    writeVcRing a c v w = camErr a c := by
  unfold writeVcRing
  extract_lets k w'
  rw [if_neg hrun, if_pos hon, if_pos (bne_iff_ne.mpr h)]

/-- R239, R241: a ring that is off is enabled with a legal format and free pages. -/
theorem writeVcRing_off (hrun : a.mode ≠ .run) (hoff : a.vcOn c v = false) (hw : bit (w % 2 ^ 28) 0 = true) :
    writeVcRing a c v w = if a.vcOk c v (w % 2 ^ 28) then a.wr (vcKey c v 4) (w % 2 ^ 28) else camErr a c := by
  unfold writeVcRing
  extract_lets k w'
  rw [if_neg hrun, if_neg (by simp [hoff])]
  have hw' : bit w' 0 = true := hw
  cases hok : a.vcOk c v w'
  · rw [if_pos (by simp [hw']), if_neg (by simp [w', ← hok])]
  · exact (if_neg (by simp)).trans (if_pos rfl).symm

end

/-- A mask that keeps bit 0 keeps the enable. -/
theorem bit_mod_zero (w n : Nat) : bit (w % 2 ^ (n + 1)) 0 = bit w 0 := by
  rw [bit_eq_testBit, bit_eq_testBit, Nat.testBit_mod_two_pow]
  simp

/-! ## Packets (R237 to R246) -/

section
variable {a : State} {c v : Nat}

theorem frame_deaf (h : a.camListens c = false) (hd : HdrCheck) (dt : Nat) (px : List Nat) (ok : Bool) :
    frameStart a c v hd = a ∧ frameEnd a c v hd = a ∧ longPacket a c v hd dt px ok = a :=
  ⟨if_pos (by simp [h]), if_pos (by simp [h]), if_pos (by simp [h])⟩

/-- R237: a header beyond correction is counted and flagged. -/
theorem frame_badHeader (h : a.camListens c = true) (dt : Nat) (px : List Nat) (ok : Bool) :
    frameStart a c v .bad = flag (count a (camKey c 0x2C)) (camKey c 0x20) 8 ∧
    frameEnd a c v .bad = flag (count a (camKey c 0x2C)) (camKey c 0x20) 8 ∧
    longPacket a c v .bad dt px ok = flag (count a (camKey c 0x2C)) (camKey c 0x20) 8 := by
  refine ⟨?_, ?_, ?_⟩
  · rw [frameStart, h]; rfl
  · rw [frameEnd, h]; rfl
  · rw [longPacket, h]; rfl

/-- Writing the pages of a tenant leaves the rings and the pipelines. -/
theorem pagesWrite_units (s : State) (tn i k : Nat) (bs : List Byte) :
    (pagesWrite s tn i k bs).vcs = s.vcs ∧ (pagesWrite s tn i k bs).pipes = s.pipes := by
  induction bs generalizing s k with
  | nil => exact ⟨rfl, rfl⟩
  | cons b bs ih =>
    obtain ⟨hvcs, hpipes⟩ := ih (match s.pageAddr tn i k with
      | some a => deckPut s a b
      | none => s) (k + 1)
    have hput : (match s.pageAddr tn i k with
        | some a => deckPut s a b
        | none => s).vcs = s.vcs ∧ (match s.pageAddr tn i k with
        | some a => deckPut s a b
        | none => s).pipes = s.pipes := by
      split <;> exact ⟨rfl, rfl⟩
    exact ⟨hvcs.trans hput.1, hpipes.trans hput.2⟩

theorem slotWrite_vcs (s : State) (c v slot k : Nat) (bs : List Byte) : (slotWrite s c v slot k bs).vcs = s.vcs :=
  (pagesWrite_units s _ _ k bs).1

theorem slotWrite_pipe (s : State) (c v slot k : Nat) (bs : List Byte) (p : Nat) : (slotWrite s c v slot k bs).pipe p = s.pipe p := by
  rw [State.pipe, slotWrite, (pagesWrite_units s _ _ k bs).2]
  rfl

/-- A ring just written reads back. -/
theorem vc_setVc_self {s : State} (htab : Safety.Tables s) (k : Nat) (x : Vc) : (s.setVc k x).vc k = x :=
  storeGet_storePut_self _ htab.vcs k x

/-- R251: matching a trigger changes the port and a counter. -/
theorem matchTrig_vcs (s : State) (c v : Nat) : (matchTrig s c v).1.vcs = s.vcs ∧ (matchTrig s c v).1.now = s.now := by
  unfold matchTrig
  extract_lets x old s₁ live
  split <;> exact ⟨rfl, rfl⟩

theorem matchTrig_rd (s : State) (c v : Nat) {k : Nat} (h : k ≠ camKey c 0x34) : (matchTrig s c v).1.rd k = s.rd k := by
  unfold matchTrig
  extract_lets x old s₁ live
  have hcount : s₁.rd k = s.rd k := rd_countN_of_ne s _ h
  split <;> exact hcount

/-- R242: what a frame start leaves open on its ring. -/
theorem openFrame_vc {s : State} (htab : Safety.Tables s) (c v : Nat) :
    ∃ f, (openFrame s c v).vc (4 * c + v) = { s.vc (4 * c + v) with frameSeq := (s.vc (4 * c + v)).frameSeq + 1, opened := some f } ∧
      f.slot = ((s.vc (4 * c + v)).frameSeq + 1) % max 1 (s.vcSlots c v) ∧ f.drop = (s.slotLocks c v f.slot != 0) ∧ f.fs = s.now ∧
      f.got = 0 := by
  obtain ⟨hvcs, hnow⟩ := matchTrig_vcs s c v
  have hring : (matchTrig s c v).1.rd (vcKey c v 4) = s.rd (vcKey c v 4) := matchTrig_rd s c v (by unfold vcKey camKey; omega)
  have hkeeps : Keeps s (matchTrig s c v).1 := keeps_matchTrig (Keeps.refl s) c v
  unfold openFrame
  extract_lets r s₁ x seq s₂ slot locked f s₃ s₄
  have hx : x = s.vc (4 * c + v) := congrArg (fun m => storeGet (fun _ => Vc.reset) m (4 * c + v)) hvcs
  have hslots : s₂.vcSlots c v = s.vcSlots c v := by
    have hrd : s₂.rd (vcKey c v 4) = s.rd (vcKey c v 4) := (rd_wr_of_ne s₁ _ (by unfold vcKey; omega)).trans hring
    rw [State.vcSlots, State.fld, hrd]
    rfl
  have htab₂ : Safety.Tables s₂ := (keeps_wr (keeps_updCam hkeeps c _) _ _).tables htab
  have hput : s₃.vc (4 * c + v) = { x with frameSeq := seq, opened := some f } := vc_setVc_self htab₂ _ _
  have hfinal : (if locked then flag (count s₃ (camKey c 0x28)) (camKey c 0x20) 4
      else s₄.updCam c fun y => { y with inBytes := y.inBytes + 64 }).vcs = s₃.vcs := by
    split
    · exact (books_flag (books_count (Books.refl s₃) _) _ _).units.cams.2
    · rw [State.updCam_eq, State.setCam_vcs]
      exact slotWrite_vcs s₃ c v slot 0 (headerBytes s₃ c v seq f 0 (openFlags f))
  refine ⟨f, ?_, ?_, ?_, hnow, rfl⟩
  · rw [State.vc, hfinal]
    exact hput.trans (congrArg (fun y : Vc => { y with frameSeq := y.frameSeq + 1, opened := some f }) hx)
  · rw [← hx, ← hslots]
  · show (s₂.slotLocks c v slot != 0) = (s.slotLocks c v slot != 0)
    rw [State.slotLocks, State.slotLocks, ← hx]
    rfl

/-- A frame start on a ring without an open frame opens one. -/
theorem frameStart_good (h : a.camListens c = true) (hon : a.vcOn c v = true) (hopen : (a.vc (4 * c + v)).opened = none) :
    frameStart a c v .good = openFrame a c v := by
  have hclose : closeFrame a c v = (a, none) := by
    unfold closeFrame
    extract_lets x
    rw [show x.opened = none from hopen]
  rw [frameStart, h]
  simp only [headerCheck, hon, hclose, Bool.not_true, Bool.or_false, Bool.false_eq_true, if_false]

/-- R238, R244: a line of an open frame that its ring stores. -/
theorem longPacket_good {dt : Nat} {px : List Nat} {ok : Bool} {f : OpenFrame} (h : a.camListens c = true) (hon : a.vcOn c v = true)
    (hdt : dt < 4) (hopen : (a.vc (4 * c + v)).opened = some f) :
    longPacket a c v .good dt px ok =
      if f.drop then a
      else if a.vcH c v ≤ f.got then a.setVc (4 * c + v) { a.vc (4 * c + v) with opened := some { f with long := true } }
      else
        (slotWrite (a.setVc (4 * c + v) { a.vc (4 * c + v) with opened := some { f with
            got := f.got + 1, lines := f.lines + 1
            bad := f.bad + b2n (!ok || decide (a.vcW c v * (if a.vcDt c v = 3 then 3 else 1) < px.length)), crc := f.crc || !ok } })
          c v f.slot (64 + f.got * a.vcPitch c v)
          (lineBytes (a.vcDt c v) (px.take (a.vcW c v * if a.vcDt c v = 3 then 3 else 1)))).updCam c fun y =>
            { y with inBytes := y.inBytes + (lineBytes (a.vcDt c v) (px.take (a.vcW c v * if a.vcDt c v = 3 then 3 else 1))).length } := by
  rw [longPacket, h]
  simp only [headerCheck, Bool.not_true, Bool.false_eq_true, if_false, if_true]
  unfold storeLine
  rw [if_neg (by simp [hon, hdt])]
  dsimp only
  rw [hopen]
  rfl

/-- R244, R246: a frame end closes what is open. -/
theorem frameEnd_good (h : a.camListens c = true) :
    frameEnd a c v .good = match (closeFrame a c v).2 with
      | some slot => handOff (closeFrame a c v).1 c v slot
      | none => (closeFrame a c v).1 := by
  rw [frameEnd, h]
  rfl

theorem closeFrame_none (h : (a.vc (4 * c + v)).opened = none) : closeFrame a c v = (a, none) := by
  unfold closeFrame
  extract_lets x
  rw [show x.opened = none from h]

theorem closeFrame_some {f : OpenFrame} (h : (a.vc (4 * c + v)).opened = some f) :
    closeFrame a c v =
      if f.drop then (a.setVc (4 * c + v) { a.vc (4 * c + v) with opened := none }, none)
      else (slotWrite (a.setVc (4 * c + v) { a.vc (4 * c + v) with opened := none }) c v f.slot 0
        (headerBytes a c v (a.vc (4 * c + v)).frameSeq f a.now (openFlags f + 1 + 4 * b2n (decide (f.lines < a.vcH c v)))), some f.slot) := by
  unfold closeFrame
  extract_lets x
  rw [show x.opened = some f from h]
  rfl

/-- A frame of a pipeline that does not run stays where it lies. -/
theorem handOff_idle {slot : Nat} (h : (a.pipe (4 * c + v)).running = false) : handOff a c v slot = a := if_pos (by simp [h])

theorem frameEnd_stored {f : OpenFrame} (h : a.camListens c = true) (hopen : (a.vc (4 * c + v)).opened = some f) (hdrop : f.drop = false)
    (hidle : (a.pipe (4 * c + v)).running = false) :
    frameEnd a c v .good = slotWrite (a.setVc (4 * c + v) { a.vc (4 * c + v) with opened := none }) c v f.slot 0
      (headerBytes a c v (a.vc (4 * c + v)).frameSeq f a.now (openFlags f + 1 + 4 * b2n (decide (f.lines < a.vcH c v)))) := by
  rw [frameEnd_good h, closeFrame_some hopen, if_neg (by rw [hdrop]; exact Bool.false_ne_true)]
  dsimp only
  exact handOff_idle (by rw [slotWrite_pipe]; exact hidle)

end

/-! ## Triggers (R247 to R250) -/

section
variable {a : State} {c : Nat} {x : Cam} (hx : x = a.cam c)
include hx

/-- R248: MIN_GAP suppresses an edge too soon after the last. -/
theorem camRise_suppressed {e : Nat} (hdue : a.trigDue c = true) (hlast : x.lastEdge = some e)
    (hgap : a.now - e < x.cfgGap.toNat % 2 ^ 24) :
    camRise a c = flag (count (a.setCam c { x with sched := x.sched.erase a.now }) (camKey c 0x30)) (camKey c 0x20) 0x10 := by
  subst hx
  rw [camRise, hdue]
  dsimp only [Bool.not_true, Bool.false_eq_true, if_false]
  rw [hlast]
  exact if_pos (decide_eq_true hgap)

/-- R247, R250: a due edge is output with its number and its exposure. -/
theorem camRise_first (hdue : a.trigDue c = true) (hlast : x.lastEdge = none) (hquiet : x.quietSpans = none) :
    camRise a c = a.setCam c { x with
      sched := x.sched.erase a.now
      lastEdge := some a.now
      pin := true
      trigCount := x.trigCount + 1
      trigs := x.trigs ++ [{ seq := (x.trigCount + 1) % 2 ^ 32, edge := a.now, exp := a.now + x.cfgDelay.toNat % 2 ^ 20, matched := 0 }]
      expDue := x.expDue ++ [(a.now + x.cfgDelay.toNat % 2 ^ 20, (x.trigCount + 1) % 2 ^ 32)]
      quietSpans := some 0 } := by
  subst hx
  rw [camRise, hdue]
  dsimp only [Bool.not_true, Bool.false_eq_true, if_false]
  rw [hlast, hquiet]
  rfl

theorem camFall_eq {e : Nat} (hlast : x.lastEdge = some e) :
    camFall a c = if e + x.cfgTime.toNat / 2 ^ 16 ≤ a.now then a.setCam c { x with pin := false } else a := by
  subst hx
  unfold camFall
  simp only [hlast, Option.map_some, Option.getD_some, decide_eq_true_eq]

/-- R250: the one exposure due at this tick reaches the latches. -/
theorem camExpose_one {n : Nat} (hdue : x.expDue = [(a.now, n)]) :
    camExpose a c = latchEvent (a.setCam c { x with expDue := [] }) [3] c a.now n := by
  subst hx
  unfold camExpose
  simp only [hdue, List.filter_cons, List.filter_nil, beq_self_eq_true, bne_self_eq_false, if_true, Bool.false_eq_true, if_false]
  rfl

end

/-! ## The camera opcodes (R260 to R262) -/

theorem camTriggerCheck_ok {a : State} {d : Desc} (hfmt : badFormat d (pm 0 1 ||| pm 4 8) false = false) (hc : d.p 0 1 < 8)
    (hown : a.hasCam d.tenant (d.p 0 1) = true) (hexp : a.expert d.tenant = true) (hmode : (a.cam (d.p 0 1)).mode = 3) :
    camTriggerCheck a d = none := by
  simp [camTriggerCheck, firstFail, hfmt, hc, hown, hexp, hmode]

theorem camTrigger_ahead {a : State} {j : Job} (h : a.now + 64 ≤ j.d.p 4 8) :
    camTrigger a j = complete (a.setCam (j.d.p 0 1) { a.cam (j.d.p 0 1) with sched := (a.cam (j.d.p 0 1)).sched ++ [j.d.p 4 8] }) j 0 (j.d.p 4 8) := by
  have ht : max (j.d.p 4 8) (a.now + 64) = j.d.p 4 8 := max_eq_left h
  have hst : (if j.d.p 4 8 < a.now + 64 then 3 else 0) = 0 := if_neg (not_lt.mpr h)
  unfold camTrigger
  rw [ht]
  exact congrArg (fun st => complete (a.setCam (j.d.p 0 1) { a.cam (j.d.p 0 1) with sched := (a.cam (j.d.p 0 1)).sched ++ [j.d.p 4 8] }) j st (j.d.p 4 8)) hst

theorem camTrigger_soon {a : State} {j : Job} (h : j.d.p 4 8 < a.now + 64) :
    camTrigger a j = complete (a.setCam (j.d.p 0 1) { a.cam (j.d.p 0 1) with sched := (a.cam (j.d.p 0 1)).sched ++ [a.now + 64] }) j 3 (a.now + 64) := by
  have ht : max (j.d.p 4 8) (a.now + 64) = a.now + 64 := max_eq_right h.le
  have hst : (if j.d.p 4 8 < a.now + 64 then 3 else 0) = 3 := if_pos h
  unfold camTrigger
  rw [ht]
  exact congrArg (fun st => complete (a.setCam (j.d.p 0 1) { a.cam (j.d.p 0 1) with sched := (a.cam (j.d.p 0 1)).sched ++ [a.now + 64] }) j st (a.now + 64)) hst

/-- R261: the slot that holds the frame is locked for the copy. -/
theorem frameReadStart_held {a : State} {j : Job} {n b : Nat} (hn : n = j.d.p 4 8 % max 1 (a.vcSlots (j.d.p 0 1) (j.d.p 1 1)))
    (hon : a.vcOn (j.d.p 0 1) (j.d.p 1 1) = true) (hseq : a.hdr (j.d.p 0 1) (j.d.p 1 1) n 0 8 = j.d.p 4 8)
    (hdone : bit (a.hdr (j.d.p 0 1) (j.d.p 1 1) n 38 2) 0 = true)
    (hb : b = 64 + a.vcPitch (j.d.p 0 1) (j.d.p 1 1) * a.hdr (j.d.p 0 1) (j.d.p 1 1) n 34 2) :
    frameReadStart a j = keep (slotLock a (j.d.p 0 1) (j.d.p 1 1) n (· + 1)) { j with
      phase := .active, slices := [copyCost (a.nextCopy j.d b)], aux := [0, b, n, a.nextCopy j.d b] } := by
  subst hn hb
  exact if_pos (by rw [hon, hseq, hdone]; simp)

theorem frameReadStart_off {a : State} {j : Job} (h : a.vcOn (j.d.p 0 1) (j.d.p 1 1) = false) : frameReadStart a j = complete a j 0 0 :=
  if_neg (by simp [h])

/-- R262: with its last byte the copy gives up the slot. -/
theorem frameReadDone_eq {a : State} {id : Nat} {j : Job} (hjob : a.job? id = some j) (hop : j.d.op = 0x51#8) (hact : j.phase = .active) :
    frameReadDone a id =
      if j.slices = [] then complete (slotLock a (j.d.p 0 1) (j.d.p 1 1) (nth j.aux 2) (· - 1)) j 0 (1 + 2 ^ 32 * nth j.aux 0) else a := by
  rw [frameReadDone, hjob]
  by_cases h : j.slices = []
  · rw [if_pos h]
    exact if_pos ⟨hop, hact, h⟩
  · rw [if_neg h]
    exact if_neg fun hall => h hall.2.2

end Sys2Proof.Machine

namespace Sys2Proof.Settled
open Machine

/-- Settles O33. The deskew wait of an enable is entry 73 of the log, stray packets entry 74, slices and lock of FRAME_READ entry 76. -/
theorem cameras : Obligations.Cameras := by
  refine ⟨⟨fun s a t w c v hporst ha hw => ?_, fun s a t w c n v hporst ha hw => ?_, fun s a t c hporst ha => ?_⟩,
    ⟨fun s a t c v dt px ok hporst ha => ?_, fun s a t k c v htab hporst ha hk hlisten hon hopen => ?_,
      fun s a t k c v dt px ok f hporst ha hk hlisten hon hdt hopen => ?_, fun s a t k c v f hporst ha hk hlisten => ?_⟩,
    fun s a t c x hporst ha hx => ?_, fun s a t c d j hporst htaken hc hfmt hc8 hown hexp hmode => ?_,
    fun s a t c v n d j hporst htaken hc hv hcheck hn => ?_, fun s a t id j hporst ha hjob hop hact => ?_⟩
  · have hexec : exec (.camEnable t c v) s = .next (writeCamCfg a c (v.toNat ||| 1)) := by
      rw [ha]
      exact show execCamEnable t c v s = _ from act_next hporst rfl
    have hbit : bit (camCfgMask (v.toNat ||| 1)) 0 = true := (bit_mod_zero _ 16).trans (bit_or_one _)
    rw [hexec]
    subst hw
    refine ⟨fun hrun => ?_, fun hrun hon hne => ?_, fun hrun hon heq => ?_, fun hrun hoff hok => ?_, fun hrun hoff hbad => ?_⟩
    · rw [writeCamCfg_run hrun]
    · rw [writeCamCfg_on hrun hbit hon, if_pos hne]
    · rw [writeCamCfg_on hrun hbit hon, if_neg (not_not.mpr heq)]
    · rw [writeCamCfg_off hrun hbit hoff, if_pos hok]
    · rw [writeCamCfg_off hrun hbit hoff, if_neg (by simp [hbad])]
  · have hexec : exec (.camVcRingEnable t c n v) s = .next (writeVcRing a c n (v.toNat ||| 1)) := by
      rw [ha]
      exact show execCamVcRingEnable t c n v s = _ from act_next hporst rfl
    have hbit : bit ((v.toNat ||| 1) % 2 ^ 28) 0 = true := (bit_mod_zero _ 27).trans (bit_or_one _)
    rw [hexec]
    subst hw
    refine ⟨fun hrun => ?_, fun hrun hoff hok => ?_, fun hrun hoff hbad => ?_, fun hrun hon hne => ?_⟩
    · rw [writeVcRing_run hrun]
    · rw [writeVcRing_off hrun hoff hbit, if_pos hok]
    · rw [writeVcRing_off hrun hoff hbit, hbad]
      rfl
    · rw [writeVcRing_changed hrun hon hne]
  · subst ha
    refine ⟨fun hwait => ?_, fun hwait => ?_, ?_, fun hon hwait => ?_⟩
    · show execDeskewReceived t c s = _
      exact act_next hporst (if_pos hwait)
    · show execDeskewReceived t c s = _
      exact act_next hporst (if_neg (by simp [hwait]))
    · show execCamReceiverLock t c false s = _
      exact act_next hporst rfl
    · show execCamReceiverLock t c true s = _
      have hup : (true && (advance s t).bitAt (camKey c 0) 0 && !((advance s t).cam c).deskewWait) = true := by rw [hon, hwait]; rfl
      exact act_next hporst (congrArg (fun b => (advance s t).setCam c { (advance s t).cam c with linkUp := b }) hup)
  · have hstart (h : HdrCheck) : exec (.frameStart t c v h) s = .next (frameStart a c v h) := by
      rw [ha]
      exact show execFrameStart t c v h s = _ from act_next hporst rfl
    have hend (h : HdrCheck) : exec (.frameEnd t c v h) s = .next (frameEnd a c v h) := by
      rw [ha]
      exact show execFrameEnd t c v h s = _ from act_next hporst rfl
    have hlong (h : HdrCheck) : exec (.longPacket t c v h dt px ok) s = .next (longPacket a c v h dt px ok) := by
      rw [ha]
      exact show execLongPacket t c v h dt px ok s = _ from act_next hporst rfl
    refine ⟨fun hdeaf h => ?_, fun hlisten u hu => ?_⟩
    · obtain ⟨h1, h2, h3⟩ := frame_deaf (v := v) hdeaf h dt px ok
      rw [hstart, hend, hlong, h1, h2, h3]
      exact ⟨rfl, rfl, rfl⟩
    · obtain ⟨h1, h2, h3⟩ := frame_badHeader (v := v) hlisten dt px ok
      rw [hstart, hend, hlong, h1, h2, h3, hu]
      exact ⟨rfl, rfl, rfl⟩
  · subst hk
    obtain ⟨f, hvc, hslot, hdrop, hfs, hgot⟩ := openFrame_vc (s := a) (by rw [ha]; exact tables_advance htab t) c v
    refine ⟨openFrame a c v, f, ?_, ?_, ?_, hslot, hdrop, hfs, hgot⟩
    · rw [← frameStart_good hlisten hon hopen, ha]
      exact show execFrameStart t c v .good s = _ from act_next hporst rfl
    · rw [hvc]
    · rw [hvc]
  · have hexec : exec (.longPacket t c v .good dt px ok) s = .next (longPacket a c v .good dt px ok) := by
      rw [ha]
      exact show execLongPacket t c v .good dt px ok s = _ from act_next hporst rfl
    subst hk
    rw [hexec, longPacket_good hlisten hon hdt hopen]
    refine ⟨fun hdrop => ?_, fun hdrop hfull => ?_, fun hdrop hroom hkind hshort => ?_⟩
    · rw [if_pos hdrop]
    · rw [if_neg (by simp [hdrop]), if_pos hfull]
    · rw [if_neg (by simp [hdrop]), if_neg (not_le.mpr hroom), if_neg hkind, Nat.mul_one, List.take_of_length_le hshort,
        decide_eq_false (not_lt.mpr hshort), Bool.or_false]
  · have hexec : exec (.frameEnd t c v .good) s = .next (frameEnd a c v .good) := by
      rw [ha]
      exact show execFrameEnd t c v .good s = _ from act_next hporst rfl
    subst hk
    rw [hexec]
    refine ⟨fun hopen => ?_, fun hopen hdrop => ?_, fun hopen hdrop hidle => ?_⟩
    · rw [frameEnd_good hlisten, closeFrame_none hopen]
    · rw [frameEnd_good hlisten, closeFrame_some hopen, if_pos hdrop]
    · rw [frameEnd_stored hlisten hopen hdrop hidle]
  · have hrise : exec (.camTrigRise t c) s = .next (camRise a c) := by
      rw [ha]
      exact show execCamTrigRise t c s = _ from act_next hporst rfl
    have hfall : exec (.camTrigPulseEnd t c) s = .next (camFall a c) := by
      rw [ha]
      exact show execCamTrigPulseEnd t c s = _ from act_next hporst rfl
    rw [hrise, hfall]
    refine ⟨fun hdue => ?_, fun e hdue hlast hgap => ?_, fun hdue hlast hquiet => ?_, fun e hlast hover => ?_, fun e hlast hearly => ?_,
      fun n hexp => ?_⟩
    · exact congrArg _ (if_pos (by simp [hdue]))
    · rw [camRise_suppressed hx hdue hlast hgap]
    · rw [camRise_first hx hdue hlast hquiet]
    · rw [camFall_eq hx hlast, if_pos hover]
    · rw [camFall_eq hx hlast, if_neg (not_le.mpr hearly)]
    · rw [← camExpose_one hx hexp, ha]
      exact show execExposureEvent t c s = _ from act_next hporst rfl
  · subst hc
    have hcheck := camTriggerCheck_ok hfmt hc8 hown hexp hmode
    refine ⟨fun hahead => ?_, fun hsoon => ?_⟩
    · rw [Safety.answer, ← camTrigger_ahead hahead]
      show execCamTrigger t d s = _
      exact act_runOp_pass hporst htaken hcheck
    · rw [Safety.answer, ← camTrigger_soon hsoon]
      show execCamTrigger t d s = _
      exact act_runOp_pass hporst htaken hcheck
  · subst hc hv
    refine ⟨fun hon hseq hdone b hb => ?_, fun hoff => ?_⟩
    · rw [← frameReadStart_held hn hon hseq hdone hb]
      show execFrameRead t d s = _
      exact act_runOp_pass hporst htaken hcheck
    · rw [Safety.answer, ← frameReadStart_off hoff]
      show execFrameRead t d s = _
      exact act_runOp_pass hporst htaken hcheck
  · have hexec : exec (.frameReadCopyDone t id) s = .next (frameReadDone a id) := by
      rw [ha]
      exact show execFrameReadCopyDone t id s = _ from act_next hporst rfl
    rw [hexec, frameReadDone_eq hjob hop hact]
    exact ⟨fun h => by rw [if_pos h], fun h => by rw [if_neg h]⟩

end Sys2Proof.Settled
end

section
/-!
SUPPORT. Vision (chapter 08): the stages of a frame, lost ports and the vision opcodes.
-/
namespace Sys2Proof.Machine

/-- A pipeline just written reads back. -/
theorem pipe_setPipe_self {s : State} (htab : Safety.Tables s) (k : Nat) (x : Pipe) : (s.setPipe k x).pipe k = x :=
  storeGet_storePut_self _ htab.pipes k x

/-- Two states with the same pipelines. -/
theorem pipe_congr {s t : State} (h : t.pipes = s.pipes) (p : Nat) : t.pipe p = s.pipe p := by rw [State.pipe, h]; rfl

theorem planNow_pipes (s : State) (j : Job) : (planNow s j).pipes = s.pipes := (sameUnits_planNow s j).vision.1

@[simp] theorem keep_pipe (s : State) (j : Job) (p : Nat) : (keep s j).pipe p = s.pipe p := pipe_congr (sameUnits_keep s j).vision.1 p

@[simp] theorem updJob_pipe (s : State) (id : Nat) (f : Job → Job) (p : Nat) : (updJob s id f).pipe p = s.pipe p := rfl

/-- Planning the job of a number leaves the pipelines. -/
theorem planJob_pipes (s : State) (id : Nat) : (match s.job? id with
    | some j => planNow s j
    | none => s).pipes = s.pipes := by
  split
  · exact planNow_pipes s _
  · rfl

/-- R267: joining the stages plans the tracker and leaves the pipelines. -/
theorem joinStages_pipe (s : State) (p job n : Nat) : (joinStages s p job).pipe n = s.pipe n := by
  refine pipe_congr ?_ n
  unfold joinStages
  split
  · split
    · exact planJob_pipes (updJob s job _) job
    · rfl
  · rfl

/-- A change of the only frame of a pipeline. -/
theorem updFrame_pipe {s : State} (htab : Safety.Tables s) {p : Nat} {f : FrameJob} (h : (s.pipe p).frames = [f]) (g : FrameJob → FrameJob) :
    (updFrame s p f.job g).pipe p = { s.pipe p with frames := [g f] } := by
  rw [updFrame, State.updPipe_eq, pipe_setPipe_self htab, h]
  simp [mapIf]

section
variable {a : State} {p : Nat} {f : FrameJob} (htab : Safety.Tables a) (hframes : (a.pipe p).frames = [f]) (hmissed : f.missed = false)
include htab hframes hmissed

/-- R273: the pyramid of a sound frame is built of its level-0 image and becomes the reference of the next. -/
theorem pyramidDone_built (hpyr : f.pyr = none) (hbg : (a.pipe p).bgJobs = []) (hflag : bit f.flags 1 = false) (hue : a.frameUe p f = false) :
    ((pyramidDone a p []).pipe p).prev = some (f.seq, pyramidOf (f.level0 (a.framePixels p f))) ∧
      ∃ g, ((pyramidDone a p []).pipe p).frames = [g] ∧ g.job = f.job ∧ g.pyr = some (pyramidOf (f.level0 (a.framePixels p f))) := by
  have hfind : (a.pipe p).frames.find? (fun f => f.pyr.isNone && !f.missed) = some f := by simp [hframes, hpyr, hmissed]
  unfold pyramidDone
  rw [hfind]
  dsimp -zeta only
  extract_lets s₁ img pyr x s₂ ref runs s₃ s₄ s₅
  have hs₁ : s₁ = a := rfl
  have hs₂ : s₂ = a := if_pos (by simp [x, hs₁, hbg])
  have hsound : ¬ (bit f.flags 1 || s₂.frameUe p f || ([] : List DeckErr).any (·.ue)) = true := by rw [hflag, hs₂, hue]; simp
  rw [if_neg hsound]
  have htab₂ : Safety.Tables s₂ := hs₂ ▸ htab
  have hs₃ : s₃.pipe p = { s₂.pipe p with prev := some (f.seq, pyr) } := pipe_setPipe_self htab₂ _ _
  have htab₃ : Safety.Tables s₃ := (keeps_updPipe (Keeps.refl s₂) p _).tables htab₂
  have hframes₃ : (s₃.pipe p).frames = [f] := by rw [hs₃, hs₂]; exact hframes
  have hs₄ := updFrame_pipe htab₃ hframes₃ fun g =>
    { g with pyr := some pyr, ref := if runs then ref else none, mvs := if runs then none else some [] }
  have hbuilt (u : State) (hu : u.pipe p = s₄.pipe p) : (u.pipe p).prev = some (f.seq, pyr) ∧
      ∃ g, (u.pipe p).frames = [g] ∧ g.job = f.job ∧ g.pyr = some pyr := by
    rw [hu, show s₄.pipe p = _ from hs₄, hs₃]
    exact ⟨rfl, _, rfl, rfl, rfl⟩
  split
  · exact hbuilt _ (pipe_congr (planNow_pipes s₅ _) p)
  · exact hbuilt s₅ rfl

/-- R276: the motion vectors of a frame with a pyramid. -/
theorem motionDone_frames (hpyr : f.pyr ≠ none) (hmvs : f.mvs = none) :
    ((motionDone a p).pipe p).frames =
      [{ f with mvs := some (motionOf (nth f.params 4) (nth f.params 5) (f.pyr.getD []) (f.ref.getD [])), ref := none }] := by
  have hsome : f.pyr.isSome = true := Option.isSome_iff_ne_none.mpr hpyr
  have hfind : (a.pipe p).frames.find? (fun f => f.pyr.isSome && f.mvs.isNone && !f.missed) = some f := by simp [hframes, hsome, hmvs, hmissed]
  unfold motionDone
  rw [hfind]
  dsimp only
  rw [joinStages_pipe, updJob_pipe, updFrame_pipe htab hframes]

/-- R284 to R287: the observations of a frame with a pyramid, 4,096 at most. -/
theorem blobDone_frames (hpyr : f.pyr ≠ none) (hobs : f.obs = none) :
    ∃ obs, ((blobDone a p).pipe p).frames = [{ f with obs := some obs }] ∧ obs.length ≤ 4096 ∧ ((blobDone a p).pipe p).lastBlobs = obs.length := by
  have hsome : f.pyr.isSome = true := Option.isSome_iff_ne_none.mpr hpyr
  have hfind : (a.pipe p).frames.find? (fun f => f.pyr.isSome && f.obs.isNone && !f.missed) = some f := by simp [hframes, hsome, hobs, hmissed]
  unfold blobDone
  rw [hfind]
  dsimp -zeta only
  extract_lets x img par bg fg dt b all kept obs hist s₁ s₂ s₃
  have hkeeps₁ : Keeps a s₁ := Keeps.ite (keeps_visFlag (keeps_count (Keeps.refl a) _) p 2) (Keeps.refl a)
  have hs₁ : s₁.pipe p = a.pipe p := by
    refine pipe_congr ?_ p
    show (if 4096 < all.length then visFlag (count a (visKey p 0x38)) p 2 else a).pipes = a.pipes
    split
    · exact (books_flag (books_count (Books.refl a) _) _ _).units.vision.1
    · rfl
  have hs₂ : (s₂.pipe p).frames = [f] ∧ (s₂.pipe p).lastBlobs = obs.length := by
    rw [show s₂.pipe p = _ from pipe_setPipe_self (hkeeps₁.tables htab) p _, hs₁]
    exact ⟨hframes, rfl⟩
  have htab₂ : Safety.Tables s₂ := (keeps_updPipe hkeeps₁ p _).tables htab
  have hs₃ : s₃.pipe p = { s₂.pipe p with frames := [{ f with obs := some obs }] } :=
    updFrame_pipe htab₂ hs₂.1 fun g => { g with obs := some obs }
  rw [joinStages_pipe, updJob_pipe, hs₃]
  refine ⟨obs, rfl, ?_, hs₂.2⟩
  rw [List.length_map]
  exact List.length_take_le _ _

end

/-- R291: the tracker takes the only frame, which has both. -/
theorem trackerRun_one {a u : State} {p : Nat} {f : FrameJob} {obs : List Obs} {mvs : List MotionVec} (hframes : (a.pipe p).frames = [f])
    (hobs : f.obs = some obs) (hmvs : f.mvs = some mvs)
    (hu : u = count (dropJob (a.setPipe p { a.pipe p with frames := [] }) f.job) (visKey p 0x2C)) :
    trackerRun a p = if f.dead then u else trackFrame u p { f with obs := some (obs.map (withVec (f.fmt.toNat % 2 ^ 13) mvs)) } := by
  subst hu
  rw [trackerRun, hframes]
  dsimp only
  rw [hobs, hmvs]
  rfl

/-- R267: a pipeline without frames has nothing to do. -/
theorem stages_idle {a : State} {p : Nat} (h : (a.pipe p).frames = []) :
    (∀ e, pyramidDone a p e = a) ∧ motionDone a p = a ∧ blobDone a p = a ∧ trackerRun a p = a := by
  refine ⟨fun e => ?_, ?_, ?_, ?_⟩
  · rw [pyramidDone, h]; rfl
  · rw [motionDone, h]; rfl
  · rw [blobDone, h]; rfl
  · rw [trackerRun, h]

/-! ## A lost port (R252, R297) -/

/-- A camera just written reads back. -/
theorem cam_setCam_self {s : State} (htab : Safety.Tables s) (k : Nat) (x : Cam) : (s.setCam k x).cam k = x :=
  storeGet_storePut_self _ htab.cams k x

@[simp] theorem flag_cam (s : State) (k mask n : Nat) : (flag s k mask).cam n = s.cam n := by
  rw [State.cam, (books_flag (Books.refl s) k mask).units.cams.1]
  rfl

theorem camLost_due {s : State} {c n : Nat} (hmode : (s.cam c).mode ≠ 0) (hup : (s.cam c).portLost = false)
    (hquiet : (s.cam c).quietSpans = some n) (hdue : (s.cam c).cfgTimeout.toNat % 2 ^ 16 ≤ n) :
    camLost s c = flag (s.setCam c { s.cam c with portLost := true, quietSpans := none }) (camKey c 0x20) 2 := by
  have hmode' : ((s.cam c).mode != 0) = true := bne_iff_ne.mpr hmode
  unfold camLost
  dsimp only
  rw [hmode', hup, hquiet]
  exact if_pos (decide_eq_true hdue)

theorem visPortLost_due {s : State} {c n : Nat} (htab : Safety.Tables s) (hmode : (s.cam c).mode ≠ 0) (hup : (s.cam c).portLost = false)
    (hquiet : (s.cam c).quietSpans = some n) (hdue : (s.cam c).cfgTimeout.toNat % 2 ^ 16 ≤ n) :
    visPortLost s c = [0, 1, 2, 3].foldl (fun u v => u.updPipe (4 * c + v) fun x => { x with tracks := [] })
      (flag (s.setCam c { s.cam c with portLost := true, quietSpans := none }) (camKey c 0x20) 2) := by
  unfold visPortLost
  rw [camLost_due hmode hup hquiet hdue]
  extract_lets x s'
  have hlost : (s'.cam c).portLost = true := congrArg Cam.portLost ((flag_cam _ _ _ _).trans (cam_setCam_self htab c _))
  exact if_pos (by rw [hlost, hup]; rfl)

/-- A port without a trigger mode is never lost. -/
theorem visPortLost_off {s : State} {c : Nat} (hmode : (s.cam c).mode = 0) : visPortLost s c = s := by
  have hlost : camLost s c = s := if_neg (by simp [hmode])
  unfold visPortLost
  rw [hlost]
  exact if_neg (by simp)

/-! ## The vision opcodes (Table 08-4) -/

theorem doVisStart_eq (a : State) (d : Desc) :
    doVisStart a d = a.setPipe (visPipeOf d) (if (a.pipe (visPipeOf d)).running then
        { a.pipe (visPipeOf d) with clsNext := d.p 2 1, deadlineNext := d.p 4 2, ovr := [] }
      else { a.pipe (visPipeOf d) with
        clsNext := d.p 2 1, deadlineNext := d.p 4 2, ovr := [], running := true, cls := d.p 2 1, deadline := d.p 4 2
        bgValid := false, bg := [], lastBlobs := 64 }) := by
  rw [doVisStart, State.updPipe_eq]

theorem visPlainCheck_ok {a : State} {d : Desc} (hfmt : badFormat d (pm 0 2) false = false) (hc : d.p 0 1 < 8) (hv : d.p 1 1 < 4)
    (hcam : a.hasCam d.tenant (d.p 0 1) = true) : visPlainCheck a d = none := by
  simp [visPlainCheck, visCheck, firstFail, hfmt, hc, hv, hcam]

/-- The unsigned field of a number that is not negative. -/
theorem unsigned_natCast (w y : Nat) : unsigned w (y : Int) = y % 2 ^ w := by
  unfold unsigned
  norm_cast

/-- R303: a setting is stored clamped to its limits. -/
theorem visParam_eq {a u : State} {j : Job} {y : Nat} (hn : j.d.p 2 1 ≠ 11)
    (hy : (y : Int) = clampI (j.d.p 4 4) (visField (j.d.p 2 1)).2.2.2.1 (visField (j.d.p 2 1)).2.2.2.2)
    (hu : u = a.setPipe (visPipeOf j.d) { a.pipe (visPipeOf j.d) with
      ovr := storePut (fun _ => 0) (a.pipe (visPipeOf j.d)).ovr (j.d.p 2 1) (y % 2 ^ (visField (j.d.p 2 1)).2.2.1 + 1) }) :
    visParam a j = if y = j.d.p 4 4 then complete u j 0 0 else complete u j 3 (j.d.p 2 1 + 2 ^ 32 * (y % 2 ^ 32)) := by
  subst hu
  unfold visParam
  extract_lets n f v y' s₁
  have hv : v = (j.d.p 4 4 : Int) := if_neg hn
  have hy' : y' = (y : Int) := by rw [hy, ← hv]
  have hs₁ : s₁ = a.setPipe (visPipeOf j.d) { a.pipe (visPipeOf j.d) with
      ovr := storePut (fun _ => 0) (a.pipe (visPipeOf j.d)).ovr n (y % 2 ^ f.2.2.1 + 1) } := by
    rw [← unsigned_natCast, ← hy']
    rfl
  rw [hs₁, hy', hv, unsigned_natCast]
  simp only [Nat.cast_inj]
  rfl

/-- R302: VIS_STOP ends when no started frame is left. -/
theorem visStopDone_none {a : State} {p : Nat} (h : (a.pipe p).frames = []) :
    visStopDone a p = (a.pipe p).stopJobs.foldl (fun s i => match s.job? i with
      | some j => complete s j 0 (nth j.aux 0)
      | none => s) (a.setPipe p { a.pipe p with stopJobs := [] }) := by
  unfold visStopDone
  exact if_neg (by simp [h])

end Sys2Proof.Machine

namespace Sys2Proof.Settled
open Machine

/-- Settles O34. The 64 blobs first assumed are entry 12 of the log, when overrides end entry 82, the settings of a first frame entry 85. -/
theorem vision : Obligations.Vision := by
  refine ⟨⟨fun s a t p f htab hporst ha hframes hmissed => ?_, fun s a t p hporst ha hframes => ?_, fun s c n htab hporst => ?_⟩,
    ⟨fun s a t p d j hporst htaken hp hcheck => ?_, fun s a t p d j hporst hp hfmt hc hv hcam => ?_,
      fun s a t d j hporst htaken hcheck => ?_, fun s a t d j hporst htaken hcheck hn11 p n y f hp hn hf hy u hu => ?_,
      fun s a t p hporst ha => ?_⟩⟩
  · have htab' : Safety.Tables a := by rw [ha]; exact tables_advance htab t
    refine ⟨fun hpyr hbg hflag hue => ?_, fun hpyr hmvs => ?_, fun hpyr hobs => ?_, fun obs mvs u hobs hmvs hu => ?_⟩
    · refine ⟨pyramidDone a p [], ?_, pyramidDone_built htab' hframes hmissed hpyr hbg hflag hue⟩
      rw [ha]
      exact show execPyramidDone t p [] s = _ from act_next hporst rfl
    · refine ⟨motionDone a p, ?_, motionDone_frames htab' hframes hmissed hpyr hmvs⟩
      rw [ha]
      exact show execMotionEstimationDone t p s = _ from act_next hporst rfl
    · obtain ⟨obs, hblobs⟩ := blobDone_frames htab' hframes hmissed hpyr hobs
      refine ⟨blobDone a p, obs, ?_, hblobs⟩
      rw [ha]
      exact show execBlobClassifyDone t p s = _ from act_next hporst rfl
    · have hexec : exec (.trackerRun t p) s = .next (trackerRun a p) := by
        rw [ha]
        exact show execTrackerRun t p s = _ from act_next hporst rfl
      rw [hexec, trackerRun_one hframes hobs hmvs hu]
      exact ⟨fun hdead => by rw [if_pos hdead], fun hdead => by rw [if_neg (by simp [hdead])]⟩
  · obtain ⟨hpyr, hmotion, hblob, htrack⟩ := stages_idle hframes
    subst ha
    refine ⟨fun e => ?_, ?_, ?_, ?_⟩
    · exact show execPyramidDone t p e s = _ from act_next hporst (hpyr e)
    · exact show execMotionEstimationDone t p s = _ from act_next hporst hmotion
    · exact show execBlobClassifyDone t p s = _ from act_next hporst hblob
    · exact show execTrackerRun t p s = _ from act_next hporst htrack
  · refine ⟨fun hmode hup hquiet hdue => ?_, fun hmode => ?_⟩
    · exact show execPortLost c s = _ from act_next hporst (visPortLost_due htab hmode hup hquiet hdue)
    · exact show execPortLost c s = _ from act_next hporst (visPortLost_off hmode)
  · have hexec : exec (.visStart t d) s = .next (Safety.answer (doVisStart a j.d) j 0 0) :=
      show execVisStart t d s = _ from act_runOp_pass hporst htaken hcheck
    subst hp
    rw [hexec, doVisStart_eq]
    exact ⟨fun hrun => by rw [if_neg (by simp [show (a.pipe (visPipeOf j.d)).running = false from hrun])]; rfl,
      fun hrun => by rw [if_pos (show (a.pipe (visPipeOf j.d)).running = true from hrun)]; rfl⟩
  · have hcheck : visPlainCheck a j.d = none := visPlainCheck_ok hfmt hc hv hcam
    subst hp
    refine ⟨fun htaken => ?_, fun htaken => ?_⟩
    · exact show execVisStop t d s = _ from act_runOp_pass hporst htaken hcheck
    · have hcapture : visBgCapture a j = (keep a { j with phase := .active }).setPipe (visPipeOf j.d)
          { a.pipe (visPipeOf j.d) with bgJobs := (a.pipe (visPipeOf j.d)).bgJobs ++ [j.id] } := by
        rw [visBgCapture, State.updPipe_eq, keep_pipe]
      refine Eq.trans ?_ (congrArg (fun u => Host.Outcome.next (planNow u j)) hcapture)
      exact show execVisBgCapture t d s = _ from act_runOp_pass hporst htaken hcheck
  · exact show execVisClassLoad t d s = _ from act_runOp_pass hporst htaken hcheck
  · subst hp hn hf
    have hexec : exec (.visParam t d) s = .next (planNow (visParam a j) j) :=
      show execVisParam t d s = _ from act_runOp_pass hporst htaken hcheck
    rw [hexec, visParam_eq hn11 hy hu]
    exact ⟨fun h => by rw [if_pos h]; rfl, fun h => by rw [if_neg h]; rfl⟩
  · have hexec : exec (.visStopDone t p) s = .next (visStopDone a p) := by
      rw [ha]
      exact show execVisStopDone t p s = _ from act_next hporst rfl
    rw [hexec]
    refine ⟨fun ⟨f, hf, hdead⟩ => ?_, fun j hframes hjobs hjob => ?_, fun hframes hjobs => ?_⟩
    · exact congrArg _ (if_pos (List.any_eq_true.mpr ⟨f, hf, hdead⟩))
    · rw [visStopDone_none hframes, hjobs]
      have hjob' : (a.setPipe p { a.pipe p with stopJobs := [] }).job? j.id = some j := hjob
      rw [List.foldl_cons, hjob']
      rfl
    · have hsame : ({ a.pipe p with stopJobs := [] } : Pipe) = a.pipe p := by rw [← hjobs]
      rw [visStopDone_none hframes, hjobs, hsame]
      rfl

end Sys2Proof.Settled
end

section
/-!
SUPPORT. Nozzle rows, the Arc unit and the valve opcodes (chapter 09).
-/
namespace Sys2Proof.Machine

/-! ## NR_CFG (R305, R336) -/

section
variable {a : State} {r w : Nat}

theorem writeNrCfg_run (hrun : a.mode = .run) : writeNrCfg a r w = a := if_pos hrun

theorem writeNrCfg_noValves (hrun : a.mode ≠ .run) (hmax : bits (w % 2 ^ 29) 21 3 = 0) : writeNrCfg a r w = flag a kEj 4 := by
  unfold writeNrCfg
  extract_lets k w'
  rw [if_neg hrun, if_pos hmax]
  rfl

theorem writeNrCfg_enable (hrun : a.mode ≠ .run) (hmax : bits (w % 2 ^ 29) 21 3 ≠ 0) (hw : bit (w % 2 ^ 29) 0 = true) :
    writeNrCfg a r w = if a.rowOk r (w % 2 ^ 29) (a.rd (rowKey r 0xC)) then a.wr (rowKey r 0) (w % 2 ^ 29) else flag a kEj 4 := by
  unfold writeNrCfg
  extract_lets k w'
  rw [if_neg hrun, if_neg hmax, if_pos hw]
  rfl

theorem writeNrCfg_disable (hrun : a.mode ≠ .run) (hmax : bits (w % 2 ^ 29) 21 3 ≠ 0) (hw : bit (w % 2 ^ 29) 0 = false) :
    writeNrCfg a r w =
      if a.rowOn r then (a.wr (rowKey r 0) (w % 2 ^ 29)).setRow r { a.row r with
        stopping := (a.row r).running, starting := (a.row r).starting && (a.row r).running }
      else a.wr (rowKey r 0) (w % 2 ^ 29) := by
  unfold writeNrCfg
  extract_lets k w'
  rw [if_neg hrun, if_neg hmax, if_neg (by rw [show bit w' 0 = false from hw]; exact Bool.false_ne_true)]
  rfl

end

/-! ## The opcodes of a row (R306, R308, R348) -/

theorem rowCheck_ok {a : State} {d : Desc} {named : Nat} (hfmt : badFormat d named false = false) (hr : d.p 0 1 < 16)
    (hmay : a.mayRow d.tenant (d.p 0 1) = true) :
    firstFail [(badFormat d named false || decide (15 < d.p 0 1), 0x14, 0), (!a.mayRow d.tenant (d.p 0 1), 0x11, 0)] = none := by
  simp [firstFail, hfmt, hmay]
  omega

theorem ejectStopCheck_foreign {a : State} {d : Desc} (hfmt : badFormat d (pm 0 1) false = false) (hr : d.p 0 1 < 16)
    (hmay : a.mayRow d.tenant (d.p 0 1) = false) : ejectStopCheck a d = some (0x11, 0) := by
  simp [ejectStopCheck, firstFail, hfmt, hmay]
  omega

/-- A trim within its limits is stored as it is. -/
theorem doEjectTrim_kept {a : State} {j : Job} (hlow : -400000 ≤ j.d.pS 4 4) (hhigh : j.d.pS 4 4 ≤ 400000) :
    doEjectTrim a j = complete (a.wr (rowKey (j.d.p 0 1) 0x1C) (unsigned 32 (j.d.pS 4 4))) j 0 0 := by
  have hc : clampI (j.d.pS 4 4) (-400000) 400000 = j.d.pS 4 4 := by rw [clampI, if_neg (not_lt.mpr hlow), if_neg (not_lt.mpr hhigh)]
  dsimp only [doEjectTrim]
  rw [hc]
  exact if_pos rfl

/-- A trim above its limit is stored as the limit. -/
theorem doEjectTrim_clamped {a : State} {j : Job} (hhigh : 400000 < j.d.pS 4 4) :
    doEjectTrim a j = complete (a.wr (rowKey (j.d.p 0 1) 0x1C) 400000) j 3 (2 ^ 32 * 400000) := by
  have hc : clampI (j.d.pS 4 4) (-400000) 400000 = 400000 := by rw [clampI, if_neg (by omega), if_pos hhigh]
  dsimp only [doEjectTrim]
  rw [hc]
  exact if_neg hhigh.ne

/-! ## The Arc unit (R307 to R320) -/

section
variable {a u : State} {r : Nat} {i : Item} {rest : List Item} (htaken : (a.row r).taken = i :: rest)
  (hu : u = a.setRow r { a.row r with taken := rest })
include htaken hu

/-- The next item a row has taken is one of three kinds. -/
theorem arcFit_next :
    arcFit a r = match i.body with
      | .data p => arcRecord u r p
      | .gap last _ lanes => if a.bitAt (qKey (a.row r).tenant (a.row r).queue 0) 4 then arcMarker u r i.time last lanes else u
      | .flush _ _ _ => u := by
  subst hu
  rw [arcFit, htaken]
  rfl

end

section
variable {s : State} {r : Nat} {p : List Byte}

/-- The policy of R310 selects a record flagged valid. -/
theorem arcRecord_valid {f : Fit} (hflag : recU p 6 1 % 2 = 1) (hfit : s.checkPrior r (s.fitOf r p) = (f, false)) :
    arcRecord s r p =
      match crossTime f.y0 f.vy (mkRat (signed 32 (s.rd (rowKey r 0x10))) 256) (mkRat (signed 32 (s.rd (rowKey r 4))) 65536) with
      | none => rowCount s r 2
      | some t =>
        match s.chosen r (f.x0 + f.vx * t) (ratSqrt ((recU p 12 4 : Nat) / ratPi) * (s.fld (rowKey r 0x2C) 8 8 : Nat) / 100) with
        | [] => rowCount s r 3
        | l => fitted s r (l.map fun i =>
            { kind := .arc r (recU p 0 4), valve := s.rowFirst r + i
              opn := recU p 16 8 + (t * 400000000 + mkRat 1 2).floor - (s.rd (rowKey r 0x14) % 2 ^ 24 : Nat)
              cls := recU p 16 8 + (t * 400000000 + mkRat 1 2).floor + (s.rd (rowKey r 0x18) % 2 ^ 24 : Nat)
              score := if bit (recU p 6 1) 1 then 65535 else recU p 8 2 }) := by
  have hbit : bit (recU p 6 1) 0 = true := by rw [bit, pow_zero, Nat.div_one, hflag]; rfl
  unfold arcRecord
  extract_lets flags pol fp s₁ f₁ acc rad score
  have hs₁ : s₁ = s := if_neg (by rw [show fp.2 = false from congrArg Prod.snd hfit]; exact Bool.false_ne_true)
  have hf₁ : f₁ = f := congrArg Prod.fst hfit
  rw [if_neg (by rw [show bit flags 0 = true from hbit]; simp)]
  simp only [acc, rad, score, flags, hs₁, hf₁] <;> rfl

/-- A record that its row's policy does not select. -/
theorem arcRecord_unselected (hflag : recU p 6 1 % 2 = 0) (hpol : (s.row r).policy % 8 = 0) : arcRecord s r p = rowCount s r 1 := by
  have hbit : bit (recU p 6 1) 0 = false := by rw [bit, pow_zero, Nat.div_one, hflag]; rfl
  have hpol0 : bit (s.row r).policy 0 = false := by
    have h : (s.row r).policy / 1 % 2 = 0 := by omega
    exact (congrArg (· == 1) h)
  have hpol1 : bit (s.row r).policy 1 = false := by
    have h : (s.row r).policy / 2 % 2 = 0 := by omega
    exact (congrArg (· == 1) h)
  have hpol2 : bit (s.row r).policy 2 = false := by
    have h : (s.row r).policy / 4 % 2 = 0 := by omega
    exact (congrArg (· == 1) h)
  exact if_pos (by rw [hbit, hpol0, hpol1, hpol2]; rfl)

theorem fitted_counted {l : List FitEv} (hl : l ≠ []) (hmode : s.motionMode = false) : fitted s r l = rowCount s r 15 := by
  rw [fitted, if_neg (by simpa using hl), hmode]
  rfl

theorem fitted_motion {l : List FitEv} (hl : l ≠ []) (hmode : s.motionMode = true) :
    fitted s r l = { s with wheel := { s.wheel with fitted := s.wheel.fitted ++ [l] } } := by
  rw [fitted, if_neg (by simpa using hl), hmode]
  rfl

end

/-- R318: the events of one record reach the wheel at one tick. -/
theorem eventInsert_eq {a : State} {l : List FitEv} {rest : List (List FitEv)} (h : a.wheel.fitted = l :: rest) :
    eventInsert a =
      if a.motionMode then l.foldl insertFit { a with wheel := { a.wheel with fitted := rest } }
      else match (l.head?).bind fun e => e.kind.rowOf with
        | some (r, _) => rowCount { a with wheel := { a.wheel with fitted := rest } } r 15
        | none => { a with wheel := { a.wheel with fitted := rest } } := by
  rw [eventInsert, h]
  rfl

/-! ## The valve opcodes (R339, R345, R347 to R350) -/

theorem ejectAtCheck_basic {a : State} {d : Desc} (hfmt : badFormat d (pm 0 20) false = false) (hv : d.p 0 2 < 576)
    (hown : a.hasValve d.tenant (d.p 0 2) = true) (hexp : a.expert d.tenant = false) : ejectAtCheck a d = some (0x15, 0) := by
  have hrange : ¬ 575 < d.p 0 2 := by omega
  simp [ejectAtCheck, firstFail, hfmt, hrange, hown, hexp]

theorem valveLatSetCheck_ok {a : State} {d : Desc} (hfmt : badFormat d (pm 0 2 ||| pm 4 4) false = false) (hv : d.p 0 2 < 576)
    (hown : a.hasValve d.tenant (d.p 0 2) = true) (hexp : a.expert d.tenant = true) : valveLatSetCheck a d = none := by
  have hrange : ¬ 575 < d.p 0 2 := by omega
  simp [valveLatSetCheck, firstFail, hfmt, hrange, hown, hexp]

theorem valveClearCheck_ok {a : State} {d : Desc} (hfmt : badFormat d (pm 0 2) false = false) (hv : d.p 0 2 < 576)
    (hown : a.hasValve d.tenant (d.p 0 2) = true) : valveClearCheck a d = none := by
  have hrange : ¬ 575 < d.p 0 2 := by omega
  simp [valveClearCheck, firstFail, hfmt, hrange, hown]

/-- R345: a count of 0 ends the tenant's request of one valve. -/
theorem doValveSig_end {a : State} {d : Desc} (hn : d.p 2 2 = 1) (hk : d.p 5 1 = 0) :
    doValveSig a d = a.setValve (d.p 0 2) { a.valve (d.p 0 2) with
      sigs := (a.valve (d.p 0 2)).sigs.filter (·.tenant != d.tenant.val) } := by
  unfold doValveSig
  rw [hn, hk]
  rfl

theorem doValveClear_gone {a : State} {j : Job} {b : Bool} (hfault : (a.valve (j.d.p 0 2)).fault = true)
    (hgone : a.valveCauseGone (j.d.p 0 2) b = true) :
    doValveClear b a j = complete (a.setValve (j.d.p 0 2) { a.valve (j.d.p 0 2) with fault := false, cause := 0 }) j 0 1 :=
  if_pos (by rw [hfault, hgone]; rfl)

theorem doValveClear_sound {a : State} {j : Job} {b : Bool} (hfault : (a.valve (j.d.p 0 2)).fault = false) :
    doValveClear b a j = complete a j 0 0 := if_neg (by rw [hfault]; exact Bool.false_ne_true)

end Sys2Proof.Machine

namespace Sys2Proof.Settled
open Machine

/-- Settles O35. The flag in EJ_STATUS is entry 37 of the log, who may stop or trim a row entry 92. -/
theorem nozzleRows : Obligations.NozzleRows := by
  refine ⟨⟨fun s a t w r v hporst ha => ?_, fun s a t r d j hporst hr => ?_⟩,
    fun s a u t r i rest hporst ha => ?_, fun s r p f tc l => ?_, fun s a t l rest hporst ha => ?_⟩
  · have henable : exec (.nrEnable t r v) s = .next (writeNrCfg a r (v.toNat ||| 1)) := by
      rw [ha]
      exact show execNrEnable t r v s = _ from act_next hporst rfl
    have hdisable : exec (.nrDisable t r v) s = .next (writeNrCfg a r (v.toNat / 2 * 2)) := by
      rw [ha]
      exact show execNrDisable t r v s = _ from act_next hporst rfl
    have hset : bit ((v.toNat ||| 1) % 2 ^ 29) 0 = true := (bit_mod_zero _ 28).trans (bit_or_one _)
    have hclear : bit (v.toNat / 2 * 2 % 2 ^ 29) 0 = false := (bit_mod_zero _ 28).trans (bit_even _)
    rw [henable, hdisable]
    refine ⟨fun hrun => ?_, fun hw hrun hmax => ?_, fun hw hrun hmax hok => ?_, fun hw hrun hmax hbad => ?_, fun hw hrun hmax hon => ?_,
      fun hw hrun hmax hoff => ?_⟩
    · rw [writeNrCfg_run hrun, writeNrCfg_run hrun]
      exact ⟨rfl, rfl⟩
    · subst hw
      rw [writeNrCfg_noValves hrun hmax]
    · subst hw
      rw [writeNrCfg_enable hrun hmax hset, if_pos hok]
    · subst hw
      rw [writeNrCfg_enable hrun hmax hset, hbad]
      rfl
    · subst hw
      rw [writeNrCfg_disable hrun hmax hclear, if_pos hon]
    · subst hw
      rw [writeNrCfg_disable hrun hmax hclear, hoff]
      rfl
  · subst hr
    refine ⟨fun htaken hcheck => ?_, fun htaken hfmt hr hmay => ?_, fun htaken hfmt hr hmay => ?_, fun htaken hfmt hr hmay => ?_⟩
    · exact show execEjectStart t d s = _ from act_runOp_pass hporst htaken hcheck
    · exact show execEjectStop t d s = _ from act_runOp_pass hporst htaken (rowCheck_ok hfmt hr hmay)
    · exact show execEjectStop t d s = _ from act_runOp_stop hporst htaken (ejectStopCheck_foreign hfmt hr hmay)
    · have hexec : exec (.ejectTrim t d) s = .next (planNow (doEjectTrim a j) j) :=
        show execEjectTrim t d s = _ from act_runOp_pass hporst htaken (rowCheck_ok hfmt hr hmay)
      rw [hexec]
      exact ⟨fun hlow hhigh => by rw [doEjectTrim_kept hlow hhigh]; rfl, fun hhigh => by rw [doEjectTrim_clamped hhigh]; rfl⟩
  · have hexec : exec (.arcFit t r) s = .next (arcFit a r) := by
      rw [ha]
      exact show execArcFit t r s = _ from act_next hporst rfl
    rw [hexec]
    refine ⟨fun hnone => ?_, fun htaken hu => ⟨fun p hb => ?_, fun l n c hb hoff => ?_, fun l n c hb hon => ?_, fun l n c hb => ?_⟩⟩
    · rw [arcFit, hnone]
    · rw [arcFit_next htaken hu, hb]
    · rw [arcFit_next htaken hu, hb, hoff]
      rfl
    · rw [arcFit_next htaken hu, hb, hon]
      rfl
    · rw [arcFit_next htaken hu, hb]
  · refine ⟨arcRecord_unselected, fun hflag hfit hnever => ?_, fun hflag hfit hcross hl => ⟨fun hnil => ?_, fun hne hmode => ?_,
      fun hne hmode => ?_⟩⟩
    · rw [arcRecord_valid hflag hfit, hnever]
    · rw [arcRecord_valid hflag hfit, hcross]
      dsimp only
      rw [← hl, hnil]
    · rw [arcRecord_valid hflag hfit, hcross]
      dsimp only
      rw [← hl]
      obtain ⟨i, l', rfl⟩ := List.exists_cons_of_ne_nil hne
      exact fitted_counted (by simp) hmode
    · rw [arcRecord_valid hflag hfit, hcross]
      dsimp only
      rw [← hl]
      obtain ⟨i, l', rfl⟩ := List.exists_cons_of_ne_nil hne
      exact ⟨_, fitted_motion (by simp) hmode, by rw [List.map_map]; rfl⟩
  · have hexec : exec (.eventInsert t) s = .next (eventInsert a) := by
      rw [ha]
      exact show execEventInsert t s = _ from act_next hporst rfl
    rw [hexec]
    refine ⟨fun hnone => ?_, fun hfit hmode => ?_, fun e r k hfit hmode hrow => ?_⟩
    · rw [eventInsert, hnone]
    · rw [eventInsert_eq hfit, if_pos hmode]
    · rw [eventInsert_eq hfit, hmode, if_neg Bool.false_ne_true, List.head?_cons, Option.bind_some, hrow]

/-- Settles O37. When WEAR is judged and the operand of VALVE_CLEAR are entry 91 of the log. -/
theorem valveOpcodes : Obligations.ValveOpcodes := by
  refine fun s a t v d j hporst hv => ?_
  subst hv
  refine ⟨fun htaken hcheck => ?_, fun htaken hcheck => ?_, fun htaken hfmt hv hown hexp => ?_, fun htaken hfmt hv hown hexp => ?_,
    fun htaken hcheck hn hk => ?_, fun b htaken hfmt hv hown => ⟨fun hfault hgone => ?_, fun hfault => ?_⟩⟩
  · exact show execValveTest t d s = _ from act_runOp_pass hporst htaken hcheck
  · exact show execEjectAt t d s = _ from act_runOp_pass hporst htaken hcheck
  · exact show execEjectAt t d s = _ from act_runOp_stop hporst htaken (ejectAtCheck_basic hfmt hv hown hexp)
  · exact show execValveLatSet t d s = _ from act_runOp_pass hporst htaken (valveLatSetCheck_ok hfmt hv hown hexp)
  · rw [← doValveSig_end hn hk]
    exact show execValveSig t d s = _ from act_runOp_pass hporst htaken hcheck
  · rw [Safety.answer, ← doValveClear_gone hfault hgone]
    exact show execValveClear t d b s = _ from act_runOp_pass hporst htaken (valveClearCheck_ok hfmt hv hown)
  · rw [Safety.answer, ← doValveClear_sound (b := b) hfault]
    exact show execValveClear t d b s = _ from act_runOp_pass hporst htaken (valveClearCheck_ok hfmt hv hown)

end Sys2Proof.Settled
end

section
/-!
SUPPORT. The Trestle ring (chapter 10): link-up, breaks and rejoins, sweeps and its opcodes.
-/
namespace Sys2Proof.Machine

/-! ## Link-up (R355, R356) -/

theorem writeTrCfg_run {a : State} {v : Nat} (hrun : a.mode = .run) : writeTrCfg a v = a := if_pos hrun

section
variable {a : State} {v w : Nat} (hw : w = v % 2 ^ 24 - bits v 2 2 * 4)
include hw

/-- R373: the sweep offset is 64 ticks or more. -/
theorem writeTrCfg_early (hrun : a.mode ≠ .run) (hoff : bits w 4 12 < 64) : writeTrCfg a v = flag a kTr 0x20 := by
  subst hw
  unfold writeTrCfg
  extract_lets was w s₁ r
  rw [if_neg hrun, if_pos hoff]
  rfl

/-- R355: ENABLE rising starts a link-up. -/
theorem writeTrCfg_enable (hrun : a.mode ≠ .run) (hoff : 64 ≤ bits w 4 12) (hset : bit w 0 = true) :
    writeTrCfg a v = if a.bitAt 0x40000 0 then a.wr 0x40000 w else startLink (a.wr 0x40000 w) := by
  subst hw
  unfold writeTrCfg
  extract_lets was w s₁ r
  rw [if_neg hrun, if_neg (not_lt.mpr hoff), show bit w 0 = true from hset]
  cases hwas : was
  · rw [if_pos (show (true && !false) = true from rfl), if_neg (by rw [show a.bitAt 0x40000 0 = false from hwas]; exact Bool.false_ne_true)]
  · rw [if_neg (by decide), if_neg (by decide), if_pos hwas]

end

/-- A hop longer than its limit ends the link-up. -/
theorem linkUpDone_long {a : State} {ns : List NodeInfo} {hops : List Nat} {c : Bool} (hlink : a.ring.linking = true)
    (htime : a.tb.spanIx < a.ring.linkStart + 4096) (hlong : ∃ h ∈ hops, 16 * a.fld 0x40000 16 8 < h) :
    linkUpDone a ns hops c = flag { a with ring := { a.ring with linking := false } } kTr 4 := by
  have hany : (hops.any fun h => decide (16 * a.fld 0x40000 16 8 < h)) = true := by simpa using hlong
  unfold linkUpDone
  extract_lets r
  rw [if_neg (by simp [r, hlink, htime]), if_pos hany]
  rfl

/-- R356: a link-up in time brings the ring up with the nodes found. -/
theorem linkUpDone_up {a : State} {ns : List NodeInfo} {hops : List Nat} {c : Bool} (hlink : a.ring.linking = true)
    (htime : a.tb.spanIx < a.ring.linkStart + 4096) (hshort : ∀ h ∈ hops, h ≤ 16 * a.fld 0x40000 16 8) (hjobs : a.ring.relinkJobs = []) :
    ∃ r : Ring, linkUpDone a ns hops c = { a with ring := r } ∧ r.up = true ∧ r.linking = false ∧ r.closed = c ∧
      r.nodes.length = min 16 ns.length ∧ ∀ n ∈ r.nodes, n.reach = true := by
  have hnone : ¬ (hops.any fun h => decide (16 * a.fld 0x40000 16 8 < h)) = true := by simpa using hshort
  unfold linkUpDone
  extract_lets r nodes r' jobs s₁
  have hjobs' : jobs = [] := hjobs
  rw [if_neg (by simp [r, hlink, htime]), if_neg hnone, hjobs']
  refine ⟨s₁.ring, rfl, rfl, rfl, rfl, ?_, fun n hn => ?_⟩
  · show nodes.length = _
    rw [List.length_map, List.length_take]
  · obtain ⟨i, -, rfl⟩ := List.mem_map.mp (show n ∈ nodes from hn)
    rfl

/-! ## Breaks (R353, R361, R366) -/

section
variable {a : State} {hop : Nat}

/-- A break of an inner hop of a closed ring shows in no port. -/
theorem hopBreak_inner (hup : a.ring.up = true) (hclosed : a.ring.closed = true) (hin : hop < a.ring.nodes.length) (h0 : hop ≠ 0)
    (hnew : hop ∉ a.ring.broken) : hopBreak a hop = { a with ring := { a.ring with broken := a.ring.broken ++ [hop] } } := by
  unfold hopBreak
  extract_lets r n s₁
  rw [if_neg (by simp [r, n, hup, hclosed, hin.le]), if_neg (by simpa [r] using hnew), if_neg (not_or.mpr ⟨h0, hin.ne⟩)]
  rfl

/-- Port A sees the break of its own hop. -/
theorem hopBreak_first (hup : a.ring.up = true) (hclosed : a.ring.closed = true) (hnew : 0 ∉ a.ring.broken) (hsplit : a.ring.split = false) :
    hopBreak a 0 = count (flag { a with ring := { a.ring with
      broken := a.ring.broken ++ [0], breakW := 0xFF, breakE := 0, splitNext := true } } kTr 1) 0x40018 := by
  unfold hopBreak
  extract_lets r n s₁
  rw [if_neg (by simp [r, hup, hclosed]), if_neg (by simpa [r] using hnew), if_pos (Or.inl rfl), if_pos rfl, if_pos rfl,
    if_neg (by simp [r, hsplit])]
  rfl

theorem hopRestored_broken (h : hop ∈ a.ring.broken) :
    hopRestored a hop = { a with ring := { a.ring with restored := storeIns a.ring.restored hop a.tb.spanIx } } :=
  if_pos (by simpa using h)

theorem hopRestored_whole (h : hop ∉ a.ring.broken) : hopRestored a hop = a := if_neg (by simpa using h)

theorem hopRejoin_none {l : List NodeInfo} (h : a.ring.restored = []) : hopRejoin a hop l = a := by
  unfold hopRejoin
  extract_lets r
  rw [show r.restored = [] from h]
  rfl

section
variable {ix : Nat} (h : a.ring.restored = [(hop, ix)])
include h

/-- R366: a hop restored rejoins after 64 spans. -/
theorem hopRejoin_early {l : List NodeInfo} (hearly : a.tb.spanIx < ix + 64) : hopRejoin a hop l = a := by
  have hfind : (a.ring.restored.find? (·.1 == hop)).map (·.2) = some ix := by simp [h]
  unfold hopRejoin
  dsimp only
  rw [hfind]
  exact if_pos (by simp [hearly])

/-- The last broken hop ends the split. -/
theorem hopRejoin_last {r : Ring} (hdue : ix + 64 ≤ a.tb.spanIx) (hbroken : a.ring.broken = [hop]) (hr : r = { a.ring with
      broken := [], restored := [], splitNext := false, nodes := a.ring.nodes.mapIdx fun _ n => n }) :
    hopRejoin a hop [] = flag { a with ring := { r with rdMax := r.roundTrip } } kTr 0x40 := by
  have hfind : (a.ring.restored.find? (·.1 == hop)).map (·.2) = some ix := by simp [h]
  have hdel : storeDel a.ring.restored hop = [] := by simp [h, storeDel]
  subst hr
  unfold hopRejoin
  dsimp only
  rw [hfind]
  refine (if_neg (by simp [hbroken, hdue])).trans ?_
  rw [hdel, hbroken, List.erase_cons_head]
  rfl

end

end

/-! ## Sweeps (R358 to R364) -/

section
variable {a : State}

theorem edgeFreeze_idle (h : a.ring.sweeping = false) : edgeFreeze a = a := if_pos (by simp [h])

theorem sweepSend_idle (h : a.ring.sweeping = false) : sweepSend a = a := if_pos (by simp [h])

/-- Without events only the late closes leave. -/
theorem edgeFreeze_none (hsweep : a.ring.sweeping = true) (htime : a.tb.boundary + a.sweepOff ≤ a.now + 64) (hev : a.wheel.events = []) :
    edgeFreeze a = { a with ring := { a.ring with frozen := a.ring.frozen ++ a.ring.lateCloses, lateCloses := [] } } := by
  unfold edgeFreeze
  rw [if_neg (by simp [hsweep, htime])]
  dsimp only
  rw [hev, List.flatMap_nil, List.map_nil]
  simp only [List.append_nil]
  rw [← hev]
  rfl

/-- R358: an event whose open falls in the next span leaves the wheel with its open. -/
theorem edgeFreeze_open {e : Event} (hsweep : a.ring.sweeping = true) (htime : a.tb.boundary + a.sweepOff ≤ a.now + 64)
    (hev : a.wheel.events = [e]) (hsat : 64 ≤ e.valve) (hnode : nodeOf e.valve < a.ring.nodes.length) (hsent : e.sentOpen = false)
    (hopn : e.opn < (a.tb.boundary + 2 * a.tb.len : Nat)) (hcls : (a.tb.boundary + 2 * a.tb.len : Nat) ≤ e.cls) (hmode : a.motionMode = true) :
    edgeFreeze a = { a with
      wheel := { a.wheel with events := [{ e with sentOpen := true }] }
      ring := { a.ring with
        frozen := a.ring.frozen ++ a.ring.lateCloses ++ [{ valve := e.valve, opening := true, time := e.opn.toNat, late := false, arr := e.arr }]
        lateCloses := [] } } := by
  unfold edgeFreeze
  rw [if_neg (by simp [hsweep, htime])]
  extract_lets lim mine opens closes edges evs
  have hmine : mine e = true := by simp [mine, hsat, hnode]
  have hopens : opens e = true := by simp only [opens, hmine, hsent, hmode, lim, decide_eq_true hopn]; rfl
  have hcloses : closes e = false := by
    have hlate : decide (e.cls < lim) = false := decide_eq_false (not_lt.mpr hcls)
    simp only [closes, hlate, Bool.and_false]
  have hedges : edges = [{ valve := e.valve, opening := true, time := e.opn.toNat, late := false, arr := e.arr }] := by
    simp only [edges, hev, List.flatMap_cons, List.flatMap_nil, hopens, hcloses]
    rfl
  have hevs : evs = [{ e with sentOpen := true }] := by
    simp only [evs, hev, List.map_cons, List.map_nil, hopens, hcloses, Bool.or_true, Bool.or_false]
  rw [hedges, hevs]
  rfl

/-- R358: the sweep leaves port A at its time. -/
theorem sweepSend_due (hsweep : a.ring.sweeping = true) (heast : a.ring.eastOut = false) (hwest : a.ring.westOut = false)
    (htime : a.tb.boundary + a.sweepOff ≤ a.now) (hsplit : a.ring.split = false) :
    sweepSend a = { a with ring := { a.ring with
      inFlight := a.ring.frozen, frozen := [], eastOut := true, westOut := false, westDue := none
      nodes := a.ring.nodes.map fun n => { n with served := false }
      mgmt := pickMgmt a.ring.mgmt, reportNow := a.ring.reportJobs, reportJobs := [] } } := by
  unfold sweepSend
  extract_lets r
  rw [if_neg (by simp [r, hsweep, heast, hwest, htime]), show r.split = false from hsplit]
  rfl

/-- R363: a sweep whole returns and nothing of it is out any more. -/
theorem sweepMaybeDone_whole {s : State} (heast : s.ring.eastOut = false) (hwest : s.ring.westOut = false) (hdue : s.ring.westDue = none)
    (how : Nat) : sweepMaybeDone s how = finishSweep s how (s.now - s.tb.boundary) := if_neg (by simp [heast, hwest, hdue])

section
variable (heast : a.ring.eastOut = true) (hwest : a.ring.westOut = false) (hdue : a.ring.westDue = none) (hsplit : a.ring.split = false)
include heast hwest hdue hsplit

theorem sweepReturn_whole :
    sweepReturn a .east none true [] = finishSweep { a with ring := { a.ring with eastOut := false } } 0 (a.now - a.tb.boundary) := by
  unfold sweepReturn
  extract_lets r s₁ s₂ n
  have hs₂ : s₂ = a := rfl
  rw [if_neg (by simp [r, heast]), hs₂]
  dsimp only
  rw [if_neg (by rw [show r.split = false from hsplit]; exact Bool.false_ne_true)]
  exact sweepMaybeDone_whole (s := updRing a fun r => { r with eastOut := false }) rfl hwest hdue 0

/-- R360: a frame whose CRC fails is counted and flagged; what it brought back is taken all the same. -/
theorem sweepReturn_badCrc :
    sweepReturn a .east none false [] = finishSweep { flag (count a 0x40024) kTr 0x10 with
      ring := { (flag (count a 0x40024) kTr 0x10).ring with eastOut := false } } 0 (a.now - a.tb.boundary) := by
  have hring : (flag (count a 0x40024) kTr 0x10).ring = a.ring := (books_flag (books_count (Books.refl a) _) _ _).units.eject.2.2.2
  have hkeeps : Keeps a (flag (count a 0x40024) kTr 0x10) := keeps_flag (keeps_count (Keeps.refl a) _) _ _
  unfold sweepReturn
  extract_lets r s₁ s₂ n
  rw [if_neg (by simp [r, heast]), show a.now = (flag (count a 0x40024) kTr 0x10).now from hkeeps.now.symm,
    show a.tb.boundary = (flag (count a 0x40024) kTr 0x10).tb.boundary from hkeeps.boundary.symm]
  have hs₂ : s₂ = flag (count a 0x40024) kTr 0x10 := rfl
  rw [hs₂]
  dsimp only
  rw [if_neg (by rw [show r.split = false from hsplit]; exact Bool.false_ne_true)]
  exact sweepMaybeDone_whole (s := updRing (flag (count a 0x40024) kTr 0x10) fun r => { r with eastOut := false }) rfl
    ((congrArg Ring.westOut hring).trans hwest) ((congrArg Ring.westDue hring).trans hdue) 0

end

end

/-! ## The opcodes of the ring (Table 10-2) -/

/-- R372: a node is written by an expert tenant of its 32 valves, outside RUN. -/
theorem trNodeCheck_run {a : State} {d : Desc} {named : Nat} (hfmt : badFormat d named false = false) (hk : d.p 0 1 < 16)
    (hown : ∀ o, o < 32 → a.hasValve d.tenant (64 + 32 * d.p 0 1 + o) = true) (hexp : a.expert d.tenant = true) (hrun : a.mode = .run) :
    trNodeCheck named true a d = some (0x13, 0) := by
  have hall : ((List.range 32).any fun o => !a.hasValve d.tenant (64 + 32 * d.p 0 1 + o)) = false :=
    List.any_eq_false.mpr fun o ho => by simp [hown o (List.mem_range.mp ho)]
  unfold trNodeCheck
  dsimp only
  rw [hall, hfmt, hexp, hrun, decide_eq_false (not_le.mpr hk)]
  rfl

end Sys2Proof.Machine

namespace Sys2Proof.Settled
open Machine

/-- Settles O38. That only ENABLE 0 to 1 starts a link-up and that a port records its break at once are entry 93 of the log, the watchdog
as the node reports it entry 94. -/
theorem trestleLink : Obligations.TrestleLink := by
  refine ⟨⟨fun s a t w v hporst ha hw hset => ?_, fun s a t ns hops c hporst ha => ?_, fun s hporst hlink => ?_⟩,
    fun s a t hop hporst ha => ?_⟩
  · have hexec : exec (.trestleEnable t v) s = .next (writeTrCfg a (v.toNat ||| 1)) := by
      rw [ha]
      exact show execTrestleEnable t v s = _ from act_next hporst rfl
    rw [hexec]
    refine ⟨fun hrun => ?_, fun hrun hoff => ?_, fun hrun hoff hon => ?_, fun hrun hoff hon => ?_⟩
    · rw [writeTrCfg_run hrun]
    · rw [writeTrCfg_early hw hrun hoff]
    · rw [writeTrCfg_enable hw hrun hoff hset, if_pos hon]
    · rw [writeTrCfg_enable hw hrun hoff hset, hon]
      rfl
  · have hexec : exec (.linkUpDone t ns hops c) s = .next (linkUpDone a ns hops c) := by
      rw [ha]
      exact show execLinkUpDone t ns hops c s = _ from act_next hporst rfl
    rw [hexec]
    refine ⟨fun hlink => ?_, fun hlink htime hlong => ?_, fun hlink htime hshort hjobs => ?_⟩
    · exact congrArg _ (if_pos (by simp [hlink]))
    · rw [linkUpDone_long hlink htime hlong]
    · obtain ⟨r, hup, hr⟩ := linkUpDone_up (ns := ns) (c := c) hlink htime hshort hjobs
      obtain ⟨hr1, hr2, hr3, hr4, hr5⟩ := hr
      exact ⟨{ a with ring := r }, congrArg _ hup, hr1, hr2, hr3, hr4, hr5, rfl, rfl⟩
  · refine ⟨fun hover => ?_, fun hearly => ?_⟩
    · exact show execLinkUpTimeout s = _ from act_next hporst (if_pos (by simp [hlink, hover]))
    · exact show execLinkUpTimeout s = _ from act_next hporst (if_neg (by simp [hearly]))
  · have hbreak : exec (.hopBreak t hop) s = .next (hopBreak a hop) := by
      rw [ha]
      exact show execHopBreak t hop s = _ from act_next hporst rfl
    have hrestored : exec (.hopRestored t hop) s = .next (hopRestored a hop) := by
      rw [ha]
      exact show execHopRestored t hop s = _ from act_next hporst rfl
    have hrejoin (l : List NodeInfo) : exec (.hopRejoin t hop l) s = .next (hopRejoin a hop l) := by
      rw [ha]
      exact show execHopRejoin t hop l s = _ from act_next hporst rfl
    rw [hbreak, hrestored]
    refine ⟨fun hdown => ?_, fun hup hclosed hin h0 hnew => ?_, fun hup hclosed h0 hnew hsplit => ?_, fun hb => ?_, fun hb => ?_,
      fun hnone l => ?_, fun ix l hix hearly => ?_, fun ix r hix hdue hb hr => ?_, fun k => ?_⟩
    · exact congrArg _ (if_pos (by simp [hdown]))
    · rw [hopBreak_inner hup hclosed hin (fun h => h0 (Fin.ext h)) hnew]
    · subst h0
      exact congrArg _ (hopBreak_first hup hclosed hnew hsplit)
    · rw [hopRestored_broken hb]
    · rw [hopRestored_whole hb]
    · rw [hrejoin, hopRejoin_none hnone]
    · rw [hrejoin, hopRejoin_early hix hearly]
    · rw [hrejoin, hopRejoin_last hix hdue hb hr]
    · subst ha
      exact show execSatelliteWatchdog t k s = _ from act_next hporst rfl

/-- Settles O39. What a return records at once is entry 93 of the log. -/
theorem sweeps : Obligations.Sweeps := by
  refine ⟨fun s a t hporst ha => ?_, fun s a t hporst ha => ?_⟩
  · have hfreeze : exec (.edgeFreeze t) s = .next (edgeFreeze a) := by
      rw [ha]
      exact show execEdgeFreeze t s = _ from act_next hporst rfl
    have hsend : exec (.sweepSend t) s = .next (sweepSend a) := by
      rw [ha]
      exact show execSweepSend t s = _ from act_next hporst rfl
    have hhalf : exec (.westHalfSend t) s = .next (westHalfSend a) := by
      rw [ha]
      exact show execWestHalfSend t s = _ from act_next hporst rfl
    rw [hfreeze, hsend, hhalf]
    refine ⟨fun hidle => ?_, fun hsweep htime hev => ?_, fun e hsweep htime hev hsat hnode hsent hopn hcls hmode _ => ?_,
      fun hsweep heast hwest htime hsplit => ?_, fun w hdue htime => ?_, fun hdue => ?_⟩
    · rw [edgeFreeze_idle hidle, sweepSend_idle hidle]
      exact ⟨rfl, rfl⟩
    · rw [edgeFreeze_none hsweep htime hev]
    · rw [edgeFreeze_open hsweep htime hev hsat hnode hsent hopn hcls hmode]
    · rw [sweepSend_due hsweep heast hwest htime hsplit]
    · rw [westHalfSend, hdue]
      exact congrArg _ (if_neg (not_lt.mpr htime))
    · rw [westHalfSend, hdue]
  · have hexec (x : Option (Fin 16)) (ok : Bool) (l : List Reply) :
        exec (.sweepReturn t .east x ok l) s = .next (sweepReturn a .east x ok l) := by
      rw [ha]
      exact show execSweepReturn t .east x ok l s = _ from act_next hporst rfl
    refine ⟨fun hidle x ok l => ?_, fun heast hwest hdue hsplit => ?_, fun heast hwest hdue hsplit => ?_⟩
    · rw [hexec]
      exact congrArg _ (if_pos (by simp [hidle]))
    · rw [hexec, sweepReturn_whole heast hwest hdue hsplit]
    · rw [hexec, sweepReturn_badCrc heast hwest hdue hsplit]

/-- Settles O40. -/
theorem trestleOpcodes : Obligations.TrestleOpcodes := by
  refine fun s a t d j hporst => ⟨fun htaken hcheck u hu => ?_, fun htaken hcheck u hu => ?_, fun htaken hcheck u hu => ?_,
    fun htaken hfmt hk hown hexp hrun => ?_, fun htaken hfmt htn hrun u hu => ?_, fun htaken hfmt htn => ?_⟩
  · subst hu
    exact show execTrSweepReport t d s = _ from act_runOp_pass hporst htaken hcheck
  · subst hu
    exact show execTrNodeRead t d s = _ from act_runOp_pass hporst htaken hcheck
  · subst hu
    exact show execTrNodeWrite t d s = _ from act_runOp_pass hporst htaken hcheck
  · exact show execTrNodeWrite t d s = _ from act_runOp_stop hporst htaken (trNodeCheck_run hfmt hk hown hexp hrun)
  · subst hu
    exact show execTrRelink t d s = _ from act_runOp_pass hporst htaken (by simp [trRelinkCheck, firstFail, hfmt, htn, hrun])
  · have htn' : j.d.tenant.val ≠ 0 := fun h => htn (Fin.ext h)
    exact show execTrRelink t d s = _ from act_runOp_stop hporst htaken (by simp [trRelinkCheck, firstFail, hfmt, htn'])

end Sys2Proof.Settled
end

section
/-!
SUPPORT. Feedback channels and EMU outputs (chapter 11): an index edge, serial transactions and the opcodes.
-/
namespace Sys2Proof.Machine

/-- After reset, with quadrature channel 0 on, its EDGE_MIN 0, and an index edge recorded at a tick that has not come yet. -/
def laterIndexState : State :=
  { State.reset with
    regs := [(fbKey 0 0, 1#32), (fbKey 0 4, 0#32)]
    fbs := [(0, { Fb.reset with lastZ := some 1 })] }

/-- R382: with EDGE_MIN 0 no index edge comes too soon. -/
theorem indexEdge_laterIndexState : (indexEdge laterIndexState 0).fb 0 = { Fb.reset with lastZ := some 0, indexSeen := true } := rfl

end Sys2Proof.Machine

namespace Sys2Proof.Settled
open Machine

/-- Refutes O41 (with log entries 35, 96 and 98 in its other clauses): the clause about an index edge that comes too soon admits an edge
recorded later than the present tick. In `laterIndexState` the model takes the index, and the clause says that it only counts it. -/
theorem not_feedbackChannels : ¬ Obligations.FeedbackChannels := by
  intro h
  obtain ⟨-, hearly, -⟩ := h.2.2.2.1 laterIndexState (advance laterIndexState 0) 0 0 (advance laterIndexState 0 |>.fb 0) rfl rfl rfl
  have hcounts := hearly 1 rfl rfl rfl (by decide)
  have hexec : exec (.indexEdge 0 0) laterIndexState = .next (indexEdge (advance laterIndexState 0) 0) :=
    show execIndexEdge 0 0 laterIndexState = _ from act_next rfl rfl
  rw [hexec, advance_zero] at hcounts
  have hstate := congrArg State.fbs (Host.Outcome.next.inj hcounts)
  rw [(books_count (Books.refl _) _).units.feedback.1] at hstate
  have hseen := congrArg (fun fbs => (storeGet (fun _ => Fb.reset) fbs 0).indexSeen) hstate
  exact absurd hseen (by decide)

end Sys2Proof.Settled
end

section
/-!
SUPPORT. Serial feedback channels, the opcodes of feedback channels and EMU outputs (chapter 11).
-/
namespace Sys2Proof.Machine

/-! ## A serial transaction starts (R390, R399, R403) -/

section
variable {a : State} {n : Nat}

theorem serStart_off (hoff : a.bitAt (fbKey n 0) 0 = false) : serStart a n = a := if_pos (by simp [State.fbOn, hoff])

section
variable (hon : a.bitAt (fbKey n 0) 0 = true)
include hon

/-- R390: a slot that finds a transaction running is skipped and counted. -/
theorem serStart_running (hmode : 2 ≤ a.fbMode n) (hrun : (a.fb n).run.isSome = true) : serStart a n = count a (fbKey n 0x58) := by
  unfold serStart
  rw [if_neg (by simp [State.fbOn, hon]; omega)]
  exact if_pos hrun

theorem serStart_ssi (hmode : a.fbMode n = 2) (hrun : (a.fb n).run = none) :
    serStart a n = a.setFb n { a.fb n with
      run := some { start := a.now, latch := a.now + a.fld (fbKey n 0x24) 0 12, code := 0, job := none } } := by
  unfold serStart
  extract_lets f delay mem code run
  have hrun' : run = { start := a.now, latch := a.now + delay, code := 0, job := none } := if_pos hmode
  rw [if_neg (by simp [State.fbOn, hon, hmode]), if_neg (by simp [f, hrun]), hrun']
  simp [f, delay, hmode]

/-- R403: the first slot after an error reads the status. -/
theorem serStart_status (hmode : a.fbMode n = 3) (hrun : (a.fb n).run = none) (hess : (a.fb n).essStatus = true) :
    serStart a n = a.setFb n { a.fb n with
      run := some { start := a.now, latch := a.now + 32 + a.fld (fbKey n 0x24) 0 12, code := 2, job := none }
      essStatus := false } := by
  unfold serStart
  extract_lets f delay mem code run
  have hrun' : run = { start := a.now, latch := a.now + 32 + delay, code := 2, job := none } := by simp [run, code, hmode, f, hess]
  rw [if_neg (by simp [State.fbOn, hon, hmode]), if_neg (by simp [f, hrun]), hrun']
  simp [f, delay, hmode]

end

/-! ## A serial transaction ends (R393 to R402) -/

theorem serDone_idle (hrun : (a.fb n).run = none) (rx : SerRx) : serDone a n rx = a := by
  unfold serDone
  rw [hrun]

theorem startTimeout_idle (hrun : (a.fb n).run = none) (low : Bool) : startTimeout a n low = a := by
  unfold startTimeout
  rw [hrun]

section
variable {r : SerRun} (hrun : (a.fb n).run = some r)
include hrun

/-- R396: a line found low makes the transaction invalid. -/
theorem serDone_low (hcode : r.code = 0) (w : Nat) (p : Bool) : serDone a n (.ssi true w p) = serInvalid a n true := by
  unfold serDone
  rw [hrun]
  exact (if_neg (not_not.mpr hcode)).trans (if_pos rfl)

/-- R402: no start bit in time makes the transaction invalid. -/
theorem startTimeout_running (hcode : r.code ≠ 0) (low : Bool) :
    startTimeout a n low = serInvalid (flag a (fbKey n 0x44) 0x40) n low := by
  unfold startTimeout
  rw [hrun]
  exact if_neg hcode

/-- R394: a response of the wrong length, or that came badly framed or late, makes the transaction invalid. -/
theorem serDone_essBad (hcode : r.code ≠ 0) {bs : List Byte} {fe la : Bool} (hbad : fe = true ∨ la = true ∨ bs.length ≠ essLen r.code) :
    serDone a n (.ess bs fe la) = serInvalid a n false := by
  unfold serDone
  rw [hrun]
  refine (if_neg hcode).trans (if_pos ?_)
  obtain hfe | hla | hlen := hbad
  · simp [hfe]
  · simp [hla]
  · simp [hlen]

/-- R393: without parity and Gray code a received word is taken as it is. -/
theorem serDone_word (hcode : r.code = 0) (hmode : a.fbMode n = 2) (hparity : a.bitAt (fbKey n 0x18) 7 = false)
    (hgray : a.bitAt (fbKey n 0x18) 6 = false) (w : Nat) (p : Bool) :
    serDone a n (.ssi false w p) = serWord a n (w % 2 ^ a.fld (fbKey n 0x18) 0 6) := by
  unfold serDone
  rw [hrun]
  refine (if_neg (not_not.mpr hcode)).trans ((if_neg Bool.false_ne_true).trans ?_)
  dsimp only
  rw [if_neg (by simp [hparity]), if_neg (by simp [hgray]), State.serBits, if_neg (by omega)]

end

/-- R393: the first word of a channel gives its position. -/
theorem serWord_first (hraw : (a.fb n).raw = none) {latch : Nat} (hlatch : (a.fb n).run.map (·.latch) = some latch) {raw : Nat}
    {pos : Int} (hpos : pos = wrap64 (raw * (2 ^ (16 - a.fld (fbKey n 0x18) 8 5) : Nat) : Nat)) :
    serWord a n raw = serValid (a.setFb n { a.fb n with
      raw := some raw, pos := pos, pts := (latch, pos) :: (a.fb n).pts, sers := [(latch, pos)] }) n := by
  unfold serWord
  dsimp only
  rw [hraw, hlatch, hpos]
  rfl

/-- R397: a valid transaction. -/
theorem serValid_eq {f : Fb} (hf : a.fb n = f) : serValid a n = a.setFb n { f with
    run := none, invalid := false, prevValid := true, validRun := f.validRun + 1, errRun := 0
    suspect := f.suspect && decide (f.validRun + 1 < 16) } := by
  subst hf
  rfl

theorem fb_setFb_self (htab : Safety.Tables a) (f : Fb) : (a.setFb n f).fb n = f := storeGet_storePut_self _ htab.fbs n f

theorem fb_setFb_setFb_self (htab : Safety.Tables a) (f g : Fb) : ((a.setFb n f).setFb n g).fb n = g :=
  fb_setFb_self ((keeps_setFb (Keeps.refl a) n f).tables htab) g

theorem fb_setFb_of_ne {k : Nat} (f : Fb) (h : k ≠ n) : (a.setFb n f).fb k = a.fb k := storeGet_storePut_of_ne _ _ _ h

/-- R394, R395: an invalid transaction that served no descriptor. -/
theorem serInvalid_noJob {fail : Bool} (hjob : (a.fb n).run.bind (·.job) = none) : serInvalid a n fail =
    flag (count (a.setFb n { a.fb n with
      run := none, invalid := true, prevValid := false, validRun := 0, errRun := (a.fb n).errRun + 1
      suspect := (a.fb n).suspect || fail || decide (a.fld (fbKey n 0x18) 16 4 ≤ (a.fb n).errRun + 1) }) (fbKey n 0x58))
        (fbKey n 0x44) (if fail then 0xA0 else 0x20) := by
  unfold serInvalid
  dsimp only
  rw [hjob]
  rfl

end

/-! ## The opcodes (Table 11-5) -/

section
variable {a : State} {j : Job} {d : Desc}

theorem fbSetPosCheck_eq (hfmt : badFormat d (pm 0 1 ||| pb 1 1 ||| pm 4 8) false = false) (hn : d.p 0 1 < 40) :
    fbSetPosCheck a d = firstFail [(!a.hasFb d.tenant (d.p 0 1), 0x11, 0), (!bit (d.p 1 1) 0 && a.fbOfLivePier (d.p 0 1), 0x13, 0)] := by
  simp [fbSetPosCheck, firstFail, hfmt, hn]

theorem fbStreamCheck_ok (hfmt : badFormat d (pm 0 3) false = false) (hn : d.p 0 1 < 40) (hq : d.p 1 1 < 64)
    (hkind : a.qKind d.tenant (d.p 1 1) = 3) (hown : a.hasFb d.tenant (d.p 0 1) = true ∨ a.hasFbs d.tenant (d.p 0 1) = true) :
    fbStreamCheck a d = none := by
  obtain hown | hown := hown <;> simp [fbStreamCheck, firstFail, hfmt, hn, hq, hkind, hown]

theorem fbEssCheck_eq {named : Nat} {write : Bool} (hfmt : badFormat d named false = false) (hn : d.p 0 1 < 40)
    (hmode : a.fbMode (d.p 0 1) = 3) (hown : a.hasFb d.tenant (d.p 0 1) = true) (hexp : a.expert d.tenant = true) :
    fbEssCheck named write a d = firstFail [(write && a.mode == .run, 0x13, 0)] := by
  simp [fbEssCheck, firstFail, hfmt, hn, hmode, hown, hexp]

theorem emuCheck_ok {named : Nat} (hfmt : badFormat d named false = false) (he : d.p 0 1 < 8) (hown : a.hasEmu d.tenant (d.p 0 1) = true) :
    emuCheck named a d = none := by
  simp [emuCheck, firstFail, hfmt, he, hown]

/-- R418: N = 0 ends the tenant's stream. -/
theorem doFbStream_end (hzero : d.p 2 1 = 0) :
    doFbStream a d = a.updFb (d.p 0 1) fun f => { f with streams := f.streams.filter (·.tenant != d.tenant.val) } := by
  unfold doFbStream
  congr 1
  funext f
  exact congrArg (fun x => { f with streams := x }) (if_pos hzero)

/-- R418: past the sample instant a stream begins with the next span. -/
theorem doFbStream_next (hpos : d.p 2 1 ≠ 0) (hpast : a.tb.boundary + a.tb.offset ≤ a.now) :
    doFbStream a d = a.updFb (d.p 0 1) fun f => { f with
      streams := f.streams.filter (·.tenant != d.tenant.val) ++
        [{ tenant := d.tenant, queue := d.p 1 1, every := d.p 2 1, first := a.tb.spanIx + 1 }] } := by
  unfold doFbStream
  congr 1
  funext f
  simp [hpos, not_lt.mpr hpast]

section
variable {e : Nat} (he : e = j.d.p 0 1) {f : Fb} (hf : f = a.fb (a.fld (emuKey e 0) 1 6))
include he hf

/-- R416: a source that is suspect starts nothing. -/
theorem emuStart_suspect (hsus : f.suspect = true) : emuStart a j = complete (flag a (emuKey e 0xC) 2) j 0x52 0 := by
  subst he hf
  unfold emuStart
  exact if_pos (by simp [hsus])

/-- R414: the distance to the next pulse, in the direction of the output. -/
theorem emuStart_trusted (hsus : f.suspect = false) (hfault : f.fault = false) (hdir : a.bitAt (emuKey e 0) 7 = false) {diff acc : Int}
    (hdiff : diff = posDiff f.pos (j.d.pS 4 8))
    (hacc : acc = if diff < 0 then diff + a.rd (emuKey e 4) else if (a.rd (emuKey e 4) : Int) = 0 then diff
      else diff % a.rd (emuKey e 4)) :
    emuStart a j = complete (a.updEmu e fun x => { x with e := acc, suspended := false }) j 0 0 := by
  subst he hf hdiff hacc
  unfold emuStart
  rw [if_neg (by simp [hsus, hfault])]
  dsimp only
  rw [hdir]
  rfl

end

end

/-! ## Pulses of an EMU output (R411 to R413) -/

section
variable {a : State} {e : Nat} {r : Nat} (hrise : (a.emu e).rise = some r)
include hrise

theorem emuFall_due (hdue : r + a.fld (emuKey e 8) 0 16 ≤ a.now) : emuFall a e = a.setEmu e { a.emu e with high := false } := by
  unfold emuFall
  dsimp only
  rw [hrise]
  exact if_pos (decide_eq_true hdue)

theorem emuFall_early (hearly : a.now < r + a.fld (emuKey e 8) 0 16) : emuFall a e = a := by
  unfold emuFall
  dsimp only
  rw [hrise]
  exact if_neg (by simpa using hearly)

end

/-- R411, R412: a count in the output's direction, of a source that is trusted. -/
theorem emuEdge_forward {a : State} {e n : Nat} {up : Bool} (hon : a.bitAt (emuKey e 0) 0 = true) (hsrc : a.fld (emuKey e 0) 1 6 = n)
    (hsus : (a.fb n).suspect = false) (hfault : (a.fb n).fault = false) (hrun : (a.emu e).suspended = false)
    (hup : up = !a.bitAt (emuKey e 0) 7) :
    emuEdge a e n up = if (a.rd (emuKey e 4) : Int) ≤ (a.emu e).e + 65536
      then emuPulse (a.setEmu e { a.emu e with e := (a.emu e).e + 65536 - a.rd (emuKey e 4) }) e
      else a.setEmu e { a.emu e with e := (a.emu e).e + 65536 } := by
  have htrust : emuSuspect a e n = a := if_neg (by simp [hsus, hfault])
  unfold emuEdge
  rw [if_neg (by simp [hon, hsrc]), htrust]
  have hdir : (up == !a.bitAt (emuKey e 0) 7) = true := by rw [hup, beq_self_eq_true]
  dsimp only
  rw [if_neg (by simp [hrun]), hdir]
  rfl

end Sys2Proof.Machine

namespace Sys2Proof.Settled
open Machine

/-- Settles O42. When the latch of an ESS transaction is taken is entry 97 of the log. -/
theorem serialTransactions : Obligations.SerialTransactions := by
  refine ⟨fun s a t n f hporst ha hf => ?_, fun s a t n f r hporst ha hf => ?_, fun s n fail f hf hjob => ?_⟩
  · have hexec : exec (.serialTransactionStart t n) s = .next (serStart a n) := by
      rw [ha]
      exact show execSerialTransactionStart t n s = _ from act_next hporst rfl
    subst hf
    rw [hexec]
    refine ⟨fun hoff => ?_, fun hon hmode hrun => ?_, fun hon hmode hrun => ?_, fun hon hmode hrun hess => ?_⟩
    · rw [serStart_off hoff]
    · rw [serStart_running hon hmode hrun]
    · rw [serStart_ssi hon hmode hrun]
    · rw [serStart_status hon hmode hrun hess]
  · have hdone (rx : SerRx) : exec (.serialTransactionDone t n rx) s = .next (serDone a n rx) := by
      rw [ha]
      exact show execSerialTransactionDone t n rx s = _ from act_next hporst rfl
    have htimeout (low : Bool) : exec (.startTimeout t n low) s = .next (startTimeout a n low) := by
      rw [ha]
      exact show execStartTimeout t n low s = _ from act_next hporst rfl
    subst hf
    refine ⟨fun hrun => ⟨fun rx => ?_, fun low => ?_⟩, fun w p hrun hcode => ?_,
      fun w p b hrun hcode hmode hb hparity hgray hraw htab => ⟨_, hdone _, ?_⟩, fun bs fe la hrun hcode hbad => ?_,
      fun low hrun hcode => ?_⟩
    · rw [hdone, serDone_idle hrun]
    · rw [htimeout, startTimeout_idle hrun]
    · rw [hdone, serDone_low hrun hcode]
    · rw [serDone_word hrun hcode hmode hparity hgray, ← hb,
        serWord_first hraw (by rw [hrun]; rfl) rfl, serValid_eq (fb_setFb_self htab _)]
      rw [fb_setFb_setFb_self htab]
      exact ⟨rfl, rfl, rfl, rfl, rfl, rfl, fun k hk => by rw [fb_setFb_of_ne _ hk, fb_setFb_of_ne _ hk]⟩
    · rw [hdone, serDone_essBad hrun hcode hbad]
    · rw [htimeout, startTimeout_running hrun hcode]
  · subst hf
    exact serInvalid_noJob hjob

/-- Settles O43. That FB_STREAM replaces the tenant's stream, and when its first item comes, is entry 98 of the log. -/
theorem feedbackOpcodes : Obligations.FeedbackOpcodes := by
  refine ⟨fun s a t d j hporst htaken hfmt hn => ?_, fun s a t d j hporst htaken hfmt hn hq hkind hown => ?_,
    fun s a t d j hporst => ⟨fun htaken hfmt hn hmode hown hexp => ?_, fun htaken hfmt hn hmode hown hexp => ?_⟩,
    fun s a t d j f diff hporst htaken hfmt he hown hf hdiff => ?_, fun s a t d j hporst htaken hfmt he hown => ?_,
    fun s a t r e hporst ha hrise => ?_, fun s e n up hon hsrc hsus hfault hrun hup => ?_⟩
  · refine ⟨fun hown => ?_, fun hown hbit hlive => ?_, fun hown hfree => ?_⟩
    · exact show execFbSetPos t d s = _ from act_runOp_stop hporst htaken (by rw [fbSetPosCheck_eq hfmt hn, hown]; rfl)
    · exact show execFbSetPos t d s = _ from act_runOp_stop hporst htaken (by rw [fbSetPosCheck_eq hfmt hn, hown, hbit, hlive]; rfl)
    · exact show execFbSetPos t d s = _ from act_runOp_pass hporst htaken (by
        obtain h | h := hfree <;> simp [fbSetPosCheck_eq hfmt hn, firstFail, hown, h])
  · have hpass : exec (.fbStream t d) s = .next (Safety.answer (doFbStream a j.d) j 0 0) :=
      show execFbStream t d s = _ from act_runOp_pass hporst htaken (fbStreamCheck_ok hfmt hn hq hkind hown)
    rw [hpass]
    refine ⟨fun hzero => ?_, fun hpos hpast => ?_⟩
    · rw [doFbStream_end hzero]
    · rw [doFbStream_next hpos hpast]
  · exact show execFbEssRead t d s = _ from act_runOp_pass hporst htaken (by rw [fbEssCheck_eq hfmt hn hmode hown hexp]; rfl)
  · refine ⟨fun hrun => ?_, fun hrun => ?_⟩
    · exact show execFbEssWrite t d s = _ from
        act_runOp_pass hporst htaken (by simp [fbEssCheck_eq hfmt hn hmode hown hexp, firstFail, hrun])
    · exact show execFbEssWrite t d s = _ from
        act_runOp_stop hporst htaken (by rw [fbEssCheck_eq hfmt hn hmode hown hexp, hrun]; rfl)
  · have hpass : exec (.emuStart t d) s = .next (planNow (emuStart a j) j) :=
      show execEmuStart t d s = _ from act_runOp_pass hporst htaken (emuCheck_ok hfmt he hown)
    rw [hpass]
    refine ⟨fun hsus => ?_, fun hsus hfault hdir hge hne => ?_, fun hsus hfault hdir hneg => ?_⟩
    · rw [emuStart_suspect rfl hf hsus]
      rfl
    · rw [emuStart_trusted rfl hf hsus hfault hdir hdiff (by rw [if_neg (not_lt.mpr hge), if_neg (by exact_mod_cast hne)])]
      rfl
    · rw [emuStart_trusted rfl hf hsus hfault hdir hdiff (by rw [if_pos hneg])]
      rfl
  · exact show execEmuStop t d s = _ from act_runOp_pass hporst htaken (emuCheck_ok hfmt he hown)
  · have hexec : exec (.emuPulseEnd t e) s = .next (emuFall a e) := by
      rw [ha]
      exact show execEmuPulseEnd t e s = _ from act_next hporst rfl
    rw [hexec]
    refine ⟨fun hdue => ?_, fun hearly => ?_⟩
    · rw [emuFall_due hrise hdue]
    · rw [emuFall_early hrise hearly]
  · rw [emuEdge_forward hon hsrc hsus hfault hrun hup]
    exact ⟨fun hlt => if_neg (not_le.mpr hlt), fun hle => if_pos hle⟩

end Sys2Proof.Settled
end

section
/-!
SUPPORT. Position latches (chapter 13, R510 to R514).
-/
namespace Sys2Proof.Machine

section
variable {a : State} {k : Nat}

theorem disarm_free (hjob : (a.latch k).job = none) :
    disarm a k = a.setLatch k { a.latch k with armed := false, events := [], job := none } := by
  unfold disarm
  dsimp only
  rw [hjob]
  rfl

/-- R513: a slot that is disarmed completes what armed it with its capture count. -/
theorem disarm_armed {i : Nat} {q : Job} (hjob : (a.latch k).job = some i) (hq : a.job? i = some q) :
    disarm a k = complete (a.setLatch k { a.latch k with armed := false, events := [], job := none }) q 0
      ((a.latch k).captures % 2 ^ 32) := by
  have hfind : (a.latch k).job.bind (a.setLatch k { a.latch k with armed := false, events := [], job := none }).job? = some q := by
    rw [hjob]
    exact hq
  unfold disarm
  dsimp only
  rw [hfind]

end

section
variable {a : State} {j : Job} {d : Desc}

theorem latchArmCheck_probe
    (hfmt : badFormat d (pm 0 4 ||| pb 4 1 ||| pm 5 2 ||| pm 8 8) false = false) (hp : d.p 0 1 < 32) (hslot : d.p 1 1 < 8)
    (hkind : d.p 2 1 < 3) (hpin : d.p 3 1 < 16) (hq : d.p 5 1 < 64) (hch : d.p 6 1 < 40) (hpier : a.hasPier d.tenant (d.p 0 1) = true)
    (hprobe : a.hasProbe d.tenant (d.p 3 1) = true)
    (hfb : a.hasFb d.tenant (d.p 6 1) = true ∨ a.hasFbs d.tenant (d.p 6 1) = true) : latchArmCheck a d = none := by
  have hkind' : d.p 2 1 < 6 := by omega
  have hch' : (d.p 6 1 != 255 && (!a.hasFb d.tenant (d.p 6 1) && !a.hasFbs d.tenant (d.p 6 1))) = false := by
    obtain h | h := hfb <;> simp [h]
  simp [latchArmCheck, firstFail, State.latchNeed, hfmt, hp, hslot, hkind, hkind', hpin, hq, hch, hpier, hprobe, Bool.and_assoc, hch']

/-- R510: the slot that a probe arms. -/
theorem latchArm_probe {k : Nat} (hk : k = 8 * j.d.p 0 1 + j.d.p 1 1) (hkind : j.d.p 2 1 < 3) (hq : j.d.p 5 1 < 64) (hch : j.d.p 6 1 < 40)
    {u : State} (hu : u = keep (disarm a k) { j with phase := .active }) :
    latchArm a j = u.setLatch k
      { armed := true, job := some j.id, tenant := j.d.tenant, cont := bit (j.d.p 4 1) 0, kind := j.d.p 2 1, index := j.d.p 3 1
        queue := some (j.d.p 5 1), chan := j.d.p 6 1, since := u.now, events := [], inSpan := 0, spanOf := u.tb.spanIx, lost := 0
        captures := 0 } := by
  subst hk hu
  unfold latchArm
  dsimp only
  rw [if_neg (by omega : ¬ j.d.p 2 1 = 5), if_neg (by omega : ¬ j.d.p 5 1 = 255), State.latchChan, if_neg (by omega)]

theorem latchDisarmCheck_ok (hfmt : badFormat d (pm 0 2) false = false) (hp : d.p 0 1 < 32) (hslot : d.p 1 1 < 8)
    (hpier : a.hasPier d.tenant (d.p 0 1) = true) : latchDisarmCheck a d = none := by
  simp [latchDisarmCheck, firstFail, hfmt, hp, hslot, hpier]

end

/-! ## Events of a source (Table 13-3) -/

section
variable {a : State} {x : Nat × Latch} {kinds : List Nat} {index time seq : Nat} (hx : x ∈ a.latches)
include hx

theorem latchEvent_reached (hkind : x.2.kind ∈ kinds) (hindex : x.2.index = index) :
    (x.1, x.2.take a.tb.spanIx time seq) ∈ (latchEvent a kinds index time seq).latches :=
  List.mem_map.mpr ⟨x, hx, if_pos (by simp [hkind, hindex])⟩

theorem latchEvent_other (hindex : x.2.index ≠ index) : x ∈ (latchEvent a kinds index time seq).latches :=
  List.mem_map.mpr ⟨x, hx, if_neg (by simp [hindex])⟩

end

theorem probeEdge_count {a : State} (htab : Safety.Tables a) (i : Nat) (r : Bool) :
    storeGet (fun _ => 0) (probeEdge a i r).probeCnts i = storeGet (fun _ => 0) a.probeCnts i + 1 :=
  storeGet_storePut_self (fun _ => 0) htab.probeCnts i (storeGet (fun _ => 0) a.probeCnts i + 1)

section
variable {l : Latch} {ix time seq : Nat} (harmed : l.armed = true) (hsince : l.since ≤ time)
include harmed hsince

theorem take_single (hcont : l.cont = false) : l.take ix time seq = { l with
    spanOf := ix, inSpan := (if l.spanOf = ix then l.inSpan else 0) + 1, events := l.events ++ [(time, seq, 0)], armed := false } := by
  unfold Latch.take
  rw [if_neg (by simp [harmed, hsince])]
  by_cases hix : l.spanOf = ix
  · rw [if_pos hix, if_pos hix, if_neg (by simp [hcont]), hcont, hix]
  · rw [if_neg hix, if_neg hix, if_neg (by simp [hcont]), hcont]

/-- R510: a continuous slot loses what comes beyond 8 in a span. -/
theorem take_lost (hcont : l.cont = true) (hix : l.spanOf = ix) (hfull : 8 ≤ l.inSpan) :
    l.take ix time seq = { l with lost := min (l.lost + 1) 0xFFFF } := by
  unfold Latch.take
  rw [if_neg (by simp [harmed, hsince]), if_pos hix]
  exact if_pos (by simp [hcont, hfull])

end

end Sys2Proof.Machine

namespace Sys2Proof.Settled
open Machine

/-- Settles O44. That arming drops the events that wait is entry 106 of the log. -/
theorem latches : Obligations.Latches := by
  refine ⟨fun s a t k d j hporst htaken hk hfmt hp hslot hkind hpin hq hch hpier hprobe hfb => ?_,
    fun s a t k d j hporst htaken hk hfmt hp hslot hpier => ?_, fun s a t i r hporst ha htab => ?_,
    fun l ix time seq harmed hsince => ⟨take_single harmed hsince, take_lost harmed hsince⟩⟩
  · rw [show exec (.latchArm t d) s = _ from act_runOp_pass hporst htaken
      (latchArmCheck_probe hfmt hp hslot hkind hpin hq hch hpier hprobe hfb), latchArm_probe hk hkind hq hch rfl]
  · have hpass : exec (.latchDisarm t d) s = .next (Safety.answer (disarm a k) j 0 0) := by
      subst hk
      exact show execLatchDisarm t d s = _ from act_runOp_pass hporst htaken (latchDisarmCheck_ok hfmt hp hslot hpier)
    rw [hpass]
    refine ⟨fun hjob => ?_, fun i q hjob hq => ?_⟩
    · rw [disarm_free hjob]
    · rw [disarm_armed hjob hq]
  · have hexec : exec (.probeEdge t i r) s = .next (probeEdge a i r) := by
      rw [ha]
      exact show execProbeEdge t i r s = _ from act_next hporst rfl
    refine ⟨_, hexec, probeEdge_count htab i r, fun x hx hindex hkind => ?_, fun x hx hindex => ?_, rfl, rfl, rfl⟩
    · exact latchEvent_reached (a := { a with probeCnts := _ }) hx (by obtain h | h := hkind <;> simp [h]) hindex
    · exact latchEvent_other (a := { a with probeCnts := _ }) hx hindex

end Sys2Proof.Settled
end

section
/-!
SUPPORT. The opcodes of a pier (chapter 12, Table 12-4).
-/
namespace Sys2Proof.Machine

section
variable {a : State} {j : Job} {d : Desc} {p : Nat}

/-! ## The checks -/

/-- A pier opcode that is well formed, of a tenant that holds the pier: what is left is the level and the mode. -/
theorem pierCheck_owned {named : Nat} {s2 expert : Bool} {bad : Desc → Bool} {mode : State → Desc → Option Nat}
    (hfmt : badFormat d named s2 = false) (hp : d.p 0 1 < 32) (hbad : bad d = false) (hown : a.hasPier d.tenant (d.p 0 1) = true) :
    pierCheck named s2 bad expert mode a d =
      firstFail [(expert && !a.expert d.tenant, 0x15, 0), ((mode a d).isSome, 0x13, (mode a d).getD 0)] := by
  simp [pierCheck, firstFail, hfmt, hp, hbad, hown]

theorem pierMotionMode_ok {stop : Bool} (hmotion : a.noMotion d.tenant = false) (hlive : (a.pier (d.p 0 1)).mode.live = true)
    (hfree : stop = true ∨ a.axisFree (d.p 0 1) = true) : pierMotionMode stop a d = none := by
  obtain h | h := hfree <;> simp [pierMotionMode, modeIf, hmotion, hlive, h]

theorem pierMotionMode_refused {stop : Bool} (h : a.noMotion d.tenant = true ∨ (a.pier (d.p 0 1)).mode.live = false) :
    pierMotionMode stop a d = some 0 := by
  obtain h | h := h <;> simp [pierMotionMode, modeIf, h]

/-- R454: what lets a move, a jog or a torque of a live pier through. -/
theorem pierCheck_motion {named : Nat} {stop : Bool} (hfmt : badFormat d named false = false) (hp : d.p 0 1 < 32)
    (hown : a.hasPier d.tenant (d.p 0 1) = true) (hmotion : a.noMotion d.tenant = false)
    (hlive : (a.pier (d.p 0 1)).mode.live = true) (hfree : stop = true ∨ a.axisFree (d.p 0 1) = true) :
    pierCheck named false (fun _ => false) false (pierMotionMode stop) a d = none := by
  rw [pierCheck_owned hfmt hp rfl hown, pierMotionMode_ok hmotion hlive hfree]
  rfl

/-- R451: the order in which PIER_ENABLE is judged. -/
theorem pierEnableCheck_eq (hp : p = d.p 0 1) (hfmt : badFormat d (pm 0 2) false = false) (hlt : p < 32) (hlo : 2 ≤ d.p 1 1)
    (hhi : d.p 1 1 ≤ 4) (hown : a.hasPier d.tenant p = true) (hlacks : a.pierLacks d.tenant p = false) :
    pierEnableCheck a d = firstFail [(!a.motionMode, 0x13, 1), ((a.pier p).mode != .disabled, 0x13, 2),
      (!(a.pier p).aligned && !a.bitAt (pierKey p 4) 14, 0x13, 3)] := by
  subst hp
  simp [pierEnableCheck, firstFail, hfmt, hlt, not_lt.mpr hlo, not_lt.mpr hhi, hown, hlacks]

theorem pierAlignCheck_eq (hp : p = d.p 0 1) (hfmt : badFormat d (pm 0 1 ||| pm 4 6) false = false) (hlt : p < 32)
    (hspans : d.p 8 2 ≠ 0) (hown : a.hasPier d.tenant p = true) (hlacks : a.pierLacks d.tenant p = false)
    (hmotion : a.noMotion d.tenant = false) : pierAlignCheck a d = firstFail [((a.pier p).mode != .disabled, 0x13, 0)] := by
  subst hp
  simp [pierAlignCheck, firstFail, hfmt, hlt, hspans, hown, hlacks, hmotion]

theorem pierVoltMode_run (hrun : a.mode = .run) :
    modeIf (a.mode == .run || a.noMotion d.tenant || !(a.pier (d.p 0 1)).mode.live) 0 = some 0 := by
  simp [modeIf, hrun]

theorem pierVoltMode_ok (hrun : a.mode ≠ .run) (hmotion : a.noMotion d.tenant = false) (hlive : (a.pier (d.p 0 1)).mode.live = true) :
    modeIf (a.mode == .run || a.noMotion d.tenant || !(a.pier (d.p 0 1)).mode.live) 0 = none := by
  simp [modeIf, hrun, hmotion, hlive]

/-! ## What the opcodes do -/

section
variable {m : Motion} {dir : Int}

theorem admitMotion_blocked (h : a.blocked p dir = true) : admitMotion a j p m dir = complete a j 0x50 0 := if_pos h

theorem admitMotion_waits (h : a.blocked p dir = false) : admitMotion a j p m dir =
    (keep a { j with phase := .active }).updAxis p fun x => { x with next := x.next ++ [(m, some j.id)] } :=
  if_neg (by rw [h]; exact Bool.false_ne_true)

end

theorem supersede_idle (hjob : (a.axis p).job = none) : supersede a p = a := by simp [supersede, hjob]

theorem pierAlignDone_early (h : (a.pier p).mode ≠ .aligning ∨ (a.pier p).alignLeft ≠ 0) : pierAlignDone a p = a := if_pos h

/-- R433: the alignment ends with the angle read here. -/
theorem pierAlignDone_due (hmode : (a.pier p).mode = .aligning) (hleft : (a.pier p).alignLeft = 0) {off : Nat}
    (hoff : off = unsigned 32 (-(a.thetaP p (a.fb (a.commCh p)).snapPos : Int))) :
    pierAlignDone a p = alignEnd ((pierDisabled (a.wr (pierKey p 0x1C) off) p).updPier p fun x => { x with aligned := true }) p 0 off := by
  subst hoff
  exact if_neg (by simp [hmode, hleft])

/-- R449: a coefficient is kept within its range, and clamping is reported. -/
theorem pierCoef_eq {i v w : Nat} (hi : i = j.d.p 1 1) (hv : v = j.d.p 4 4) (hw : w = max (coefRange i).1 (min v (coefRange i).2)) :
    pierCoef a j = complete (a.updPier (j.d.p 0 1) fun x => { x with overPend := storePut (fun _ => 0) x.overPend i (w + 1) }) j
      (if w = v then 0 else 3) (if w = v then 0 else i + 2 ^ 32 * w) := by
  subst hi hv hw
  unfold pierCoef
  dsimp only
  by_cases hsame : max (coefRange (j.d.p 1 1)).1 (min (j.d.p 4 4) (coefRange (j.d.p 1 1)).2) = j.d.p 4 4
  · rw [if_pos hsame, if_pos hsame, if_pos hsame]
  · rw [if_neg hsame, if_neg hsame, if_neg hsame]

theorem pierClear_gone (hp : p = j.d.p 0 1) (hmode : (a.pier p).mode = .fault) (hgone : a.pierGone p = true) :
    pierClear a j = complete (disableDone (a.updPier p fun x => { x with mode := .disabled, cause := 0 }) p 0) j 0 1 := by
  subst hp
  exact if_pos ⟨hmode, hgone⟩

theorem pierClear_stays (hp : p = j.d.p 0 1) (h : (a.pier p).mode ≠ .fault ∨ a.pierGone p = false) : pierClear a j = complete a j 0 0 := by
  subst hp
  refine if_neg fun ⟨hmode, hgone⟩ => ?_
  obtain h | h := h
  · exact h hmode
  · rw [h] at hgone
    exact Bool.false_ne_true hgone

end

end Sys2Proof.Machine

namespace Sys2Proof.Settled
open Machine

/-- Settles O45. That PIER_VOLT completes at admission, and how alignment leaves the coefficient registers, is entry 99 of the log. -/
theorem piers : Obligations.Piers := by
  refine ⟨⟨fun s a t p d j hporst htaken hp hfmt hlt hlo hhi hown hlacks => ?_, fun s a t p d j hporst htaken hp hfmt hlt hown => ?_,
    fun s a t p v d j dir hporst htaken hp hfmt hlt hown hmotion hlive hfree hv hdir => ?_,
    fun s a t p d j dir hporst htaken hp hfmt hlt hown hmotion hlive hfree hdir => ?_,
    fun s a t p d j hporst htaken hp hfmt hlt hown hmotion hlive hfree => ?_,
    fun s a t p d j hporst htaken hp hfmt hlt hown => ⟨fun hmotion hlive => ?_, fun hrefused => ?_⟩⟩,
    fun s a t p d j hporst htaken hp hfmt hlt hspans hown hlacks hmotion => ⟨fun hmode => ?_, fun hmode => ?_⟩,
    fun s a t off p hporst ha hoff => ?_,
    fun s a t i v w d j hporst htaken hfmt hlt hi hlo hhi hv hw hown => ⟨fun hexp => ?_, fun hexp => ?_⟩,
    fun s a t d j hporst htaken hfmt hlt hf hown hexp => ?_,
    fun s a t p d j hporst htaken hp hfmt hlt hown hexp => ⟨fun hrun => ?_, fun hrun hmotion hlive hjob => ?_⟩,
    fun s a t p d j hporst htaken hp hfmt hlt hown => ?_⟩
  · have hcheck := pierEnableCheck_eq hp hfmt hlt hlo hhi hown hlacks
    refine ⟨fun hmotion => ?_, fun hmotion hmode => ?_, fun hmotion hmode haligned hhall => ?_, fun hmotion hmode hangle => ?_⟩
    · exact show execPierEnable t d s = _ from act_runOp_stop hporst htaken (by rw [hcheck, hmotion]; rfl)
    · exact show execPierEnable t d s = _ from act_runOp_stop hporst htaken (by simp [hcheck, firstFail, hmotion, hmode])
    · exact show execPierEnable t d s = _ from
        act_runOp_stop hporst htaken (by simp [hcheck, firstFail, hmotion, hmode, haligned, hhall])
    · subst hp
      exact show execPierEnable t d s = _ from act_runOp_pass hporst htaken (by
        obtain h | h := hangle <;> simp [hcheck, firstFail, hmotion, hmode, h])
  · subst hp
    exact show execPierDisable t d s = _ from act_runOp_pass hporst htaken (pierCheck_owned hfmt hlt rfl hown)
  · subst hp hv hdir
    have hpass : exec (.pierMove t d) s = .next (planNow (pierMove a j) j) :=
      show execPierMove t d s = _ from act_runOp_pass hporst htaken (pierCheck_motion hfmt hlt hown hmotion hlive (.inr hfree))
    rw [hpass, pierMove]
    refine ⟨fun h => ?_, fun h => ?_⟩
    · rw [admitMotion_blocked h]
      rfl
    · rw [admitMotion_waits h]
  · subst hp hdir
    have hpass : exec (.pierJog t d) s = .next (planNow (pierJog a j) j) :=
      show execPierJog t d s = _ from act_runOp_pass hporst htaken (pierCheck_motion hfmt hlt hown hmotion hlive (.inr hfree))
    rw [hpass, pierJog]
    refine ⟨fun h => ?_, fun h => ?_⟩
    · rw [admitMotion_blocked h]
      rfl
    · rw [admitMotion_waits h]
  · subst hp
    exact show execPierTorque t d s = _ from act_runOp_pass hporst htaken (pierCheck_motion hfmt hlt hown hmotion hlive (.inr hfree))
  · subst hp
    exact show execPierStop t d s = _ from act_runOp_pass hporst htaken (pierCheck_motion hfmt hlt hown hmotion hlive (.inl rfl))
  · subst hp
    exact show execPierStop t d s = _ from act_runOp_stop hporst htaken
      ((pierCheck_owned hfmt hlt rfl hown).trans (by rw [pierMotionMode_refused hrefused]; rfl))
  · have hcheck := pierAlignCheck_eq hp hfmt hlt hspans hown hlacks hmotion
    subst hp
    exact show execPierAlign t d s = _ from act_runOp_pass hporst htaken (by rw [hcheck, hmode]; rfl)
  · have hcheck := pierAlignCheck_eq hp hfmt hlt hspans hown hlacks hmotion
    exact show execPierAlign t d s = _ from act_runOp_stop hporst htaken (by simp [hcheck, firstFail, hmode])
  · have hexec : exec (.pierAlignDone t p) s = .next (pierAlignDone a p) := by
      rw [ha]
      exact show execPierAlignDone t p s = _ from act_next hporst rfl
    rw [hexec]
    exact ⟨fun hearly => congrArg _ (pierAlignDone_early hearly), fun hmode hleft => congrArg _ (pierAlignDone_due hmode hleft hoff)⟩
  · exact show execPierCoef t d s = _ from act_runOp_stop hporst htaken
      ((pierCheck_owned hfmt hlt (by simp; omega) hown).trans (by simp [firstFail, hexp]))
  · rw [show exec (.pierCoef t d) s = _ from act_runOp_pass hporst htaken
      ((pierCheck_owned hfmt hlt (by simp; omega) hown).trans (by simp [firstFail, hexp])), pierCoef_eq hi hv hw]
    rfl
  · exact show execPierFilter t d s = _ from act_runOp_pass hporst htaken
      ((pierCheck_owned hfmt hlt (by simpa using hf) hown).trans (by simp [firstFail, hexp]))
  · subst hp
    exact show execPierVolt t d s = _ from act_runOp_stop hporst htaken
      ((pierCheck_owned hfmt hlt rfl hown).trans (by simp [firstFail, hexp, pierVoltMode_run hrun]))
  · subst hp
    rw [show exec (.pierVolt t d) s = _ from act_runOp_pass hporst htaken
      ((pierCheck_owned hfmt hlt rfl hown).trans (by simp [firstFail, hexp, pierVoltMode_ok hrun hmotion hlive])), andDone, doPierVolt,
      supersede_idle hjob]
    rfl
  · have hpass : exec (.pierClear t d) s = .next (planNow (pierClear a j) j) := by
      subst hp
      exact show execPierClear t d s = _ from act_runOp_pass hporst htaken (pierCheck_owned hfmt hlt rfl hown)
    rw [hpass]
    refine ⟨fun hmode hgone => ?_, fun hstays => ?_⟩
    · rw [pierClear_gone hp hmode hgone]
      rfl
    · rw [pierClear_stays hp hstays]
      rfl

end Sys2Proof.Settled
end

section
/-!
SUPPORT. Profile moves, interpolation groups, stays, cam tables and LINK_INFO (chapter 13).
-/
namespace Sys2Proof.Machine

/-! ## Claims -/

theorem claimedByOther_none (tn : Nat) : claimedByOther none tn = false := rfl

theorem claimedByOther_self (tn : Nat) : claimedByOther (some tn) tn = false := by simp [claimedByOther]

theorem claimedByOther_of_ne {o tn : Nat} (h : o ≠ tn) : claimedByOther (some o) tn = true := by simp [claimedByOther, h]

section
variable {a : State} {j : Job} {d : Desc}

/-! ## Profile moves and stop decelerations (R476 to R482) -/

theorem profileMoveCheck_eq {x : Nat} (hx : x = axisOfCode (d.p 0 1)) (hfmt : badFormat d (pm 0 1 ||| pm 4 24) true = false) (hlt : x < 48)
    (hown : a.hasAxis d.tenant x = true) :
    profileMoveCheck a d = firstFail [(a.noMotion d.tenant || !a.axisOn x || !a.axisFree x, 0x13, 0)] := by
  subst hx
  simp [profileMoveCheck, firstFail, hfmt, hlt, hown]

theorem axisStopCheck_zero (hzero : d.p 4 4 = 0) : axisStopCheck a d = some (0x14, 0) := by
  simp [axisStopCheck, firstFail, hzero]

theorem axisStopCheck_ok (hfmt : badFormat d (pm 0 1 ||| pm 4 4) false = false) (hp : d.p 0 1 < 32) (hdec : d.p 4 4 ≠ 0)
    (hown : a.hasPier d.tenant (d.p 0 1) = true) : axisStopCheck a d = none := by
  simp [axisStopCheck, firstFail, hfmt, hp, hdec, hown]

/-! ## Groups (R483 to R496) -/

theorem groupOpenCheck_eq {g : Nat} (hg : g = d.p 0 1) (hfmt : badFormat d (pm 0 2 ||| pm 4 16) false = false) (hlt : g < 8)
    (hlo : 1 ≤ d.p 1 1) (hhi : d.p 1 1 ≤ 8) (hax : ∀ x ∈ groupAxes d, x ≠ 48) (hdist : distinct (groupAxes d) = true)
    (hacc : d.p 12 4 ≠ 0) (hown : ∀ x ∈ groupAxes d, a.hasAxis d.tenant x = true) :
    groupOpenCheck a d = firstFail [(claimedByOther (a.group g).owner d.tenant, 0x11, 0),
      ((a.group g).owner.isSome || (groupAxes d).any fun x => !a.axisFree x || a.axisDead x, 0x13, 0)] := by
  subst hg
  have h48 : 48 ∉ groupAxes d := fun h => hax 48 h rfl
  have hall : ((groupAxes d).any fun x => !a.hasAxis d.tenant x) = false := by simpa using hown
  simp [groupOpenCheck, firstFail, hfmt, not_le.mpr hlt, not_lt.mpr hhi, show d.p 1 1 ≠ 0 by omega, h48, hdist, hacc, hall]

/-- An opcode on a group that its tenant has open. -/
theorem groupCheck_owned {named : Nat} {bad : Desc → Bool} {mode : State → Desc → Bool} (hfmt : badFormat d named false = false)
    (hlt : d.p 0 1 < 8) (hbad : bad d = false) (hown : (a.group (d.p 0 1)).owner = some d.tenant.val) :
    groupCheck named bad mode a d = firstFail [(mode a d, 0x13, 0)] := by
  simp [groupCheck, firstFail, hfmt, hlt, hbad, hown, claimedByOther]

theorem segAppendCheck_ok (hfmt : badFormat d (pm 0 2 ||| pm 4 8) false = false) (hlt : d.p 0 1 < 8) (hlo : 1 ≤ d.p 1 1)
    (hhi : d.p 1 1 ≤ 32) (hline : d.p 4 8 % 64 = 0) (hown : (a.group (d.p 0 1)).owner = some d.tenant.val)
    (hbudget : a.noBudget d.tenant d.clsNo [1, 0, 0, 0, 0, 0, 0] = false) (hmotion : a.noMotion d.tenant = false)
    (hlarge : a.tooLarge d.tenant d.clsNo [1, 0, 0, 0, 0, 0, 0] = false) : segAppendCheck a d = none := by
  simp [segAppendCheck, firstFail, hfmt, hlt, show d.p 1 1 ≠ 0 by omega, not_lt.mpr hhi, hline, hown, claimedByOther, hbudget, hmotion,
    hlarge]

/-- R495: GROUP_CTRL STOP acts on a group that runs or is held. -/
theorem groupCtrl_stop (g : Group) (v : Nat) :
    (groupCtrl g (0, v)).state = if g.state = .running ∨ g.state = .held then .stopping else g.state :=
  apply_ite Group.state (g.state = .running ∨ g.state = .held) { g with state := .stopping } g

theorem groupCtrl_hold (g : Group) (v : Nat) :
    (groupCtrl g (1, v)).state = if g.state = .running ∨ g.state = .idle then .held else g.state :=
  apply_ite Group.state (g.state = .running ∨ g.state = .idle) { g with state := .held } g

theorem groupCtrl_resume (g : Group) (v : Nat) :
    (groupCtrl g (2, v)).state = if g.state = .held then (if g.queue = [] then .idle else .running) else g.state :=
  apply_ite Group.state (g.state = .held) { g with state := if g.queue = [] then .idle else .running } g

theorem groupCtrl_queue (g : Group) (n v : Nat) : (groupCtrl g (n, v)).queue = g.queue := by
  match n with
  | 0 => exact (apply_ite Group.queue (g.state = .running ∨ g.state = .held) { g with state := .stopping } g).trans (ite_self _)
  | 1 => exact (apply_ite Group.queue (g.state = .running ∨ g.state = .idle) { g with state := .held } g).trans (ite_self _)
  | 2 =>
    exact (apply_ite Group.queue (g.state = .held) { g with state := if g.queue = [] then .idle else .running } g).trans (ite_self _)
  | n + 3 => rfl

/-! ## Stays (R498 to R505) -/

theorem stayOpenCheck_eq {y : Nat} (hy : y = d.p 0 1) (hfmt : badFormat d (pm 0 4 ||| pb 4 3 ||| pm 5 11) false = false) (hlt : y < 64)
    (hx : axisOfCode (d.p 1 1) < 48) (hkind : d.p 2 1 ≤ 6) (hindex : d.p 3 1 < masterCount (d.p 2 1)) (hden : d.p 12 4 ≠ 0)
    (hcam : bit (d.p 4 1) 0 = false) (hnum : d.p 8 4 ≠ 0) (hown : a.hasAxis d.tenant (axisOfCode (d.p 1 1)) = true)
    (hneed : a.masterNeed d.tenant (d.p 2 1) (d.p 3 1) = true) :
    stayOpenCheck a d = firstFail [(claimedByOther (a.stay y).owner d.tenant, 0x11, 0), ((a.stay y).owner.isSome, 0x13, 0)] := by
  subst hy
  simp [stayOpenCheck, firstFail, hfmt, hlt, hx, not_lt.mpr hkind, hindex, hden, hcam, hnum, hown, hneed]

theorem doStayOpen_gear (hcam : bit (d.p 4 1) 0 = false) : doStayOpen a d = a.setStay (d.p 0 1) { Stay.reset with
    owner := some d.tenant, follower := axisOfCode (d.p 1 1), kind := d.p 2 1, index := d.p 3 1, cam := false
    coast := bit (d.p 4 1) 1, table := d.p 5 1, coastSpans := d.p 6 2, num := d.pS 8 4, den := d.p 12 4, state := .released } := by
  rw [doStayOpen, hcam]

theorem stayEngageCheck_eq {y x : Nat} (hy : y = d.p 0 1) (hfmt : badFormat d (pm 0 2 ||| pb 2 1 ||| pm 4 16) false = false) (hlt : y < 64)
    (hmode : d.p 1 1 = 1) (hcam : (a.stay y).cam = false) (hdm : 65536 ≤ d.p 12 8) (hown : (a.stay y).owner = some d.tenant.val)
    (hx : x = (a.stay y).follower) (hax : a.hasAxis d.tenant x = true) :
    stayEngageCheck a d = firstFail [((a.stay y).state != .released || a.noMotion d.tenant || a.axisDead x || !a.axisFree x ||
      !(a.axis x).stands || (a.axis x).p != (a.axis x).lastP || (a.axis x).next != [], 0x13, 0)] := by
  subst hy hx
  simp [stayEngageCheck, firstFail, hfmt, hlt, hmode, hcam, not_lt.mpr hdm, hown, hax, claimedByOther]

/-- Keeping a job changes the list of jobs alone. -/
theorem keep_jobs (s : State) (q : Job) : ∃ js, keep s q = { s with jobs := js } := by
  unfold keep
  split
  · exact ⟨_, rfl⟩
  · exact ⟨_, rfl⟩

/-- What STAY_ENGAGE writes once the follower stands in POSITION: the axis follows the stay, the stay waits for its master. -/
def engaged (s : State) (j : Job) (y x : Nat) : State :=
  let s := s.updAxis x fun z => { z with src := .stay y }
  s.updStay y fun z => { z with
    state := .waiting, mode := j.d.p 1 1, falling := j.d.p 2 1 == 1, m := j.d.pS 4 8
    dm := if j.d.p 1 1 = 0 ∨ z.cam then 0 else j.d.p 12 8, pm0 := none, pf0 := (s.axis x).p, lastM := none, lastV := 0, lastVref := 0
    isInvalid := false, relWait := false, pOff := none, engJob := some j.id }

/-- R499: a follower that stands in POSITION with no motion is taken as it is. -/
theorem stayEngage_standing {y x : Nat} (hy : y = j.d.p 0 1) (hx : x = (a.stay y).follower) (hjob : (a.axis x).job = none)
    (hpos : a.axisPos x = true) : ∃ js, stayEngage a j = engaged { a with jobs := js } j y x := by
  obtain ⟨js, hkeep⟩ := keep_jobs a { j with phase := .active }
  have hposition : toPosition { a with jobs := js } x = { a with jobs := js } :=
    if_pos (by rw [show State.axisPos { a with jobs := js } x = true from hpos]; simp)
  have hready : toPosition (supersede (keep a { j with phase := .active }) x) x = { a with jobs := js } := by
    rw [hkeep, supersede_idle (a := { a with jobs := js }) hjob, hposition]
  subst hy hx
  exact ⟨js, congrArg (fun u => engaged u j (j.d.p 0 1) (a.stay (j.d.p 0 1)).follower) hready⟩

section
variable {y x : Nat} (htab : Safety.Tables a)
include htab

theorem stay_updStay_self (f : Stay → Stay) : (a.updStay y f).stay y = f (a.stay y) := storeGet_storePut_self _ htab.stays y _

theorem axis_updAxis_self (f : Axis → Axis) : (a.updAxis x f).axis x = f (a.axis x) := storeGet_storePut_self _ htab.axes x _

theorem axis_engaged : (engaged a j y x).axis x = { a.axis x with src := .stay y } :=
  axis_updAxis_self htab fun z => { z with src := .stay y }

theorem stay_engaged : (engaged a j y x).stay y = { a.stay y with
    state := .waiting, mode := j.d.p 1 1, falling := j.d.p 2 1 == 1, m := j.d.pS 4 8
    dm := if j.d.p 1 1 = 0 ∨ (a.stay y).cam then 0 else j.d.p 12 8, pm0 := none, pf0 := (a.axis x).p, lastM := none, lastV := 0
    lastVref := 0, isInvalid := false, relWait := false, pOff := none, engJob := some j.id } := by
  have hp : ((a.updAxis x fun z => { z with src := .stay y }).axis x).p = (a.axis x).p := by rw [axis_updAxis_self htab]
  rw [← hp]
  exact storeGet_storePut_self _ htab.stays y _

end

theorem stay_engaged_of_ne {y x z : Nat} (h : z ≠ y) : (engaged a j y x).stay z = a.stay z := storeGet_storePut_of_ne _ _ _ h

/-- R503: a driving stay released in mode 1 waits for its master. -/
theorem stayRelease_waits {y : Nat} (hy : y = j.d.p 0 1) (hdrives : (a.stay y).state.drives = true) (hmode : j.d.p 1 1 = 1)
    (htab : Safety.Tables a) : (stayRelease a j).stay y = { a.stay y with
      relJobs := (a.stay y).relJobs ++ [j.id], relWait := true, relM := j.d.pS 4 8, relDm := j.d.p 12 8
      relFalling := j.d.p 2 1 == 1 } ∧ (stayRelease a j).axes = a.axes ∧ (stayRelease a j).regs = a.regs := by
  have hstay : (keep a { j with phase := .active }).stay y = a.stay y := by
    obtain ⟨js, hkeep⟩ := keep_jobs a { j with phase := .active }
    rw [hkeep]
    rfl
  have haxes : (keep a { j with phase := .active }).axes = a.axes ∧ (keep a { j with phase := .active }).regs = a.regs := by
    obtain ⟨js, hkeep⟩ := keep_jobs a { j with phase := .active }
    rw [hkeep]
    exact ⟨rfl, rfl⟩
  have htab₁ := (keeps_keep (Keeps.refl a) { j with phase := .active }).tables htab
  have htab₂ := (keeps_updStay (Keeps.refl _) y fun z => { z with relJobs := z.relJobs ++ [j.id] }).tables htab₁
  subst hy
  unfold stayRelease
  dsimp only
  rw [hdrives, if_neg (by simp), if_neg (by omega)]
  refine ⟨?_, haxes⟩
  rw [stay_updStay_self htab₂, stay_updStay_self htab₁, hstay]

/-- R503: a stay that does not drive waits until its follower stands. -/
theorem stayRelease_moving {y : Nat} (hy : y = j.d.p 0 1) (hidle : (a.stay y).state.drives = false)
    (hmoves : (a.axis (a.stay y).follower).stands = false) : stayRelease a j =
      (keep a { j with phase := .active }).updStay y fun x => { x with relJobs := x.relJobs ++ [j.id] } := by
  have haxis (x : Nat) : ((keep a { j with phase := .active }).updStay y fun x => { x with relJobs := x.relJobs ++ [j.id] }).axis x = a.axis x := by
    obtain ⟨js, hkeep⟩ := keep_jobs a { j with phase := .active }
    rw [hkeep]
    rfl
  subst hy
  unfold stayRelease
  dsimp only
  rw [hidle, if_pos (by simp), haxis, if_neg (by rw [hmoves]; exact Bool.false_ne_true)]

theorem stayReleaseCheck_eq {y : Nat} (hy : y = d.p 0 1) (hfmt : badFormat d (pm 0 2 ||| pb 2 1 ||| pm 4 16) false = false) (hlt : y < 64)
    (hmode : d.p 1 1 ≤ 1) : stayReleaseCheck a d =
      firstFail [(claimedByOther (a.stay y).owner d.tenant, 0x11, 0), ((a.stay y).owner.isNone, 0x13, 0)] := by
  subst hy
  simp [stayReleaseCheck, firstFail, hfmt, hlt, not_lt.mpr hmode]

theorem stayCloseCheck_eq {y : Nat} (hy : y = d.p 0 1) (hfmt : badFormat d (pm 0 1) false = false) (hlt : y < 64)
    (hown : (a.stay y).owner = some d.tenant.val) : stayCloseCheck a d = firstFail [((a.stay y).state != .released, 0x13, 0)] := by
  subst hy
  simp [stayCloseCheck, firstFail, hfmt, hlt, hown, claimedByOther]

theorem coastEnd_due {s : State} {y : Nat} (hcoast : (s.stay y).state = .coasting) (hleft : (s.stay y).coastLeft = 0)
    (hinv : (s.master (s.stay y)).2.2 = true) : coastEnd s y = engageDone (stayRamp s y .released) y 0x52 0 :=
  if_pos ⟨hcoast, hleft, hinv⟩

theorem coastEnd_not {s : State} {y : Nat}
    (h : (s.stay y).state ≠ .coasting ∨ (s.stay y).coastLeft ≠ 0 ∨ (s.master (s.stay y)).2.2 = false) : coastEnd s y = s := by
  refine if_neg fun ⟨hcoast, hleft, hinv⟩ => ?_
  obtain h | h | h := h
  · exact h hcoast
  · exact h hleft
  · rw [h] at hinv
    exact Bool.false_ne_true hinv

/-! ## Cam tables and LINK_INFO (R506, R518) -/

/-- Where no pipe is needed none lacks a budget, and no piece is too large. -/
theorem noBudget_zero (tn cls : Nat) : a.noBudget tn cls [0, 0, 0, 0, 0, 0, 0] = false := by
  simp [State.noBudget, List.range_succ, nth]

theorem tooLarge_zero (tn cls : Nat) : a.tooLarge tn cls [0, 0, 0, 0, 0, 0, 0] = false := by
  simp [State.tooLarge, List.range_succ, nth]

section
variable {x n : Nat} (hx : x = d.p 0 1) (hn : n = d.p 2 2) (hfmt : badFormat d (pm 0 1 ||| pb 1 3 ||| pm 2 22) true = false) (hlt : x < 16)
  (hlen : d.p 12 8 ≠ 0) (hown : (a.camTab x).owner = none ∨ (a.camTab x).owner = some d.tenant.val)
include hx hn hfmt hlt hlen hown

theorem camLoadCheck_free (hzero : n = 0) : camLoadCheck a d = firstFail [(a.tableUsed x, 0x13, 0)] := by
  have hclaim : claimedByOther (a.camTab x).owner d.tenant = false := by
    obtain h | h := hown <;> simp [claimedByOther, h]
  subst hx
  simp [camLoadCheck, firstFail, hfmt, hlt, ← hn, hzero, hlen, hclaim, b2n, noBudget_zero, tooLarge_zero]

theorem camLoadCheck_load (hmax : n ≤ 4096) (hpts : 2 ≤ n) (hused : a.tableUsed x = false) (hbudget : a.noBudget d.tenant d.clsNo [1, 0, 0, 0, 0, 0, 0] = false)
    (hlarge : a.tooLarge d.tenant d.clsNo [1, 0, 0, 0, 0, 0, 0] = false) : camLoadCheck a d = none := by
  have hclaim : claimedByOther (a.camTab x).owner d.tenant = false := by
    obtain h | h := hown <;> simp [claimedByOther, h]
  subst hx
  simp [camLoadCheck, firstFail, hfmt, hlt, ← hn, show n ≠ 0 by omega, show n ≠ 1 by omega, not_lt.mpr hmax, hlen, hclaim, b2n, hused,
    hbudget, hlarge]

end

theorem camLoad_free {x : Nat} (hx : x = j.d.p 0 1) (hzero : j.d.p 2 2 = 0) :
    camLoad a j = complete (a.setCamTab x CamTab.reset) j 0 0 := by
  subst hx
  exact if_pos hzero

theorem camLoad_load {x n : Nat} (hx : x = j.d.p 0 1) (hn : n = j.d.p 2 2) (hpts : 2 ≤ n) :
    camLoad a j = keep (a.updCamTab x fun c => { c with owner := some j.d.tenant }) { j with
      phase := .active, slices := List.replicate ((4 * n + 1023) / 1024) [1, 0, 0, 0, 0, 0, 0], aux := [] } := by
  subst hx hn
  exact if_neg (by omega)

/-- What LINK_INFO asks about, in the order of its kinds. -/
theorem linkInfoCheck_eq {i k : Nat} (hi : i = d.p 1 1) (hk : k = d.p 0 1) (hfmt : badFormat d (pm 0 3) false = false) (hkind : k ≤ 3)
    (hrange : k = 0 → i < 8) (hrange₁ : k = 1 → i < 64) (hrange₂ : k = 2 → i < 16) (hrange₃ : k = 3 → i < 8 ∧ d.p 2 1 < 32) :
    linkInfoCheck a d = firstFail [((k == 0 && claimedByOther (a.group i).owner d.tenant) ||
      (k == 1 && claimedByOther (a.stay i).owner d.tenant) || (k == 2 && claimedByOther (a.camTab i).owner d.tenant) ||
      (k == 3 && !a.hasPier d.tenant (d.p 2 1)), 0x11, 0)] := by
  subst hi hk
  have hfit : (badFormat d (pm 0 3) false || decide (3 < d.p 0 1) || (d.p 0 1 == 0 && decide (8 ≤ d.p 1 1)) ||
      (d.p 0 1 == 1 && decide (64 ≤ d.p 1 1)) || (d.p 0 1 == 2 && decide (16 ≤ d.p 1 1)) ||
      (d.p 0 1 == 3 && (decide (8 ≤ d.p 1 1) || decide (32 ≤ d.p 2 1)))) = false := by
    simp only [hfmt, Bool.or_eq_false_iff, Bool.and_eq_false_iff, decide_eq_false_iff_not, beq_eq_false_iff_ne, true_and]
    omega
  unfold linkInfoCheck
  dsimp only
  rw [hfit]
  rfl

section
variable {i : Nat} (hi : i = j.d.p 1 1)
include hi

theorem linkInfo_group (hk : j.d.p 0 1 = 0) : linkInfo a j = complete a j 0 ((a.group i).state.code + 256 * b2n (a.group i).starved +
    65536 * (a.group i).queue.length + 2 ^ 32 * (((a.group i).queue.head?.map (·.tag)).getD 0)) := by
  subst hi
  unfold linkInfo
  rw [hk]
  rfl

theorem linkInfo_stay (hk : j.d.p 0 1 = 1) :
    linkInfo a j = complete a j 0 ((a.stay i).state.code + 2 ^ 32 * ((a.stay i).invalid % 2 ^ 32)) := by
  subst hi
  unfold linkInfo
  rw [hk]
  rfl

theorem linkInfo_camTab (hk : j.d.p 0 1 = 2) : linkInfo a j = complete a j 0 (b2n (a.camTab i).owner.isSome) := by
  subst hi
  unfold linkInfo
  rw [hk]
  rfl

theorem linkInfo_latch (hk : j.d.p 0 1 = 3) : linkInfo a j =
    complete a j 0 (b2n (a.latch (8 * j.d.p 2 1 + i)).armed + 2 ^ 32 * ((a.latch (8 * j.d.p 2 1 + i)).captures % 2 ^ 32)) := by
  subst hi
  unfold linkInfo
  rw [hk]
  rfl

end

end

end Sys2Proof.Machine

namespace Sys2Proof.Settled
open Machine

/-- Settles O47. -/
theorem pathsAndGroups : Obligations.PathsAndGroups := by
  refine ⟨⟨fun s a t x v d j dir hporst htaken hx hfmt hlt hown hv hdir => ?_, fun s a t d j hporst htaken hfmt hp => ?_⟩,
    fun s a t g d j hporst htaken hg hfmt hlt hlo hhi hax hdist hacc hown => ?_, fun s a t g d j hporst htaken hg hfmt hlt hown => ?_,
    fun s a t g d j hporst htaken hg hfmt hlt hlo hhi hline hown hbudget hmotion hlarge => ?_,
    fun s a t d j c n hporst hc htaken hfmt hlt hn hown => ?_,
    fun g v => ⟨groupCtrl_stop g v, groupCtrl_hold g v, groupCtrl_resume g v, rfl, fun n => groupCtrl_queue g n v⟩⟩
  · have hcheck := profileMoveCheck_eq hx hfmt hlt hown
    refine ⟨fun hrefused => ?_, fun hmotion hon hfree => ?_⟩
    · exact show execProfileMove t d s = _ from act_runOp_stop hporst htaken (by
        obtain h | h | h := hrefused <;> simp [hcheck, firstFail, h])
    · have hpass : exec (.profileMove t d) s = .next (planNow (profileMove a j) j) :=
        show execProfileMove t d s = _ from act_runOp_pass hporst htaken (by simp [hcheck, firstFail, hmotion, hon, hfree])
      subst hx hv hdir
      rw [hpass, profileMove]
      refine ⟨fun h => ?_, fun h => ?_⟩
      · rw [admitMotion_blocked h]
        rfl
      · rw [admitMotion_waits h]
  · refine ⟨fun hzero => ?_, fun hdec hown => ?_⟩
    · exact show execAxisStopCfg t d s = _ from act_runOp_stop hporst htaken (axisStopCheck_zero hzero)
    · exact show execAxisStopCfg t d s = _ from act_runOp_pass hporst htaken (axisStopCheck_ok hfmt hp hdec hown)
  · have hcheck := groupOpenCheck_eq hg hfmt hlt hlo hhi hax hdist hacc hown
    refine ⟨fun hfree haxes => ?_, fun o hother hne => ?_, fun hopen => ?_⟩
    · have hall : ((groupAxes j.d).any fun x => !a.axisFree x || a.axisDead x) = false := by simpa using haxes
      subst hg
      exact show execGroupOpen t d s = _ from act_runOp_pass hporst htaken (by rw [hcheck, hfree, hall]; rfl)
    · exact show execGroupOpen t d s = _ from
        act_runOp_stop hporst htaken (by rw [hcheck, hother, claimedByOther_of_ne hne]; rfl)
    · exact show execGroupOpen t d s = _ from
        act_runOp_stop hporst htaken (by rw [hcheck, hopen, claimedByOther_self]; rfl)
  · subst hg
    have hcheck : groupCloseCheck a j.d = firstFail [((a.group (j.d.p 0 1)).state != .idle, 0x13, 0)] :=
      groupCheck_owned hfmt hlt rfl hown
    refine ⟨fun hidle => ?_, fun hbusy => ?_⟩
    · exact show execGroupClose t d s = _ from act_runOp_pass hporst htaken (by rw [hcheck, hidle]; rfl)
    · exact show execGroupClose t d s = _ from act_runOp_stop hporst htaken (by simp [hcheck, firstFail, hbusy])
  · subst hg
    exact show execSegAppend t d s = _ from
      act_runOp_pass hporst htaken (segAppendCheck_ok hfmt hlt hlo hhi hline hown hbudget hmotion hlarge)
  · have hle : n ≤ 3 := by
      simp only [List.mem_cons, List.not_mem_nil, Prod.mk.injEq, or_false] at hc
      omega
    have hexec : exec c s = act s fun s => runOp s t 0x25 (d.setP 1 n) groupCtrlCheck groupCtrlStart := by
      simp only [List.mem_cons, List.not_mem_nil, Prod.mk.injEq, or_false] at hc
      obtain ⟨rfl, rfl⟩ | ⟨rfl, rfl⟩ | ⟨rfl, rfl⟩ | ⟨rfl, rfl⟩ := hc <;> rfl
    rw [hexec, act_runOp_pass hporst htaken (groupCheck_owned hfmt hlt (by simpa [hn] using hle) hown), groupCtrlStart, hn]
    rfl

/-- Settles O48. What STAY_RELEASE of a released stay and CAM_LOAD without points do is entry 105 of the log, and what answers for a stay
that nobody has claimed entry 103. -/
theorem staysAndCams : Obligations.StaysAndCams := by
  refine ⟨⟨fun s a t y d j hporst htaken hy hfmt hlt hx hkind hindex hden hcam hnum hown hneed => ?_,
    fun s a t y x d j hporst htaken hy hfmt hlt hmode hcam hdm hown hx hax => ?_,
    fun s a t y d j hporst htaken hy hfmt hlt hmode => ?_, fun s a t y d j hporst htaken hy hfmt hlt hown => ?_,
    fun s y hporst => ?_⟩, fun s a t x n d j hporst htaken hx hn hfmt hlt hmax hlen hown => ?_,
    fun s a t i d j hporst htaken hi hfmt => ?_⟩
  · have hcheck := stayOpenCheck_eq hy hfmt hlt hx hkind hindex hden hcam hnum hown hneed
    refine ⟨fun hfree => ?_, fun hopen => ?_⟩
    · subst hy
      rw [show exec (.stayOpen t d) s = _ from act_runOp_pass hporst htaken (by rw [hcheck, hfree]; rfl), andDone, doStayOpen_gear hcam]
      rfl
    · exact show execStayOpen t d s = _ from act_runOp_stop hporst htaken (by rw [hcheck, hopen, claimedByOther_self]; rfl)
  · have hcheck := stayEngageCheck_eq hy hfmt hlt hmode hcam hdm hown hx hax
    refine ⟨fun hrel hmotion hdead hfree hstands hlast hnext hjob hpos htab => ?_, fun hrefused => ?_⟩
    · obtain ⟨js, hu⟩ := stayEngage_standing hy hx hjob hpos
      have htab' : Safety.Tables { a with jobs := js } := { htab with }
      refine ⟨_, show execStayEngage t d s = _ from act_runOp_pass hporst htaken (by
        simp [hcheck, firstFail, hrel, hmotion, hdead, hfree, hstands, hlast, hnext]), ?_⟩
      rw [hu, stay_engaged htab', axis_engaged htab']
      exact ⟨rfl, hmode, rfl, if_neg (not_or.mpr ⟨by omega, by rw [show (State.stay { a with jobs := js } y).cam = false from hcam]; exact Bool.false_ne_true⟩),
        rfl, rfl, rfl, rfl, rfl, fun z hz => stay_engaged_of_ne hz⟩
    · exact show execStayEngage t d s = _ from act_runOp_stop hporst htaken (by
        obtain h | h | h | h := hrefused <;> simp [hcheck, firstFail, h])
  · have hcheck := stayReleaseCheck_eq (a := a) hy hfmt hlt hmode
    refine ⟨fun hfree => ?_, fun hown hdrives hone htab => ?_, fun hown hidle hmoves => ?_⟩
    · exact show execStayRelease t d s = _ from act_runOp_stop hporst htaken (by rw [hcheck, hfree]; rfl)
    · exact ⟨_, show execStayRelease t d s = _ from
        act_runOp_pass hporst htaken (by rw [hcheck, hown, claimedByOther_self]; rfl), stayRelease_waits hy hdrives hone htab⟩
    · rw [show exec (.stayRelease t d) s = _ from
        act_runOp_pass hporst htaken (by rw [hcheck, hown, claimedByOther_self]; rfl), stayRelease_moving hy hidle hmoves]
  · have hcheck := stayCloseCheck_eq hy hfmt hlt hown
    refine ⟨fun hrel => ?_, fun hrel => ?_⟩
    · subst hy
      exact show execStayClose t d s = _ from act_runOp_pass hporst htaken (by rw [hcheck, hrel]; rfl)
    · exact show execStayClose t d s = _ from act_runOp_stop hporst htaken (by simp [hcheck, firstFail, hrel])
  · refine ⟨fun hcoast hleft hinv => ?_, fun hnot => ?_⟩
    · exact show execStayCoastExpiry y s = _ from act_next hporst (coastEnd_due hcoast hleft hinv)
    · exact show execStayCoastExpiry y s = _ from act_next hporst (coastEnd_not hnot)
  · refine ⟨fun hzero hused => ?_, fun hpts hused hbudget hlarge => ?_, fun hzero hused => ?_⟩
    · rw [show exec (.camLoad t d) s = _ from act_runOp_pass hporst htaken
        (by rw [camLoadCheck_free hx hn hfmt hlt hlen hown hzero, hused]; rfl), camLoad_free hx (hn ▸ hzero)]
      rfl
    · rw [show exec (.camLoad t d) s = _ from act_runOp_pass hporst htaken
        (camLoadCheck_load hx hn hfmt hlt hlen hown hmax hpts hused hbudget hlarge), camLoad_load hx hn hpts]
    · exact show execCamLoad t d s = _ from act_runOp_stop hporst htaken
        (by rw [camLoadCheck_free hx hn hfmt hlt hlen hown hzero, hused]; rfl)
  · have hpass {k : Nat} (hk : j.d.p 0 1 = k) {r : Nat} (hr : linkInfo a j = complete a j 0 r) (hkind : k ≤ 3) (hrange : k = 0 → i < 8)
        (hrange₁ : k = 1 → i < 64) (hrange₂ : k = 2 → i < 16) (hrange₃ : k = 3 → i < 8 ∧ j.d.p 2 1 < 32)
        (hclaim : ((k == 0 && claimedByOther (a.group i).owner j.d.tenant) || (k == 1 && claimedByOther (a.stay i).owner j.d.tenant) ||
          (k == 2 && claimedByOther (a.camTab i).owner j.d.tenant) || (k == 3 && !a.hasPier j.d.tenant (j.d.p 2 1))) = false) :
        exec (.linkInfo t d) s = .next (Safety.answer a j 0 r) := by
      rw [show exec (.linkInfo t d) s = _ from act_runOp_pass hporst htaken (by
        rw [linkInfoCheck_eq hi hk.symm hfmt hkind hrange hrange₁ hrange₂ hrange₃, hclaim]; rfl), hr]
      rfl
    refine ⟨fun g hg hk hlt hclaim => ?_, fun y hy hk hlt hclaim => ?_, fun hk hlt hclaim => ?_, fun l hl hk hlt hp hown => ?_,
      fun o hk hlt hother hne => ?_⟩
    · subst hg
      exact hpass hk (linkInfo_group hi hk) (by omega) (fun _ => hlt) (by omega) (by omega) (by omega) (by rw [hclaim]; rfl)
    · subst hy
      exact hpass hk (linkInfo_stay hi hk) (by omega) (by omega) (fun _ => hlt) (by omega) (by omega) (by rw [hclaim]; rfl)
    · exact hpass hk (linkInfo_camTab hi hk) (by omega) (by omega) (by omega) (fun _ => hlt) (by omega) (by rw [hclaim]; rfl)
    · subst hl
      exact hpass hk (linkInfo_latch hi hk) (by omega) (by omega) (by omega) (by omega) (fun _ => ⟨hlt, hp⟩) (by rw [hown]; rfl)
    · exact show execLinkInfo t d s = _ from act_runOp_stop hporst htaken (by
        rw [linkInfoCheck_eq hi hk.symm hfmt (by omega) (fun _ => hlt) (by omega) (by omega) (by omega), hother, claimedByOther_of_ne hne]
        rfl)

end Sys2Proof.Settled
end

section
/-!
SUPPORT. Step outputs and limit inputs (chapter 14).
-/
namespace Sys2Proof.Machine

/-! ## Writing what stands there -/

theorem storePut_storeGet_self {α : Type} [DecidableEq α] (dflt : Nat → α) {m : Store α} (h : storeWf dflt m = true) (k : Nat) :
    storePut dflt m k (storeGet dflt m k) = m := by
  refine store_ext dflt (storeWf_storePut dflt h k _) h fun k' => ?_
  by_cases hk : k' = k
  · rw [hk, storeGet_storePut_self dflt h]
  · rw [storeGet_storePut_of_ne dflt m _ hk]

theorem wr_rd_self {s : State} (htab : Safety.Tables s) (k : Nat) : s.wr k (s.rd k) = s := by
  rw [State.wr, State.rd, BitVec.ofNat_toNat, BitVec.setWidth_eq, storePut_storeGet_self _ htab.regs]

theorem setBits_clear {w i : Nat} (h : bit w i = false) : setBits w i 1 0 = w := by
  have hzero : bits w i 1 = 0 := by
    have : w / 2 ^ i % 2 ≠ 1 := by simpa [bit] using h
    rw [bits]
    omega
  simp [setBits, hzero]

/-! ## Steps (R519 to R525) -/

section
variable {s : State} {n : Nat}

theorem stepEmit_idle (h : (s.sg n).enabled = false ∨ (s.sg n).halted = true ∨ stepsOf ((s.sg n).phase s.now) = (s.sg n).steps) :
    stepEmit s n = s := by
  unfold stepEmit
  refine if_pos ?_
  obtain h | h | h := h <;> simp [h]

section
variable (hon : (s.sg n).enabled = true) (hrun : (s.sg n).halted = false) (hcarry : stepsOf ((s.sg n).phase s.now) ≠ (s.sg n).steps)
  (hstop : (s.sg n).stopAt = none)
include hon hrun hcarry hstop

/-- R519: without pins a carry is a step at once. -/
theorem stepEmit_group (hpins : s.sgPins n = false) : stepEmit s n = s.setSg n { s.sg n with
    steps := if (s.sg n).steps < stepsOf ((s.sg n).phase s.now) then (s.sg n).steps + 1 else (s.sg n).steps - 1
    lastStep := s.tb.spanIx
    stepHigh := false } := by
  unfold stepEmit
  extract_lets x want width setup pins after s₁
  have hpins' : pins = false := hpins
  rw [if_neg (by simp [x, want, hon, hrun, hcarry, hstop, hpins']), if_neg (by simp [x, hstop])]
  simp only [s₁, hpins']
  rfl

/-- R524, R525: the pin rises after its setup and its low time. -/
theorem stepEmit_pin (hpins : s.sgPins n = true) (hlow : (s.sg n).stepHigh = false) (hdir : (s.sg n).dirAt = none)
    (hfall : (s.sg n).fallAt = none) : stepEmit s n = s.setSg n { s.sg n with
      steps := if (s.sg n).steps < stepsOf ((s.sg n).phase s.now) then (s.sg n).steps + 1 else (s.sg n).steps - 1
      lastStep := s.tb.spanIx
      stepHigh := true
      riseAt := some s.now } := by
  unfold stepEmit
  extract_lets x want width setup pins after s₁
  have hpins' : pins = true := hpins
  rw [if_neg (by simp [x, want, after, hon, hrun, hcarry, hstop, hpins', hlow, hdir, hfall]), if_neg (by simp [x, hstop])]
  simp only [s₁, hpins']
  rfl

end

section
variable (hpins : s.sgPins n = true)
include hpins

theorem stepEmit_high (hhigh : (s.sg n).stepHigh = true) : stepEmit s n = s := by
  unfold stepEmit
  exact if_pos (by simp [hpins, hhigh])

theorem stepEmit_lowTime {w : Nat} (hfall : (s.sg n).fallAt = some w) (hearly : s.now < w + s.fld (sgKey n 4) 0 12) : stepEmit s n = s := by
  unfold stepEmit
  exact if_pos (by simp [hpins, hfall, hearly])

theorem stepEmit_setup {w : Nat} (hdir : (s.sg n).dirAt = some w) (hearly : s.now < w + s.fld (sgKey n 4) 16 12) : stepEmit s n = s := by
  unfold stepEmit
  exact if_pos (by simp [hpins, hdir, hearly])

end

section
variable {r : Nat} (hrise : (s.sg n).riseAt = some r)
include hrise

theorem stepFall_due (hhigh : (s.sg n).stepHigh = true) (hdue : r + s.fld (sgKey n 4) 0 12 ≤ s.now) :
    stepFall s n = s.setSg n { s.sg n with stepHigh := false, fallAt := some s.now } := by
  unfold stepFall
  exact if_pos (by simp [hhigh, hrise, hdue])

theorem stepFall_not (h : (s.sg n).stepHigh = false ∨ s.now < r + s.fld (sgKey n 4) 0 12) : stepFall s n = s := by
  unfold stepFall
  refine if_neg ?_
  obtain h | h := h <;> simp [h, hrise]

end

/-- R520: the increment never exceeds one step in 80 ticks. -/
theorem sgRate_inc (htab : Safety.Tables s) (hinc : (s.sg n).inc ≤ 2 ^ 48 / 80) : ((sgRate s n).sg n).inc ≤ 2 ^ 48 / 80 := by
  unfold sgRate
  extract_lets x w ovr inc neg high turn s₁
  have hflag (c : Bool) (k mask : Nat) : (flagIf s₁ c k mask).sgs = s₁.sgs := by
    unfold flagIf
    split
    · exact (books_flag (Books.refl s₁) k mask).units.steps.1
    · rfl
  split
  · exact hinc
  · have hsg : (flagIf s₁ ovr (sgKey n 0x44) 4).sg n = s₁.sg n := by rw [State.sg, hflag]; rfl
    rw [hsg, show s₁.sg n = _ from storeGet_storePut_self _ htab.sgs n _]
    exact min_le_right _ _

/-! ## Limit inputs (R533 to R535) -/

theorem limActive_disabled {x : Nat} {pos : Bool} (h : s.bitAt (0x19000 + 4 * x) 14 = false ∧ s.bitAt (0x19000 + 4 * x) 15 = false) :
    s.limActive x pos = false := by
  obtain ⟨h14, h15⟩ := h
  cases pos
  · exact (congrArg (· && _) h15).trans (Bool.false_and _)
  · exact (congrArg (· && _) h14).trans (Bool.false_and _)

/-- An axis that no limit watches is left as it is. -/
theorem limitAxis_disabled {before : State} {x : Nat} (htab : Safety.Tables s)
    (hoff : s.bitAt (0x19000 + 4 * x) 14 = false ∧ s.bitAt (0x19000 + 4 * x) 15 = false)
    (hclear : s.bitAt (0x190C4 + 4 * (x / 32)) (x % 32) = false) : limitAxis before s x = s := by
  have hsame : setLimState s x false = s := by
    rw [setLimState, State.setFld, show b2n false = 0 from rfl, setBits_clear hclear, wr_rd_self htab]
  unfold limitAxis
  dsimp only
  rw [limActive_disabled hoff, limActive_disabled hoff]
  simp [hsame]

theorem limitInput_level {i : Nat} {high : Bool} (htab : Safety.Tables s)
    (hoff : ∀ x, x < 48 → s.bitAt (0x19000 + 4 * x) 14 = false ∧ s.bitAt (0x19000 + 4 * x) 15 = false)
    (hclear : ∀ x, x < 48 → s.bitAt (0x190C4 + 4 * (x / 32)) (x % 32) = false) :
    limitInput s i high = { s with limLevels := setBits s.limLevels i 1 (b2n high) } := by
  have hfold (xs : List Nat) (hxs : ∀ x ∈ xs, x < 48) {b : State} (hb : Safety.Tables b) (hregs : b.regs = s.regs) :
      xs.foldl (limitAxis s) b = b := by
    have hbit (k j : Nat) : b.bitAt k j = s.bitAt k j := by rw [State.bitAt, State.rd, hregs]; rfl
    induction xs with
    | nil => rfl
    | cons x xs ih =>
      have hx := hxs x (List.mem_cons_self ..)
      rw [List.foldl_cons, limitAxis_disabled hb (by rw [hbit, hbit]; exact hoff x hx) (by rw [hbit]; exact hclear x hx),
        ih fun y hy => hxs y (List.mem_cons_of_mem _ hy)]
  unfold limitInput
  dsimp only
  have hrange : ∀ x ∈ List.range 48, x < 48 := fun x hx => List.mem_range.mp hx
  generalize List.range 48 = xs at hrange
  exact hfold xs hrange { htab with } rfl

/-- R533: a limit that becomes active in the direction of motion stops the axis. -/
theorem limitAxis_stops {before : State} {x : Nat} (hpos : s.limActive x true = true) (hwas : before.limActive x true = false)
    (hdir : 0 < s.axisDir x) : limitAxis before s x = limitStop (setLimState s x true) x := by
  unfold limitAxis
  simp [hpos, hwas, hdir]

end

end Sys2Proof.Machine

namespace Sys2Proof.Settled
open Machine

/-- Settles O50. -/
theorem stepsAndLimits : Obligations.StepsAndLimits := by
  refine ⟨fun s a t n x hporst ha hx => ?_, fun s a t r n x hporst ha hx hrise => ?_,
    fun s a b t i high hporst ha hb htab hoff hclear => ?_, fun before s x ⟨hpos, hwas, hdir⟩ => limitAxis_stops hpos hwas hdir,
    fun s n htab hinc => sgRate_inc htab hinc⟩
  · have hexec : exec (.stepEmit t n) s = .next (stepEmit a n) := by
      rw [ha]
      exact show execStepEmit t n s = _ from act_next hporst rfl
    subst hx
    rw [hexec]
    refine ⟨fun hidle => ?_, fun hon hrun hcarry hstop hpins => ?_, fun hon hrun hcarry hstop hpins => ⟨fun hhigh => ?_,
      fun w hfall hearly => ?_, fun w hdir hearly => ?_, fun hlow hdir hfall => ?_⟩⟩
    · rw [stepEmit_idle hidle]
    · rw [stepEmit_group hon hrun hcarry hstop hpins]
    · rw [stepEmit_high hpins hhigh]
    · rw [stepEmit_lowTime hpins hfall hearly]
    · rw [stepEmit_setup hpins hdir hearly]
    · rw [stepEmit_pin hon hrun hcarry hstop hpins hlow hdir hfall]
  · have hexec : exec (.stepPulseEnd t n) s = .next (stepFall a n) := by
      rw [ha]
      exact show execStepPulseEnd t n s = _ from act_next hporst rfl
    subst hx
    rw [hexec]
    refine ⟨fun hhigh hdue => ?_, fun hnot => ?_⟩
    · rw [stepFall_due hrise hhigh hdue]
    · rw [stepFall_not hrise hnot]
  · have hexec : exec (.limitInput t i high) s = .next (limitInput a i high) := by
      rw [ha]
      exact show execLimitInput t i high s = _ from act_next hporst rfl
    rw [hexec, hb, limitInput_level htab hoff hclear]

end Sys2Proof.Settled
end

section
/-!
SUPPORT. Trips and their clearing, gate enables, GIN codes and PWMX drive writes (chapter 15).
-/
namespace Sys2Proof.Machine

/-! ## Trips (R568 to R574) -/

section
variable {s : State} {st cause : Nat}

theorem trip_first (h : (s.stage st).fault = false) : trip s st cause =
    stageFlag (count (tripAxis (legsOff (s.setStage st { s.stage st with
      fault := true, cause := cause, faultAt := s.now, latched := [cause], masks := 0, shoots := [] }) st) st) (stTripCnt st)) st 1 :=
  if_neg (by rw [h]; exact Bool.false_ne_true)

/-- R568: a further condition of a faulted stage; of those in one tick the lowest code is kept. -/
theorem trip_further (h : (s.stage st).fault = true) : trip s st cause = s.setStage st { s.stage st with
    latched := insCode cause (s.stage st).latched
    cause := if (s.stage st).faultAt = s.now then min (s.stage st).cause cause else (s.stage st).cause } :=
  if_pos h

theorem trip_later (h : (s.stage st).fault = true) (hlater : (s.stage st).faultAt ≠ s.now) :
    trip s st cause = s.setStage st { s.stage st with latched := insCode cause (s.stage st).latched } := by
  rw [trip_further h, if_neg hlater]

theorem trip_sameTick (h : (s.stage st).fault = true) (hnow : (s.stage st).faultAt = s.now) :
    trip s st cause = s.setStage st { s.stage st with
      latched := insCode cause (s.stage st).latched, cause := min (s.stage st).cause cause } := by
  rw [trip_further h, if_pos hnow]

theorem clearStage_sound (h : (s.stage st).fault = false) : clearStage s st = s := if_pos (by simp [h])

/-- R570: a stage whose every cause is gone comes out of its fault. -/
theorem clearStage_gone (h : (s.stage st).fault = true) (hgone : ∀ c ∈ (s.stage st).latched, s.causeGone st c = true) :
    clearStage s st = s.setStage st { s.stage st with fault := false, cause := 0, latched := [] } :=
  (if_neg (by simp [h])).trans (if_pos (List.all_eq_true.mpr hgone))

theorem clearStage_denied {c : Nat} (h : (s.stage st).fault = true) (hc : c ∈ (s.stage st).latched) (hstays : s.causeGone st c = false) :
    clearStage s st = stageFlag (count s (stDeniedCnt st)) st 8 := by
  refine (if_neg (by simp [h])).trans (if_neg fun hall => ?_)
  rw [List.all_eq_true.mp hall c hc] at hstays
  exact Bool.false_ne_true hstays.symm

end

/-! ## The conditions of Table 15-4 -/

theorem bits_zero_lo (w n : Nat) : bits w 0 n = w % 2 ^ n := by rw [bits, pow_zero, Nat.div_one]

section
variable {s : State} {g leg mv : Nat}

/-- A desaturation beyond the blanking time of the switch. -/
theorem doDesat_trips {high : Bool} (hon : (if high then (s.pwm (4 * g + leg)).hSw else (s.pwm (4 * g + leg)).lSw) = true)
    (hmv : s.rd (bgKey g 8) % 2 ^ 14 < mv)
    (hblank : (if high then (s.pwm (4 * g + leg)).hOnAt else (s.pwm (4 * g + leg)).lOnAt) + s.rd (bgKey g 8) / 2 ^ 16 % 2 ^ 12 + 8 ≤ s.now) :
    doDesat s g leg high mv = trip s g 1 := by
  rw [← bits_zero_lo] at hmv
  unfold doDesat
  dsimp only
  rw [hon, decide_eq_true hmv]
  exact if_pos (decide_eq_true hblank)

theorem doDesat_below {high : Bool} (hmv : mv ≤ s.rd (bgKey g 8) % 2 ^ 14) : doDesat s g leg high mv = s := by
  rw [← bits_zero_lo] at hmv
  unfold doDesat
  dsimp only
  rw [decide_eq_false (not_lt.mpr hmv)]
  simp

section
variable {i : Int}

theorem doOvercurrent_trips (hi : s.rd (bgKey g 0xC) % 2 ^ 16 < i.natAbs)
    (hblank : (s.pwm (4 * g + leg)).edgeAt + s.rd (bgKey g 0xC) / 2 ^ 16 % 2 ^ 12 + 8 ≤ s.now) : doOvercurrent s g leg i = trip s g 2 :=
  if_pos ⟨by rwa [bits_zero_lo], hblank⟩

theorem doOvercurrent_below (hi : i.natAbs ≤ s.rd (bgKey g 0xC) % 2 ^ 16) : doOvercurrent s g leg i = s :=
  if_neg fun h => absurd h.1 (by rw [bits_zero_lo]; exact not_lt.mpr hi)

end

/-- R571: an undervoltage of a gate supply trips the groups of its footing. -/
theorem tripFooting_eq (f cause : Nat) : tripFooting s f cause = (List.range 8).foldl (fun x i => trip x (8 * f + i) cause) s :=
  List.foldl_map

/-! ## Gate enables (R572, R573) -/

theorem gdLow_low {f : Nat} (h : (s.footing f).gdHigh = false) : gdLow s f = s := if_pos (by simp [h])

theorem gdLow_falls {f : Nat} (h : (s.footing f).gdHigh = true) : gdLow s f =
    (footSets f).foldl (fun x st => trip x st 8) ((footGroups f).foldl
      (fun x g => if x.groupSrc g = .none then legsOff x g else legsOff (trip x g 8) g)
      (flag (s.setFooting f { s.footing f with gdHigh := false, lowAt := s.now }) (ftKey f 8) 1)) := by
  have hgroup : (fun x g => legsOff (if x.groupSrc g = .none then x else trip x g 8) g) =
      fun x g => if x.groupSrc g = .none then legsOff x g else legsOff (trip x g 8) g := by
    funext x g
    exact apply_ite (legsOff · g) (x.groupSrc g = .none) x (trip x g 8)
  unfold gdLow
  rw [if_neg (by simp [h]), ← hgroup]
  rfl

section
variable {f : Nat} (h : (s.footing f).gdHigh = false)
include h

theorem gdHigh_soon (hsoon : s.now < (s.footing f).lowAt + 800) : gdHigh s f = s.setFooting f { s.footing f with gdHigh := true } :=
  (if_neg (by simp [h])).trans (if_pos hsoon)

theorem gdHigh_clears (hlong : (s.footing f).lowAt + 800 ≤ s.now) : gdHigh s f =
    (footGroups f ++ footSets f).foldl clearStage
      (flag (count (s.setFooting f { s.footing f with gdHigh := true }) (ftKey f 0x10)) (ftKey f 8) 8) :=
  (if_neg (by simp [h])).trans (if_neg (not_lt.mpr hlong))

end

/-! ## GIN codes and PWMX drive writes (R560, R564 to R566) -/

section
variable (hoff : s.bitAt (bgKey g 0) 0 = false)
include hoff

theorem ginChange_sector {code sec : Nat} (hsec : hallSector code = some sec) :
    ginChange s g code = s.setStage g { s.stage g with gin := code, ginValid := true, ginNone := false, sector := sec } := by
  unfold ginChange
  rw [hsec]
  exact if_pos (by simp [hoff])

theorem ginChange_noSector {code : Nat} (hsec : hallSector code = none) :
    ginChange s g code = s.setStage g { s.stage g with gin := code, ginValid := false, ginNone := false } := by
  unfold ginChange
  rw [hsec]
  exact if_pos (by simp [hoff])

end

theorem writePwmx_run {n w : Nat} (hrun : s.mode = .run) : writePwmx s n w = s := if_pos hrun

theorem writePwmx_short {n w : Nat} (hrun : s.mode ≠ .run) (hdead : w / 16 % 4096 < 4) : writePwmx s n w = flag s (pxKey n 0xC) 32 :=
  (if_neg hrun).trans (if_pos hdead)

theorem writePwmx_stores {n w : Nat} (hrun : s.mode ≠ .run) (hdead : 4 ≤ w / 16 % 4096) : writePwmx s n w =
    evalStage ((s.wr (pxKey n 0) (w % 4 + 16 * (w / 16 % 4096))).updStage (16 + n) fun x => { x with pinsDriven := bit w 1 }) (16 + n) :=
  (if_neg hrun).trans (if_neg (not_lt.mpr hdead))

end

end Sys2Proof.Machine

namespace Sys2Proof.Settled
open Machine

/-- Settles O51. -/
theorem tripsAndGates : Obligations.TripsAndGates := by
  refine ⟨⟨fun s st cause h => trip_first h, fun s st cause h hlater => trip_later h hlater, fun s st cause h hnow => trip_sameTick h hnow,
      fun s st h hgone => clearStage_gone h hgone, fun s st c h hc hstays => clearStage_denied h hc hstays, fun s st h => clearStage_sound h⟩,
    ⟨fun s a t mv g leg hporst ha => ?_, fun s a t i g leg hporst ha => ?_, fun s a u t mv g hporst ha hu => ?_,
      fun s a u t mv f hporst ha hu => ?_, fun s a t n hporst ha => ?_⟩,
    fun s a u t f hporst ha => ?_, fun s a t g code hporst ha => ?_, fun s a t n v hporst ha => ?_⟩
  · have hexec (high : Bool) : exec (.desat t g leg high mv) s = .next (doDesat a g leg high mv) := by
      rw [ha]
      exact show execDesat t g leg high mv s = _ from act_next hporst rfl
    refine ⟨fun hon hmv hblank => ?_, fun hon hmv hblank => ?_, fun hmv high => ?_⟩
    · rw [hexec, doDesat_trips (high := true) hon hmv hblank]
    · rw [hexec, doDesat_trips (high := false) hon hmv hblank]
    · rw [hexec, doDesat_below hmv]
  · have hexec : exec (.overcurrent t g leg i) s = .next (doOvercurrent a g leg i) := by
      rw [ha]
      exact show execOvercurrent t g leg i s = _ from act_next hporst rfl
    rw [hexec]
    exact ⟨fun hi hblank => congrArg _ (doOvercurrent_trips hi hblank), fun hi => congrArg _ (doOvercurrent_below hi)⟩
  · have hexec : exec (.busOv t g mv) s = .next (doBusOv a g mv) := by
      rw [ha]
      exact show execBusOv t g mv s = _ from act_next hporst rfl
    subst hu
    rw [hexec]
    exact ⟨fun hov => congrArg _ (if_pos hov), fun hok => congrArg _ (if_neg (not_lt.mpr hok))⟩
  · have hexec : exec (.gateUv t f mv) s = .next (doGateUv a f mv) := by
      rw [ha]
      exact show execGateUv t f mv s = _ from act_next hporst rfl
    subst hu
    rw [hexec]
    exact ⟨fun huv => congrArg _ ((if_pos huv).trans (tripFooting_eq _ _)), fun hok => congrArg _ (if_neg (not_lt.mpr hok))⟩
  · subst ha
    exact ⟨show execXflt t n true s = _ from act_next hporst rfl, show execXflt t n false s = _ from act_next hporst rfl⟩
  · have hlow : exec (.gdEnLow t f) s = .next (gdLow a f) := by
      rw [ha]
      exact show execGdEnLow t f s = _ from act_next hporst rfl
    have hhigh : exec (.gdEnHigh t f) s = .next (gdHigh a f) := by
      rw [ha]
      exact show execGdEnHigh t f s = _ from act_next hporst rfl
    rw [hlow, hhigh]
    refine ⟨fun hu h => ?_, fun h => ?_, fun hu h hsoon => ?_, fun hu h hlong => ?_⟩
    · rw [gdLow_falls h, hu]
    · rw [gdLow_low h]
    · rw [gdHigh_soon h hsoon, hu]
    · rw [gdHigh_clears h hlong, hu]
  · have hexec : exec (.ginChange t g code) s = .next (ginChange a g code) := by
      rw [ha]
      exact show execGinChange t g code s = _ from act_next hporst rfl
    rw [hexec]
    refine ⟨fun sec hsec hoff => ?_, fun hcode hoff => ?_⟩
    · rw [ginChange_sector hoff hsec]
    · have hsec : hallSector code = none := by
        obtain rfl | rfl := hcode <;> rfl
      rw [ginChange_noSector hoff hsec]
  · have hexec : exec (.pwmxDriveWrite t n v) s = .next (writePwmx a n v.toNat) := by
      rw [ha]
      exact show execPwmxDriveWrite t n v s = _ from act_next hporst rfl
    rw [hexec]
    refine ⟨fun hrun => ?_, fun hrun hdead => ?_, fun hrun hdead => ?_⟩
    · rw [writePwmx_run hrun]
    · rw [writePwmx_short hrun hdead]
    · rw [writePwmx_stores hrun hdead]

end Sys2Proof.Settled
end

section
/-!
SUPPORT. Periods, compare edges and opcodes of PWM channels (chapter 15).
-/
namespace Sys2Proof.Machine

/-! ## Periods (R26 to R30) -/

section
variable {a : State} {k : Nat}

/-- A channel whose period is not over, away from a boundary, is left as it is. -/
theorem periodStart_within (hbound : a.now ≠ a.tb.boundary) (hend : a.now ≠ (a.pwm k).start + (a.pwm k).len) : periodStart a k = a := by
  unfold periodStart
  exact if_pos (by simp [hbound, hend])

/-- R29: the next period of a PWMX leg within the span. -/
theorem periodStart_next (hlo : 64 ≤ k) (hhi : k < 160) (hstop : a.stopped (stageOf k) = false) (hbound : a.now ≠ a.tb.boundary)
    (hend : a.now = (a.pwm k).start + (a.pwm k).len) (hj : (a.pwm k).j + 1 < (a.pwm k).k) :
    periodStart a k = evalLeg (a.setPwm k ({ a.pwm k with
      j := (a.pwm k).j + 1, start := a.now, len := periodLen a.tb.len (a.pwm k).k ((a.pwm k).j + 1), block := false
      bootBlock := false }.publish a.now false)) k (64 * a.now) true 0 := by
  unfold periodStart
  extract_lets x stop first next k' j' s₁ s₂
  have hfirst : first = false := by simp [first, hbound]
  have hstop' : stop = false := by rw [← hstop]; exact if_neg (by omega)
  have hnext : next = true := by simp [next, x, hend, hj]
  have hs₂ : s₂ = s₁ := if_neg (by omega)
  have hk' : k' = (a.pwm k).k := if_neg (by rw [hfirst]; exact Bool.false_ne_true)
  have hj' : j' = (a.pwm k).j + 1 := if_neg (by rw [hfirst]; exact Bool.false_ne_true)
  rw [if_neg (by simp [hstop', hnext]), hs₂]
  simp only [s₁, hk', hj', hfirst] <;> rfl

theorem periodLen_eq {len k j : Nat} (hk : 1 ≤ k) : periodLen len k j = len / k + if j < len % k then 1 else 0 := by
  rw [periodLen, max_eq_right hk]

/-! ## Compare edges (R550 to R561, R581) -/

theorem compareEdge_aux {x t64 mv : Nat} {i : Int} (hfrozen : (a.aux x).frozen = false) (hrestart : (a.aux x).restart = none) :
    compareEdge a (160 + x) t64 mv i = a.setPwm (160 + x) { a.pwm (160 + x) with
      hSw := (a.aux x).enabled && ((a.motionMode && inside (t64 - 64 * (a.pwm (160 + x)).start)
        ((a.pwm (160 + x)).active.high (64 * (a.pwm (160 + x)).len) 64)) != (a.aux x).pol) } := by
  unfold compareEdge evalLeg
  rw [if_pos (by omega), Nat.add_sub_cancel_left, evalAux]
  exact if_neg (by simp [hfrozen, hrestart])

theorem maskOf_zero (leg : Nat) (high : Bool) : maskOf 0 leg high = 0 := by simp [maskOf, bits]

theorem maskCmd_zero (c : Bool) : maskCmd 0 c = c := rfl

section
variable {t64 mv st : Nat} {i : Int} (hhi : k < 160) (hst : st = stageOf k) (hstop : a.stopped st = false)
include hhi hst hstop

/-- A leg that is off already stays as it is while its stage is off. -/
theorem compareEdge_off (hoff : a.stageOff st = true) (hh : (a.pwm k).h = false) (hl : (a.pwm k).l = false)
    (hhSw : (a.pwm k).hSw = false) (hlSw : (a.pwm k).lSw = false) : compareEdge a k t64 mv i = a.setPwm k (a.pwm k) := by
  subst hst
  unfold compareEdge evalLeg
  rw [if_neg (by omega)]
  dsimp only
  rw [hstop, if_neg Bool.false_ne_true, if_pos hoff]
  generalize a.pwm k = x at hh hl hhSw hlSw
  obtain ⟨⟩ := x
  simp only at hh hl hhSw hlSw
  subst hh hl hhSw hlSw
  rfl

/-- R551: a PWMX leg drives its switches by the active compares. -/
theorem compareEdge_pwmx (hlo : 64 ≤ k) (hon : a.stageOff st = false) (hmask : (a.stage st).masks = 0) (hblock : (a.pwm k).block = false)
    {h l : Bool} (hcmd : (h, l) = (a.pwm k).active.commands (64 * (a.pwm k).len) (a.chanStep k) (t64 - 64 * (a.pwm k).start))
    (hexcl : h = true → l = false) : compareEdge a k t64 mv i = a.setPwm k ((a.pwm k).drive t64 (64 * a.deadOf st) (a.chanStep k)
      (64 * (a.pwm k).len) (a.pwm k).active h l (decide (8000 ≤ mv))).1 := by
  have hchop : a.chopper k = none := if_pos hlo
  have hcmp : a.cmpOf k = (a.pwm k).active := if_neg (by omega)
  have hst16 : ¬ st < 16 := by rw [hst, stageOf, if_neg (by omega)]; omega
  subst hst
  unfold compareEdge evalLeg
  rw [if_neg (by omega)]
  dsimp only
  rw [hstop, if_neg Bool.false_ne_true, hon, if_neg Bool.false_ne_true, hchop, hcmp]
  dsimp only
  rw [hchop]
  dsimp only
  rw [hmask, maskOf_zero, maskOf_zero, ← hcmd, hblock, if_neg Bool.false_ne_true, maskCmd_zero, maskCmd_zero,
    if_neg (by simpa using hexcl), if_neg (by rw [decide_eq_false hst16, Bool.and_false]; exact Bool.false_ne_true)]
  rfl

end

end

/-! ## The opcodes of Table 15-5 -/

theorem auxTarget_aux {c : Nat} (hlo : 0x40 ≤ c) (hhi : c < 0x50) : auxTarget c = some (c - 0x40) := if_pos ⟨hlo, hhi⟩

theorem auxTarget_bridge {c : Nat} (h : c < 16) : auxTarget c = none := if_neg (by omega)

section
variable {a : State} {d : Desc}

section
variable (hfmt : badFormat d (pm 0 2 ||| pb 2 1 ||| pm 4 16) false = false) (hexp : a.expert d.tenant = true)
include hfmt hexp

theorem pwmRawCheck_leg (hlt : d.p 0 1 < 16) (hleg : d.p 1 1 < 4) (hown : a.hasBg d.tenant (d.p 0 1) = true)
    (hraw : a.isRaw (d.p 0 1) = true) : pwmRawCheck a d = none := by
  simp [pwmRawCheck, firstFail, auxTarget_bridge hlt, hfmt, hexp, hlt, hleg, hown, hraw]

theorem pwmRawCheck_aux (hlo : 0x40 ≤ d.p 0 1) (hhi : d.p 0 1 < 0x50) (h1 : d.p 1 1 = 0) (h2 : d.p 2 1 = 0) (h12 : d.p 12 8 = 0)
    (hown : a.hasAux d.tenant (d.p 0 1 - 0x40) = true) : pwmRawCheck a d = none := by
  simp [pwmRawCheck, firstFail, auxTarget_aux hlo hhi, hfmt, hexp, h1, h2, h12, hown]

end

theorem doPwmRaw_leg (hlt : d.p 0 1 < 16) : doPwmRaw a d = setShadow a (4 * d.p 0 1 + d.p 1 1)
    (if bit (d.p 2 1) 0 then .two (d.p 4 4) (d.p 8 4) (d.p 12 4) (d.p 16 4) else .pair (d.p 4 4) (d.p 8 4)) := by
  unfold doPwmRaw
  rw [auxTarget_bridge hlt]

theorem doPwmRaw_aux (hlo : 0x40 ≤ d.p 0 1) (hhi : d.p 0 1 < 0x50) :
    doPwmRaw a d = setShadow a (160 + (d.p 0 1 - 0x40)) (.pair (d.p 4 4) (d.p 8 4)) := by
  unfold doPwmRaw
  rw [auxTarget_aux hlo hhi]

theorem gateMaskCheck_ok {st : Nat} (hfmt : badFormat d (pm 0 1 ||| pm 4 2) false = false) (hst : stageTarget (d.p 0 1) = some st)
    (hmask : ∀ i, i < 8 → bits (d.p 4 2) (2 * i) 2 ≠ 3) (hown : a.hasStage d.tenant st = true) (hexp : a.expert d.tenant = true)
    (hmode : a.mode = .commission) : gateMaskCheck a d = none := by
  have hany : ((List.range 8).any fun i => bits (d.p 4 2) (2 * i) 2 == 3) = false := by
    simp only [List.any_eq_false, List.mem_range, beq_iff_eq]
    exact hmask
  unfold gateMaskCheck
  dsimp only
  rw [hany]
  simp [firstFail, hfmt, hst, hown, hexp, hmode]

/-- R584: a gate mask of a stage without a fault is judged at once. -/
theorem doGateMask_sound {st : Nat} (htab : Safety.Tables a) (hst : stageTarget (d.p 0 1) = some st) (hfault : (a.stage st).fault = false) :
    doGateMask a d = evalStage (a.updStage st fun x => { x with masks := d.p 4 2 }) st := by
  have hstage : (a.updStage st fun x => { x with masks := d.p 4 2 }).stage st = { a.stage st with masks := d.p 4 2 } :=
    storeGet_storePut_self _ htab.stages st _
  unfold doGateMask
  rw [hst]
  exact if_neg (by rw [Option.getD_some, hstage, hfault]; exact Bool.false_ne_true)

theorem haltCheck_ok {halt : Bool} (hfmt : badFormat d (pm 4 2 ||| pm 8 6) false = false)
    (hstages : ∀ st ∈ haltStages d, a.hasStage d.tenant st = true) (haux : ∀ x ∈ haltAux d, a.hasAux d.tenant x = true)
    (hexp : a.expert d.tenant = true) (hmode : halt = false ∨ a.mode = .commission) : haltCheck halt a d = none := by
  have hall : ((haltStages d).any fun st => !a.hasStage d.tenant st) = false := by simpa using hstages
  have hall' : ((haltAux d).any fun x => !a.hasAux d.tenant x) = false := by simpa using haux
  unfold haltCheck
  rw [hall, hall']
  obtain h | h := hmode <;> simp [firstFail, hfmt, hexp, h]

theorem auxDutyCheck_ok (hfmt : badFormat d (pm 0 1 ||| pm 4 2) false = false) (hlo : 0x40 ≤ d.p 0 1) (hhi : d.p 0 1 < 0x50)
    (hown : a.hasAux d.tenant (d.p 0 1 - 0x40) = true) : auxDutyCheck a d = none := by
  simp [auxDutyCheck, firstFail, hfmt, auxTarget_aux hlo hhi, hown]

theorem blockDutyCheck_ok (hfmt : badFormat d (pm 0 1 ||| pb 2 1 ||| pm 4 2) false = false) (hlt : d.p 0 1 < 16)
    (hown : a.hasBg d.tenant (d.p 0 1) = true) (hon : a.bitAt (bgKey (d.p 0 1) 0) 0 = true) : blockDutyCheck a d = none := by
  simp [blockDutyCheck, firstFail, hfmt, hlt, hown, hon]

theorem groupInfoCheck_ok {st : Nat} (hfmt : badFormat d (pm 0 1) false = false) (hst : stageTarget (d.p 0 1) = some st)
    (hown : a.hasStage d.tenant st = true) : groupInfoCheck a d = none := by
  simp [groupInfoCheck, firstFail, hfmt, hst, hown]

theorem groupInfo_fault {j : Job} {st : Nat} (hst : stageTarget (j.d.p 0 1) = some st) (hfault : (a.stage st).fault = true) :
    groupInfo a j = complete a j 0 (3 + 256 * (a.stage st).cause + 2 ^ 32 * a.rd (stShootCnt st)) := by
  have hcode : a.stageCode st = 3 := if_pos hfault
  unfold groupInfo
  rw [hst]
  dsimp only
  rw [Option.getD_some, hcode]

/-- R641: a switch that stays on through a debug halt trips its stage. -/
theorem frozenOn_expires {k f : Nat} (hfrozen : (a.stage k).frozenAt = some f)
    (hon : ∃ ch ∈ chansOf k, (a.pwm ch).hSw = true ∨ (a.pwm ch).lSw = true) (hack : a.pp.unsafeAck = false)
    (htime : (a.stage k).frozenTmo * 3880 ≤ a.now - f) : frozenOn a k = flag (count (trip a k 7) 0x4803C) kPp 8 := by
  have hany : ((chansOf k).any fun ch => (a.pwm ch).hSw || (a.pwm ch).lSw) = true := by simpa using hon
  unfold frozenOn
  dsimp only
  rw [hfrozen, hany]
  exact if_pos (by simp [hack, htime])

end

/-! ## PWM_RESTART (R577, R578) -/

/-- A fold in which every step leaves the start value as it is. -/
theorem foldl_fixed {α β : Type} {f : β → α → β} {b : β} {xs : List α} (h : ∀ x ∈ xs, f b x = b) : xs.foldl f b = b := by
  induction xs with
  | nil => rfl
  | cons x xs ih => rw [List.foldl_cons, h x (List.mem_cons_self ..), ih fun y hy => h y (List.mem_cons_of_mem _ hy)]

/-- A fold over a list without repetition in which one step alone acts. -/
theorem foldl_single {α β : Type} {f : β → α → β} {b : β} {x : α} {xs : List α} (hnodup : xs.Nodup) (hx : x ∈ xs)
    (hbefore : ∀ y ∈ xs, y ≠ x → f b y = b) (hafter : ∀ y ∈ xs, y ≠ x → f (f b x) y = f b x) : xs.foldl f b = f b x := by
  obtain ⟨us, vs, rfl⟩ := List.append_of_mem hx
  have hmem (y : α) (hy : y ∈ us ∨ y ∈ vs) : y ∈ us ++ x :: vs := by
    rw [List.mem_append, List.mem_cons]
    exact hy.imp_right .inr
  have hne (y : α) (hy : y ∈ us ∨ y ∈ vs) : y ≠ x := by
    rintro rfl
    exact (List.nodup_cons.mp (List.nodup_middle.mp hnodup)).1 (List.mem_append.mpr hy)
  rw [List.foldl_append, List.foldl_cons, foldl_fixed fun y hy => hbefore y (hmem y (.inl hy)) (hne y (.inl hy)),
    foldl_fixed fun y hy => hafter y (hmem y (.inr hy)) (hne y (.inr hy))]

/-- An AUX channel runs again. -/
def auxRestart (s : State) (x : Nat) : State :=
  evalAux (newest (s.updAux x fun u => { u with frozen := false, restart := none }) (160 + x)) x (64 * s.tb.now)

/-- An AUX channel at PWM_RESTART. -/
def auxDue (s : State) (x : Nat) : State := if s.restartDue (s.aux x).restart then auxRestart s x else s

theorem auxDue_none {s : State} {x : Nat} (h : (s.aux x).restart = none) : auxDue s x = s :=
  if_neg (by rw [h]; exact Bool.false_ne_true)

theorem auxDue_some {s : State} {x r : Nat} (hr : (s.aux x).restart = some r) (hdue : r < s.tb.boundary) : auxDue s x = auxRestart s x :=
  if_pos (by rw [hr]; exact decide_eq_true hdue)

theorem auxRestart_other (s : State) {x y : Nat} (h : y ≠ x) : (auxRestart s x).aux y = s.aux y := by
  have hpin (u : State) (t64 : Nat) : (evalAux u x t64).auxs = u.auxs := by
    unfold evalAux
    dsimp only
    split
    · rfl
    · rfl
  rw [State.aux, auxRestart, hpin]
  exact storeGet_storePut_of_ne _ _ _ h

theorem auxRestart_jobs (s : State) (x : Nat) : (auxRestart s x).jobs = s.jobs := by
  unfold auxRestart evalAux
  dsimp only
  split
  · rfl
  · rfl

section
variable {s : State} (hstages : ∀ st, (s.stage st).restart = none) (hjobs : ∀ j ∈ s.jobs, j.d.op ≠ 0x43#8)
include hstages hjobs

/-- Where no stage and no PWM_RESUME waits, a restart goes over the AUX channels alone. -/
theorem pwmRestart_auxs {u : State} (hu : u = (List.range 16).foldl auxDue s) (hsame : u.jobs = s.jobs) : pwmRestart s = u := by
  unfold pwmRestart
  extract_lets s₁ s₂
  have hs₁ : s₁ = s := foldl_fixed fun st _ => if_neg (by rw [hstages]; exact Bool.false_ne_true)
  have hs₂ : s₂ = u := by rw [hu, ← hs₁]; rfl
  have hnone : (s₂.jobs.filter fun j => j.d.op == 0x43#8 && j.phase == .active && s₂.restartDue (some (nth j.aux 0))) = [] := by
    rw [hs₂, hsame, List.filter_eq_nil_iff]
    intro j hj
    simp [hjobs j hj]
  rw [hnone, hs₂]
  rfl

theorem pwmRestart_none (hauxs : ∀ x, (s.aux x).restart = none) : pwmRestart s = s :=
  pwmRestart_auxs hstages hjobs (foldl_fixed fun x _ => auxDue_none (hauxs x)).symm rfl

theorem pwmRestart_aux {x r : Nat} (hx : x < 16) (hr : (s.aux x).restart = some r) (hdue : r < s.tb.boundary)
    (hother : ∀ y, y ≠ x → (s.aux y).restart = none) : pwmRestart s = auxRestart s x := by
  have hact : auxDue s x = auxRestart s x := auxDue_some hr hdue
  have hfold : (List.range 16).foldl auxDue s = auxDue s x :=
    foldl_single List.nodup_range (List.mem_range.mpr hx) (fun y _ hy => auxDue_none (hother y hy)) fun y _ hy =>
      auxDue_none (by rw [hact, auxRestart_other s hy, hother y hy])
  exact pwmRestart_auxs hstages hjobs (by rw [hfold, hact]) (auxRestart_jobs s x)

end

end Sys2Proof.Machine

namespace Sys2Proof.Settled
open Machine

/-- Settles O52. When BLOCK_DUTY's direction acts and when a switch has been on too long is entry 108 of the log; that legs are evaluated
at commands alone is entry 109. -/
theorem pwmChannels : Obligations.PwmChannels := by
  refine ⟨⟨fun s a t k st ch x hporst ha hk hx hlo hhi hst hstop hbound hend hj => ?_,
      fun s a t k ch x hporst ha hk hx hbound hend => ?_, fun len k j hk => periodLen_eq hk,
      fun s a t64 mv i x u hporst ha hu hfrozen hrestart => ?_,
      fun s a t64 mv k i ch x hporst ha hk hhi hx hstop hoff hh hl hhSw hlSw => ?_,
      fun s a t64 mv k st i ch x h l hporst ha hk hlo hhi hx hst hstop hon hmask hblock hcmd hexcl => ?_⟩,
    fun s a t d j hporst htaken hfmt => ?_, fun s a t st d j hporst htaken htab hfmt hst hmask hown hexp hmode hfault => ?_,
    fun s a t d j hporst htaken hfmt hstages haux hexp hmode => ?_, fun s a t d j hporst htaken hfmt hstages haux hexp => ?_,
    fun s hporst hstages hjobs => ⟨fun hauxs => ?_, fun x r hr hdue hother => ?_⟩,
    fun s a t d j hporst htaken hfmt hlo hhi hown => ?_, fun s a t d j hporst htaken hfmt hlt hown hon => ?_,
    fun s a t st d j hporst htaken hfmt hst hown hfault => ?_, fun s a t k f x hporst ha hk hfrozen hon hack htime => ?_⟩
  · have hexec : exec (.pwmPeriodStart t ch) s = .next (periodStart a k) := by
      rw [ha, hk]
      exact show execPwmPeriodStart t ch s = _ from act_next hporst rfl
    subst hx hst
    rw [hexec, periodStart_next hlo hhi hstop hbound hend hj]
  · have hexec : exec (.pwmPeriodStart t ch) s = .next (periodStart a k) := by
      rw [ha, hk]
      exact show execPwmPeriodStart t ch s = _ from act_next hporst rfl
    subst hx
    rw [hexec, periodStart_within hbound hend]
  · subst ha hu
    exact show execPwmCompareEdge t64 (.aux x) mv i s = _ from act_next hporst (compareEdge_aux hfrozen hrestart)
  · have hexec : exec (.pwmCompareEdge t64 ch mv i) s = .next (compareEdge a k t64 mv i) := by
      rw [ha, hk]
      exact show execPwmCompareEdge t64 ch mv i s = _ from act_next hporst rfl
    subst hx
    rw [hexec, compareEdge_off hhi rfl hstop hoff hh hl hhSw hlSw]
  · have hexec : exec (.pwmCompareEdge t64 ch mv i) s = .next (compareEdge a k t64 mv i) := by
      rw [ha, hk]
      exact show execPwmCompareEdge t64 ch mv i s = _ from act_next hporst rfl
    subst hx
    rw [hexec, compareEdge_pwmx hhi hst hstop hlo hon hmask hblock hcmd hexcl]
  · refine ⟨fun hlt hleg hown hexp hraw heven => ?_, fun hlt hleg hown hexp hraw hodd => ?_, fun hlo hhi h1 h2 h12 hown hexp => ?_⟩
    · have hbit : bit (j.d.p 2 1) 0 = false := by simp [bit, heven]
      rw [show exec (.pwmRaw t d) s = _ from act_runOp_pass hporst htaken (pwmRawCheck_leg hfmt hexp hlt hleg hown hraw), andDone,
        doPwmRaw_leg hlt, hbit]
      rfl
    · have hbit : bit (j.d.p 2 1) 0 = true := by simp [bit, hodd]
      rw [show exec (.pwmRaw t d) s = _ from act_runOp_pass hporst htaken (pwmRawCheck_leg hfmt hexp hlt hleg hown hraw), andDone,
        doPwmRaw_leg hlt, hbit]
      rfl
    · rw [show exec (.pwmRaw t d) s = _ from act_runOp_pass hporst htaken (pwmRawCheck_aux hfmt hexp hlo hhi h1 h2 h12 hown), andDone,
        doPwmRaw_aux hlo hhi]
      rfl
  · rw [show exec (.gateMask t d) s = _ from act_runOp_pass hporst htaken (gateMaskCheck_ok hfmt hst hmask hown hexp hmode), andDone,
      doGateMask_sound htab hst hfault]
    rfl
  · exact show execPwmHalt t d s = _ from act_runOp_pass hporst htaken (haltCheck_ok hfmt hstages haux hexp (.inr hmode))
  · exact show execPwmResume t d s = _ from act_runOp_pass hporst htaken (haltCheck_ok hfmt hstages haux hexp (.inl rfl))
  · exact show execPwmRestart s = _ from act_next hporst (pwmRestart_none hstages hjobs hauxs)
  · exact show execPwmRestart s = _ from act_next hporst (pwmRestart_aux hstages hjobs x.isLt hr hdue hother)
  · rw [show exec (.auxDuty t d) s = _ from act_runOp_pass hporst htaken (auxDutyCheck_ok hfmt hlo hhi hown), andDone,
      auxTarget_aux hlo hhi]
    rfl
  · exact show execBlockDuty t d s = _ from act_runOp_pass hporst htaken (blockDutyCheck_ok hfmt hlt hown hon)
  · rw [show exec (.groupInfo t d) s = _ from act_runOp_pass hporst htaken (groupInfoCheck_ok hfmt hst hown), groupInfo_fault hst hfault]
    rfl
  · subst ha hk
    exact show execFrozenOnExpiry t x s = _ from act_next hporst (frozenOn_expires hfrozen hon hack htime)

end Sys2Proof.Settled
end

section
/-!
SUPPORT. Sending on CAN and the other CAN opcodes (chapter 16).
-/
namespace Sys2Proof.Machine

theorem taken_op {s a : State} {t op : Nat} {d : Desc} {j : Job} (h : Safety.taken s t op d = (a, j)) : j.d.op = BitVec.ofNat 8 op := by
  have hd := taken_desc s t op d
  rw [h] at hd
  rw [hd]

theorem advance_advance (s : State) (t : Nat) : advance (advance s t) t = advance s t := by
  unfold advance
  cases hpll : s.power.pll
  · simp [hpll]
  · simp [hpll]

theorem noBudget_nil (s : State) (tn cls : Nat) : s.noBudget tn cls [] = false := by
  simp [State.noBudget, List.range_succ, nth]

theorem tooLarge_nil (s : State) (tn cls : Nat) : s.tooLarge tn cls [] = false := by
  simp [State.tooLarge, List.range_succ, nth]

/-! ## Sending (R595 to R603) -/

section
variable {a : State} {j : Job} {d : Desc} {c : Nat}

/-- R601: of a frame that its tenant may send, whether the channel takes it is what is left to judge. -/
theorem canTxCheck_frame (hop : d.op = 0x80#8) (hc : c = d.p 0 1)
    (hfmt : badFormat d (pm 0 1 ||| pb 1 0xBF ||| pm 2 14) false = false) (hlt : c < 8) (hbad : canFrameBad a d = false)
    (huse : a.canUse d.tenant c = 1) : canTxCheck a d = firstFail [(a.canClosed c != 0, 0x13, a.canClosed c)] := by
  subst hc
  simp [canTxCheck, firstFail, hop, hfmt, hlt, hbad, huse, noBudget_nil, tooLarge_nil]

theorem canTxCheck_xl {cost : List Nat} (hop : d.op = 0x81#8) (hc : c = d.p 0 1)
    (hfmt : badFormat d (pm 0 1 ||| pb 1 0x21 ||| pm 2 10 ||| pm 16 8) true = false) (hlt : c < 8) (hbad : canFrameBad a d = false)
    (huse : a.canUse d.tenant c = 1) (hcost : cost = [ceilDiv (d.p 2 2) 1024, 0, 0, 0, 0, 0, 0])
    (hbudget : a.noBudget d.tenant d.clsNo cost = false) (hopen : a.canClosed c = 0) (hlarge : a.tooLarge d.tenant d.clsNo cost = false) :
    canTxCheck a d = none := by
  subst hc hcost
  simp [canTxCheck, firstFail, hop, hfmt, hlt, hbad, huse, hbudget, hopen, hlarge]

theorem canSlotQuota_owned {tn : Nat} (huse : a.canUse tn c = 1) : a.canSlotQuota tn c = 32 := if_pos huse

/-- R596: a frame with no slot free waits for one. -/
theorem canAdmit_full (hc : c = j.d.p 0 1) (huse : a.canUse j.d.tenant c = 1) (hfull : 32 ≤ a.canTaken j.d.tenant c) :
    canAdmit a j = keep a { j with phase := .waitSlot } := by
  subst hc
  exact if_pos (by rw [canSlotQuota_owned huse]; exact hfull)

section
variable (hc : c = j.d.p 0 1) (huse : a.canUse j.d.tenant c = 1) (hfree : a.canTaken j.d.tenant c < 32) (hphase : j.phase = .admitted)
include hc huse hfree hphase

theorem canAdmit_frame (hop : j.d.op = 0x80#8) : canAdmit a j = canPut a j (j.aux.map (BitVec.ofNat 8)) := by
  have hwait : ¬ j.phase = .waitSlot := by rw [hphase]; exact Phase.noConfusion
  subst hc
  unfold canAdmit
  dsimp only
  rw [if_neg (by rw [canSlotQuota_owned huse]; omega), if_neg hwait, if_neg hwait, hop]
  rfl

theorem canAdmit_xl (hop : j.d.op = 0x81#8) : canAdmit a j =
    keep a { j with phase := .active, slices := [[ceilDiv (j.d.p 2 2) 1024, 0, 0, 0, 0, 0, 0]], aux := [a.now] } := by
  have hwait : ¬ j.phase = .waitSlot := by rw [hphase]; exact Phase.noConfusion
  subst hc
  unfold canAdmit
  dsimp only
  rw [if_neg (by rw [canSlotQuota_owned huse]; omega), if_neg hwait, if_neg hwait, if_pos hop]

end

/-- R595: the frame takes its place in the set. -/
theorem canPut_open (hc : c = j.d.p 0 1) (hstuck : (a.can c).state ≠ .stuck) {data : List Byte} {adm : Nat}
    (hadm : adm = if j.d.op = 0x81#8 then j.aux.headD 0 else a.now) :
    canPut a j data = (keep a { j with phase := .active }).setCan c { a.can c with
      set := canInsert { job := j.id, tenant := j.d.tenant, frame := canFrameOf j.d data, oneShot := bit (j.d.p 1 1) 5, adm := adm
                         since := a.now } (a.can c).set } := by
  subst hc hadm
  exact if_neg fun h => hstuck h.1

theorem map_ofNat_toNat (data : List Byte) : (data.map (·.toNat)).map (BitVec.ofNat 8) = data := by
  simp [Function.comp_def]

section
variable {host data : List Byte} (hdata : data = (if bit (j.d.p 1 1) 3 then [] else if bit (j.d.p 1 1) 7 then takeBytes (j.d.p 2 2) host
  else takeBytes (j.d.p 2 2) ((j.d.params.drop 8).take 8))) (hc : c = j.d.p 0 1) (huse : a.canUse j.d.tenant c = 1)
include hdata hc huse

theorem canTxStart_full (hfull : 32 ≤ a.canTaken j.d.tenant c) :
    canTxStart host a j = keep a { j with aux := data.map (·.toNat), phase := .waitSlot } := by
  subst hdata
  exact canAdmit_full (j := { j with aux := _ }) hc huse hfull

theorem canTxStart_free (hop : j.d.op = 0x80#8) (hfree : a.canTaken j.d.tenant c < 32) (hphase : j.phase = .admitted)
    (hstuck : (a.can c).state ≠ .stuck) :
    canTxStart host a j = (keep a { j with aux := data.map (·.toNat), phase := .active }).setCan c { a.can c with
      set := canInsert { job := j.id, tenant := j.d.tenant, frame := canFrameOf j.d data, oneShot := bit (j.d.p 1 1) 5, adm := a.now
                         since := a.now } (a.can c).set } := by
  have hadmit := canAdmit_frame (a := a) (j := { j with aux := data.map (·.toNat) }) hc huse hfree hphase hop
  rw [map_ofNat_toNat, canPut_open (j := { j with aux := data.map (·.toNat) }) hc hstuck (adm := a.now) (by rw [hop]; rfl)] at hadmit
  subst hdata
  exact hadmit

end

theorem canXlArrive_none {id : Nat} {data : List Byte} (h : a.job? id = none) : canXlArrive a id data = a := by
  unfold canXlArrive
  rw [h]

/-- R601: the data of an XL frame meets the channel as it is now. -/
theorem canXlArrive_awaited {id : Nat} {data : List Byte} (hjob : a.job? id = some j) (hc : c = j.d.p 0 1) (hkind : j.kind = .desc)
    (hop : j.d.op = 0x81#8) (hphase : j.phase = .active) (hslices : j.slices = []) (hset : ∀ x ∈ (a.can c).set, x.job ≠ id) :
    canXlArrive a id data =
      if a.canClosed c ≠ 0 then complete a j 0x13 (a.canClosed c) else canPut a j (takeBytes (j.d.p 2 2) data) := by
  subst hc
  have hall : ((a.can (j.d.p 0 1)).set.all (·.job != id)) = true := by simpa using hset
  unfold canXlArrive
  rw [hjob]
  exact if_pos ⟨hkind, hop, hphase, hslices, hall⟩

end

end Sys2Proof.Machine

namespace Sys2Proof.Settled
open Machine

/-- Settles O53. Which slot an XL frame holds while its data is fetched, the tick that orders it, and the refusal of data for a channel
closed since, are entry 111 of the log. -/
theorem canSending : Obligations.CanSending := by
  refine ⟨fun s a t c d j host hporst htaken hc hfmt hlt hbad huse => ⟨fun hclosed => ?_, fun data y hopen hfree hphase hstuck hdata hy => ?_,
      fun data hopen hfull hdata => ?_⟩,
    fun s a t c cost d j hporst htaken hc hfmt hlt hbad huse hcost hbudget hopen hlarge hfree hphase => ?_,
    fun s a t c id data j hporst ha hjob hc hkind hop hphase hslices hset => ?_, fun s a t id data hporst ha hjob => ?_⟩
  · have hcheck := canTxCheck_frame (taken_op htaken) hc hfmt hlt hbad huse
    exact show execCanTx t d host s = _ from act_runOp_stop hporst htaken (by simp [hcheck, firstFail, hclosed])
  · have hcheck := canTxCheck_frame (taken_op htaken) hc hfmt hlt hbad huse
    rw [show exec (.canTx t d host) s = _ from act_runOp_pass hporst htaken (by rw [hcheck, hopen]; rfl),
      canTxStart_free hdata hc huse (taken_op htaken) hfree hphase hstuck, hy]
  · have hcheck := canTxCheck_frame (taken_op htaken) hc hfmt hlt hbad huse
    rw [show exec (.canTx t d host) s = _ from act_runOp_pass hporst htaken (by rw [hcheck, hopen]; rfl),
      canTxStart_full hdata hc huse hfull]
  · have hcheck := canTxCheck_xl (taken_op htaken) hc hfmt hlt hbad huse hcost hbudget hopen hlarge
    rw [show exec (.canTxXl t d) s = _ from act_runOp_pass hporst htaken hcheck, canAdmit_xl hc huse hfree hphase (taken_op htaken), hcost]
  · have hexec : exec (.canTxXlDataArrival t id data) s = .next (canXlArrive a id data) := by
      rw [ha]
      exact show execCanTxXlDataArrival t id data s = _ from act_next hporst rfl
    have harrive := canXlArrive_awaited (data := data) hjob hc hkind hop hphase hslices hset
    rw [hexec, harrive]
    refine ⟨fun hclosed => congrArg _ (if_pos hclosed), fun y hopen hstuck hy => ?_⟩
    have hactive : { j with phase := .active } = j := by rw [← hphase]
    rw [if_neg (not_not.mpr hopen), canPut_open hc hstuck (adm := j.aux.headD 0) (if_pos hop).symm, hactive, hy]
  · have hexec : exec (.canTxXlDataArrival t id data) s = .next (canXlArrive a id data) := by
      rw [ha]
      exact show execCanTxXlDataArrival t id data s = _ from act_next hporst rfl
    rw [hexec, canXlArrive_none hjob]

end Sys2Proof.Settled
end

section
/-!
SUPPORT. The CAN opcodes but those that send (chapter 16, Table 16-4).
-/
namespace Sys2Proof.Machine

section
variable {a : State} {j : Job} {d : Desc} {c : Nat}

/-! ## Filters, taps and CAN_INFO -/

theorem canFilterCheck_eq (hc : c = d.p 0 1) (hfmt : badFormat d (pm 0 2 ||| pb 2 7 ||| pb 3 0x3F ||| pm 4 1 ||| pm 8 8) false = false)
    (hlt : c < 8) (hq : d.p 4 1 < 64) (hkind : a.qKind d.tenant (d.p 4 1) = 2) :
    canFilterCheck a d = firstFail [(decide (a.canFilterQuota d.tenant c ≤ d.p 1 1), 0x11, 0)] := by
  subst hc
  simp [canFilterCheck, firstFail, hfmt, not_le.mpr hlt, not_le.mpr hq, hkind]

theorem canTapCheck_ok (hc : c = d.p 0 1) (hfmt : badFormat d (pm 0 2 ||| pb 2 1) false = false) (hlt : c < 8) (hq : d.p 1 1 < 64)
    (hkind : a.qKind d.tenant (d.p 1 1) = 2) (hright : a.canUse d.tenant c = 1 ∨ a.hasListen d.tenant c = true) :
    canTapCheck a d = none := by
  subst hc
  obtain h | h := hright <;> simp [canTapCheck, firstFail, hfmt, not_le.mpr hlt, not_le.mpr hq, hkind, h]

/-- R614: a tap is set or ended; the tenant has one at most. -/
theorem doCanTap_eq (hc : c = d.p 0 1) : doCanTap a d = a.updCan c fun x => { x with
    taps := x.taps.filter (fun (e : Nat × Nat) => e.1 != d.tenant.val) ++ (if bit (d.p 2 1) 0 then [(d.tenant.val, d.p 1 1)] else []) } := by
  subst hc
  unfold doCanTap
  cases bit (d.p 2 1) 0
  · simp
  · rfl

theorem canInfoCheck_ok (hc : c = d.p 0 1) (hfmt : badFormat d (pm 0 1) false = false) (hlt : c < 8)
    (hright : a.canUse d.tenant c ≠ 0 ∨ a.hasListen d.tenant c = true) : canInfoCheck a d = none := by
  subst hc
  obtain h | h := hright <;> simp [canInfoCheck, firstFail, hfmt, hlt, h]

/-! ## CAN_CTRL (R593, R594, R605) -/

theorem canCtrlCheck_eq (hc : c = d.p 0 1) (hfmt : badFormat d (pm 0 2) false = false) (hlt : c < 8) (hact : d.p 1 1 < 4)
    (huse : a.canUse d.tenant c = 1) : canCtrlCheck a d = firstFail
      [(d.p 1 1 == 2 && ((a.can c).state == .stopped || (a.can c).state == .sleep), 0x13, if (a.can c).state = .stopped then 1 else 2)] := by
  subst hc
  simp [canCtrlCheck, firstFail, hfmt, hlt, hact, huse]

theorem canCtrlCheck_ok (hc : c = d.p 0 1) (hfmt : badFormat d (pm 0 2) false = false) (hlt : c < 8) (hact : d.p 1 1 < 4)
    (huse : a.canUse d.tenant c = 1) (hsleep : d.p 1 1 = 2 → (a.can c).state ≠ .stopped ∧ (a.can c).state ≠ .sleep) :
    canCtrlCheck a d = none := by
  rw [canCtrlCheck_eq hc hfmt hlt hact huse]
  by_cases h : d.p 1 1 = 2
  · obtain ⟨hstop, hasleep⟩ := hsleep h
    simp [firstFail, hstop, hasleep]
  · simp [firstFail, h]

theorem can_keep (j : Job) : (keep a j).can c = a.can c := by
  obtain ⟨js, hkeep⟩ := keep_jobs a j
  rw [hkeep]
  rfl

theorem canCtrl_eq {n : Nat} {b : State} (hb : b = keep a { j with phase := .active }) (hc : c = j.d.p 0 1) (hact : j.d.p 1 1 = n)
    (busy : Bool) : canCtrl busy a j = canAct b c n busy (some j.id) := by
  subst hb hc hact
  rfl

theorem sends_state {x : Can} (h : x.sends = true) : x.state = .active ∨ x.state = .passive := by simpa [Can.sends] using h

/-- A CAN_CTRL that has done what it asks completes DONE. -/
def ctrlDone (s : State) (job : Option Nat) : State :=
  match job.bind s.job? with
  | some j => complete s j 0 0
  | none => s

theorem ctrlDone_some {s : State} {i : Nat} {q : Job} (hq : s.job? i = some q) : ctrlDone s (some i) = complete s q 0 0 := by
  unfold ctrlDone
  rw [Option.bind_some, hq]

theorem canAct_start (busy : Bool) (job : Option Nat) : canAct a c 0 busy job =
    ctrlDone (if (a.can c).state = .stopped then
      a.setCan c { a.can c with state := .active, txErr := 0, rxErr := 0, recovering := false } else a) job := rfl

theorem canAct_recover (busy : Bool) (job : Option Nat) : canAct a c 3 busy job =
    ctrlDone (if (a.can c).state = .busOff then a.setCan c { a.can c with recovering := true } else a) job := rfl

section
variable {x : Can} (hx : x = a.can c) {i : Nat} {q : Job} (hq : a.job? i = some q) (busy : Bool)
include hx hq

theorem canAct_start_stopped (hstop : x.state = .stopped) : canAct a c 0 busy (some i) =
    complete (a.setCan c { x with state := .active, txErr := 0, rxErr := 0, recovering := false }) q 0 0 := by
  subst hx
  rw [canAct_start, if_pos hstop]
  exact ctrlDone_some hq

theorem canAct_start_other (hstop : x.state ≠ .stopped) : canAct a c 0 busy (some i) = complete a q 0 0 := by
  subst hx
  rw [canAct_start, if_neg hstop, ctrlDone_some hq]

theorem canAct_recover_off (hoff : x.state = .busOff) :
    canAct a c 3 busy (some i) = complete (a.setCan c { x with recovering := true }) q 0 0 := by
  subst hx
  rw [canAct_recover, if_pos hoff]
  exact ctrlDone_some hq

theorem canAct_recover_other (hoff : x.state ≠ .busOff) : canAct a c 3 busy (some i) = complete a q 0 0 := by
  subst hx
  rw [canAct_recover, if_neg hoff, ctrlDone_some hq]

end

section
variable {x : Can} (hx : x = a.can c) (job : Option Nat)
include hx

/-- A STOP waits for the frame in progress. -/
theorem canAct_stop_waits (hsends : x.sends = true) : canAct a c 1 true job = a.setCan c { x with stop := x.stop ++ [(false, job)] } := by
  subst hx
  exact if_pos (by rw [hsends]; rfl)

theorem canAct_stop_now {busy : Bool} (h : busy = false ∨ x.sends = false) : canAct a c 1 busy job = canStopDo a c job := by
  subst hx
  refine if_neg ?_
  obtain h | h := h <;> simp [h]

theorem canAct_sleep_waits (hsends : x.sends = true) : canAct a c 2 true job = a.setCan c { x with stop := x.stop ++ [(true, job)] } := by
  subst hx
  exact if_pos (by rw [hsends]; rfl)

theorem canAct_sleep_now (hsends : x.sends = true) : canAct a c 2 false job = canSleepNow a c job := by
  subst hx
  have hstate : ¬ ((a.can c).state = .stopped ∨ (a.can c).state = .sleep) := by
    obtain h | h := sends_state hsends <;> simp [h]
  exact show canSleepDo a c job = _ from if_neg hstate

end

/-! ## CAN_CONFIG (R589, R590) -/

theorem canConfigCheck_eq {w : Nat × Nat × Nat × Nat × Nat} (hc : c = d.p 0 1) (hwords : canConfigWords a d = some w)
    (hraw : bit (d.p 1 1) 0 = false)
    (hfmt : badFormat d (pm 0 1 ||| pb 1 0x3F ||| pm 28 2 ||| (pm 4 5 ||| pm 12 5 ||| pm 20 5)) true = false) (hlt : c < 8)
    (huse : a.canUse d.tenant c = 1) :
    canConfigCheck a d = firstFail [(a.mode == .run || (a.can c).state != .stopped, 0x13, 0)] := by
  subst hc
  unfold canConfigCheck
  dsimp only
  rw [hraw, if_neg Bool.false_ne_true, if_neg Bool.false_ne_true, hfmt, hwords, decide_eq_false (not_le.mpr hlt), huse]
  rfl

theorem doCanConfig_eq {cfg n dd x stuck : Nat} (hc : c = d.p 0 1) (hwords : canConfigWords a d = some (cfg, n, dd, x, stuck)) :
    doCanConfig a d =
      ((((a.wr (canKey c 0) cfg).wr (canKey c 4) n).wr (canKey c 8) dd).wr (canKey c 0xC) x).wr (canKey c 0x14) stuck := by
  subst hc
  unfold doCanConfig
  dsimp only
  rw [hwords]

theorem refuseSide_derived (h : canConfigWords a d ≠ none) : refuseSide a d = a :=
  if_neg fun ⟨_, _, hnone⟩ => h (Option.isNone_iff_eq_none.mp hnone)

end

/-- Where the words have timing, CAN_CONFIG is an opcode like any other. -/
theorem execCanConfig_eq {s : State} {t : Nat} {d : Desc} (hporst : s.power.porstHigh = true)
    (h : canConfigWords (advance s t) { d with op := 0x85#8 } ≠ none) :
    exec (.canConfig t d) s = .next (runOp s t 0x85 d canConfigCheck (andDone doCanConfig)) := by
  refine show execCanConfig t d s = _ from act_next hporst ?_
  rw [refuseSide_derived h, runOp, advance_advance]
  rfl

end Sys2Proof.Machine

namespace Sys2Proof.Settled
open Machine

/-- Settles O54. That START clears the counters and that a command with nothing to do completes DONE is entry 111 of the log; the corners of
CAN_CONFIG and CAN_INFO are entry 112. -/
theorem canOpcodes : Obligations.CanOpcodes := by
  refine ⟨fun s a t c k d j f hporst htaken hc hfmt hlt hq hkind hk hf => ?_, fun s a t c d j hporst htaken hc hfmt hlt hq hkind hright => ?_,
    fun s a b t c d j q x hporst htaken hc hfmt hlt hact huse hb hx hq => ?_,
    fun s a b t c d j x busy hporst htaken hc hfmt hlt hact huse hb hx => ?_,
    fun s a b t c d j x busy hporst htaken hc hfmt hlt hact huse hb hx => ?_,
    fun s a b t c d j q x hporst htaken hc hfmt hlt hact huse hb hx hq => ?_,
    fun s a t c cfg n dd x stuck d j hporst htaken hc hwords hderived hraw hfmt hlt huse => ?_,
    fun s a t c d j x hporst htaken hc hfmt hlt hright hx => ?_⟩
  · have hcheck := canFilterCheck_eq hc hfmt hlt hq hkind
    refine ⟨fun hquota => ?_, fun hquota => ?_⟩
    · exact show execCanFilter t d s = _ from act_runOp_stop hporst htaken (by rw [hcheck, decide_eq_true hquota]; rfl)
    · subst hc hk hf
      exact show execCanFilter t d s = _ from
        act_runOp_pass hporst htaken (by rw [hcheck, decide_eq_false (not_le.mpr hquota)]; rfl)
  · rw [show exec (.canTap t d) s = _ from act_runOp_pass hporst htaken (canTapCheck_ok hc hfmt hlt hq hkind hright), andDone,
      doCanTap_eq hc]
    rfl
  · have hpass : exec (.canStart t d) s = .next (planNow (canAct b c 0 false (some j.id)) j) := by
      rw [← canCtrl_eq hb hc hact]
      exact show execCanStart t d s = _ from
        act_runOp_pass hporst htaken (canCtrlCheck_ok hc hfmt hlt (by omega) huse fun h => absurd h (by omega))
    rw [hpass]
    refine ⟨fun hstop => ?_, fun hstop => ?_⟩
    · rw [canAct_start_stopped hx hq false hstop]
    · rw [canAct_start_other hx hq false hstop]
  · have hpass : exec (.canStop t d busy) s = .next (planNow (canAct b c 1 busy (some j.id)) j) := by
      rw [← canCtrl_eq hb hc hact]
      exact show execCanStop t d busy s = _ from
        act_runOp_pass hporst htaken (canCtrlCheck_ok hc hfmt hlt (by omega) huse fun h => absurd h (by omega))
    rw [hpass]
    refine ⟨fun hbusy hsends => ?_, fun hnow => ?_⟩
    · rw [hbusy, canAct_stop_waits hx _ hsends]
    · rw [canAct_stop_now hx _ hnow]
  · have hcheck := canCtrlCheck_eq hc hfmt hlt (by omega) huse
    have hpass (hsends : x.sends = true) : exec (.canSleep t d busy) s = .next (planNow (canAct b c 2 busy (some j.id)) j) := by
      have hstate : (a.can c).state ≠ .stopped ∧ (a.can c).state ≠ .sleep := by
        rw [hx, hb, can_keep] at hsends
        obtain h | h := sends_state hsends <;> simp [h]
      rw [← canCtrl_eq hb hc hact]
      exact show execCanSleep t d busy s = _ from
        act_runOp_pass hporst htaken (canCtrlCheck_ok hc hfmt hlt (by omega) huse fun _ => hstate)
    refine ⟨fun hstop => ?_, fun hasleep => ?_, fun hbusy hsends => ?_, fun hfree hsends => ?_⟩
    · exact show execCanSleep t d busy s = _ from act_runOp_stop hporst htaken (by rw [hcheck, hact, hstop]; rfl)
    · exact show execCanSleep t d busy s = _ from act_runOp_stop hporst htaken (by rw [hcheck, hact, hasleep]; rfl)
    · rw [hpass hsends, hbusy, canAct_sleep_waits hx _ hsends]
    · rw [hpass hsends, hfree, canAct_sleep_now hx _ hsends]
  · have hpass : exec (.canRecover t d) s = .next (planNow (canAct b c 3 false (some j.id)) j) := by
      rw [← canCtrl_eq hb hc hact]
      exact show execCanRecover t d s = _ from
        act_runOp_pass hporst htaken (canCtrlCheck_ok hc hfmt hlt (by omega) huse fun h => absurd h (by omega))
    rw [hpass]
    refine ⟨fun hoff => ?_, fun hoff => ?_⟩
    · rw [canAct_recover_off hx hq false hoff]
    · rw [canAct_recover_other hx hq false hoff]
  · have hcheck := canConfigCheck_eq hc hwords hraw hfmt hlt huse
    rw [execCanConfig_eq hporst hderived]
    refine ⟨fun hrun hstop => ?_, fun hrun => ?_⟩
    · rw [runOp_pass _ htaken (by simp [hcheck, firstFail, hrun, hstop]), andDone, doCanConfig_eq hc hwords]
      rfl
    · rw [runOp_stop _ htaken (by rw [hcheck, hrun]; rfl)]
  · subst hx hc
    exact show execCanInfo t d s = _ from act_runOp_pass hporst htaken (canInfoCheck_ok rfl hfmt hlt hright)

end Sys2Proof.Settled
end

section
/-!
SUPPORT. Frames and states of a CAN channel (chapter 16).
-/
namespace Sys2Proof.Machine

section
variable {a : State} {c : Nat}

theorem can_setCan_self (htab : Safety.Tables a) (x : Can) : (a.setCan c x).can c = x := storeGet_storePut_self _ htab.cans c x

theorem setCan_can (htab : Safety.Tables a) : a.setCan c (a.can c) = a := by
  rw [State.setCan, State.can, storePut_storeGet_self _ htab.cans]

theorem rd_setCan (x : Can) (k : Nat) : (a.setCan c x).rd k = a.rd k := rfl

theorem rd_count_self (htab : Safety.Tables a) (k : Nat) : (count a k).rd k = min (a.rd k + 1) 0xFFFFFFFF := rd_countN_self htab k 1

theorem rd_count_of_ne {k k' : Nat} (h : k' ≠ k) : (count a k).rd k' = a.rd k' := rd_countN_of_ne a 1 h

theorem queues_count (k : Nat) : (count a k).queues = a.queues := rfl

theorem jobs_count (k : Nat) : (count a k).jobs = a.jobs := rfl

theorem can_count (k : Nat) : (count a k).can c = a.can c := rfl

/-! ## What a frame leaves (R586, R593) -/

/-- An error-active channel with its counters below 128 stays as it is. -/
theorem canErrState_active (htab : Safety.Tables a) (hstate : (a.can c).state = .active) (htx : (a.can c).txErr < 128)
    (hrx : (a.can c).rxErr < 128) : canErrState a c = a := by
  have hsame : { a.can c with state := .active } = a.can c := by rw [← hstate]
  have hpassive : (decide (128 ≤ (a.can c).txErr) || decide (128 ≤ (a.can c).rxErr)) = false := by simp [htx, hrx]
  unfold canErrState
  dsimp only
  rw [if_neg (by simp [Can.sends, hstate]), hpassive, if_neg Bool.false_ne_true, hsame, setCan_can htab]
  rfl

/-- Where nothing waits for the end of the frame, it changes nothing. -/
theorem canFrameEnd_idle (htab : Safety.Tables a) (hstop : (a.can c).stop = []) (hfilters : (a.can c).filters = []) :
    canFrameEnd a c = a := by
  have hsame : { a.can c with stop := [], filters := (a.can c).filters.map fun e => (e.1, e.2.take 1) } = a.can c := by
    rw [hfilters, List.map_nil, ← hfilters, ← hstop]
  unfold canFrameEnd
  dsimp only
  rw [hstop, State.updCan, hsame, setCan_can htab]
  rfl

/-! ## Receiving (R609 to R611) -/

theorem canReceived_deaf {sof : Nat} {f : CanFrame} (h : (a.can c).sends = false ∨ a.canFmtOn c f.fmt = false) :
    canReceived a c sof f = a := by
  refine if_pos ?_
  obtain h | h := h <;> simp [h]

/-- R610: a frame that nobody takes is counted as such. -/
theorem canTake_untaken {sof : Nat} {f : CanFrame} (htenants : a.canTenants c = []) (htaps : (a.can c).taps = []) :
    canTake a c sof f = count (count a (canKey c 0x4C)) (canKey c 0x68) := by
  have htenants' : (count a (canKey c 0x4C)).canTenants c = [] := htenants
  have htaps' : (count a (canKey c 0x4C)).canTaps c = [] := by
    rw [State.canTaps, show ((count a (canKey c 0x4C)).can c).taps = [] from htaps]
    rfl
  unfold canTake canDeliver
  dsimp only
  rw [htenants', htaps']
  rfl

theorem canReceived_untaken {sof : Nat} {f : CanFrame} (hsends : (a.can c).sends = true) (hfmt : a.canFmtOn c f.fmt = true)
    (htenants : a.canTenants c = []) (htaps : (a.can c).taps = []) (hrx : (a.can c).rxErr < 128) (htx : (a.can c).txErr < 128)
    (hstate : (a.can c).state = .active) (hstop : (a.can c).stop = []) (hfilters : (a.can c).filters = []) (htab : Safety.Tables a) :
    canReceived a c sof f = (count (count a (canKey c 0x4C)) (canKey c 0x68)).setCan c { a.can c with rxErr := (a.can c).rxErr - 1 } := by
  have htab₁ := (keeps_count (keeps_count (Keeps.refl a) (canKey c 0x4C)) (canKey c 0x68)).tables htab
  have htab₂ := (keeps_setCan (Keeps.refl _) c { a.can c with rxErr := (a.can c).rxErr - 1 }).tables htab₁
  have hcan := can_setCan_self (c := c) htab₁ { a.can c with rxErr := (a.can c).rxErr - 1 }
  have hupd {b : State} (hb : b.can c = a.can c) : (b.updCan c fun x => { x with rxErr := if 128 ≤ x.rxErr then 127 else x.rxErr - 1 }) =
      b.setCan c { a.can c with rxErr := (a.can c).rxErr - 1 } := by
    rw [State.updCan, hb, if_neg (not_le.mpr hrx)]
  unfold canReceived
  rw [if_neg (by simp [hsends, hfmt]), canTake_untaken htenants htaps]
  dsimp only
  rw [hupd (by rw [can_count, can_count]), canErrState_active htab₂ (by rw [hcan]; exact hstate) (by rw [hcan]; exact htx) (by rw [hcan]; dsimp only; omega),
    canFrameEnd_idle htab₂ (by rw [hcan]; exact hstop) (by rw [hcan]; exact hfilters)]

/-! ## Sending (R595 to R600) -/

section
variable {sof : Nat}

/-- A channel that does not send, and a set without a frame at the start of frame. -/
theorem canTransmitted_none (h : (a.can c).sends = false ∨ a.canListenOnly c = true ∨ canWinner sof (a.can c).set = none) :
    canTransmitted a c sof = a := by
  unfold canTransmitted
  split
  · rfl
  · rename_i hsends
    obtain h | h | h := h
    · exact absurd (by simp [h]) hsends
    · exact absurd (by simp [h]) hsends
    · rw [h]

theorem canArbLost_none (h : (a.can c).sends = false ∨ a.canListenOnly c = true ∨ canWinner sof (a.can c).set = none)
    (w : Option CanWinner) (i : Nat) : canArbLost a c sof w i = a := by
  unfold canArbLost
  split
  · rfl
  · rename_i hsends
    obtain h | h | h := h
    · exact absurd (by simp [h]) hsends
    · exact absurd (by simp [h]) hsends
    · rw [h]

theorem canTxError_none (h : (a.can c).sends = false ∨ a.canListenOnly c = true ∨ canWinner sof (a.can c).set = none)
    (kind : CanErr) : canTxError a c sof kind = a := by
  unfold canTxError
  split
  · rfl
  · rename_i hsends
    obtain h | h | h := h
    · exact absurd (by simp [h]) hsends
    · exact absurd (by simp [h]) hsends
    · rw [h]

section
variable {y : CanSlot} (hsends : (a.can c).sends = true) (hlisten : a.canListenOnly c = false)
  (hwin : canWinner sof (a.can c).set = some y)
include hsends hlisten hwin

/-- R598, R611: the frame sent is delivered to the channel's other tenants and leaves the set. -/
theorem canTransmitted_winner : canTransmitted a c sof = canFrameEnd (canRetry (canErrState
    ((canEndSlots (canDeliver (count a (canKey c 0x50)) c sof (some y.tenant)
      { y.frame with esi := y.frame.fmt == 1 && (a.can c).state == .passive }).1 c (·.job == y.job) 0 sof).updCan c
        fun x => { x with txErr := x.txErr - 1 }) c) c) c := by
  unfold canTransmitted
  rw [if_neg (by simp [hsends, hlisten]), hwin]

theorem canArbLost_winner (w : Option CanWinner) (i : Nat) : canArbLost a c sof w i = if y.oneShot
    then canRetry (canEndSlots (count a (canKey c 0x58)) c (·.job == y.job) 0x30 (arbResult w i)) c else count a (canKey c 0x58) := by
  unfold canArbLost
  rw [if_neg (by simp [hsends, hlisten]), hwin]

/-- R600: an error but a missing acknowledgement raises the transmit error counter by 8. -/
theorem canTxError_winner {kind : CanErr} (hkind : kind ≠ .ack) {u : State}
    (hu : u = (count a (canKey c 0x54)).updCan c fun x => { x with txErr := min 256 (x.txErr + 8) }) :
    canTxError a c sof kind = canFrameEnd (canRetry (canErrState
      (if y.oneShot then canEndSlots u c (·.job == y.job) 0x31 (canErrCode kind) else u) c) c) c := by
  have hupd : ((count a (canKey c 0x54)).updCan c fun x =>
      { x with txErr := if kind = .ack ∧ x.state = .passive then x.txErr else min 256 (x.txErr + 8) }) = u := by
    rw [hu, State.updCan, State.updCan, if_neg fun h : _ ∧ _ => hkind h.1]
  unfold canTxError
  rw [if_neg (by simp [hsends, hlisten]), hwin]
  dsimp only
  rw [hupd]

end

end

theorem canRxErr_deaf {after : Bool} (h : (a.can c).sends = false ∨ a.canListenOnly c = true) : canRxErr a c after = a := by
  refine if_pos ?_
  obtain h | h := h <;> simp [h]

theorem canRxErr_sends {after : Bool} (hsends : (a.can c).sends = true) (hlisten : a.canListenOnly c = false) :
    canRxErr a c after = canFrameEnd (canErrState
      ((count a (canKey c 0x54)).updCan c fun x => { x with rxErr := min 255 (x.rxErr + if after then 8 else 1) }) c) c :=
  if_neg (by simp [hsends, hlisten])

end

end Sys2Proof.Machine

namespace Sys2Proof.Settled
open Machine

/-- Settles O55. How errors move the counters is entry 110 of the log (PRESUMED), and what CAN_RX_CNT counts entry 112. -/
theorem canFrameEvents : Obligations.CanFrameEvents := by
  refine ⟨fun s a t sof c f hporst ha => ?_, fun s a t sof c hporst ha => ?_, fun s a t c after hporst ha => ?_⟩
  · have hexec : exec (.canFrameReceived t c sof f) s = .next (canReceived a c sof f) := by
      rw [ha]
      exact show execCanFrameReceived t c sof f s = _ from act_next hporst rfl
    refine ⟨fun hdeaf => ?_, fun hsends hfmt htenants htaps hrx htx hstate hstop hfilters htab => ⟨_, hexec, ?_⟩⟩
    · rw [hexec, canReceived_deaf hdeaf]
    · rw [canReceived_untaken hsends hfmt htenants htaps hrx htx hstate hstop hfilters htab]
      have htab₁ := (keeps_count (Keeps.refl a) (canKey c 0x4C)).tables htab
      have htab₂ := (keeps_count (Keeps.refl _) (canKey c 0x68)).tables htab₁
      have hne : canKey c 0x4C ≠ canKey c 0x68 := by rw [canKey, canKey]; omega
      refine ⟨can_setCan_self htab₂ _, ?_, ?_, ?_, ?_⟩
      · rw [rd_setCan, rd_count_of_ne hne, rd_count_self htab]
      · rw [rd_setCan, rd_count_self htab₁, rd_count_of_ne hne.symm]
      · rw [State.setCan_queues, queues_count, queues_count]
      · rw [State.setCan_jobs, jobs_count, jobs_count]
  · have hsent : exec (.canFrameTransmitted t c sof) s = .next (canTransmitted a c sof) := by
      rw [ha]
      exact show execCanFrameTransmitted t c sof s = _ from act_next hporst rfl
    have hlost (w : Option CanWinner) (i : Nat) : exec (.oneShotArbLost t c sof w i) s = .next (canArbLost a c sof w i) := by
      rw [ha]
      exact show execOneShotArbLost t c sof w i s = _ from act_next hporst rfl
    have herror (k : CanErr) : exec (.canBusError t c sof k) s = .next (canTxError a c sof k) := by
      rw [ha]
      exact show execCanBusError t c sof k s = _ from act_next hporst rfl
    refine ⟨fun hnone => ⟨?_, fun w i => ?_, fun k => ?_⟩, fun y hsends hlisten hwin => ⟨⟨_, ?_, _, rfl, rfl⟩, fun w i hretry => ?_,
      fun w i hone => ?_, fun k hretry hk => ?_, fun k hone hk => ?_⟩⟩
    · rw [hsent, canTransmitted_none hnone]
    · rw [hlost, canArbLost_none hnone]
    · rw [herror, canTxError_none hnone]
    · rw [hsent, canTransmitted_winner hsends hlisten hwin]
    · rw [hlost, canArbLost_winner hsends hlisten hwin, hretry, if_neg Bool.false_ne_true]
    · rw [hlost, canArbLost_winner hsends hlisten hwin, hone, if_pos rfl]
    · rw [herror, canTxError_winner hsends hlisten hwin hk rfl, hretry, if_neg Bool.false_ne_true]
    · rw [herror, canTxError_winner hsends hlisten hwin hk rfl, hone, if_pos rfl]
  · have hexec : exec (.canRxError t c after) s = .next (canRxErr a c after) := by
      rw [ha]
      exact show execCanRxError t c after s = _ from act_next hporst rfl
    rw [hexec]
    refine ⟨fun hdeaf => ?_, fun hsends hlisten => ?_⟩
    · rw [canRxErr_deaf hdeaf]
    · rw [canRxErr_sends hsends hlisten]

end Sys2Proof.Settled
end

section
/-!
SUPPORT. The states of a CAN channel and the order of its transmit set (chapter 16).
-/
namespace Sys2Proof.Machine

section
variable {a : State} {c : Nat}

/-! ## Bus-off and stuck (R594, R602 to R604) -/

theorem canBusOff_silent (h : (a.can c).sends = false) : canBusOff a c = a := if_pos (by simp [h])

theorem canBusOff_sends (h : (a.can c).sends = true) : canBusOff a c = canFrameEnd (canRetry (flag (count
    ((canEndSlots a c (fun _ => true) 0x33 0).updCan c fun y => { y with
      state := .busOff, recovering := (canEndSlots a c (fun _ => true) 0x33 0).bitAt (canKey c 0) 3 })
    (canKey c 0x60)) (canKey c 0x44) 2) c) c := if_neg (by simp [h])

theorem canRecovered_due (hoff : (a.can c).state = .busOff) (hrec : (a.can c).recovering = true) :
    canRecovered a c = a.setCan c { a.can c with state := .active, recovering := false, txErr := 0, rxErr := 0 } := if_pos ⟨hoff, hrec⟩

theorem canRecovered_not (h : (a.can c).state ≠ .busOff ∨ (a.can c).recovering = false) : canRecovered a c = a := by
  refine if_neg fun ⟨hoff, hrec⟩ => ?_
  obtain h | h := h
  · exact h hoff
  · rw [hrec] at h
    exact Bool.false_ne_true h.symm

theorem canStuck_known (h : ((a.can c).rxdStuck = true ∧ (a.can c).sends = false) ∨ (a.can c).state = .stopped) : canStuck a c = a := by
  refine if_pos ?_
  obtain ⟨hstuck, hsends⟩ | h := h
  · simp [hstuck, hsends]
  · simp [h]

theorem canStuck_silent (hnew : (a.can c).rxdStuck = false) (hstop : (a.can c).state ≠ .stopped) (hsends : (a.can c).sends = false) :
    canStuck a c = flag (count (a.setCan c { a.can c with rxdStuck := true }) (canKey c 0x5C)) (canKey c 0x44) 1 := by
  unfold canStuck
  dsimp only
  rw [if_neg (by simp [hnew, hstop]), hsends, if_neg Bool.false_ne_true, if_neg Bool.false_ne_true]
  rfl

/-- R602: a channel that sends becomes stuck, and its one-shot frames end. -/
theorem canStuck_sends (hsends : (a.can c).sends = true) : canStuck a c = canFrameEnd (canRetry (canEndSlots
    (flag (count (a.setCan c { a.can c with rxdStuck := true, state := .stuck }) (canKey c 0x5C)) (canKey c 0x44) 1) c (·.oneShot) 0x32 0)
      c) c := by
  have hstop : (a.can c).state ≠ .stopped := by
    obtain h | h := sends_state hsends <;> simp [h]
  unfold canStuck
  dsimp only
  rw [if_neg (by simp [hsends, hstop]), hsends, if_pos rfl, if_pos rfl]
  rfl

theorem canRecessive_other (h : (a.can c).state ≠ .stuck) :
    canRecessive a c = a.setCan c { a.can c with rxdStuck := false, masked := false } := by
  unfold canRecessive
  dsimp only
  rw [if_neg h]

theorem canRecessive_active (h : (a.can c).state = .stuck) (htx : (a.can c).txErr < 128) (hrx : (a.can c).rxErr < 128) :
    canRecessive a c = a.setCan c { a.can c with rxdStuck := false, masked := false, state := .active } := by
  unfold canRecessive
  dsimp only
  rw [if_pos h, if_neg (by omega)]

theorem canRecessive_passive (h : (a.can c).state = .stuck) (herr : 128 ≤ (a.can c).txErr ∨ 128 ≤ (a.can c).rxErr) :
    canRecessive a c = a.setCan c { a.can c with rxdStuck := false, masked := false, state := .passive } := by
  unfold canRecessive
  dsimp only
  rw [if_pos h, if_pos herr]

/-! ## Waking (R607, R608) -/

section
variable {start : Nat}

theorem canWake_awake (h : (a.can c).state ≠ .sleep) (f : Option CanFrame) : canWake a c start f = a := if_pos h

/-- A channel that no SLEEP waits for wakes with its count and flag. -/
theorem canWakeNow_alone {edge : Bool} (hjob : (a.can c).sleepJob = none) : canWakeNow a c start edge =
    flag (count (a.setCan c { a.can c with state := .active, masked := (a.can c).masked || edge }) (canKey c 0x64)) (canKey c 0x44) 4 := by
  have hsame : { a.can c with state := .active, sleepJob := none, masked := (a.can c).masked || edge } =
      { a.can c with state := .active, masked := (a.can c).masked || edge } :=
    congrArg (fun q => { a.can c with state := .active, sleepJob := q, masked := (a.can c).masked || edge }) hjob.symm
  have hnone (s : State) : (a.can c).sleepJob.bind s.job? = none := by
    rw [hjob]
    rfl
  unfold canWakeNow
  dsimp only
  rw [hsame, hnone]
  rfl

section
variable (hsleep : (a.can c).state = .sleep)
include hsleep

/-- R607: a dominant edge that has stayed for WAKE_MIN. -/
theorem canWake_edge (hmode : a.bitAt (canKey c 0x18) 0 = false) (hmask : (a.can c).masked = false)
    (hmin : start + a.fld (canKey c 0x18) 4 12 ≤ a.now) (hjob : (a.can c).sleepJob = none) : canWake a c start none =
      flag (count (a.setCan c { a.can c with state := .active, masked := true }) (canKey c 0x64)) (canKey c 0x44) 4 := by
  have hmode' : bit (a.rd (canKey c 0x18)) 0 = false := hmode
  have hearly : ¬ a.now < start + bits (a.rd (canKey c 0x18)) 4 12 := not_lt.mpr hmin
  unfold canWake
  dsimp only
  rw [if_neg (not_not.mpr hsleep), hmode', hmask, decide_eq_false hearly, if_neg (by decide), canWakeNow_alone hjob, Bool.or_true]

theorem canWake_notYet
    (h : a.bitAt (canKey c 0x18) 0 = true ∨ (a.can c).masked = true ∨ a.now < start + a.fld (canKey c 0x18) 4 12) :
    canWake a c start none = a := by
  refine (if_neg (not_not.mpr hsleep)).trans (if_pos ?_)
  obtain h | h | h := h
  · rw [show bit (a.rd (canKey c 0x18)) 0 = true from h]
    rfl
  · rw [h, Bool.or_true]
    rfl
  · rw [show decide (a.now < start + bits (a.rd (canKey c 0x18)) 4 12) = true from decide_eq_true h, Bool.or_true]

theorem canWake_frameOff (hmode : a.bitAt (canKey c 0x18) 0 = false) (f : CanFrame) : canWake a c start (some f) = a := by
  refine (if_neg (not_not.mpr hsleep)).trans (if_neg ?_)
  rw [show bit (a.rd (canKey c 0x18)) 0 = false from hmode]
  exact Bool.false_ne_true

end

end

end

/-! ## The transmit set (R595) -/

/-- The frame sent is one of the set that was in it at the start of frame. -/
theorem canWinner_some {sof : Nat} {l : List CanSlot} {y : CanSlot} (h : canWinner sof l = some y) : y ∈ l ∧ y.since ≤ sof := by
  induction l generalizing y with
  | nil => exact nomatch h
  | cons x l ih =>
    unfold canWinner at h
    cases hl : canWinner sof l with
    | none =>
      rw [hl] at h
      dsimp only at h
      split at h
      · rename_i hx
        cases h
        exact ⟨List.mem_cons_self .., hx⟩
      · exact nomatch h
    | some z =>
      obtain ⟨hz, hsince⟩ := ih hl
      rw [hl] at h
      dsimp only at h
      split_ifs at h with hlate hwins
      · cases h
        exact ⟨List.mem_cons_of_mem _ hz, hsince⟩
      · cases h
        exact ⟨List.mem_cons_of_mem _ hz, hsince⟩
      · cases h
        exact ⟨List.mem_cons_self .., not_lt.mp hlate⟩

theorem canWinner_isSome {sof : Nat} {l : List CanSlot} (h : ∃ x ∈ l, x.since ≤ sof) : (canWinner sof l).isSome = true := by
  induction l with
  | nil =>
    obtain ⟨x, hx, -⟩ := h
    exact absurd hx List.not_mem_nil
  | cons x l ih =>
    unfold canWinner
    cases hl : canWinner sof l with
    | none =>
      have hx : x.since ≤ sof := by
        obtain ⟨y, hy, hsince⟩ := h
        obtain rfl | hy := List.mem_cons.mp hy
        · exact hsince
        · rw [hl] at ih
          exact absurd (ih ⟨y, hy, hsince⟩) Bool.false_ne_true
      dsimp only
      rw [if_pos hx]
      rfl
    | some y =>
      dsimp only
      split_ifs <;> rfl

theorem mem_canInsert {x y : CanSlot} {l : List CanSlot} : x ∈ canInsert y l ↔ x = y ∨ x ∈ l := by
  induction l with
  | nil => exact List.mem_cons
  | cons z l ih =>
    unfold canInsert
    split
    · exact List.mem_cons
    · rw [List.mem_cons, List.mem_cons, ih]
      exact or_left_comm

/-- A frame admitted after all others takes the last place. -/
theorem canInsert_last {y : CanSlot} {l : List CanSlot} (h : ∀ x ∈ l, x.adm < y.adm ∨ (x.adm = y.adm ∧ x.job ≤ y.job)) :
    canInsert y l = l ++ [y] := by
  induction l with
  | nil => rfl
  | cons x l ih =>
    have hx := h x (List.mem_cons_self ..)
    rw [canInsert, if_neg (by omega), ih fun z hz => h z (List.mem_cons_of_mem _ hz)]
    rfl

end Sys2Proof.Machine

namespace Sys2Proof.Settled
open Machine

/-- Settles O56. The states and counters after BUS_OFF and BUS_STUCK are entry 111 of the log, and that waking keeps the counters entry
112. -/
theorem canChannelStates : Obligations.CanChannelStates := by
  refine ⟨fun s a t c x hporst ha hx => ?_, fun s a t start c x hporst ha hx => ?_, fun sof l y h => canWinner_some h,
    fun sof l h => canWinner_isSome h, fun y x l => mem_canInsert, fun y l h => canInsert_last h⟩
  · subst hx
    have hoff : exec (.busOff t c) s = .next (canBusOff a c) := by
      rw [ha]
      exact show execBusOff t c s = _ from act_next hporst rfl
    have hrec : exec (.busOffRecovered t c) s = .next (canRecovered a c) := by
      rw [ha]
      exact show execBusOffRecovered t c s = _ from act_next hporst rfl
    have hstuck : exec (.busStuck t c) s = .next (canStuck a c) := by
      rw [ha]
      exact show execBusStuck t c s = _ from act_next hporst rfl
    have hrise : exec (.rxdRecessive t c) s = .next (canRecessive a c) := by
      rw [ha]
      exact show execRxdRecessive t c s = _ from act_next hporst rfl
    rw [hoff, hrec, hstuck, hrise]
    exact ⟨fun h => congrArg _ (canBusOff_silent h), fun h => congrArg _ (canBusOff_sends h),
      fun h hrecovering => congrArg _ (canRecovered_due h hrecovering), fun h => congrArg _ (canRecovered_not h),
      fun h => congrArg _ (canStuck_known h), fun hnew hstop hsends => congrArg _ (canStuck_silent hnew hstop hsends),
      fun hsends => congrArg _ (canStuck_sends hsends), fun h => congrArg _ (canRecessive_other h),
      fun h htx hrx => congrArg _ (canRecessive_active h htx hrx), fun h herr => congrArg _ (canRecessive_passive h herr)⟩
  · subst hx
    have hexec (f : Option CanFrame) : exec (.canWake t c start f) s = .next (canWake a c start f) := by
      rw [ha]
      exact show execCanWake t c start f s = _ from act_next hporst rfl
    refine ⟨fun h f => ?_, fun hsleep hmode hmask hmin hjob => ?_, fun hsleep h => ?_, fun f hsleep hmode => ?_⟩
    · rw [hexec, canWake_awake h]
    · rw [hexec, canWake_edge hsleep hmode hmask hmin hjob]
    · rw [hexec, canWake_notYet hsleep h]
    · rw [hexec, canWake_frameOff hsleep hmode]

end Sys2Proof.Settled
end

section
/-!
SUPPORT. What making the outputs safe leaves of Parapet's state (chapter 17): everything, so that the mode just entered stands.
-/
namespace Sys2Proof.Machine

/-! ## Folds, books and single units -/

theorem foldl_pp {β : Type} {f : State → β → State} (h : ∀ s x, (f s x).pp = s.pp) (l : List β) (s : State) : (l.foldl f s).pp = s.pp := by
  induction l generalizing s with
  | nil => rfl
  | cons x l ih => exact (ih _).trans (h s x)

theorem ite_pp {c : Prop} [Decidable c] {a s t : State} (hs : s.pp = a.pp) (ht : t.pp = a.pp) : (if c then s else t).pp = a.pp := by
  split <;> assumption

theorem Books.pp {a s : State} (h : Books a s) : s.pp = a.pp := h.units.device.1

@[simp] theorem count_pp (s : State) (k : Nat) : (count s k).pp = s.pp := (books_count (Books.refl s) k).pp
@[simp] theorem flag_pp (s : State) (k mask : Nat) : (flag s k mask).pp = s.pp := (books_flag (Books.refl s) k mask).pp
@[simp] theorem offerNow_pp (s : State) (tn q kind src : Nat) (l : List Byte) : (offerNow s tn q kind src l).pp = s.pp :=
  (books_offer (Books.refl s) tn q kind _).pp
@[simp] theorem complete_pp (s : State) (j : Job) (status res : Nat) : (complete s j status res).pp = s.pp :=
  (sameUnits_complete s j status res).device.1

/-- A list of jobs completed, those that are still there. -/
theorem completeAll_pp (status res : Nat) (ids : List Nat) (s : State) :
    (ids.foldl (fun s id => match s.job? id with
      | some j => complete s j status res
      | none => s) s).pp = s.pp :=
  foldl_pp (fun s id => by split <;> simp) ids s

/-! ## Axes and piers -/

@[simp] theorem axisDone_pp (s : State) (a status res : Nat) : (axisDone s a status res).pp = s.pp := by
  unfold axisDone
  extract_lets x
  split <;> simp

@[simp] theorem dropNext_pp (s : State) (a status res : Nat) : (dropNext s a status res).pp = s.pp := completeAll_pp _ _ _ _

@[simp] theorem disableDone_pp (s : State) (a status : Nat) : (disableDone s a status).pp = s.pp := completeAll_pp _ _ _ _

@[simp] theorem axisEnd_pp (s : State) (a status res : Nat) : (axisEnd s a status res).pp = s.pp := by simp [axisEnd]

@[simp] theorem alignEnd_pp (s : State) (p status res : Nat) : (alignEnd s p status res).pp = s.pp := by
  unfold alignEnd
  split
  · exact complete_pp _ _ _ _
  · rfl

@[simp] theorem legsOff_pp (s : State) (st : Nat) : (legsOff s st).pp = s.pp := foldl_pp (fun _ _ => by rfl) _ _

@[simp] theorem pierLegsOff_pp (s : State) (p : Nat) : (pierLegsOff s p).pp = s.pp := by
  have hlegs := foldl_pp (f := fun s i => setShadow s (s.pierLeg p i) .off) (fun _ _ => rfl) (List.range 3) s
  unfold pierLegsOff
  rw [legsOff_pp]
  exact ite_pp hlegs hlegs

@[simp] theorem pierForced_pp (s : State) (p : Nat) : (pierForced s p).pp = s.pp := by
  have hdown (u : State) : (pierDisabled u p).pp = u.pp := pierLegsOff_pp u p
  have hend : (alignEnd (axisEnd s p 0x13 0) p 0x13 0).pp = s.pp := by simp
  exact ite_pp hend ((hdown _).trans hend)

/-! ## Step generators -/

@[simp] theorem sgQuiet_pp (s : State) (n : Nat) : (sgQuiet s n).pp = s.pp := by
  unfold sgQuiet
  refine ite_pp rfl ?_
  rw [legsOff_pp]
  exact foldl_pp (fun _ _ => by rfl) _ _

@[simp] theorem sgForced_pp (s : State) (n : Nat) : (sgForced s n).pp = s.pp := by
  have hdown (u : State) : (sgDisabled u n).pp = u.pp := sgQuiet_pp u n
  have hend : (axisEnd s (32 + n) 0x13 0).pp = s.pp := axisEnd_pp _ _ _ _
  exact ite_pp ((hdown _).trans hend) hend

/-! ## Groups and stays -/

theorem groupAbort_pp (s : State) (g : Nat) (hit : Option Nat) (status res : Nat) : (groupAbort s g hit status res).pp = s.pp := by
  have hsegs (u : State) (ids : List Nat) : (segsEnd u ids status res false).pp = u.pp := completeAll_pp _ _ _ _
  refine ite_pp rfl ((hsegs _ _).trans ?_)
  exact foldl_pp (fun s a => by exact ite_pp rfl (ite_pp rfl rfl)) _ _

theorem groupDrop_pp (s : State) (g status : Nat) : (groupDrop s g status).pp = s.pp :=
  (foldl_pp (fun _ _ => by rfl) _ _).trans (groupAbort_pp s g none status 0)

theorem engageDone_pp (s : State) (y status res : Nat) : (engageDone s y status res).pp = s.pp := by
  unfold engageDone
  split
  · exact complete_pp _ _ _ _
  · rfl

theorem releaseDone_pp (s : State) (y : Nat) : (releaseDone s y).pp = s.pp := completeAll_pp _ _ _ _

theorem stayDrop_pp (s : State) (y status : Nat) : (stayDrop s y status).pp = s.pp := by
  refine ite_pp ?_ rfl
  rw [releaseDone_pp, engageDone_pp]
  rfl

@[simp] theorem dropSources_pp (s : State) (gs ys : List Nat) : (dropSources s gs ys).pp = s.pp :=
  (foldl_pp (fun s y => stayDrop_pp s y 0x13) ys _).trans (foldl_pp (fun s g => groupDrop_pp s g 0x13) gs s)

/-! ## Valves -/

theorem srcLost_pp (v status ticks : Nat) (s : State) (x : EvSrc) : (srcLost v status ticks s x).pp = s.pp := by
  unfold srcLost rowReport descEnd
  split
  · split
    · exact offerNow_pp _ _ _ _ _ _
    · rfl
  · split
    · split <;> simp
    · rfl

theorem dropEvent_pp (s : State) (e : Event) (status : Nat) (l : List EvSrc) : (dropEvent s e status l).pp = s.pp := by
  have howed (u : State) : (owedClose u e).pp = u.pp := ite_pp rfl rfl
  exact (foldl_pp (srcLost_pp _ _ _) l _).trans (howed _)

@[simp] theorem valvesCloseAll_pp (s : State) : (valvesCloseAll s).pp = s.pp :=
  (foldl_pp (fun s e => by exact ite_pp rfl rfl) _ _).trans (foldl_pp (fun s e => dropEvent_pp s e 0x13 e.srcs) _ s)

/-! ## The outputs and the PWM at a change of mode (Table 17-3) -/

@[simp] theorem outputsSafe_pp (s : State) : (outputsSafe s).pp = s.pp := by
  have hpier (u : State) := foldl_pp pierForced_pp (List.range 32) u
  have hsg (u : State) := foldl_pp sgForced_pp (List.range 16) u
  have hopens (u : State) : (dropOpens u).pp = u.pp := rfl
  unfold outputsSafe
  simp only [hopens, valvesCloseAll_pp, hsg, hpier, dropSources_pp]

@[simp] theorem closeAllFrame_pp (s : State) : (closeAllFrame s).pp = s.pp := ite_pp rfl rfl

theorem unhalt_pp (s : State) (st : Nat) : (unhalt s st).pp = s.pp := by
  unfold unhalt
  split
  · split <;> rfl
  · rfl

@[simp] theorem pwmModeChange_pp (s : State) : (pwmModeChange s).pp = s.pp := by
  unfold pwmModeChange
  extract_lets stages auxs groups stagesOff
  have hstages : stages.pp = s.pp := foldl_pp (fun s st => by exact ite_pp (unhalt_pp s st) rfl) _ s
  have hauxs : auxs.pp = stages.pp := foldl_pp (fun _ _ => by rfl) _ _
  have hgroups : groups.pp = auxs.pp := foldl_pp (fun s g => by exact ite_pp (foldl_pp (fun _ _ => by rfl) _ _) rfl) _ _
  have hoff : stagesOff.pp = groups.pp := foldl_pp legsOff_pp _ _
  have hlevels := foldl_pp (f := fun s a => s.updPwm (160 + a) fun x => { x with hSw := (s.aux a).enabled && (s.aux a).pol })
    (fun _ _ => by rfl) (stagesOff.auxs.map (·.1)) stagesOff
  have hkept := hauxs.trans hstages
  exact ite_pp hkept (hlevels.trans (hoff.trans (hgroups.trans hkept)))

/-- Entering a mode sets the mode and ends the acknowledgement of R642, and changes nothing else of Parapet (R624). -/
theorem enterMode_pp (s : State) (m : Mode) : (enterMode s m).pp = { s.pp with mode := m, unsafeAck := false } := by
  unfold enterMode
  extract_lets entered counted safe closed pwm
  have hcounted : counted.pp = entered.pp := (flag_pp _ _ _).trans (count_pp _ _)
  have hsafe : safe.pp = counted.pp := ite_pp (outputsSafe_pp _) rfl
  have hclosed : closed.pp = safe.pp := ite_pp (closeAllFrame_pp _) rfl
  have hpwm : pwm.pp = closed.pp := pwmModeChange_pp _
  have hentered : pwm.pp = entered.pp := by rw [hpwm, hclosed, hsafe, hcounted]
  have hlast : (if m = .standby ∧ pwm.fw.actPending.isSome then { pwm with fw := { pwm.fw with actDue := true } } else pwm).pp = pwm.pp :=
    ite_pp (a := pwm) rfl rfl
  exact hlast.trans hentered

end Sys2Proof.Machine
end

section
/-!
SUPPORT. Causes of SAFE HOLD, mode requests and the scrubber (chapter 17).
-/
namespace Sys2Proof.Machine

/-! ## Causes (R632 to R638) -/

section
variable {s : State} {code : Nat}

theorem raiseCause_inSafeHold (h : s.mode = .safeHold) :
    raiseCause s code = { s with pp := { s.pp with causes := s.pp.causes ||| 2 ^ (code - 1) } } := if_pos h

theorem raiseCause_entersSafeHold (h : s.mode ≠ .safeHold) : raiseCause s code = enterMode (flag (count { s with pp := { s.pp with
    causes := s.pp.causes ||| 2 ^ (code - 1), firstCause := code, entryTime := s.now, reqStale := s.pp.req.isSome } } 0x48034) kPp 1)
      .safeHold := if_neg h

theorem clearCause_causes (s : State) (code : Nat) : (clearCause s code).pp.causes =
    if s.pp.causes / 2 ^ (code - 1) % 2 = 1 then s.pp.causes - 2 ^ (code - 1) else s.pp.causes := by
  simp only [clearCause, updPp, bit, causeBit, beq_iff_eq]

/-- The modes in which the outputs act: entering one is its count, its flag and what the PWM does (R624, R626). -/
theorem enterMode_acting {m : Mode} (h : m = .run ∨ m = .commission) : enterMode s m =
    pwmModeChange (flag (count { s with pp := { s.pp with mode := m, unsafeAck := false } } 0x48040) kPp 2) := by
  obtain rfl | rfl := h <;> rfl

end

section
variable {a : State}

/-! ## Requests (R621 to R625, R751) -/

theorem safeHoldRequest_waiting (h : a.pp.req ≠ none) : safeHoldRequest a = clearCause (raiseCause a 8) 8 :=
  if_pos (Option.isSome_iff_ne_none.mpr h)

theorem safeHoldRequest_none (h : a.pp.req = none) : safeHoldRequest a =
    modeResult (clearCause (raiseCause a 8) 8) (if a.mode = .safeHold then 1 else 0) 0 := if_neg (by simp [h])

/-- A mailbox write while the registers do not answer (R659). -/
theorem modeRequest_unanswered {w : Nat} (h : a.answers = false) : modeRequest a w = a := if_pos (by simp [h])

section
variable {w : Nat} (hans : a.answers = true)
include hans

theorem modeRequest_safeHold (hw : w % 4 = 3) : modeRequest a w = safeHoldRequest a := by
  unfold modeRequest
  rw [if_neg (by simp [hans]), if_pos (by rw [bits_zero_lo]; exact hw)]

theorem modeRequest_second (hw : w % 4 ≠ 3) (hreq : a.pp.req ≠ none) : modeRequest a w = flag a kPp 0x40 := by
  unfold modeRequest
  rw [if_neg (by simp [hans]), if_neg (by rw [bits_zero_lo]; exact hw), if_pos (Option.isSome_iff_ne_none.mpr hreq)]
  rfl

theorem modeRequest_waits (hw : w % 4 ≠ 3) (hreq : a.pp.req = none) : modeRequest a w =
    { a with pp := { a.pp with req := some (w % 4, a.now), reqStale := false, resDone := false } } := by
  unfold modeRequest
  rw [if_neg (by simp [hans]), if_neg (by rw [bits_zero_lo]; exact hw), if_neg (by simp [hreq]), bits_zero_lo]
  rfl

end

/-- R621, R624: the outcome of a request; one that is refused is counted and flagged. -/
theorem modeResult_accepted {s : State} {res checks : Nat} (h : res < 2) : modeResult s res checks = { s with pp := { s.pp with
    req := none, reqStale := false, resDone := true, result := res, checks := checks } } := if_neg (not_le.mpr h)

theorem modeResult_refused {s : State} {res checks : Nat} (h : 2 ≤ res) : modeResult s res checks = flag (count { s with pp := { s.pp with
    req := none, reqStale := false, resDone := true, result := res, checks := checks } } 0x48038) kPp 4 := if_pos h

/-! ## Judging a request at its boundary (Table 17-1) -/

section
variable {s : State} {w c : Nat} (hreq : s.pp.req = some (c, w))
include hreq

theorem modeEval_early (hw : s.tb.boundary < w + 64) : modeEval s = s := by
  unfold modeEval
  rw [hreq]
  exact if_pos hw

variable (hw : w + 64 ≤ s.tb.boundary)
include hw

theorem modeEval_stale (hstale : s.pp.reqStale = true) : modeEval s = modeResult s 3 0 := by
  unfold modeEval
  rw [hreq]
  dsimp only
  rw [if_neg (not_lt.mpr hw), if_pos hstale]

/-- A request in time is judged on its mode, the causes and the checks, in this order. -/
theorem modeEval_judged (hstale : s.pp.reqStale = false) : modeEval s =
    if modeOf c = s.mode then modeResult s 1 0
    else if s.mode = .safeHold ∧ modeOf c = .run then modeResult s 4 0
    else if s.pp.causes ≠ 0 ∧ (s.mode = .safeHold ∨ (modeOf c ≠ .standby ∧ s.mode ≠ .run)) then modeResult s 3 0
    else if modeOf c = .run ∧ s.runChecks ≠ 0 then modeResult (checkFlags s s.runChecks) 2 s.runChecks
    else modeResult (enterMode s (modeOf c)) 0 0 := by
  unfold modeEval
  rw [hreq]
  dsimp only
  rw [if_neg (not_lt.mpr hw), if_neg (by rw [hstale]; exact Bool.false_ne_true)]

variable (hstale : s.pp.reqStale = false)
include hstale

theorem modeEval_same (hm : modeOf c = s.mode) : modeEval s = modeResult s 1 0 := by
  rw [modeEval_judged hreq hw hstale, if_pos hm]

theorem modeEval_runOutOfSafeHold (hmode : s.mode = .safeHold) (hm : modeOf c = .run) : modeEval s = modeResult s 4 0 := by
  rw [modeEval_judged hreq hw hstale, if_neg (by rw [hm, hmode]; decide), if_pos ⟨hmode, hm⟩]

theorem modeEval_causePresent (hmode : s.mode = .safeHold) (hrun : modeOf c ≠ .run) (hsafe : modeOf c ≠ .safeHold)
    (hcauses : s.pp.causes ≠ 0) : modeEval s = modeResult s 3 0 := by
  rw [modeEval_judged hreq hw hstale, if_neg (by rw [hmode]; exact hsafe), if_neg (fun h => hrun h.2), if_pos ⟨hcauses, .inl hmode⟩]

/-- With no cause present a request of another mode turns on the RUN checks alone. -/
theorem modeEval_noCause (hm : s.mode ≠ modeOf c) (hsafe : s.mode = .safeHold → modeOf c ≠ .run) (hcauses : s.pp.causes = 0) :
    modeEval s = if modeOf c = .run ∧ s.runChecks ≠ 0 then modeResult (checkFlags s s.runChecks) 2 s.runChecks
      else modeResult (enterMode s (modeOf c)) 0 0 := by
  rw [modeEval_judged hreq hw hstale, if_neg (Ne.symm hm), if_neg (fun h => hsafe h.1 h.2), if_neg (fun h => h.1 hcauses)]

end

/-! ## The supplies and the sensors (Table 17-6, Table 17-7) -/

theorem advance_power (s : State) (t : Nat) : (advance s t).power = s.power := by
  unfold advance
  split <;> rfl

theorem heartbeatMiss_unarmed (h : a.pp.hbArmed = false) : heartbeatMiss a = a := if_neg (by simp [h])

theorem heartbeatMiss_late (h : a.pp.hbArmed = true)
    (hlate : 97 * 110 * (a.fld 0x48024 0 4 + 1) * a.tb.len ≤ 10000 * (a.now - a.tb.boundary)) :
    heartbeatMiss a = raiseCause { a with pp := { a.pp with hbRun := 0 } } 3 := if_pos (by rw [h, decide_eq_true hlate]; rfl)

/-- R568, R338: past 160 °C the groups of the footing trip and its valves fault. -/
theorem doFootOt_hot {f : Fin 2} {c : Int} (h : 160 ≤ c) : doFootOt a f.val c =
    (List.range 8).foldl (fun x i => trip x (8 * f.val + i) 5)
      (flag { a with pp := if f = 0 then { a.pp with tFootA := c } else { a.pp with tFootB := c } } (ftKey f 8) 4) := by
  simp only [doFootOt, Fin.val_eq_zero_iff, if_pos h, tripFooting_eq, ftFlag]

theorem doFootOt_cool {f : Fin 2} {c : Int} (h : c < 160) : doFootOt a f.val c =
    { a with pp := if f = 0 then { a.pp with tFootA := c } else { a.pp with tFootB := c } } := by
  simp only [doFootOt, Fin.val_eq_zero_iff, if_neg (not_le.mpr h)]

/-! ## The scrubber (R253 to R256) -/

/-- The word read leaves `u`, with nothing to tell Parapet (R254); then comes the next word, or the first one again. -/
theorem scrubRead_eq {u : State} {e : Ecc} (hu : deckEcc a true e (a.scrub / 8192) (a.scrub % 8192) = u)
    (hdev : ¬((e == .uncorrectable) = true ∧ a.scrub / 8192 < 128)) : scrubRead a e =
    if u.scrub + 1 < 8192 * 3072 then { u with scrub := u.scrub + 1 } else count { u with scrub := 0 } 0x4C018 := by
  unfold scrubRead deckDevice
  dsimp only
  rw [hu, if_neg hdev]

/-- A word short of the last one moves the scrubber on. -/
theorem scrubRead_moves {u : State} {e : Ecc} (hnext : a.scrub + 1 < 8192 * 3072)
    (hu : deckEcc a true e (a.scrub / 8192) (a.scrub % 8192) = u) (hscrub : u.scrub = a.scrub)
    (hdev : ¬((e == .uncorrectable) = true ∧ a.scrub / 8192 < 128)) : scrubRead a e = { u with scrub := a.scrub + 1 } := by
  rw [scrubRead_eq hu hdev, hscrub, if_pos hnext]

theorem deckEcc_clean {page word : Nat} : deckEcc a true .clean page word = a := rfl

theorem deckEcc_noted {page word : Nat} (h : a.setNow (deckWordKey page word) &&& 2 ≠ 0) : deckEcc a true .corrected page word = a := if_pos h

theorem deckEcc_corrected {page word : Nat} (h : a.setNow (deckWordKey page word) &&& 2 = 0) : deckEcc a true .corrected page word =
    flag (count (noteSet a (deckWordKey page word) 1) 0x4C00C) kDeck 1 := if_neg (not_not.mpr h)

theorem deckEcc_uncorrectable {page word : Nat} (hpage : page < 2 ^ 12) (hword : word < 2 ^ 13) : deckEcc a true .uncorrectable page word =
    flag ((count a 0x4C010).wr 0x4C014 (page + 2 ^ 12 * word)) kDeck 2 := by
  show flag ((count a 0x4C010).wr 0x4C014 (page % 2 ^ 12 + 2 ^ 12 * (word % 2 ^ 13))) kDeck 2 = _
  rw [Nat.mod_eq_of_lt hpage, Nat.mod_eq_of_lt hword]

end

end Sys2Proof.Machine

namespace Sys2Proof.Settled

open Machine

/-- Settles O57. That the heartbeat is late from 97 % of its time is log entry 113, what a software request of SAFE HOLD answers log
entry 114: the model's choices. -/
theorem causesAndModes : Obligations.CausesAndModes := by
  unfold Obligations.CausesAndModes
  refine ⟨⟨?_, clearCause_causes, fun s m => ⟨?_, (keeps_enterMode s m).grants⟩, fun s m => enterMode_acting⟩,
    ⟨?_, ?_, ?_, ?_⟩, ?_⟩
  · rintro s u code rfl
    exact ⟨raiseCause_inSafeHold, raiseCause_entersSafeHold⟩
  · rw [enterMode_pp]
  · intro s a t hporst ha
    subst ha
    have hlow : exec (.safeNLow t) s = _ := show execSafeNLow t s = _ from act_next hporst rfl
    have hgone : exec (.safeNGone t) s = _ := show execSafeNGone t s = _ from act_next hporst rfl
    have hclock (c : ClockCause) : exec (.clockFault t c) s = .next (raiseCause (advance s t) 4) :=
      show execClockFault t c s = _ from act_next hporst (by cases c <;> rfl)
    have hrestored : exec (.clockRestored t) s = _ := show execClockRestored t s = _ from act_next hporst rfl
    have hsupply (r : Rail) : exec (.supplyFault t r) s = _ := show execSupplyFault t r s = _ from act_next hporst rfl
    have hsupplied : exec (.supplyRestored t) s = _ := show execSupplyRestored t s = _ from act_next hporst rfl
    have hbeat : exec (.heartbeatMiss t) s = .next (heartbeatMiss (advance s t)) :=
      show execHeartbeatMiss t s = _ from act_next hporst rfl
    have hrequest : exec (.softwareSafeHold t) s = .next (modeRequest (advance s t) 3) :=
      show execSoftwareSafeHold t s = _ from act_next hporst rfl
    refine ⟨hlow, hgone, hclock, hrestored, hsupply, hsupplied, fun harmed => ?_, fun harmed hlate => ?_,
      fun hans => ⟨fun hreq => ?_, fun hreq => ?_⟩⟩
    · rw [hbeat, heartbeatMiss_unarmed harmed]
    · rw [hbeat, heartbeatMiss_late harmed hlate]
    · rw [hrequest, modeRequest_safeHold hans rfl, safeHoldRequest_waiting hreq]
    · rw [hrequest, modeRequest_safeHold hans rfl, safeHoldRequest_none hreq]
  · intro s a u t sp dk fa fb x hporst ha hmax hu
    subst ha
    have hexec : exec (.parapetSensorRead t sp dk fa fb) s =
        .next (if 152 ≤ sp then raiseCause u 2 else if sp < 142 then clearCause u 2 else u) := by
      refine show execParapetSensorRead t sp dk fa fb s = _ from act_next hporst ?_
      subst hu
      unfold sensorRead updPp
      dsimp only
      rw [hmax]
    exact ⟨fun h => by rw [hexec, if_pos h], fun h h' => by rw [hexec, if_neg (not_le.mpr h'), if_neg (not_lt.mpr h)],
      fun h => by rw [hexec, if_neg (by omega), if_pos h]⟩
  · intro s a t f c hporst ha
    subst ha
    have hexec : exec (.footingOvertemp t f c) s = _ := show execFootingOvertemp t f c s = _ from act_next hporst rfl
    refine ⟨fun h => hexec.trans ?_, fun h => hexec.trans ?_⟩
    · dsimp only
      rw [doFootOt_cool h, if_neg (not_le.mpr h)]
    · dsimp only
      rw [doFootOt_hot h, if_pos h]
  · intro s t mv ok
    refine ⟨fun r h => ?_, fun h => ?_, fun h => ?_⟩
    · exact congrArg (fun u => Host.Outcome.next (setRail u r ok)) (if_neg (by simp [h]))
    · exact congrArg (fun u => Host.Outcome.next (setField u .vgdA mv)) (if_neg (by simp [h]))
    · rw [← advance_power s t]
      exact congrArg (fun u => Host.Outcome.next (setField u .vvB mv)) (if_pos h)
  · intro s a t hporst ha
    subst ha
    have hexec (e : Ecc) : exec (.deckScrubRead t e) s = .next (scrubRead (advance s t) e) :=
      show execDeckScrubRead t e s = _ from act_next hporst rfl
    have hfound (e : Ecc) (he : (e == .uncorrectable) = false) : ¬((e == .uncorrectable) = true ∧ (advance s t).scrub / 8192 < 128) :=
      fun h => Bool.eq_false_iff.mp he h.1
    refine ⟨fun h => ?_, fun h => ?_, fun h u k hk => ⟨fun hnew hu => ?_, fun hnoted => ?_⟩, fun h hpage u hu => ?_⟩
    · rw [hexec, scrubRead_moves h deckEcc_clean rfl (hfound _ (by decide))]
    · rw [hexec, scrubRead_eq deckEcc_clean (hfound _ (by decide))]
      exact congrArg Host.Outcome.next (if_neg (not_lt.mpr h.ge))
    · subst hk
      have hbooks : Books (advance s t) u := hu ▸ books_flag (books_count (books_noteSet (Books.refl _) _ _) _) _ _
      rw [hexec, scrubRead_moves h ((deckEcc_corrected hnew).trans hu.symm) hbooks.units.device.2.2.2 (hfound _ (by decide))]
    · subst hk
      rw [hexec, scrubRead_moves h (deckEcc_noted hnoted) rfl (hfound _ (by decide))]
    · have hbooks : Books (advance s t) u := hu ▸ books_flag (books_wr (books_count (Books.refl _) _) _ _) _ _
      have hecc := deckEcc_uncorrectable (a := advance s t) (page := (advance s t).scrub / 8192) (word := (advance s t).scrub % 8192)
        (by omega) (Nat.mod_lt _ (by decide))
      rw [hexec, scrubRead_moves h (hecc.trans hu.symm) hbooks.units.device.2.2.2 fun hdev => absurd hdev.2 (not_lt.mpr hpage)]

/-- Settles O58. What a request of SAFE HOLD answers is log entry 114: the model's choice. -/
theorem modeRequests : Obligations.ModeRequests := by
  unfold Obligations.ModeRequests
  refine ⟨?_, ?_, ?_, ?_⟩
  · intro s a t v hporst ha
    subst ha
    have hexec : exec (.modeRequest t v) s = .next (modeRequest (advance s t) v.toNat) :=
      show execModeRequest t v s = _ from act_next hporst rfl
    rw [hexec]
    exact ⟨fun hans hw hreq => by rw [modeRequest_safeHold hans hw, safeHoldRequest_waiting hreq],
      fun hans hw hreq => by rw [modeRequest_safeHold hans hw, safeHoldRequest_none hreq],
      fun hans hw hreq => by rw [modeRequest_second hans hw hreq],
      fun hans hw hreq => by rw [modeRequest_waits hans hw hreq],
      fun hans => by rw [modeRequest_unanswered hans]⟩
  · intro s w c m hporst hreq hm
    subst hm
    have hexec : exec .modeRequestEval s = .next (modeEval s) := show execModeRequestEval s = _ from act_next hporst rfl
    rw [hexec]
    refine ⟨fun hw => ?_, fun hw hstale => ?_, fun hw hstale hm => ?_, fun hw hstale hmode hm => ?_,
      fun hw hstale hmode hrun hsafe hcauses => ?_, fun hw hstale hmode hm hcauses hchecks => ?_,
      fun hw hstale hne hcauses hrun => ?_, fun hw hstale hmode hcauses hm hchecks => ?_⟩
    · rw [modeEval_early hreq hw]
    · rw [modeEval_stale hreq hw hstale]
    · rw [modeEval_same hreq hw hstale hm]
    · rw [modeEval_runOutOfSafeHold hreq hw hstale hmode hm]
    · rw [modeEval_causePresent hreq hw hstale hmode hrun hsafe hcauses]
    · rw [modeEval_noCause hreq hw hstale (by rw [hmode, hm]; decide) (by rw [hmode]; exact nofun) hcauses, if_pos ⟨hm, hchecks⟩]
    · rw [modeEval_noCause hreq hw hstale hne (fun _ => hrun) hcauses, if_neg fun h => hrun h.1]
    · rw [modeEval_noCause hreq hw hstale (by rw [hmode, hm]; decide) (by rw [hmode]; exact nofun) hcauses, if_neg fun h => h.2 hchecks]
  · rintro s res checks u rfl
    exact ⟨modeResult_accepted, modeResult_refused⟩
  · intro s a t v hporst ha hans
    subst ha
    have hexec : exec (.ppUnsafeAck t v) s = _ := show execPpUnsafeAck t v s = _ from act_next hporst rfl
    refine ⟨fun hv hmode => hexec.trans ?_, fun h => hexec.trans ?_⟩
    · dsimp only
      rw [if_neg (by simp [hans]), if_pos ⟨hv, hmode⟩]
      rfl
    · dsimp only
      rw [if_neg (by simp [hans]), if_neg (not_and_or.mpr h)]
      rfl

end Sys2Proof.Settled
end

section
/-!
SUPPORT. The boot ROM, the mailbox of the firmware update and restarts (chapter 18).
-/
namespace Sys2Proof.Machine

section
variable {a : State} {slot : Nat}

/-! ## The boot ROM (R656 to R659) -/

theorem bootSelect_good (hphase : a.fw.phase = .reading) (hgood : a.fw.ctl.st a.fw.ctl.active = .good) :
    bootSelect a = { a with fw := { a.fw with phase := .verifying a.fw.ctl.active 0 } } := by
  unfold bootSelect Firmware.trySlot
  rw [if_pos hphase]
  dsimp only
  rw [hgood]
  rfl

theorem bootSelect_notReading (hphase : a.fw.phase ≠ .reading) : bootSelect a = a := if_neg hphase

theorem imageVerified_valid {tried : Nat} (hphase : a.fw.phase = .verifying slot tried) (hvalid : a.fw.valid slot = true)
    (hactive : a.fw.ctl.active = slot) : imageVerified a = { a with fw := { a.fw with phase := .starting slot } } := by
  unfold imageVerified
  rw [hphase]
  dsimp only
  rw [if_pos hvalid, if_pos hactive]
  rfl

/-- An image that fails its checks, the second slot tried: no slot boots. -/
theorem imageVerified_lastInvalid (hphase : a.fw.phase = .verifying slot 1) (hvalid : a.fw.valid slot = false) :
    imageVerified a = { a with fw := { a.fw.setSt slot .bad with phase := .noSlot } } := by
  unfold imageVerified
  rw [hphase]
  dsimp only
  rw [if_neg (by rw [hvalid]; exact Bool.false_ne_true), if_neg Nat.one_ne_zero]
  rfl

theorem firmwareReady_starts {i : Image} (hphase : a.fw.phase = .starting slot) (himg : a.fw.img slot = some i) : firmwareReady a =
    clearCause { a with fw := { a.fw with
      phase := .running, slot := slot, ready := true, everReady := true, inRecovery := false,
      trial := a.fw.ctl.st slot == .trial, version := i.version, svn := i.svn, restartAt := none } } 7 := by
  unfold firmwareReady
  rw [hphase]
  dsimp only
  rw [himg]
  rfl

theorem enterRecovery_noSlot (hphase : a.fw.phase = .noSlot) : enterRecovery a = { a with fw := { a.fw with
    phase := .recovery, inRecovery := true, ready := false, trial := false, restartAt := none } } := if_pos hphase

theorem enterRecovery_slot (hphase : a.fw.phase ≠ .noSlot) : enterRecovery a = a := if_neg hphase

/-! ## Restarts (R679, R681, R684) -/

theorem lockstep_restarts {u : State} (hu : u = raiseCause a 7) (hphase : u.fw.phase = .running) (hslot : u.fw.slot = slot)
    (htrial : u.fw.ctl.st slot ≠ .trial) : lockstep a =
    flag (count { u with fw := { u.fw with phase := .starting slot, ready := false, restartAt := none } } 0x80028) kFwu 4 := by
  subst hslot hu
  unfold lockstep
  dsimp only
  rw [hphase]
  dsimp only
  rw [if_neg htrial]
  rfl

section
variable {r : Nat} (hrestart : a.fw.restartAt = some r)
include hrestart

theorem trialTimeout_early (h : a.now < r + 40000000) : trialTimeout a = a := by
  unfold trialTimeout
  rw [hrestart]
  exact if_pos (by simp [h])

theorem trialTimeout_expires (h : r + 40000000 ≤ a.now) (hready : a.fw.ready = false)
    (htrial : a.fw.ctl.st a.fw.ctl.active = .trial) :
    trialTimeout a = flag (count (fallBack a a.fw.ctl.active) 0x80028) kFwu 2 := by
  unfold trialTimeout
  rw [hrestart]
  exact if_neg (by simp [h, hready, htrial])

end

section
variable {w : Nat} (hpend : a.fw.actPending = some w) (hnew : a.fw.newSlot = some slot)
include hpend hnew

theorem firmwareActivation_eq : firmwareActivation a =
    if a.fw.actDue || (a.mode == .standby && decide (w + 64 ≤ a.tb.boundary)) then activateSlot a slot else a := by
  unfold firmwareActivation
  rw [hpend, hnew]

theorem firmwareActivation_due (h : a.fw.actDue = true) : firmwareActivation a = activateSlot a slot := by
  rw [firmwareActivation_eq hpend hnew, if_pos (by simp [h])]

theorem firmwareActivation_otherMode (h : a.fw.actDue = false) (hmode : a.mode ≠ .standby) : firmwareActivation a = a := by
  rw [firmwareActivation_eq hpend hnew, if_neg (by simp [h, hmode])]

theorem firmwareActivation_standby (hmode : a.mode = .standby) (hw : w + 64 ≤ a.tb.boundary) :
    firmwareActivation a = activateSlot a slot := by
  rw [firmwareActivation_eq hpend hnew, if_pos (by simp [hmode, hw])]

end

/-! ## The mailbox (R660, R680, R685) -/

theorem fwuCmd_busy {cmd : Nat} (h : a.fw.busy ≠ none) : fwuCmd a cmd = flag a kFwu 8 := if_pos (Option.isSome_iff_ne_none.mpr h)

/-- A command that finds the mailbox free and the firmware running starts. -/
theorem fwuCmd_starts (hbusy : a.fw.busy = none) (hphase : a.fw.phase = .running) (hserves : a.fw.inRecovery = false) :
    fwuCmd a 1 = stage a ∧ fwuCmd a 2 = activate a ∧
      fwuCmd a 3 = fwuEnd { a with fw := { a.fw with actPending := none, actDue := false } } 3 0 0 ∧
      fwuCmd a 4 = confirm a ∧ fwuCmd a 5 = svnCommit a := by
  have hfree : ¬a.fw.busy.isSome = true := by simp [hbusy]
  have hup : ¬a.coresRestart = true := by simp [State.coresRestart, hphase]
  have hcmd {cmd : Nat} (h : ¬(cmd = 0 ∨ 5 < cmd)) {u v : State} :
      (if a.fw.busy.isSome then v else if cmd = 0 ∨ 5 < cmd then a else if a.coresRestart then fwuEnd a cmd 1 0 else u) = u :=
    (if_neg hfree).trans ((if_neg h).trans (if_neg hup))
  have hcancel : (if a.fw.inRecovery then a else { a with fw := { a.fw with actPending := none, actDue := false } }) =
    { a with fw := { a.fw with actPending := none, actDue := false } } := if_neg (by simp [hserves])
  exact ⟨hcmd (by decide), hcmd (by decide), (hcmd (by decide)).trans (congrArg (fwuEnd · 3 0 0) hcancel), hcmd (by decide), hcmd (by decide)⟩

/-! ## STAGE (R675 to R677) -/

theorem stage_onTrial (h : a.fw.trial = true) : stage a = fwuEnd a 1 9 0 := if_pos h

section
variable (htrial : a.fw.trial = false)
include htrial

theorem stage_tooShort (h : a.fld 0x80014 0 22 < 516) : stage a = fwuEnd a 1 2 0 := by
  unfold stage
  extract_lets len f
  rw [if_neg (by rw [show f.trial = false from htrial]; exact Bool.false_ne_true), if_pos (Or.inl h)]

variable (hmin : 516 ≤ a.fld 0x80014 0 22) (hmax : a.fld 0x80014 0 22 ≤ 2097152) (hserves : a.fw.inRecovery = false)
include hmin hmax hserves

theorem stage_noDma (h : a.bEn 0 0 = false) : stage a = fwuEnd a 1 6 0 := by
  unfold stage
  extract_lets len f
  rw [if_neg (by rw [show f.trial = false from htrial]; exact Bool.false_ne_true),
    if_neg (not_or.mpr ⟨not_lt.mpr hmin, not_lt.mpr hmax⟩), if_pos (by rw [show f.inRecovery = false from hserves, h]; rfl)]

/-- STAGE that starts empties the slot that does not run, and its work is the job that reads the image. -/
theorem stage_starts (h : a.bEn 0 0 = true) : ∃ (b : State) (j : Job), stage a = keep b j ∧
    b.fw.busy = some 1 ∧ b.fw.resDone = false ∧ b.fw.stageTarget = 1 - a.fw.slot ∧ b.grants = a.grants ∧
    j.kind = .stage ∧ j.slices = List.replicate (ceilDiv (a.fld 0x80014 0 22) 1024) [1, 0, 0, 0, 0, 0, 0] := by
  have htarget : a.fw.target = 1 - a.fw.slot := congrArg (1 - ·) (if_neg (by simp [hserves]))
  unfold stage
  extract_lets len f tgt emptiedFw emptied work reads
  refine ⟨{ emptied with nextId := emptied.nextId + 1 }, reads, ?_, rfl, rfl, htarget, rfl, rfl, rfl⟩
  rw [if_neg (by rw [show f.trial = false from htrial]; exact Bool.false_ne_true),
    if_neg (not_or.mpr ⟨not_lt.mpr hmin, not_lt.mpr hmax⟩), if_neg (by rw [h]; simp),
    if_neg (by rw [show f.inRecovery = false from hserves]; exact Bool.false_ne_true)]

end

theorem stageReads_keep {b : State} {j : Job} (hkind : j.kind = .stage) (hslices : j.slices ≠ []) : (keep b j).stageReads = true := by
  refine List.any_eq_true.mpr ⟨j, List.mem_of_find?_eq_some (job?_keep_self b j), ?_⟩
  simp [hkind, hslices]

theorem stageDone_idle {r : StageOutcome} (h : a.fw.busy ≠ some 1) : stageDone a r = a := if_pos h

theorem setImg_svnMin (f : Firmware) (i : Option Image) : (f.setImg slot i).svnMin = f.svnMin := by
  unfold Firmware.setImg
  split <;> rfl

section
variable (hbusy : a.fw.busy = some 1)
include hbusy

theorem stageDone_readFailed : stageDone a .readFailed = stageEnd a 3 0 := if_neg (not_not.mpr hbusy)
theorem stageDone_flashFailed : stageDone a .flashFailed = stageEnd a 5 0 := if_neg (not_not.mpr hbusy)

/-- The whole image is in the flash: it is judged by the conditions of R655. -/
theorem stageDone_copied {img : Image} (hreads : a.stageReads = false) : stageDone a (.copied img) =
    if imageFailures img a.fw.svnMin = 0 then
      stageEnd { a with fw := (a.fw.setImg a.fw.stageTarget (some img)).setSt a.fw.stageTarget .new } 0 0
    else stageEnd { a with fw := a.fw.setImg a.fw.stageTarget (some img) } 4 (imageFailures img a.fw.svnMin) := by
  unfold stageDone
  rw [if_neg (not_not.mpr hbusy)]
  dsimp only
  rw [if_neg (by rw [hreads]; exact Bool.false_ne_true), setImg_svnMin]
  rfl

end

/-! ## ACTIVATE, CONFIRM, SVN_COMMIT (R678, R682, R683) -/

theorem activate_none (h : a.fw.newSlot = none) : activate a = fwuEnd a 2 7 0 := by
  unfold activate
  rw [h]

theorem activate_waits {x : Nat} (hserves : a.fw.inRecovery = false) (h : a.fw.newSlot = some x) : activate a =
    fwuEnd { a with fw := { a.fw with actPending := some a.now, actDue := false } } 2 0 0 := by
  unfold activate
  rw [h]
  exact if_neg (by simp [hserves])

theorem confirm_trial (hserves : a.fw.inRecovery = false) (h : a.fw.trial = true) : confirm a =
    fwuEnd { a with fw := { a.fw.setSt a.fw.slot .good with trial := false } } 4 0 0 := if_pos (by simp [h, hserves])

theorem confirm_noTrial (h : a.fw.trial = false) : confirm a = fwuEnd a 4 8 0 := if_neg (by simp [h])

theorem svnCommit_good (hserves : a.fw.inRecovery = false) (h : a.fw.ctl.st a.fw.slot = .good) : svnCommit a =
    fwuEnd { a with fw := { a.fw with svnMin := max a.fw.svnMin a.fw.svn } } 5 0 0 := if_pos (by simp [h, hserves])

theorem svnCommit_notGood (h : a.fw.ctl.st a.fw.slot ≠ .good) : svnCommit a = fwuEnd a 5 8 0 := if_neg (by simp [h])

end

end Sys2Proof.Machine

namespace Sys2Proof.Settled

open Machine

/-- Settles O59. What a lockstep fault restarts and which slot an activation takes are log entry 115, what the ROM and the
firmware do beyond chapter 18 log entry 121: the model's choices. -/
theorem bootAndUpdate : Obligations.BootAndUpdate := by
  unfold Obligations.BootAndUpdate
  refine ⟨⟨?_, ?_, ?_⟩, ?_, ?_, ?_, fun s cmd res check => rfl, ?_⟩
  · intro s a t hporst ha
    subst ha
    have hselect : exec (.bootImageSelect t) s = .next (bootSelect (advance s t)) :=
      show execBootImageSelect t s = _ from act_next hporst rfl
    have hverified : exec (.imageVerified t) s = .next (imageVerified (advance s t)) :=
      show execImageVerified t s = _ from act_next hporst rfl
    have hready : exec (.firmwareReady t) s = .next (firmwareReady (advance s t)) :=
      show execFirmwareReady t s = _ from act_next hporst rfl
    have hrecovery : exec (.recovery t) s = .next (enterRecovery (advance s t)) := show execRecovery t s = _ from act_next hporst rfl
    exact ⟨fun hphase hgood => by rw [hselect, bootSelect_good hphase hgood],
      fun hphase => by rw [hselect, bootSelect_notReading hphase],
      fun slot tried hphase hvalid hactive => by rw [hverified, imageVerified_valid hphase hvalid hactive],
      fun slot hphase hvalid => by rw [hverified, imageVerified_lastInvalid hphase hvalid],
      fun slot i hphase himg => by rw [hready, firmwareReady_starts hphase himg],
      fun hphase => by rw [hrecovery, enterRecovery_noSlot hphase], fun hphase => by rw [hrecovery, enterRecovery_slot hphase]⟩
  · intro s a u t slot hporst ha _ _ hu hphase hslot htrial
    subst ha
    exact show execLockstep t s = _ from act_next hporst (lockstep_restarts hu hphase hslot htrial)
  · intro s a t r hporst ha hrestart
    subst ha
    have hexec : exec (.trialReadyTimeout t) s = .next (trialTimeout (advance s t)) :=
      show execTrialReadyTimeout t s = _ from act_next hporst rfl
    exact ⟨fun h => by rw [hexec, trialTimeout_early hrestart h],
      fun h hready htrial => by rw [hexec, trialTimeout_expires hrestart h hready htrial]⟩
  · intro s a t hporst ha hbusy
    subst ha
    exact ⟨show execStage t s = _ from act_next hporst (fwuCmd_busy hbusy), show execActivate t s = _ from act_next hporst (fwuCmd_busy hbusy),
      show execCancel t s = _ from act_next hporst (fwuCmd_busy hbusy), show execConfirm t s = _ from act_next hporst (fwuCmd_busy hbusy),
      show execSvnCommit t s = _ from act_next hporst (fwuCmd_busy hbusy)⟩
  · intro s a t hporst ha hbusy hphase hserves
    subst ha
    obtain ⟨hcmdStage, hcmdActivate, hcmdCancel, hcmdConfirm, hcmdSvn⟩ := fwuCmd_starts hbusy hphase hserves
    have hstage : exec (.stage t) s = .next (stage (advance s t)) := show execStage t s = _ from act_next hporst hcmdStage
    have hactivate : exec (.activate t) s = .next (activate (advance s t)) := show execActivate t s = _ from act_next hporst hcmdActivate
    have hconfirm : exec (.confirm t) s = .next (confirm (advance s t)) := show execConfirm t s = _ from act_next hporst hcmdConfirm
    have hsvn : exec (.svnCommit t) s = .next (svnCommit (advance s t)) := show execSvnCommit t s = _ from act_next hporst hcmdSvn
    refine ⟨fun h => ?_, fun h hlen => ?_, fun h hmin hmax hen => ?_, fun h hmin hmax hen => ?_, fun h => ?_, fun x h => ?_,
      show execCancel t s = _ from act_next hporst hcmdCancel, fun h => ?_, fun h => ?_, fun h => ?_, fun h => ?_⟩
    · rw [hstage, stage_onTrial h]
    · rw [hstage, stage_tooShort h hlen]
    · rw [hstage, stage_noDma h hmin hmax hserves hen]
    · obtain ⟨b, j, hkeep, hbusy, hres, htarget, hgrants, hkind, hslices⟩ := stage_starts h hmin hmax hserves hen
      have hsome : 0 < ceilDiv ((advance s t).fld 0x80014 0 22) 1024 := Nat.div_pos (by omega) (by decide)
      have hne : j.slices ≠ [] := by rw [hslices]; exact List.ne_nil_of_length_pos (by rwa [List.length_replicate])
      have hunits := sameUnits_keep b j
      refine ⟨keep b j, by rw [hstage, hkeep], ?_, ?_, ?_, stageReads_keep hkind hne, hunits.grants.trans hgrants⟩
      · rw [hunits.device.2.1, hbusy]
      · rw [hunits.device.2.1, hres]
      · rw [hunits.device.2.1, htarget]
    · rw [hactivate, activate_none h]
    · rw [hactivate, activate_waits hserves h]
    · rw [hconfirm, confirm_trial hserves h]
    · rw [hconfirm, confirm_noTrial h]
    · rw [hsvn, svnCommit_good hserves h]
    · rw [hsvn, svnCommit_notGood h]
  · intro s a t hporst ha
    subst ha
    have hexec (r : StageOutcome) : exec (.stageDone t r) s = .next (stageDone (advance s t) r) :=
      show execStageDone t r s = _ from act_next hporst rfl
    refine ⟨fun hbusy r => by rw [hexec, stageDone_idle hbusy], fun hbusy => ⟨?_, ?_⟩, fun img hbusy hreads hok => ?_,
      fun img hbusy hreads hbad => ?_⟩
    · rw [hexec, stageDone_readFailed hbusy]
    · rw [hexec, stageDone_flashFailed hbusy]
    · rw [hexec, stageDone_copied hbusy hreads, if_pos hok]
    · rw [hexec, stageDone_copied hbusy hreads, if_neg hbad]
  · intro s a t w slot hporst ha hpend hnew
    subst ha
    have hexec : exec (.firmwareActivation t) s = .next (firmwareActivation (advance s t)) :=
      show execFirmwareActivation t s = _ from act_next hporst rfl
    exact ⟨fun h => by rw [hexec, firmwareActivation_due hpend hnew h],
      fun h hmode => by rw [hexec, firmwareActivation_otherMode hpend hnew h hmode],
      fun _ hmode hw => by rw [hexec, firmwareActivation_standby hpend hnew hmode hw]⟩

end Sys2Proof.Settled
end

section
/-!
SUPPORT. The core voltage and the aging monitor (chapter 20).
-/
namespace Sys2Proof.Machine

section
variable {a : State} {m : AvsIn}

/-! ## The core voltage (R730 to R733) -/

theorem avsEvaluate_off (h : a.bitAt 0x100 0 = false) : avsEvaluate a m = a := if_pos (by simp [h])

theorem avsEvaluate_linkDown (h : 3 ≤ a.life.nackRun) : avsEvaluate a m = a := if_pos (by simp [h])

/-- What an acknowledged evaluation records before it asks for another voltage. -/
def avsMeasured (a : State) (m : AvsIn) : Life :=
  { a.life with
    slack := m.slack
    senseMv := m.senseMv
    okRun := if a.fld 0x100 8 8 + 4 ≤ m.slack then a.life.okRun + 1 else 0
    lowRun := if decide (m.slack < a.fld 0x100 8 8) && a.life.targetMv == 820 then a.life.lowRun + 1 else 0
    marginLow := a.life.marginLow && decide (m.slack < a.fld 0x100 8 8)
    avsLink := true
    nackRun := 0 }

/-- R730: short of slack, below 820 mV, the target goes up by 5 mV. -/
theorem avsEvaluate_raises (hon : a.bitAt 0x100 0 = true) (hlink : a.life.nackRun < 3) (hack : m.ack = true)
    (hshort : m.slack < a.fld 0x100 8 8) (hmv : a.life.targetMv < 820) :
    avsEvaluate a m = avsCommand { a with life := avsMeasured a m } (min 820 (a.life.targetMv + 5)) true := by
  unfold avsEvaluate
  rw [if_neg (by simp [hon, hlink]), hack]
  extract_lets want short mv measured
  rw [if_pos (decide_eq_true hshort), if_pos hmv]
  rfl

theorem avsRetry_linkUp (h : a.life.nackRun < 3) : avsRetry a m = a := if_pos h

theorem avsRetry_acknowledged (h : 3 ≤ a.life.nackRun) (hack : m.ack = true) :
    avsRetry a m = { a with life := { a.life with avsLink := true, nackRun := 0, senseMv := m.senseMv } } :=
  (if_neg (not_lt.mpr h)).trans (if_pos hack)

theorem avsRetry_refused (h : 3 ≤ a.life.nackRun) (hack : m.ack = false) : avsRetry a m = a :=
  (if_neg (not_lt.mpr h)).trans (if_neg (by simp [hack]))

/-- R628: `AVS_CFG` is locked in RUN. -/
theorem writeAvsCfg_run {w : Nat} (h : a.mode = .run) : writeAvsCfg a w = a := if_pos h

/-- R731: a write that clears EN, with a slack `f` in range, commands 750 mV. -/
theorem writeAvsCfg_off {f : Nat} (hmode : a.mode ≠ .run) (hon : a.bitAt 0x100 0 = true) (hmin : 4 ≤ f) (hmax : f ≤ 20) :
    writeAvsCfg a (256 * f) =
      avsCommand { a.wr 0x100 (256 * f) with life := { a.life with okRun := 0, lowRun := 0 } } 750 true := by
  have hslack : bits (256 * f) 8 8 = f := by rw [bits]; omega
  have hen : bits (256 * f) 0 1 = 0 := by rw [bits]; omega
  have hoff : (a.bitAt 0x100 0 && !bit (256 * f) 0) = true := by
    rw [hon, bit, show 256 * f / 2 ^ 0 % 2 = 0 by omega]
    rfl
  unfold writeAvsCfg
  rw [if_neg hmode, hslack, if_neg (by omega), hen, Nat.zero_add, hoff]
  exact if_pos rfl

/-! ## Aging (R747) -/

theorem ageMeasure_endOfLife {l : List Nat} (h : a.fld 0x10C 0 16 ≤ l.foldl max 0) : ageMeasure a l =
    flag { a with life := { a.life with degr := l.foldl max 0, eol := true } } kAge 1 := if_pos h

theorem ageMeasure_young {l : List Nat} (h : l.foldl max 0 < a.fld 0x10C 0 16) : ageMeasure a l =
    { a with life := { a.life with degr := l.foldl max 0 } } := if_neg (not_le.mpr h)

end

end Sys2Proof.Machine

namespace Sys2Proof.Settled

open Machine

/-- Settles O60. The three refusals that make the link down, the target in force once acknowledged and a disable that acts only on an
enabled AVS are log entry 116, DEGR log entry 117: the model's choices. -/
theorem coreVoltageAndAging : Obligations.CoreVoltageAndAging := by
  unfold Obligations.CoreVoltageAndAging
  refine ⟨?_, ?_, ?_⟩
  · intro s a t m hporst ha
    subst ha
    have heval : exec (.avsEvaluation t m) s = .next (avsEvaluate (advance s t) m) :=
      show execAvsEvaluation t m s = _ from act_next hporst rfl
    have hretry : exec (.avsRetryRead t m) s = .next (avsRetry (advance s t) m) :=
      show execAvsRetryRead t m s = _ from act_next hporst rfl
    refine ⟨fun h => ?_, fun h => ?_, fun hon hlink hack hshort hmv => ?_, fun h => ?_, fun h hack => ?_, fun h hack => ?_⟩
    · rw [heval, avsEvaluate_off h]
    · rw [heval, avsEvaluate_linkDown h]
    · rw [heval, avsEvaluate_raises hon hlink hack hshort hmv]
      exact ⟨_, rfl, rfl, rfl, rfl, rfl, rfl, rfl⟩
    · rw [hretry, avsRetry_linkUp h]
    · rw [hretry, avsRetry_acknowledged h hack]
    · rw [hretry, avsRetry_refused h hack]
  · intro s a t hporst ha
    subst ha
    have hexec : exec (.avsDisable t) s = .next (writeAvsCfg (advance s t) ((advance s t).rd 0x100 / 2 * 2)) :=
      show execAvsDisable t s = _ from act_next hporst rfl
    refine ⟨fun hrun => ?_, fun hmode hrd hmin hmax => ?_⟩
    · rw [hexec, writeAvsCfg_run hrun]
    · have hon : (advance s t).bitAt 0x100 0 = true := by
        rw [State.bitAt, bit, hrd, beq_iff_eq]
        omega
      rw [hexec, show (advance s t).rd 0x100 / 2 * 2 = 256 * (advance s t).fld 0x100 8 8 by omega,
        writeAvsCfg_off hmode hon hmin hmax]
  · intro s a t l hporst ha
    subst ha
    have hexec : exec (.ageMeasurement t l) s = .next (ageMeasure (advance s t) l) :=
      show execAgeMeasurement t l s = _ from act_next hporst rfl
    exact ⟨fun h => by rw [hexec, ageMeasure_endOfLife h], fun h => by rw [hexec, ageMeasure_young h]⟩

end Sys2Proof.Settled
end
